-- ==== Sys2Proof/Word.lean ====
section
/-! DEFINITION. The word types of the Glaldaka and their plainest arithmetic (spec/00_scope.md R9–R14). -/

namespace Sys2Proof

/-- A byte. -/
abbrev Byte := BitVec 8

/-- A 16-bit Deck register or halfword. -/
abbrev Half := BitVec 16

/-- A 32-bit word: a CSR, a Bosun register, a descriptor word. -/
abbrev Word := BitVec 32

/-- A number as a 32-bit word. -/
def Word.nat (n : Nat) : Word := BitVec.ofNat 32 n

end Sys2Proof
end

