-- ==== Sys2Proof/Syntax.lean ====
section
/-! DEFINITION. The commands of the block, one constructor per row of spec/opcode_table.json, with their
operands. Operands that stand for the outside world (board levels, flash contents, pixels, packets, samples)
are named in log 4. -/

namespace Sys2Proof

/-- How the board ties the part: the straps BUSW, BOOT1:0 and SWE_ROLE1:0, and whether it gives VDD_PHY (02 R62, R107). -/
structure Straps where
  busw : Bool := false
  boot : BitVec 2 := 0
  role : BitVec 2 := 0
  phy : Bool := false
deriving DecidableEq, Repr

/-- What the QSPI flash answers during the boot flow (03 R127–R131). -/
structure Flash where
  /-- The four words of the boot blocks at 0x0000_0000 and 0x0001_0000. -/
  blockA : List Word := []
  blockB : List Word := []
  /-- The SFDP signature is present: density in bytes, and 1-1-4 and 1-4-4 read support. -/
  sfdp : Option (Nat × Bool × Bool) := none
  /-- The bytes of the flash from each block's IMG_OFF. -/
  imageA : List Byte := []
  imageB : List Byte := []
deriving DecidableEq, Repr

/-- The register a REGISTER_WRITE names: a Deck slot offset or a CSR address. -/
inductive RegTarget where
  | deck (offset : Nat)
  | csr (addr : Nat)
deriving DecidableEq, Repr

/-- A flit received with a good CRC (20 Table 20.2): words 2 to 5 (CONFIG: 2 to 7), and the LEN data bytes. -/
structure Flit where
  seq : Nat := 0
  ack : Nat := 0
  crq : Nat := 0
  crs : Nat := 0
  cms : Nat := 0
  nak : Bool := false
  hdr : List Word := []
  data : List Byte := []
deriving DecidableEq, Repr

/-- The commands: one constructor for each row of spec/opcode_table.json, in its order. -/
inductive Instr where
  /-- POR_ASSERT (R112). -/
  | porAssert
  /-- RESET_RELEASE (R118). -/
  | resetRelease (straps : Straps) (vhsel vinOk grOk testen : Bool)
  /-- PIN_RESET (R70). -/
  | pinReset
  /-- CMD_RESET_SOFT (R117). -/
  | cmdResetSoft
  /-- SOFT_RESET_EFFECT (R117). -/
  | softResetEffect
  /-- SOFT_RESET_RELEASE (R118). -/
  | softResetRelease
  /-- TAP_RESET (R117). -/
  | tapReset
  /-- MUSTER_STAGE_END (R121). -/
  | musterStageEnd (pass : Bool) (unit detail : Nat)
  /-- REG_CHK_SUPPLY_TIMEOUT (R123). -/
  | regChkSupplyTimeout (gr : Bool)
  /-- MUSTER_TIME (R124). -/
  | musterTime
  /-- BOOT_FLOW_END (R130). -/
  | bootFlowEnd (flash : Flash)
  /-- SUPPLY_LOSS (R111). -/
  | supplyLoss (gr : Bool)
  /-- VDD_GR_DIP (R140). -/
  | vddGrDip
  /-- CLOCK_LOSS (R164). -/
  | clockLoss (unit : Nat)
  /-- CMD_REEF (R138). -/
  | cmdReef (retain : Bool)
  /-- REEF_SAVE_DONE (R139). -/
  | reefSaveDone
  /-- CMD_WAKE (R141). -/
  | cmdWake
  /-- VIN_CORE_RISE (R141). -/
  | vinCoreRise
  /-- WAKE_SUPPLY_TIMEOUT (R142). -/
  | wakeSupplyTimeout
  /-- WAKE_RESTORE_DONE (R141). -/
  | wakeRestoreDone
  /-- HAIL_LINE_START (R151). -/
  | hailLineStart
  /-- HAIL_LINE_END (R152). -/
  | hailLineEnd
  /-- HAIL_SEND (R235). -/
  | hailSend
  /-- TEMP_SAMPLE (R216). -/
  | tempSample (code : BitVec 12)
  /-- TIME_TICK (R217). -/
  | timeTick
  /-- VTRIM_EVAL (R172). -/
  | vtrimEval (island : Nat) (pass margin : Bool)
  /-- VTRIM_STEP_DOWN (R174). -/
  | vtrimStepDown (island : Nat)
  /-- VTRIM_STEP_UP (R174). -/
  | vtrimStepUp (island : Nat)
  /-- REPLAY (R177). -/
  | replay (island : Nat)
  /-- FTRIM_STEP_SLOWER (R181). -/
  | ftrimStepSlower
  /-- FTRIM_STEP_FASTER (R182). -/
  | ftrimStepFaster
  /-- TR_COMMIT (R187). -/
  | trCommit (v : Word)
  /-- TR_COMMIT_APPLY (R187). -/
  | trCommitApply
  /-- TR_COMMIT_STALE (R189). -/
  | trCommitStale
  /-- DECK8_LOW_READ (R211). -/
  | deck8LowRead (slot : Nat)
  /-- DECK8_HIGH_READ (R211). -/
  | deck8HighRead (slot : Nat)
  /-- DECK8_LOW_WRITE (R212). -/
  | deck8LowWrite (slot : Nat) (b : Byte)
  /-- DECK8_HIGH_WRITE (R212). -/
  | deck8HighWrite (slot : Nat) (b : Byte)
  /-- PAIR_LOW_READ (R214). -/
  | pairLowRead (slot : Nat)
  /-- CMD_BIND (R219). -/
  | cmdBind
  /-- BIND_END (R856). -/
  | bindEnd
  /-- CMD_TACK (R317). -/
  | cmdTack
  /-- CMD_RESUME_RETRY (R326). -/
  | cmdResumeRetry
  /-- CMD_RESUME_SKIP (R326). -/
  | cmdResumeSkip
  /-- WIN_READ (R221). -/
  | winRead
  /-- WIN_WRITE (R221). -/
  | winWrite (v : Half)
  /-- WIN_TIMEOUT (R224). -/
  | winTimeout (w : Option Half)
  /-- WIN_LATE_COMPLETION (R224). -/
  | winLateCompletion
  /-- DOORBELL_WRITE (R226). -/
  | doorbellWrite (v : Half)
  /-- DOORBELL_ANSWER (R300). -/
  | doorbellAnswer
  /-- BELL_SEL_WRITE (R228). -/
  | bellSelWrite (v : Half)
  /-- BELL_MIRROR_LOAD (R228). -/
  | bellMirrorLoad
  /-- HOST_BELL_ADD (R229). -/
  | hostBellAdd (v : Half)
  /-- HOST_BELL_SET (R229). -/
  | hostBellSet (v : Half)
  /-- DK_CN_EVENT_READ (R233). -/
  | dkCnEventRead
  /-- REGISTER_WRITE (R17). -/
  | registerWrite (t : RegTarget) (v : Word)
  /-- DAP_ACCESS (R861). -/
  | dapAccess (addr : Word) (w : Option Word)
  /-- RG_COMMIT (R260). -/
  | rgCommit (n : Nat)
  /-- RG_COMMIT_APPLY (R264). -/
  | rgCommitApply (n : Nat)
  /-- RG_COMMIT_STALE (R262). -/
  | rgCommitStale (n : Nat)
  /-- SCRUB_BLOCK (R272). -/
  | scrubBlock
  /-- ECC_INJECT_ARM (R275). -/
  | eccInjectArm (mode : Nat)
  /-- ECC_INJECT_WITHDRAW (R275). -/
  | eccInjectWithdraw
  /-- ENABLE (R298). -/
  | enable (ring : Nat)
  /-- DISABLE (R297). -/
  | disable (ring : Nat)
  /-- RESUME_RETRY (R326). -/
  | resumeRetry (ring : Nat)
  /-- RESUME_SKIP (R326). -/
  | resumeSkip (ring : Nat)
  /-- PRIO (R297). -/
  | prio (ring arg : Nat)
  /-- ADMISSION (R304). -/
  | admission
  /-- BELL_TIMEOUT (R314). -/
  | bellTimeout (ring : Nat)
  /-- ENGINE_FINISH (R306). -/
  | engineFinish (ring idx : Nat)
  /-- COMPLETION_RECORD (R310). -/
  | completionRecord (ring : Nat)
  /-- CAP_BELL_WRITE (R312). -/
  | capBellWrite (n : Nat) (v : Word)
  /-- CAP_BELL_ADD_WRITE (R312). -/
  | capBellAddWrite (n : Nat) (v : Word)
  /-- THRESHOLD_ARM (R316). -/
  | thresholdArm (n : Nat) (v : Word)
  /-- TACK_DRAIN_COMPLETE (R318). -/
  | tackDrainComplete
  /-- TACK_DRAIN_STALE (R320). -/
  | tackDrainStale
  /-- TACK_RELEASE (R318). -/
  | tackRelease
  /-- COPY (R357). -/
  | copy (inst : Nat)
  /-- FILL (R357). -/
  | fill (inst : Nat)
  /-- GATHER (R361). -/
  | gather (inst : Nat)
  /-- RELAYOUT (R359). -/
  | relayout (inst : Nat)
  /-- STREAM_IN (R369). -/
  | streamIn (inst : Nat)
  /-- STREAM_OUT (R369). -/
  | streamOut (inst : Nat)
  /-- STREAM_UNIT (R368). -/
  | streamUnit (sid : Nat)
  /-- PRODUCT (R443). -/
  | product (inst : Nat)
  /-- FEED_PAIR (R483). -/
  | feedPair (inst : Nat)
  /-- FEED_TIMEOUT (R455). -/
  | feedTimeout (inst : Nat)
  /-- CONV (R473). -/
  | conv (inst : Nat)
  /-- TCONV (R473). -/
  | tconv (inst : Nat)
  /-- POOL_MAX (R487). -/
  | poolMax (inst : Nat)
  /-- POOL_AVG (R487). -/
  | poolAvg (inst : Nat)
  /-- UP_NEAREST (R488). -/
  | upNearest (inst : Nat)
  /-- UP_BILINEAR (R488). -/
  | upBilinear (inst : Nat)
  /-- S2D (R489). -/
  | s2d (inst : Nat)
  /-- HALO_PAIR (R492). -/
  | haloPair
  /-- HALO_TIMEOUT (R493). -/
  | haloTimeout (inst : Nat)
  /-- RUN (R522). -/
  | run (inst : Nat)
  /-- ACC_BLOCK_TAKE (R526). -/
  | accBlockTake (inst : Nat)
  /-- ACC_TIMEOUT (R542). -/
  | accTimeout (inst : Nat)
  /-- REDUCE (R568). -/
  | reduce (inst : Nat)
  /-- SOFTMAX (R571). -/
  | softmax (inst : Nat)
  /-- LSE (R572). -/
  | lse (inst : Nat)
  /-- NORM (R573). -/
  | norm (inst : Nat)
  /-- SUMMARY_PUSH (R576). -/
  | summaryPush (inst : Nat)
  /-- SUMMARY_TIMEOUT (R576). -/
  | summaryTimeout (inst : Nat)
  /-- SUMMARY_FLUSH (R577). -/
  | summaryFlush (inst : Nat)
  /-- ADD (R600). -/
  | addR
  /-- SUB (R600). -/
  | subR
  /-- AND (R600). -/
  | andR
  /-- OR (R600). -/
  | orR
  /-- XOR (R600). -/
  | xorR
  /-- NOR (R600). -/
  | nor
  /-- LTS (R600). -/
  | lts
  /-- LTU (R600). -/
  | ltu
  /-- MIN (R600). -/
  | minR
  /-- MAX (R600). -/
  | maxR
  /-- MINU (R600). -/
  | minu
  /-- MAXU (R600). -/
  | maxu
  /-- SHL (R600). -/
  | shl
  /-- SHR (R600). -/
  | shr
  /-- SAR (R600). -/
  | sar
  /-- SHLI (R600). -/
  | shli
  /-- SHRI (R600). -/
  | shri
  /-- SARI (R600). -/
  | sari
  /-- MUL (R600). -/
  | mul
  /-- MULHS (R600). -/
  | mulhs
  /-- MULHU (R600). -/
  | mulhu
  /-- DIV (R601). -/
  | div
  /-- DIVU (R601). -/
  | divu
  /-- REM (R601). -/
  | rem
  /-- REMU (R601). -/
  | remu
  /-- JR (R605). -/
  | jr
  /-- JALR (R605). -/
  | jalr
  /-- ADDI (R602). -/
  | addi
  /-- LTSI (R602). -/
  | ltsi
  /-- LTUI (R602). -/
  | ltui
  /-- ANDI (R602). -/
  | andi
  /-- ORI (R602). -/
  | ori
  /-- XORI (R602). -/
  | xori
  /-- MOVH (R602). -/
  | movh
  /-- LDB (R603). -/
  | ldb
  /-- LDBU (R603). -/
  | ldbu
  /-- LDH (R603). -/
  | ldh
  /-- LDHU (R603). -/
  | ldhu
  /-- LDW (R603). -/
  | ldw
  /-- STB (R603). -/
  | stb
  /-- STH (R603). -/
  | sth
  /-- STW (R603). -/
  | stw
  /-- STORE_PERFORM (R596). -/
  | storePerform
  /-- BEQ (R604). -/
  | beq
  /-- BNE (R604). -/
  | bne
  /-- BLT (R604). -/
  | blt
  /-- BGE (R604). -/
  | bge
  /-- BLTU (R604). -/
  | bltu
  /-- BGEU (R604). -/
  | bgeu
  /-- J (R604). -/
  | j
  /-- JAL (R604). -/
  | jal
  /-- LP (R607). -/
  | lp
  /-- LPI (R607). -/
  | lpi
  /-- CSRRW (R611). -/
  | csrrw
  /-- CSRRS (R611). -/
  | csrrs
  /-- CSRRC (R611). -/
  | csrrc
  /-- POST (R616). -/
  | post
  /-- BELLADD (R615). -/
  | belladd
  /-- BELLSET (R615). -/
  | bellset
  /-- WAITGE (R617). -/
  | waitge
  /-- WAITEQ (R617). -/
  | waiteq
  /-- BELLRD (R614). -/
  | bellrd
  /-- SUMRD (R618). -/
  | sumrd
  /-- TACK (R619). -/
  | tack
  /-- HSIG (R620). -/
  | hsig
  /-- FENCE (R596). -/
  | fence
  /-- WFI (R621). -/
  | wfi
  /-- BOSUN_WAIT_END (R617). -/
  | bosunWaitEnd
  /-- BOSUN_WAIT_TIMEOUT (R617). -/
  | bosunWaitTimeout
  /-- NOP (R623). -/
  | nop
  /-- ERET (R664). -/
  | eret
  /-- SYSCALL (R623). -/
  | syscall
  /-- BREAK (R623). -/
  | breakI
  /-- MCREW (R593). -/
  | mcrew
  /-- INTERRUPT (R661). -/
  | interrupt
  /-- CHECKPOINT (R662). -/
  | checkpoint
  /-- LOCK_MISMATCH (R681). -/
  | lockMismatch (low count : Nat)
  /-- COMP_FAULT (R683). -/
  | compFault
  /-- DELAY_PARITY (R682). -/
  | delayParity (out : Bool) (lane : Nat)
  /-- COMP_SELF_INJECT (R684). -/
  | compSelfInject (rail0 rail1 : Bool)
  /-- SWEEP (R685). -/
  | sweep
  /-- RESYNC (R688). -/
  | resync
  /-- LS_DIVERGE (R692). -/
  | lsDiverge
  /-- BACKSTAY_RETRY (R694). -/
  | backstayRetry (iob : Bool) (n : Nat)
  /-- FRAME_START (R715). -/
  | frameStart (time : Word)
  /-- FRAME_END (R715). -/
  | frameEnd (long short : List Nat)
  /-- LK_COMMIT (R727). -/
  | lkCommit (v : Word)
  /-- LK_COMMIT_APPLY (R728). -/
  | lkCommitApply
  /-- LK_COMMIT_STALE (R729). -/
  | lkCommitStale
  /-- CSI_FRAME_START (R731). -/
  | csiFrameStart (vc fnum : Nat)
  /-- CSI_FRAME_END (R731). -/
  | csiFrameEnd (vc : Nat)
  /-- CSI_LONG_PACKET (R732). -/
  | csiLongPacket (vc dt : Nat) (payload : List Byte) (crcOk : Bool)
  /-- CSI_PACKET_DISCARD (R731). -/
  | csiPacketDiscard (kind : Nat)
  /-- CSI_EN_WRITE (R734). -/
  | csiEnWrite (v : Word)
  /-- CSI_COMMIT (R734). -/
  | csiCommit (v : Word)
  /-- CSI_COMMIT_APPLY (R734). -/
  | csiCommitApply
  /-- CSI_COMMIT_STALE (R734). -/
  | csiCommitStale
  /-- I2C_GO (R735). -/
  | i2cGo (c : Nat) (v : Word)
  /-- I2C_XFER_END (R735). -/
  | i2cXferEnd (c : Nat) (free addr : Bool) (acks : Nat) (again : Bool) (rd : List Byte)
  /-- I2C_ABORT (R737). -/
  | i2cAbort (c : Nat)
  /-- I2C_RECOVER (R737). -/
  | i2cRecover (c : Nat)
  /-- BLOCK_BOUNDARY (R750). -/
  | blockBoundary (pdm adc : List (List Word))
  /-- PLAYBACK_TICK (R761). -/
  | playbackTick
  /-- I2S_FRAME (R758). -/
  | i2sFrame (slots : List Word)
  /-- AU_COMMIT (R768). -/
  | auCommit (v : Word)
  /-- AU_COMMIT_NOW (R769). -/
  | auCommitNow (pdm adc : List (List Word))
  /-- AU_COMMIT_APPLY (R770). -/
  | auCommitApply
  /-- AUDIO_RELOCK_DONE (R771). -/
  | audioRelockDone
  /-- AU_COMMIT_STALE (R772). -/
  | auCommitStale
  /-- FEATURE_FRAME (R786). -/
  | featureFrame (samples : List (Word × Word × Word))
  /-- INFERENCE_END (R793). -/
  | inferenceEnd
  /-- CN_NET_ENABLE (R791). -/
  | cnNetEnable (gesture : Bool)
  /-- CN_NET_DISABLE (R791). -/
  | cnNetDisable (gesture : Bool)
  /-- CN_EVENT_READ (R796). -/
  | cnEventRead
  /-- LINK_BLOCK_LOCK (R812). -/
  | linkBlockLock
  /-- LINK_EQUALISE_DONE (R811). -/
  | linkEqualiseDone (m0 m1 : List Nat)
  /-- LINK_ALIGN_DONE (R811). -/
  | linkAlignDone (role : Nat) (sn : Word) (swap : Bool) (pol : Nat)
  /-- LINK_TRAIN_TIMEOUT (R811). -/
  | linkTrainTimeout
  /-- LINK_LOCK_LOSS (R813). -/
  | linkLockLoss
  /-- SW_RETRAIN (R813). -/
  | swRetrain
  /-- SW_DROP (R814). -/
  | swDrop
  /-- LINK_HOLD_EXPIRY (R814). -/
  | linkHoldExpiry
  /-- LTRIM_ADAPT (R810). -/
  | ltrimAdapt (lane lower here upper : Nat)
  /-- FLIT_NULL (R818). -/
  | flitNull (f : Flit)
  /-- FLIT_CONFIG (R819). -/
  | flitConfig (f : Flit)
  /-- FLIT_WR (R824). -/
  | flitWr (f : Flit)
  /-- FLIT_RD (R824). -/
  | flitRd (f : Flit)
  /-- FLIT_BELL (R828). -/
  | flitBell (f : Flit)
  /-- FLIT_MSG (R831). -/
  | flitMsg (f : Flit)
  /-- FLIT_WRRSP (R823). -/
  | flitWrrsp (f : Flit)
  /-- FLIT_RDRSP (R823). -/
  | flitRdrsp (f : Flit)
  /-- REMOTE_TIMEOUT (R825). -/
  | remoteTimeout (tag : Nat)
  /-- SW_RBELL_SEND (R827). -/
  | swRbellSend (v : Word)
  /-- QRD_GO (R864). -/
  | qrdGo (v : Word)
  /-- QRD_END (R864). -/
  | qrdEnd (data : List Byte)
  /-- TESTEN_LOW (R154). -/
  | testenLow
  /-- VIN_CORE_REMOVAL (R139). -/
  | vinCoreRemoval
  /-- FLIT_SLOT (R815). -/
  | flitSlot
  /-- FLIT_DISCARD (R816). -/
  | flitDiscard
  /-- RC_READ (R19). -/
  | rcRead (slot : Nat)
  /-- ILLEGAL (R599). -/
  | illegal
  /-- FETCH (R594). -/
  | fetch
  /-- BADCMD (R218). -/
  | badcmd (v : Half)
  /-- RING_OP_BADARG (R328). -/
  | ringOpBadarg (ring op : Nat)
deriving DecidableEq, Repr

end Sys2Proof
end

