-- ==== Sys2Proof/Config.lean ====
section
/-! DEFINITION. The free values: what the manual calls undefined, or leaves open, and the machine still
produces (spec/00_scope.md R7). Each is an uninterpreted constant with no body. -/

namespace Sys2Proof.Config

/-- The n-th free value of `w` bits (R7). The step takes `n` from `State.free`, which it then advances
(log 6, DESIGN CHOICE). -/
opaque freeValue : (w : Nat) → (n : Nat) → BitVec w

/-- The byte of the boot ROM at an offset that no table of the manual gives (R249; log 8). -/
opaque romByte : (offset : Nat) → Byte

end Sys2Proof.Config
end

