-- ==== Sys2Proof/Machine/State.lean ====
section
/-! DEFINITION. The state of the Glaldaka as plain data, and its value right after power-on reset is asserted.
Registers that software reads and writes whole are words in one of four sparse register files (`regs`,
`inForce`, `deck`, `bosun.csr`), keyed by their addresses or numbers; an unlisted register holds its reset value
(Machine/Regs.lean). Everything else is typed. -/

namespace Sys2Proof.Machine

/-! ### The part (00 R1, 05 R213–R215) -/

inductive Variant where
  | vgk11 | vgk21 | vgk22 | vgk42
deriving DecidableEq, Repr

/-- What is fixed in the part: the variant and the fuses. No command changes it. -/
structure Part where
  variant : Variant := .vgk42
  /-- Signature and debug-lock fuses (21 R860, R861). -/
  sign : Bool := false
  lock : Bool := false
  /-- Die revision codes (05 R215). -/
  rev : Half := 0
  revAux : Half := 0
  /-- SHA-256 of the image key (21 R860), big-endian. -/
  keyHash : Nat := 0
  /-- Factory defect list (17 R719): up to 64 words as LK_DEFn. -/
  defects : List Word := []
  serial : Word := 0
  revBosun : Nat := 0
deriving DecidableEq, Repr

/-! ### Memory (06) -/

/-- The error a damaged ECC code word holds (06 R266–R270). -/
inductive Ecc where
  | ok | single | double
deriving DecidableEq, Repr

/-- An armed ECC injection: the address of its code word and its kind (06 R275). -/
structure Inject where
  word : Nat
  kind : Ecc
deriving DecidableEq, Repr

/-! ### Capstan (07, 08) -/

inductive RingSt where
  | disabled | enabled | halted
deriving DecidableEq, Repr

/-- A fault at admission waiting for its record (07 R323). -/
structure AdmFault where
  idx : Nat
  status : Nat
  detail : Word
  /-- The ECC code word, for FT_REC3. -/
  addr : Nat := 0
deriving DecidableEq, Repr

/-- A ring operation that runs: OP, RING and its RESULT, which CAP_RING_OPSTAT does not show yet (07 R328). -/
structure RingOp where
  op : Nat
  ring : Nat
  result : Nat
deriving DecidableEq, Repr

/-- A ring's configuration and state in force (07 R294–R296). -/
structure Ring where
  size : Nat := 0
  prio : Nat := 0
  cls : Nat := 0
  efree : Bool := false
  stream : Bool := false
  mask : Nat := 0
  base : Nat := 0
  cqbase : Nat := 0
  tmo : Nat := 0
  head : Nat := 0
  tail : Nat := 0
  done : Nat := 0
  st : RingSt := .disabled
  phase : Bool := false
  fidx : Nat := 0
  fstat : Nat := 0
  cut : Nat := 0
  cutV : Bool := false
  /-- The epochs of the entries from DONE up to TAIL, oldest first (R303). -/
  epochs : List Nat := []
  /-- The head has reached stage 3, and its Bell wait has been satisfied (R304, R313). -/
  reached : Bool := false
  waitOk : Bool := false
  admFault : Option AdmFault := none
deriving DecidableEq, Repr

/-- A contiguous run read from the peer: its bytes, or the reason it failed (20 R821, Table 20.4). -/
structure RemRun where
  addr : Nat
  len : Nat
  data : List Byte := []
  fail : Option Nat := none
deriving DecidableEq, Repr

/-- What an engine holds of a descriptor it has started and not ended. -/
inductive Prog where
  /-- A stream descriptor: waiting for its unit (08 R368). -/
  | streamWait
  /-- A stream descriptor receiving a unit: bytes written, bytes discarded (08 R369). -/
  | streamRecv (got : Nat) (trunc : Bool)
  /-- A STREAM_OUT descriptor that has received its unit and reads its block (18 R760). -/
  | streamRead
  /-- A Loom descriptor that has started: its stores are loaded, next block (10.8). -/
  | loom (loaded : Bool) (block : Nat)
  /-- A Harrow descriptor: 0 waits for its halo partner, 1 has started, 2 has sent its halo rows, 3 has its stored
  rows (11.5, 11.8). -/
  | harrow (stage : Nat)
  /-- A Mill descriptor: iteration, input slot it loads (0, 1; 2 before its recipe is loaded), elements of that slot
  loaded (12 R522, R526). -/
  | mill (iter slot elem : Nat)
  /-- Waiting for a run of the peer's memory (20 R826). -/
  | remoteRead
  /-- Done but for the responses to its remote writes; the result it will end with (20 R826). -/
  | remoteWrite (status : Nat) (detail : Word) (cycles : Nat)
  /-- A Sheaf descriptor whose writes are made: its result, and the summary entries still to be pushed, each with its
  result index (13 R574, R576). -/
  | sheaf (detail : Word) (todo : List (Nat × Word × Word))
deriving DecidableEq, Repr

inductive FlightSt where
  /-- Admitted; its engine has not started it. -/
  | queued
  | running (p : Prog)
  /-- Its engine has its result; its window slot is still held (07 R306). -/
  | ended (status : Nat) (detail : Word) (cycles : Nat)
  /-- The slot is free; the record is due (07 R310). -/
  | finished (status : Nat) (detail : Word) (cycles : Nat)
deriving DecidableEq, Repr

/-- A descriptor in flight (07 R306). -/
structure Flight where
  ring : Nat
  idx : Nat
  epoch : Nat
  cls : Nat
  inst : Nat
  desc : List Word
  charged : List Nat := []
  st : FlightSt := .queued
  /-- Replays taken while its engine advanced it (04 R177). -/
  replays : Nat := 0
  /-- ECC code word of an execution fault, for FT_REC3. -/
  addr : Nat := 0
  /-- The descriptor is null (08 R348). -/
  null : Bool := false
  /-- The extents it may write: first byte and length. -/
  writes : List (Nat × Nat) := []
  /-- STREAM_SHARED, decided at admission (09 R413). -/
  shared : Bool := false
  /-- Runs of the peer's memory read for it so far. -/
  rem : List RemRun := []
  /-- Writes to the peer's memory made before a wait. -/
  out : List (Nat × List Byte) := []
  /-- The timeout in force when it started: LM_CFG, HW_CFG, ML_CFG or SH_CFG (10 R455, 11 R493, 12 R542, 13 R576). -/
  tmo : Nat := 0
  /-- Rows kept for it by the stripe before it (11 R490). -/
  kept : Nat := 0
  /-- Blocks taken by its ACC streams (12 R545). -/
  blocks : Nat := 0
  /-- The number of the kept block or kept rows that it is admitted to leave, and of those that it is admitted to
  continue (10 R447, 11 R491). -/
  own : Nat := 0
  cont : Nat := 0
deriving DecidableEq, Repr

structure Capstan where
  rings : List (Nat × Ring) := []
  /-- Descriptors in flight, in admission order. -/
  flights : List Flight := []
  /-- The Bells; an unlisted Bell is 0. -/
  bells : List (Nat × Word) := []
  /-- Ring last admitted at each priority (R305), as ring + 1; unlisted 0 is none. -/
  lastAdm : List (Nat × Nat) := []
  /-- SID bindings: SID to ring + 1 (08 R367). -/
  binds : List (Nat × Nat) := []
  /-- SIDs with a unit lost or an underrun since their ring's previous stream descriptor (08 R370). -/
  gaps : List Nat := []
  /-- Dice streams bound: 256 × (epoch mod 2) + DSTREAM (09 R413). -/
  dice : List Nat := []
  /-- The ring operation that runs, and the OP and RING of the last write refused while it does (07 R328). -/
  op : Option RingOp := none
  refused : Option (Nat × Nat) := none
deriving DecidableEq, Repr

/-! ### Looms (10) -/

/-- The admission-side chain state: the kept block's parameters (10 R446). Which block it is stands in `Loom.keeps`. -/
structure Chain where
  af : Nat
  z : Nat
  gs : Nat
  lane : Nat
  npos : Nat
  nch : Nat
deriving DecidableEq, Repr

/-- A finished block handed to the Mills: word p × 64 + ch, and its bank where it is coupled (10 R444). -/
structure Block where
  bank : Option Nat
  words : List Word
deriving DecidableEq, Repr

/-- A Harrow-fed Loom descriptor in the pairing order of its tile (10 R454). -/
structure LoomEnt where
  ring : Nat
  idx : Nat
  ended : Bool := false
deriving DecidableEq, Repr

/-- A started Harrow descriptor in the pairing order of the tile it names; where it has faulted, the status, DETAIL and ECC
code word that the paired Loom descriptor ends with (10 R454, 11 R485). -/
structure HwEnt where
  inst : Nat
  ring : Nat
  idx : Nat
  fault : Option (Nat × Word × Nat) := none
deriving DecidableEq, Repr

/-- The elements of one position: main-lane codes and outlier codes, as bits (11 R473). -/
structure Window where
  main : List Nat
  outl : List Nat
deriving DecidableEq, Repr

/-- A pair that feeds a tile: the Harrow descriptor, the windows offered and not taken, the positions taken, the
fault that follows the last window offered, and whether the Loom descriptor ended early (11 R482–R485). -/
structure Feed where
  inst : Nat
  ring : Nat
  idx : Nat
  /-- The Loom descriptor of the pair. -/
  lring : Nat := 0
  lidx : Nat := 0
  /-- Input channels per tap. -/
  c : Nat := 0
  offered : Bool := false
  windows : List Window := []
  taken : Nat := 0
  fault : Option (Nat × Word × Nat) := none
  lost : Bool := false
  /-- The Harrow descriptor has ended. -/
  gone : Bool := false
deriving DecidableEq, Repr

/-- A Loom tile (10 Table 10.1). -/
structure Loom where
  weights : List Byte := []
  outWeights : List Byte := []
  outList : List Nat := []
  scales : List Half := []
  /-- The bank the next block uses; banks held for a Mill. -/
  nextBank : Nat := 0
  held : List Nat := []
  /-- The kept block and its bank; none where no block is kept or its contents are undefined. Which of the blocks that KEEP
  descriptors were admitted to leave it is, and how many were. -/
  kept : Option (Nat × List Word) := none
  keptNum : Nat := 0
  keeps : Nat := 0
  /-- The two halves of the table store, the one built last first: 64 tables of 16 subset sums; and the two accumulator
  banks as 64 words for each of 32 positions (10.3, 10 R444). Empty: nothing built, or accumulated, yet. -/
  tables : List (List Int) := []
  banks : List (Nat × List Word) := []
  /-- Finished blocks not yet taken, in the order handed out: the queue's and the coupled ones. -/
  out : List Block := []
  chain : Option Chain := none
  prec : Nat := 0
  /-- The pairing order: Harrow-fed Loom descriptors and Harrow descriptors started and not yet paired. -/
  looms : List LoomEnt := []
  harrows : List HwEnt := []
  feed : Option Feed := none
  /-- The Mills whose ACC streams have asked for a block and not got one, in the order they asked (12 R526). -/
  asks : List Nat := []
deriving DecidableEq, Repr

/-! ### Harrows (11) -/

/-- A stored row: its channel blocks' bytes in order, and its outlier plane row (11 R471, R484). -/
structure HwRow where
  main : List Byte
  outl : List Byte
deriving DecidableEq, Repr

/-- The admission-side stripe state (11 R491). -/
structure Stripe where
  keepr : Nat
  iw : Nat
  c : Nat
  layout : Nat
  fmt : Nat
  outl : Bool
deriving DecidableEq, Repr

/-- A Harrow (11 Table 11.1): stripe state, kept rows (none: none kept, or undefined), the stored rows of the running
descriptor, rows received over the halo port and the status, DETAIL and code word that their lack ends it with, its halo descriptors in
the order they began, and the first stored row it lacks with the fault it ends with. -/
structure Harrow where
  stripe : Option Stripe := none
  kept : Option (List HwRow) := none
  /-- Which of the row sets that STRIPE_OUT descriptors were admitted to leave the kept rows are, and how many were. -/
  keptNum : Nat := 0
  keeps : Nat := 0
  rows : List HwRow := []
  inbox : List HwRow := []
  inboxFail : Option (Nat × Word × Nat) := none
  halo : List LoomEnt := []
  /-- First missing stored row, status, DETAIL, code word. -/
  err : Option (Nat × Nat × Word × Nat) := none
deriving DecidableEq, Repr

/-! ### Mills (12) -/

/-- A Mill (12 Table 12.1): tile register words keyed by 256 × register + 16 × row + lane, mask words keyed by
128 × mask + word, the recipe store and VL; the blocks its ACC streams hold, by slot: tile and block. -/
structure Mill where
  tregs : List (Nat × Word) := []
  masks : List (Nat × Word) := []
  recipe : List Word := []
  vl : Nat := 0
  hold : List (Nat × Nat × Block) := []
deriving DecidableEq, Repr

/-! ### Device states (03) -/

/-- The device state; MOORED is never read in DK_STATE (03 R115, 05 DK_STATE). -/
inductive Mode where
  | moored | muster | becalmed | hoveTo | underway | reefed
deriving DecidableEq, Repr

/-- Why the device is in MOORED (03 R117, R118). -/
inductive Hold where
  | none | powerOn | pin | soft | testen
deriving DecidableEq, Repr

/-- HAIL: the line being sent (empty: none), the waiting line and whether it is a BECALMED one, and the
lines sent since the state was entered (03 R150–R152, 05 R235). -/
structure Hail where
  sending : List Byte := []
  waiting : Option Bool := none
  count : Nat := 0
deriving DecidableEq, Repr

/-- A DK_CMD command that is running (05 R218, R219). -/
structure Command where
  op : Nat
  retain : Bool := false
  arg : Word := 0
  skip : Bool := false
deriving DecidableEq, Repr

/-- The bound image, as far as the machine still uses it: its pairing key and declared peer Granary bytes (21). -/
structure Image where
  key : Word := 0
  peer : Word := 0
deriving DecidableEq, Repr

/-- The QSPI reader while it runs: the region entry it was checked against, its destination and its 4,096-byte reads
(21 R864). -/
structure Reader where
  entry : Nat
  dst : Nat
  n : Nat
deriving DecidableEq, Repr

structure Device where
  mode : Mode := .moored
  hold : Hold := .powerOn
  /-- A RESET_SOFT write is waiting its 4 KN cycles (03 R117). -/
  softPend : Bool := false
  straps : Straps := {}
  vhsel : Bool := false
  testen : Bool := false
  /-- VIN_CORE in range and CORE_PG not low (05 DK_STATE.VIN_OK); VDD_GR in range. -/
  vinOk : Bool := false
  grOk : Bool := false
  coreEn : Bool := true
  image : Option Image := none
  /-- REEF or BIND waits for Bosun's boundary (03 R138). -/
  stopping : Bool := false
  /-- BIND checks and places an image (05 DK_STATE.BINDING). -/
  binding : Bool := false
  /-- While it does: the destinations that its commit phase places, none where a check fails (21 R856, R858). -/
  bindDest : List (Nat × Nat) := []
  /-- While it does: a byte of the image or of a destination has been written by another agent, so its result is
  undefined (21 R858). -/
  bindStale : Bool := false
  waking : Bool := false
  cold : Bool := false
  /-- A REEF has been accepted and its save runs (03 R139). -/
  reefing : Bool := false
  /-- An auto-wake trigger kept until REEFED is reached (03 R144). -/
  wakeKept : Bool := false
  /-- The retention area is valid; what it holds stays in the saved items' own fields, which nothing changes in REEFED
  (03 R139). -/
  retained : Bool := false
  /-- The boot flow runs (03 R127). -/
  booting : Bool := false
  command : Option Command := none
  hail : Hail := {}
  /-- KN runs from the backup oscillator (03 R149). -/
  backup : Bool := false
  /-- The sources that have failed at run time, as CK_STAT.UNIT numbers them (04 R164). -/
  lost : List Nat := []
  /-- A class F fault has been recorded and the Deck has not been reached since: a further one may be of the same KF
  cycle. It holds whether the Bosun pair ran at the fault (16 R682, R696). -/
  tie : Option Bool := none
  reader : Option Reader := none
  /-- The value that the debug access port read last (21 R861). -/
  dap : Word := 0
deriving DecidableEq, Repr

/-! ### Deck (05) -/

/-- A Crowsnest event (05 R233, 19 R796). -/
structure CnEvent where
  cls : Nat
  net : Nat
  score : Nat
  time : Word
deriving DecidableEq, Repr

/-- What the host hands to the Capstan, in the order of its Deck writes: a doorbell, or a Bell operation that waits behind
one or behind a window write, or the TACK or RESUME command that runs (05 R227; 07 R302). -/
inductive HostOp where
  | door (ring tail : Nat)
  | bell (n : Nat) (set : Bool) (v : Word)
  | cmd
deriving DecidableEq, Repr

/-- An outstanding window access: whether it goes to the peer, whether it has timed out, and the host operations that were
queued before it (05 R224, R227). -/
structure WinAccess where
  addr : Nat
  write : Option Word
  remote : Bool
  late : Bool
  ahead : Nat := 0
deriving DecidableEq, Repr

structure Deck where
  /-- Deck registers by offset; an unlisted one holds its reset value. -/
  regs : List (Nat × Half) := []
  ms : Word := 0
  win : Option WinAccess := none
  doors : List HostOp := []
  cnFifo : List CnEvent := []
  cnOvf : Bool := false
  readHold : Option (Nat × Byte) := none
  writeHold : Option (Nat × Byte) := none
  /-- The value the last read returned on the Deck lands (05 R208). -/
  data : Half := 0
  bellMirror : Word := 0
deriving DecidableEq, Repr

/-! ### Bosun (14, 15) -/

/-- What a blocked Bosun waits for (14 R596, R617, R618, R621). -/
inductive WaitKind where
  | ge | eq | sum | wfi
  /-- A load of `size` bytes, or a store, through the Sweade remote window. -/
  | load (size : Nat) (signed : Bool)
  | store
deriving DecidableEq, Repr

/-- A blocked instruction: the Bell, Sheaf or remote address, the operand, the registers its result goes to,
and whether the condition has held since it began. -/
structure BosunWait where
  kind : WaitKind
  sel : Nat
  operand : Word := 0
  rd : Nat := 0
  rd2 : Nat := 0
  sat : Bool := false
deriving DecidableEq, Repr

/-- What each lockstep copy holds (14 R590, 15 R674, 16 R688): w1 to w31, the CSRs by number, PC, the branch whose
delay slot is next with its target when taken, the shadow instructions still to run (R593), and whether a handler's first
instruction is next. -/
structure Core where
  w : List (Nat × Word) := []
  csr : List (Nat × Word) := []
  pc : Word := 0
  delay : Option (Word × Option Word) := none
  shadow : Nat := 0
  /-- An exception has been entered and its handler's first instruction has not completed (15 R676). -/
  entered : Bool := false
deriving DecidableEq, Repr

structure Bosun where
  /-- The leading copy, and the trailing copy where it differs (16.1). -/
  core : Core := {}
  trail : Option Core := none
  /-- Bosun executes: an image is bound and it is neither halted nor stopped (14 R591). -/
  run : Bool := false
  wait : Option BosunWait := none
  /-- The store queue, oldest first, at most 4 (14 R596). -/
  stores : List (Nat × List Byte) := []
  /-- BS_INSTRET, and the high half latched by a read of BS_CYCLE_LO (14 R613). -/
  instret : Word := 0
  cycleHi : Word := 0
  /-- BS_CYCLE: 64 bits (14 R613). -/
  cycle : Nat := 0
  /-- Edge latches of BS_IPEND: HALT, STALE, DECK (15 R658). -/
  latHalt : Bool := false
  latStale : Bool := false
  latDeck : Bool := false
  /-- Bells whose last firing had BOSUN set (15 R658). -/
  bellRec : List Nat := []
  /-- A CHECKPOINT entry follows the resync just made (16 R688). -/
  ckpt : Bool := false
  /-- Injections made since the lockstep counter started (16 R684). -/
  inj : Nat := 0
  /-- The register a DIVERGE write of the instruction being executed names (16 R692); none between steps. -/
  diverge : Option Nat := none
  /-- The output bundles of the instruction being executed (16 Table 16.1); empty between steps. -/
  bundle : List Nat := []
deriving DecidableEq, Repr

/-! ### Trim (04) -/

/-- What VTRIM and FTRIM count of an island: consecutive evaluations with margin, consecutive evaluations at a code of 30 or
less (at most 1,024), and evaluations since the last step slower (at most 16,384) (04 R173, R180). -/
structure Island where
  streak : Nat := 0
  low : Nat := 0
  since : Nat := 16384
deriving DecidableEq, Repr

structure Trim where
  /-- The KC step, and a step slower that FTRIM requires (04 R180, R181). -/
  step : Nat := 0
  slow : Bool := false
  islands : List (Nat × Island) := []
deriving DecidableEq, Repr

/-! ### Crowsnest (19) -/

/-- One network: its input frames, newest first (feature frames, or forwarded frames), how many it has had since it was
enabled, the output codes of its last inferences, newest first, the hold count, whether ATRIM has had a level since it
was enabled, whether an inference has run, and the inputs of the inferences that are due (19 R786–R794). -/
structure Net where
  frames : List (List Nat) := []
  count : Nat := 0
  hist : List (List Nat) := []
  hold : Nat := 0
  floorOn : Bool := false
  ran : Bool := false
  due : List (List (List Nat)) := []
deriving DecidableEq, Repr

structure Crowsnest where
  kw : Net := {}
  gs : Net := {}
  /-- The last feed samples since the keyword network was enabled, oldest first, at most 400 (19 R786). -/
  feed : List Word := []
  /-- The Bosun event FIFO and its OVF (19 R796). -/
  fifo : List CnEvent := []
  ovf : Bool := false
deriving DecidableEq, Repr

/-! ### Lookout and CSI-2 (17) -/

/-- A Lookout frame in progress: LK_TIME at its start, its exposures and gain, and whether ETRIM chose them, it is
forwarded to the Crowsnest, and NIR_STROBE is driven. -/
structure Frame where
  t0 : Word
  e : Nat
  es : Nat
  gain : Nat
  etrim : Bool
  dec : Bool
  strobe : Bool
  /-- Whether the device has been HOVE_TO or UNDERWAY since the frame started; none once that has changed (17 R720). -/
  live : Option Bool := none
  /-- Whether the Sweade port was PAIRED when the frame started (20 R829). -/
  pair : Bool := false
deriving DecidableEq, Repr

/-- An ETRIM measurement: μ, EXP and GAIN in force for its frame (17 R723). -/
structure Etrim where
  mu : Nat
  e : Nat
  g : Nat
deriving DecidableEq, Repr

structure Lookout where
  frame : Option Frame := none
  /-- A measurement whose result is not yet in force, and one whose result came into force at the frame boundary the
  imager stands at; whether ETRIM chose the exposure in force. -/
  waiting : Option Etrim := none
  fresh : Option Etrim := none
  byEtrim : Bool := false
  /-- Number and start of the last frame forwarded since DEC_EN came into force (17 R725). -/
  fwd : Option (Nat × Word) := none
deriving DecidableEq, Repr

/-- A CSI-2 frame that is open: its lines' stored bytes, and the lines received (17 R732); LK_TIME, and whether the Sweade
port was PAIRED, when its unit's first byte arrived (20 R829, R830). -/
structure CsiFrame where
  bytes : List Byte := []
  written : Nat := 0
  received : Nat := 0
  time : Word := 0
  pair : Bool := false
deriving DecidableEq, Repr

/-- What a controller puts on its I²C lines (17 R735, R737). -/
inductive I2cSym where
  | start
  | byte (b : Byte)
  | stop
  /-- SCL pulses with SDA released. -/
  | pulses (n : Nat)
deriving DecidableEq, Repr

/-- An I²C transfer that runs: WCNT and RCNT, the address, and the bytes to write (17 R735). -/
structure I2cRun where
  wcnt : Nat
  rcnt : Nat
  addr : Nat := 0
  data : List Byte := []
deriving DecidableEq, Repr

/-! ### Audio (18) -/

/-- A playback frame: left, right, and whether it is an underrun's. -/
structure PlayFrame where
  left : Word
  right : Word
  under : Bool
deriving DecidableEq, Repr

/-- A queued block: its bytes, or the descriptor that still reads them (18 R760). -/
inductive QBlock where
  | block (l : List Byte)
  | reading (ring idx : Nat)
deriving DecidableEq, Repr

structure Audio where
  /-- Blocks queued behind the one that plays, at most two, and the bytes left of that one (18 R760). -/
  queue : List QBlock := []
  playing : List Byte := []
  /-- A block has played since DAC or I2S_TX came into force; the last tick was an underrun's (18 R761). -/
  played : Bool := false
  inUnder : Bool := false
  /-- The tick number, the first tick of the block in progress, its ticks so far and its number (18 R749, R750). -/
  tick : Word := 0
  start : Word := 0
  ticks : Nat := 0
  block : Nat := 0
  /-- LK_TIME at the block's first tick, and whether GTRIM chose the codes in force (18 R763, Table 18.3). -/
  time : Word := 0
  byGtrim : Bool := false
  /-- P(m), newest first, since the restart (18 R764). -/
  past : List PlayFrame := []
  /-- GTRIM's quiet counters (18 R755). -/
  quiet0 : Nat := 0
  quiet1 : Nat := 0
  /-- The last I²S frame taken, one received and not yet taken, the frames of the block, oldest first, and its slips
  (18 R758). -/
  rxLast : List Word := []
  rxNew : Option (List Word) := none
  rxBlock : List (List Word) := []
  slips : Nat := 0
  /-- A COMMIT with NOW has been written (18 R769). -/
  now : Bool := false
  relock : Bool := false
  /-- The last DAC codes and I²S transmit frame (18 R759, R762). -/
  dac : Word × Word := (0, 0)
  tx : List Word := []
deriving DecidableEq, Repr

/-! ### Sweade (20) -/

/-- Who a remote operation belongs to. -/
inductive RemOwner where
  | window
  | bosun
  /-- The QSPI reader (log 28), and the debug access port. -/
  | reader
  | dap
  /-- A descriptor: ring, entry and the range index of the access. -/
  | flight (ring idx range : Nat)
deriving DecidableEq, Repr

/-- A remote operation: one of the pieces of at most 224 bytes of a run (20 R821–R823). -/
structure RemOp where
  owner : RemOwner
  write : Bool
  addr : Nat
  data : List Byte
  len : Nat
  /-- The run it is a piece of. -/
  runAddr : Nat
  runLen : Nat
  /-- Its number in issue order; TAG is this modulo 4,096. -/
  num : Nat
  sent : Bool := false
  /-- The response: status 0 or the reason, and a read's data. -/
  answer : Option (Nat × List Byte) := none
deriving DecidableEq, Repr

/-- The states of the port but OFF (20 Table 20.1). -/
inductive LinkSt where
  | detect | equalise | align | config | active
deriving DecidableEq, Repr

/-- The sequenced flit classes (20 Table 20.3). -/
inductive FlitClass where
  | req | rsp | msg
deriving DecidableEq, Repr

/-- A flit the port has sent, or is about to send: its type, words 2 to 5 (CONFIG: 2 to 7), its data, and how
often it has been sent. -/
structure TxFlit where
  typ : Nat
  seq : Nat := 0
  hdr : List Word := []
  data : List Byte := []
  sends : Nat := 0
deriving DecidableEq, Repr

/-- What the last slot put on the lanes (20 Table 20.2). -/
structure SentFlit where
  flit : TxFlit
  ack : Nat
  crq : Nat
  crs : Nat
  cms : Nat
  nak : Bool
deriving DecidableEq, Repr

/-- What the transmit lanes carry: a flit, or the payload bytes of the training block of each lane (20 R811, R812). -/
inductive Sent where
  | flit (f : SentFlit)
  | train (lane0 lane1 : List Byte)
deriving DecidableEq, Repr

/-- Sent, freed at the peer, and freed here: the running counts of one credit class (20 R818). -/
structure Credit where
  sent : Nat := 0
  peer : Nat := 0
  freed : Nat := 0
deriving DecidableEq, Repr

/-- A message being received: its source SID and number, its sender's time, its bytes, and the descriptor it goes
to with its GAP; none where it found no waiting descriptor (20 R831). -/
structure Inbound where
  sid : Nat
  msgno : Nat
  time : Word
  bytes : List Byte := []
  dest : Option (Nat × Nat × Bool)
deriving DecidableEq, Repr

structure Sweade where
  st : LinkSt := .detect
  linked : Bool := false
  paired : Bool := false
  /-- Role B; receive lanes swapped; inverted lanes. -/
  roleB : Bool := false
  lswap : Bool := false
  pol : Nat := 0
  session : Nat := 0
  /-- Words 2 to 7 of the latest CONFIG received, and sent, in this session; empty before the first. -/
  peer : List Word := []
  own : List Word := []
  /-- Flit slots since the last CONFIG was sent. -/
  slots : Nat := 0
  rxSeq : Nat := 0
  txSeq : Nat := 0
  nak : Bool := false
  /-- Unacknowledged flits, oldest first, and how many of them need no resending (20 R817). -/
  replay : List TxFlit := []
  next : Nat := 0
  crq : Credit := {}
  crs : Credit := {}
  cms : Credit := {}
  ops : List RemOp := []
  issued : Nat := 0
  /-- Bell operations waiting to be sent: remote operations issued before it, peer Bell, SET, operand (20 R827). -/
  bellQ : List (Nat × Nat × Bool × Word) := []
  /-- Responses and message segments waiting to be sent. -/
  rspQ : List TxFlit := []
  msgQ : List TxFlit := []
  /-- MSGNO by SID (20 R830). -/
  msgNo : List (Nat × Nat) := []
  inbox : List Inbound := []
  /-- TXDE in force (20 R809). -/
  txde : Nat := 0
  /-- The own equaliser sweep has ended, which TS1 shows as EQ_DONE (20 R811, R812). -/
  eqDone : Bool := false
  /-- What the last slot sent; none while the lanes are in electrical idle (20 R807). -/
  tx : Option Sent := none
  /-- The last 58 scrambled bits of each lane before that slot, the oldest at bit 0 (20 R808). -/
  scr : Nat × Nat := (0, 0)
deriving DecidableEq, Repr

/-! ### The whole machine -/

structure State where
  part : Part := {}
  /-- Commands waiting, oldest first. -/
  pending : List Instr := []
  /-- Free values drawn so far (log 6). -/
  free : Nat := 0
  dev : Device := {}
  deck : Deck := {}
  /-- CSRs by address: the staged or plain copy, and the copy in force of staged groups. -/
  regs : List (Nat × Word) := []
  inForce : List (Nat × Word) := []
  /-- Memory in canonical form; an unlisted address reads 0 (log 5). -/
  mem : List Host.Cell := []
  /-- Damaged code words by address (06 R266–R270). -/
  ecc : List (Nat × Ecc) := []
  inject : Option Inject := none
  /-- Next scrubber block, counted from the Pantry's (06 R272). -/
  scrubAt : Nat := 0
  /-- Region reference counts and pending commits (06 R257, R260). -/
  rgRef : List (Nat × Nat) := []
  rgPend : List Nat := []
  cap : Capstan := {}
  looms : List (Nat × Loom) := []
  harrows : List (Nat × Harrow) := []
  mills : List (Nat × Mill) := []
  /-- The summary FIFOs, oldest entry first, at most 16 (13 Table 13.1). -/
  fifos : List (Nat × List (Word × Word)) := []
  bosun : Bosun := {}
  sw : Sweade := {}
  audio : Audio := {}
  cn : Crowsnest := {}
  trim : Trim := {}
  lk : Lookout := {}
  /-- The open frames of VC 0 and VC 1. -/
  csi : List (Nat × Option CsiFrame) := []
  /-- The transfers that the I²C controllers run. -/
  i2c : List (Nat × Option I2cRun) := []
  /-- What each controller's last transfer, or RECOVER, has sent (17 R735, R737). -/
  i2cOut : List (Nat × List I2cSym) := []
  /-- Units on their way from a source to the Halyard: SID and bytes, oldest first (08 R368). -/
  units : List (Nat × List Byte) := []
  /-- The remote runs read for the descriptor an engine is advancing, and the remote writes it makes;
  empty between steps. -/
  view : List RemRun := []
  viewOut : List (Nat × List Byte) := []
deriving DecidableEq, Repr

/-- Reasons a step can stop with a fault. There is none: every fault of the device is state (log 3). -/
inductive Fault where
deriving DecidableEq, Repr

/-- Reasons a command is refused. -/
inductive Refusal where
  /-- Raised by an arm of `exec` for a command whose meaning is not written. Safe. -/
  | notModelled (mnemonic : String)
deriving DecidableEq, Repr

/-- What a meaning answers. -/
abbrev Out := Host.Outcome State Fault Refusal

/-- The machine with power-on reset asserted: MOORED, every register at its reset value (03 R118, R119). -/
def State.reset : State := {}

end Sys2Proof.Machine
end

