-- ==== Sys2Proof/Machine/Store.lean ====
section
/-! DEFINITION. Sparse data by key in one canonical form: a list of (key, value) pairs whose keys rise
strictly and which lists no entry equal to what an unlisted key reads as. Memory, the Bells, the ring
table in force, tile registers and register files are held this way. -/

namespace Sys2Proof.Machine.Store

variable {α : Type} [DecidableEq α]

/-- The value at key `k`; `d` is what an unlisted key reads as. -/
def get (d : α) : List (Nat × α) → Nat → α
  | [], _ => d
  | (j, v) :: t, k => if j = k then v else get d t k

/-- Writes `v` at key `k` and keeps the canonical form: writing the default removes the entry. -/
def set (d : α) (m : List (Nat × α)) (k : Nat) (v : α) : List (Nat × α) :=
  m.filter (fun e => decide (e.1 < k)) ++ (if v = d then [] else [(k, v)]) ++ m.filter (fun e => decide (k < e.1))

/-- The listed entries with keys from `lo` to `lo + n - 1`. -/
def slice (m : List (Nat × α)) (lo n : Nat) : List (Nat × α) :=
  m.filter fun e => decide (lo ≤ e.1) && decide (e.1 < lo + n)

/-- The entries that a run of values from key `k` lists. -/
def cells (d : α) : Nat → List α → List (Nat × α)
  | _, [] => []
  | k, v :: vs => if v = d then cells d (k + 1) vs else (k, v) :: cells d (k + 1) vs

/-- Writes the values `vs` at the keys from `k` up. -/
def setRun (d : α) (m : List (Nat × α)) (k : Nat) (vs : List α) : List (Nat × α) :=
  m.filter (fun e => decide (e.1 < k)) ++ cells d k vs ++ m.filter (fun e => decide (k + vs.length ≤ e.1))

/-- The values of the `n` keys from `k` up, where `m` lists only keys from `k` up. -/
def expand (d : α) : List (Nat × α) → Nat → Nat → List α
  | _, _, 0 => []
  | [], k, n + 1 => d :: expand d [] (k + 1) n
  | (j, v) :: t, k, n + 1 =>
    if j = k then v :: expand d t (k + 1) n else d :: expand d ((j, v) :: t) (k + 1) n

/-- The values of the `n` keys from `k` up. -/
def getRun (d : α) (m : List (Nat × α)) (k n : Nat) : List α := expand d (slice m k n) k n

/-- Every listed key is at least `lo`, keys rise strictly, and no entry is the default. -/
def wfFrom (d : α) : Nat → List (Nat × α) → Bool
  | _, [] => true
  | lo, (j, v) :: t => decide (lo ≤ j) && !decide (v = d) && wfFrom d (j + 1) t

/-- The canonical form. -/
def wf (d : α) (m : List (Nat × α)) : Bool := wfFrom d 0 m

end Sys2Proof.Machine.Store

namespace Sys2Proof.Machine.NSet

/-- A set of numbers as a strictly rising list: insertion. -/
def insert : List Nat → Nat → List Nat
  | [], k => [k]
  | j :: t, k => if j < k then j :: insert t k else if j = k then j :: t else k :: j :: t

/-- Removal from a set of numbers. -/
def erase (m : List Nat) (k : Nat) : List Nat := m.filter fun j => !decide (j = k)

end Sys2Proof.Machine.NSet
end

