-- ==== Sys2Proof/Machine/Regs.lean ====
section
/-! DEFINITION. The register files: each register's fields with their access codes (00 R16–R22), their reset
values, and the accessors of State through which every read and write of a register goes. -/

namespace Sys2Proof.Machine

/-- Access codes (00 R17). -/
inductive Acc where
  | rw | ro | w1c | rc | wo
deriving DecidableEq, Repr

/-- A register field: place, access code, reset value, and reserved encodings (00 R16, R20). -/
structure Field where
  lo : Nat
  w : Nat
  acc : Acc
  reset : Nat := 0
  bad : List Nat := []
deriving DecidableEq, Repr

def fRw (lo w : Nat) (reset : Nat := 0) (bad : List Nat := []) : Field := ⟨lo, w, .rw, reset, bad⟩
def fRo (lo w : Nat) (reset : Nat := 0) : Field := ⟨lo, w, .ro, reset, []⟩
def fW1c (lo w : Nat) : Field := ⟨lo, w, .w1c, 0, []⟩
def fRc (lo w : Nat) : Field := ⟨lo, w, .rc, 0, []⟩
def fWo (lo w : Nat) : Field := ⟨lo, w, .wo, 0, []⟩

/-- The value a list of fields resets to. -/
def resetOf (fs : List Field) : Nat := fs.foldl (fun a f => a + f.reset % 2 ^ f.w * 2 ^ f.lo) 0

/-- What a write of `new` stores over `old`: RW fields take the written value unless it is reserved, W1C
fields clear where 1 is written, the others keep (00 R17–R21). -/
def storeFields {n : Nat} (fs : List Field) (old new : BitVec n) : BitVec n :=
  fs.foldl (fun a f =>
    let x := fld new f.lo f.w
    match f.acc with
    | .rw => if f.bad.contains x then a else putFld a f.lo f.w x
    | .w1c => putFld a f.lo f.w (fld a f.lo f.w - Nat.land (fld a f.lo f.w) x)
    | _ => a) old

/-- What a read leaves: RC fields clear (00 R22). -/
def clearRc {n : Nat} (fs : List Field) (old : BitVec n) : BitVec n :=
  fs.foldl (fun a f => match f.acc with | .rc => putFld a f.lo f.w 0 | _ => a) old

/-! ### CSR addresses (06 Table 6.2) and fields, block by block -/

def CAP_OPSTAT : Nat := 0x40000008
def CAP_EPOCH : Nat := 0x40000010
def CAP_TACK_CFG : Nat := 0x40000014
def CAP_BFIRED : Nat := 0x40000040
def CAP_BELL : Nat := 0x40001000
def CAP_BELL_ADD : Nat := 0x40001400
def CAP_BTHR : Nat := 0x40001800
def CAP_HALTED : Nat := 0x40002000

/-- Capstan (07.10). CAP_STAT, CAP_BELLn and CAP_HALTEDk are computed (Machine/Csr.lean). -/
def capFields (o : Nat) : List Field :=
  if o = 0x8 then [fRo 0 1, fW1c 1 1, fRo 4 3, fRo 8 3, fRo 16 14]
  else if o = 0x10 then [fRo 0 8, fRo 8 1, fRo 9 1, fW1c 10 1, fRo 16 14, fRo 30 1]
  else if o = 0x14 then [fRw 0 8, fRw 8 1, fRw 9 1, fWo 31 1]
  else if 0x40 ≤ o ∧ o < 0x60 then [fW1c 0 32]
  else if 0x1800 ≤ o ∧ o < 0x2000 then
    if o % 8 = 0 then [fRw 0 32] else [fRw 0 1, fRw 1 1, fRw 2 1, fRw 3 1]
  else []

def RG_BASE (n : Nat) : Nat := 0x40010000 + 16 * n
def RG_LIMIT (n : Nat) : Nat := 0x40010004 + 16 * n
def RG_ATTR (n : Nat) : Nat := 0x40010008 + 16 * n
def RG_STAT : Nat := 0x40010400
def RG_SCRUB_CFG : Nat := 0x40010404
def RG_ECC_ADDR : Nat := 0x40010408
def RG_ECC_INFO : Nat := 0x4001040C
def RG_ECC_INJ : Nat := 0x40010410
def RG_ECC_INJ_ADDR : Nat := 0x40010414
def RG_ECC_CNT (k : Nat) : Nat := 0x40010420 + 4 * k

/-- Region table, ECC and scrub (06.3–06.5). RG_CTLn is computed. -/
def rgFields (o : Nat) : List Field :=
  if o < 0x400 then
    if o % 16 = 0 then [fRw 6 26]
    else if o % 16 = 4 then [fRo 0 6 0x3F, fRw 6 26]
    else if o % 16 = 8 then [fRw 0 6, fRw 8 3, fRw 12 1]
    else []
  else if o = 0x400 then [fRo 0 1, fW1c 1 1, fW1c 2 1, fRo 8 6, fRo 14 2, fRo 16 6]
  else if o = 0x404 then [fRw 0 4 4, fRw 4 1 1, fRc 16 16]
  else if o = 0x408 then [fRo 0 32]
  else if o = 0x40C then [fRo 0 3, fRo 4 1, fRo 8 4, fRo 16 8, fW1c 31 1]
  else if o = 0x410 then [fRw 0 2 0 [3], fRo 2 1]
  else if o = 0x414 then [fRw 0 32]
  else if 0x420 ≤ o ∧ o < 0x43C then [fRc 0 16, fRc 16 16]
  else []

def FT_REC (k : Nat) : Nat := 0x40020000 + 4 * k
def FT_CE_ECC : Nat := 0x40020020
def FT_CE_REPLAY : Nat := 0x40020024
def FT_CE_BSTAY : Nat := 0x40020028
def FT_CE_SWEADE : Nat := 0x4002002C
def FT_LATENT : Nat := 0x40020030
def FT_ECNT : Nat := 0x40020034

/-- Fault block (16.6). -/
def ftFields (o : Nat) : List Field :=
  if o < 0x14 then [fRo 0 32]
  else if 0x20 ≤ o ∧ o < 0x38 then [fRc 0 32]
  else []

def LM (i : Nat) : Nat := 0x40080000 + 0x10000 * i
def HW (i : Nat) : Nat := 0x400C0000 + 0x10000 * i
def ML (i : Nat) : Nat := 0x400E0000 + 0x10000 * i
def SH (i : Nat) : Nat := 0x40100000 + 0x10000 * i

/-- An engine slot: its configuration word and its stall counters (10.12, 11.11, 12.10, 13.9). -/
def engFields (stalls o : Nat) : List Field :=
  if o = 4 then [fRw 0 16]
  else if 0x10 ≤ o ∧ o < 0x10 + 4 * stalls then [fRc 0 32]
  else []

def SW_CTRL : Nat := 0x40C00000
def SW_STAT : Nat := 0x40C00004
def SW_CFG : Nat := 0x40C00008
def SW_BEXP (n : Nat) : Nat := 0x40C00040 + 4 * n
def SW_RBELL_VAL : Nat := 0x40C00080
def SW_RBELL : Nat := 0x40C00084
def SW_FWD : Nat := 0x40C00090
def SW_LTRIM : Nat := 0x40C000A0
def SW_CNT0 : Nat := 0x40C000C0
def SW_CNT1 : Nat := 0x40C000C4
def SW_CNT2 : Nat := 0x40C000C8

/-- Sweade (20.10). SW_STAT's status fields, SW_SN and the peer registers are computed. A write of SW_FWD that sets reserved bits of
SIDS stores the field's other bits (log 125). -/
def swFields (o : Nat) : List Field :=
  if o = 0 then [fRw 0 1 1, fWo 1 1, fWo 2 1]
  else if o = 4 then [fW1c 12 1]
  else if o = 8 then [fRw 0 8 10, fRw 8 16]
  else if 0x40 ≤ o ∧ o < 0x80 then [fRw 0 8, fRw 8 8, fRw 31 1]
  else if o = 0x80 then [fRw 0 32]
  else if o = 0x84 then [fRw 0 8, fRw 8 2 0 [0, 3], fWo 31 1]
  else if o = 0x90 then [fRw 1 1, fRw 3 4]
  else if o = 0xA0 then [fRw 0 1 1, fRw 1 1, fRw 2 4, fRw 6 2, fRo 8 4, fRo 12 4]
  else if o = 0xC0 then [fRc 0 16, fRc 16 16]
  else if o = 0xC4 then [fRc 0 8, fRc 8 8, fRc 16 8, fRc 24 8]
  else if o = 0xC8 then [fRc 0 8, fRc 8 8, fRc 16 16]
  else []

def CN_CTRL : Nat := 0x40810000
def CN_STAT : Nat := 0x40810004
def CN_KMASK : Nat := 0x40810008
def CN_KWAKE : Nat := 0x4081000C
def CN_GMASK : Nat := 0x40810010
def CN_KCFG : Nat := 0x40810014
def CN_GCFG : Nat := 0x40810018
def CN_KTHR (n : Nat) : Nat := 0x40810040 + 4 * n
def CN_GTHR (n : Nat) : Nat := 0x40810080 + 4 * n
def CN_KLAST : Nat := 0x408100C0
def CN_GLAST : Nat := 0x408100C4
def CN_FLOOR : Nat := 0x408100C8
def CN_INF : Nat := 0x408100CC
def CN_EVENT : Nat := 0x40810100
def CN_EVTIME : Nat := 0x40810104
def CN_ECC : Nat := 0x40810108
def CN_ECC_ADDR : Nat := 0x4081010C

/-- Crowsnest (19.9). CN_STAT's status fields and CN_EVENT are computed. -/
def cnFields (o : Nat) : List Field :=
  if o = 0 then [fRw 0 1, fRw 1 1, fRw 2 1, fRw 3 1]
  else if o = 4 then [fW1c 2 1, fW1c 3 1, fW1c 4 1, fW1c 5 1]
  else if o = 8 ∨ o = 0xC then [fRw 0 20]
  else if o = 0x10 then [fRw 0 8, fRw 8 8]
  else if o = 0x14 then [fRw 0 8 25, fRw 8 8, fRw 16 15]
  else if o = 0x18 then [fRw 0 8 5, fRw 8 8, fRw 16 15]
  else if 0x40 ≤ o ∧ o < 0x68 then [fRw 0 10 768, fRw 16 10 768]
  else if 0x80 ≤ o ∧ o < 0x90 then [fRw 0 10 384, fRw 16 10 384]
  else if o = 0x108 then [fRc 0 16, fRc 16 16]
  else []

def AU_CTRL : Nat := 0x40830000
def AU_RATE : Nat := 0x40830004
def AU_CAP5 : Nat := 0x40830008
def AU_CAP6 : Nat := 0x4083000C
def AU_PGA : Nat := 0x40830010
def AU_GTRIM : Nat := 0x40830014
def AU_PLAY : Nat := 0x40830018
def AU_I2S : Nat := 0x4083001C
def AU_CN : Nat := 0x40830020
def AU_STAT : Nat := 0x40830024
def AU_SCNT : Nat := 0x40830028
def AU_GAIN_STAT : Nat := 0x4083002C
def AU_CNT : Nat := 0x40830030
def AU_SLIP : Nat := 0x40830034

/-- Audio (18.9). AU_STAT's status fields and AU_SCNT are computed. -/
def auFields (o : Nat) : List Field :=
  if o = 0 then [fRw 0 1, fRw 1 1, fWo 30 1, fWo 31 1]
  else if o = 4 then [fRw 0 3 3 [6, 7], fRw 4 2 1 [3], fRw 16 13 256]
  else if o = 8 then [fRw 0 8, fRw 8 1, fRw 9 2, fRw 16 8]
  else if o = 0xC then [fRw 0 1, fRw 1 2, fRw 3 2, fRw 8 8, fRw 16 1, fRw 17 2, fRw 24 8]
  else if o = 0x10 then [fRw 0 5 0 [29, 30, 31], fRw 8 5 0 [29, 30, 31]]
  else if o = 0x14 then [fRw 0 1, fRw 1 5 28 [29, 30, 31], fRw 8 8 224, fRw 16 8 16, fRw 24 8 32 [0]]
  else if o = 0x18 then [fRw 0 1, fRw 1 1, fRw 2 1, fRw 3 1]
  else if o = 0x1C then [fRw 0 1, fRw 1 2 0 [3], fRw 3 1, fRw 4 2 0 [3], fRw 6 1, fRw 7 1]
  else if o = 0x20 then [fRw 0 1, fRw 1 2 0 [3]]
  else if o = 0x24 then [fRo 0 1, fW1c 1 1, fW1c 2 1, fRo 4 3]
  else if o = 0x30 then [fRc 0 8, fRc 8 8, fRc 16 8, fRc 24 8]
  else if o = 0x34 then [fRc 0 16]
  else []

def CK_STAT : Nat := 0x40200000
def CK_KA_CFG : Nat := 0x40200004
def TR_CTRL : Nat := 0x40210000
def TR_FT_CFG : Nat := 0x40210004
def TR_VT_CFG : Nat := 0x40210008
def TR_STAT : Nat := 0x4021000C
def TR_ISL (i : Nat) : Nat := 0x40210040 + 4 * i
def TR_REPLAY (i : Nat) : Nat := 0x40210080 + 4 * i
def TR_STEPS : Nat := 0x402100C0

/-- Clocks and trim (04.6). CK_STAT but for UNIT, and the step fields of TR_STAT, are computed. -/
def ckFields (o : Nat) : List Field :=
  if o = 0 then [fRo 16 4] else if o = 4 then [fRw 0 1] else []
def trFields (o : Nat) : List Field :=
  if o = 0 then [fRw 0 1 1, fRw 1 1 1, fWo 31 1]
  else if o = 4 then [fRw 0 3 0 [5, 6, 7], fRw 4 3 4 [5, 6, 7]]
  else if o = 8 then [fRw 0 4 2, fRw 8 6 0 ((List.range 23).map (· + 41))]
  else if o = 0xC then [fRo 4 1, fW1c 5 1, fW1c 6 1]
  else if 0x40 ≤ o ∧ o < 0x68 then [fRo 0 6 40, fRo 8 1, fRo 9 1, fRo 10 2]
  else if 0x80 ≤ o ∧ o < 0xA0 then [fRc 0 32]
  else if o = 0xC0 then [fRc 0 16, fRc 16 16]
  else []

def LK_CTRL : Nat := 0x40820000
def LK_WIN_X : Nat := 0x40820004
def LK_WIN_Y : Nat := 0x40820008
def LK_PERIOD : Nat := 0x4082000C
def LK_EXP : Nat := 0x40820010
def LK_ETRIM : Nat := 0x40820014
def LK_BLACK : Nat := 0x40820018
def LK_DEC : Nat := 0x4082001C
def LK_STAT : Nat := 0x40820020
def LK_EXP_STAT : Nat := 0x40820024
def LK_FRAME : Nat := 0x40820028
def LK_LOST : Nat := 0x4082002C
def LK_TIME : Nat := 0x40820030
def LK_DEF (n : Nat) : Nat := 0x40820100 + 4 * n
def LK_FDEF (n : Nat) : Nat := 0x40820200 + 4 * n

/-- Lookout (17.7). LK_TIME, LK_FDEFn and LK_EXP_STAT.ES are computed. -/
def lkFields (o : Nat) : List Field :=
  if o = 0 then [fRw 0 1, fRw 1 1, fRw 2 1, fRw 3 1, fRw 4 2 0 [3], fRw 6 2, fRw 9 1, fRw 10 1, fRw 11 1, fWo 31 1]
  else if o = 4 then [fRw 0 9, fRw 16 9 320]
  else if o = 8 then [fRw 0 8, fRw 16 8 240]
  else if o = 0xC then [fRw 0 20 33333]
  else if o = 0x10 then [fRw 0 14 4000 [0], fRw 16 2, fRw 24 8]
  else if o = 0x14 then [fRw 0 10 256 [0], fRw 10 2 3, fRw 16 14 16383 [0]]
  else if o = 0x18 then [fRw 0 10 64, fRw 16 10 896]
  else if o = 0x1C then [fRw 0 4 2]
  else if o = 0x20 then [fRo 0 1, fW1c 1 1, fW1c 2 1, fRo 4 2]
  else if o = 0x24 then [fRo 0 14 4000, fRo 14 2]
  else if o = 0x28 then [fRo 0 32]
  else if o = 0x2C then [fRc 0 16]
  else if 0x100 ≤ o ∧ o < 0x200 then [fRw 0 9, fRw 16 8, fRw 31 1]
  else []

def MU_QRD_FOFF : Nat := 0x40800100
def MU_QRD_DST : Nat := 0x40800104
def MU_QRD_CTRL : Nat := 0x40800108
def MU_QRD_STAT : Nat := 0x4080010C

/-- The QSPI reader (21 R863). -/
def muFields (o : Nat) : List Field :=
  if o = 0x100 then [fRw 12 20]
  else if o = 0x104 then [fRw 5 27]
  else if o = 0x108 then [fRw 0 16, fRw 16 3 0 [5, 6, 7], fRw 19 2, fRw 21 1, fWo 31 1]
  else if o = 0x10C then [fRo 0 1, fW1c 1 1, fRo 2 3]
  else []

def CSI_CTRL : Nat := 0x40C10000
def CSI_VC (n : Nat) : Nat := 0x40C10004 + 4 * n
def CSI_STAT : Nat := 0x40C1000C
def CSI_ERR : Nat := 0x40C10010
def CSI_CNT : Nat := 0x40C10014
def CSI_FRM (n : Nat) : Nat := 0x40C10018 + 4 * n
def CSI_LOST : Nat := 0x40C10020

/-- CSI-2 receiver (17.9). OPEN0, OPEN1 and HS of LK_CSI_STAT are computed. -/
def csiFields (o : Nat) : List Field :=
  if o = 0 then [fRw 0 1, fRw 1 1, fRw 2 1, fRw 3 1, fRw 4 1, fRw 8 8 20, fWo 31 1]
  else if o = 4 ∨ o = 8 then [fRw 0 1, fRw 1 2 0 [3], fRw 5 11, fRw 16 10]
  else if o = 0xC then [fRo 0 1, fW1c 1 1, fW1c 2 1, fRo 3 1]
  else if o = 0x10 then [fW1c 0 10]
  else if o = 0x14 then [fRc 0 8, fRc 8 8, fRc 16 8, fRc 24 8]
  else if o = 0x18 ∨ o = 0x1C then [fRo 0 16, fRo 16 16]
  else if o = 0x20 then [fRc 0 16, fRc 16 16]
  else []

/-- The slots of I²C controllers 0 and 1, and their registers (17.10). SCL and SDA of LK_I2C_STAT are computed. -/
def I2C (c : Nat) : Nat := if c = 0 then 0x40840000 else 0x40C20000
def i2cFields (o : Nat) : List Field :=
  let big := [9, 10, 11, 12, 13, 14, 15]
  if o = 0 then [fRw 0 1]
  else if o = 4 then [fRw 0 7, fRw 8 4 0 big, fRw 12 4 0 big, fWo 31 1]
  else if o = 8 ∨ o = 0xC then [fRw 0 32]
  else if o = 0x10 ∨ o = 0x14 then [fRo 0 32]
  else if o = 0x18 then [fRo 0 1, fW1c 1 1, fRo 2 3, fRo 8 4, fRo 12 1 1, fRo 13 1 1]
  else if o = 0x1C then [fWo 0 1, fWo 1 1]
  else []

/-- The fields of the CSR at an address; none where the register is computed or does not exist. -/
def csrFields (a : Nat) : List Field :=
  let o := a % 0x10000
  match a / 0x10000 with
  | 0x4000 => capFields o
  | 0x4001 => rgFields o
  | 0x4002 => ftFields o
  | 0x4008 => engFields 5 o
  | 0x4009 => engFields 5 o
  | 0x400A => engFields 5 o
  | 0x400B => engFields 5 o
  | 0x400C => engFields 4 o
  | 0x400D => engFields 4 o
  | 0x400E => engFields 3 o
  | 0x400F => engFields 3 o
  | 0x4010 => if o = 8 then [fWo 0 1] else engFields 2 o
  | 0x4011 => if o = 8 then [fWo 0 1] else engFields 2 o
  | 0x4020 => ckFields o
  | 0x4021 => trFields o
  | 0x4080 => muFields o
  | 0x4081 => cnFields o
  | 0x4082 => lkFields o
  | 0x4084 => i2cFields o
  | 0x40C1 => csiFields o
  | 0x40C2 => i2cFields o
  | 0x4083 => auFields o
  | 0x40C0 => swFields o
  | _ => []

def csrReset (a : Nat) : Word := Word.nat (resetOf (csrFields a))

/-! ### Deck registers (05 Table 5.1), by offset -/

def DK_STATE : Nat := 0x0A
def DK_CAUSE : Nat := 0x0C
def DK_STAGE : Nat := 0x0E
def DK_CTRL : Nat := 0x10
def DK_CMD : Nat := 0x12
def DK_CMDSTAT : Nat := 0x14
def DK_CMDARG_LO : Nat := 0x16
def DK_CMDARG_HI : Nat := 0x18
def DK_WIN_ADDR_LO : Nat := 0x1A
def DK_WIN_ADDR_HI : Nat := 0x1C
def DK_WIN_DATA : Nat := 0x1E
def DK_WIN_DATA_HI : Nat := 0x20
def DK_WIN_CTRL : Nat := 0x22
def DK_DOOR_RING : Nat := 0x24
def DK_DOOR_TAIL : Nat := 0x26
def DK_DOOR_STAT : Nat := 0x28
def DK_IRQ_STAT : Nat := 0x2A
def DK_IRQ_MASK : Nat := 0x2C
def DK_IRQ_RAW : Nat := 0x2E
def DK_BELL_SEL : Nat := 0x30
def DK_BELL_VAL : Nat := 0x32
def DK_BELL_VAL_HI : Nat := 0x34
def DK_CN_EVENT : Nat := 0x36
def DK_CN_SCORE : Nat := 0x38
def DK_CN_TIME : Nat := 0x3A
def DK_TRIM_STAT : Nat := 0x3C
def DK_TEMP : Nat := 0x3E
def DK_FAULT_LO : Nat := 0x40
def DK_FAULT_HI : Nat := 0x42
def DK_FAULT_SEQ : Nat := 0x44
def DK_HALT_RING : Nat := 0x46
def DK_HAIL_CFG : Nat := 0x48
def DK_LATENT_POLICY : Nat := 0x4A
def DK_TIME_LO : Nat := 0x4C
def DK_TIME_HI : Nat := 0x4E
def DK_SCRATCH0 : Nat := 0x50

/-- The fields of a Deck register (05.4–05.9). DK_ID, DK_REV, DK_REV_AUX, DK_CFG, DK_STATE, DK_IRQ_STAT,
DK_BELL_VAL and the event bits of DK_CN_EVENT are computed (Machine/Deck.lean). A write of the reserved OP 3 to DK_BELL_SEL
keeps the old OP (log 126). -/
def deckFields (o : Nat) : List Field :=
  if o = 0x08 then [fRo 0 8 1, fRo 8 8 1]
  else if o = DK_CAUSE then [fRo 0 8 1]
  else if o = DK_STAGE then [fRo 0 8, fRo 8 4, fRo 15 1]
  else if o = DK_CTRL then [fRw 0 1, fRw 1 1]
  else if o = DK_CMDSTAT then [fRo 0 1, fW1c 1 1, fRo 4 4, fRo 8 4]
  else if o = DK_CMDARG_LO ∨ o = DK_CMDARG_HI then [fRw 0 16]
  else if o = DK_WIN_ADDR_LO then [fRo 0 2, fRw 2 14]
  else if o = DK_WIN_ADDR_HI then [fRw 0 16]
  else if o = DK_WIN_DATA then [fRo 0 16]
  else if o = DK_WIN_DATA_HI then [fRw 0 16]
  else if o = DK_WIN_CTRL then [fRw 0 1 1, fRo 4 1, fRo 8 4, fWo 15 1]
  else if o = DK_DOOR_RING then [fRw 0 14]
  else if o = DK_DOOR_TAIL then [fRw 0 16]
  else if o = DK_DOOR_STAT then [fRo 0 3, fRo 4 4, fW1c 8 1]
  else if o = DK_IRQ_MASK then [fRw 0 13]
  else if o = DK_IRQ_RAW then [fRo 0 13]
  else if o = DK_BELL_SEL then [fRw 0 8, fRw 8 2 0 [3], fRo 15 1]
  else if o = DK_BELL_VAL_HI then [fRw 0 16]
  else if o = DK_CN_SCORE ∨ o = DK_CN_TIME then [fRo 0 16]
  else if o = DK_TRIM_STAT then [fRo 0 3, fRo 3 1 1, fRc 4 1, fRo 5 1, fRo 6 1]
  else if o = DK_TEMP then [fRo 0 12, fRo 12 1, fRo 13 1, fRo 14 1]
  else if o = DK_FAULT_LO ∨ o = DK_FAULT_SEQ then [fRo 0 16]
  else if o = DK_FAULT_HI then [fRo 0 11]
  else if o = DK_HALT_RING then [fRo 0 14, fRc 14 1, fRc 15 1]
  else if o = DK_HAIL_CFG then [fRw 0 1 1, fRw 1 1 1, fRw 2 1, fRw 3 1, fRw 4 1, fWo 15 1]
  else if o = DK_LATENT_POLICY then [fRw 0 1]
  else if o = DK_TIME_HI then [fRo 0 16]
  else if DK_SCRATCH0 ≤ o ∧ o < 0x58 then [fRw 0 16]
  else []

def deckReset (o : Nat) : Half := BitVec.ofNat 16 (resetOf (deckFields o))

/-! ### Accessors -/

namespace State

/-- The plain or staged copy of a CSR. -/
def reg (s : State) (a : Nat) : Word := Store.get (csrReset a) s.regs a
def setReg (s : State) (a : Nat) (v : Word) : State := { s with regs := Store.set (csrReset a) s.regs a v }
/-- A field of a CSR. -/
def rf (s : State) (a lo w : Nat) : Nat := fld (s.reg a) lo w
def rbit (s : State) (a i : Nat) : Bool := s.rf a i 1 == 1
def setRf (s : State) (a lo w x : Nat) : State := s.setReg a (putFld (s.reg a) lo w x)
/-- Adds `k` to a counter field, saturating at its largest value. -/
def bumpBy (s : State) (a lo w k : Nat) : State := s.setRf a lo w (min (s.rf a lo w + k) (2 ^ w - 1))
def bump (s : State) (a lo w : Nat) : State := s.bumpBy a lo w 1

/-- The copy in force of a staged CSR. -/
def force (s : State) (a : Nat) : Word := Store.get (csrReset a) s.inForce a
def setForce (s : State) (a : Nat) (v : Word) : State :=
  { s with inForce := Store.set (csrReset a) s.inForce a v }
def ff (s : State) (a lo w : Nat) : Nat := fld (s.force a) lo w
def fbit (s : State) (a i : Nat) : Bool := s.ff a i 1 == 1
/-- Brings the staged copies of some CSRs into force. -/
def commit (s : State) (as : List Nat) : State := as.foldl (fun s a => s.setForce a (s.reg a)) s

/-- A Deck register. -/
def dk (s : State) (o : Nat) : Half := Store.get (deckReset o) s.deck.regs o
def setDk (s : State) (o : Nat) (v : Half) : State :=
  { s with deck := { s.deck with regs := Store.set (deckReset o) s.deck.regs o v } }
def dkf (s : State) (o lo w : Nat) : Nat := fld (s.dk o) lo w
def dkbit (s : State) (o i : Nat) : Bool := s.dkf o i 1 == 1
def setDkf (s : State) (o lo w x : Nat) : State := s.setDk o (putFld (s.dk o) lo w x)

/-- A free value of `w` bits, and the state with it drawn (00 R7, log 6). -/
def draw (s : State) (w : Nat) : BitVec w × State :=
  (Config.freeValue w s.free, { s with free := s.free + 1 })

/-- `n` free bytes. -/
def drawBytes (s : State) : Nat → List Byte × State
  | 0 => ([], s)
  | n + 1 => let (b, s1) := s.draw 8; let (l, s2) := s1.drawBytes n; (b :: l, s2)

/-- Sets a Deck interrupt latch (05 R231, Table 5.5). -/
def raise (s : State) (src : Nat) : State := s.setDkf DK_IRQ_RAW src 1 1

end State

/-! Deck interrupt sources (05 Table 5.5). -/
def irqSTATE : Nat := 0
def irqCMD : Nat := 1
def irqBOOT : Nat := 2
def irqCN : Nat := 3
def irqBELL : Nat := 4
def irqHALT : Nat := 5
def irqDOOR : Nat := 6
def irqWIN : Nat := 7
def irqLATENT : Nat := 8
def irqSTALE : Nat := 9
def irqTEMP : Nat := 10
def irqSIG : Nat := 11
def irqLINK : Nat := 12

/-! ### The variant (05 DK_ID, DK_CFG; 06 R249) -/

namespace Part

def stackCount (p : Part) : Nat := match p.variant with | .vgk11 => 1 | .vgk21 => 2 | .vgk22 => 2 | .vgk42 => 4
def iob (p : Part) : Bool := match p.variant with | .vgk11 => false | .vgk21 => false | .vgk22 => true | .vgk42 => true
def code (p : Part) : Nat := match p.variant with | .vgk11 => 1 | .vgk21 => 2 | .vgk22 => 3 | .vgk42 => 4
/-- Populated Granary bytes (06 Table 6.1). -/
def granary (p : Part) : Nat := 0x1000000 * p.stackCount

end Part

end Sys2Proof.Machine
end

