-- ==== Sys2Proof/Machine/RomTables.lean ====
section
/-! DEFINITION. The feature tables of the boot ROM (19 Table 19.2), from their formulas in fixed point. -/

namespace Sys2Proof.Machine.Rom

/-- Fractional bits of the fixed-point numbers here. -/
def q : Nat := 200
/-- π. -/
def pi : Int := 0x3243f6a8885a308d313198a2e03707344a4093822299f31d008

/-- The Taylor series of the cosine: `k` more terms from the term `t` of degree `n`, `x2` being the square. -/
def cosSeries (x2 : Int) : Nat → Nat → Int → Int
  | 0, _, t => t
  | k + 1, n, t => t + cosSeries x2 k (n + 2) (-(t * x2 / 2 ^ q) / ((n + 1) * (n + 2) : Nat))

/-- cos (2π k ÷ n). -/
def cosOf (k n : Nat) : Int :=
  let x := 2 * pi * k / n
  cosSeries (x * x / 2 ^ q) 60 0 (2 ^ q)

/-- `m × x` rounded to an integer with ties away from zero; 2^-40 settles the ties that rounding errors hide. -/
def roundAway (m x : Int) : Int :=
  let v := m * x
  let r := (v.natAbs + 2 ^ (q - 1) + 2 ^ (q - 40)) / 2 ^ q
  if v < 0 then -(r : Int) else r

/-- w[n]. -/
def wEntry (n : Nat) : Nat := (roundAway 32767 ((2 ^ q - cosOf n 400) / 2)).toNat
/-- C[k]. -/
def cEntry (k : Nat) : Int := roundAway 32767 (cosOf k 512)

/-- The 41st root of `x`, bit by bit: the largest `r` with `r ^ 41 ≤ x` that `k` further bits give. -/
def root41 (x : Nat) : Nat → Nat → Nat
  | 0, r => r
  | k + 1, r => root41 x k (if (r + 2 ^ k) ^ 41 ≤ x then r + 2 ^ k else r)

/-- Fractional bits of the mel edges. -/
def mq : Nat := 100
/-- Edge f_m: 700 × ((36 ÷ 35) × (145 ÷ 12)^(m ÷ 41) − 1). -/
def edge (m : Nat) : Int :=
  let r := root41 (145 ^ m * 2 ^ (41 * mq) / 12 ^ m) (mq + 5) 0
  (700 * 36 * r / 35 : Nat) - (700 * 2 ^ mq : Nat)

def edges : Array Int := ((List.range 42).map edge).toArray

/-- round (32,768 × num ÷ den), for a quotient from 0 to 1. -/
def triRound (num den : Int) : Nat := ((32768 * num * 2 + den) / (2 * den)).toNat

/-- M[m][b]. -/
def mEntry (m b : Nat) : Nat :=
  let f : Int := (b : Int) * 125 * 2 ^ mq / 4
  let a := edges.getD m 0
  let c := edges.getD (m + 1) 0
  let d := edges.getD (m + 2) 0
  if a ≤ f ∧ f ≤ c then triRound (f - a) (c - a)
  else if c < f ∧ f ≤ d then triRound (d - f) (d - c)
  else 0

def wTable : Array Nat := ((List.range 400).map wEntry).toArray
def cTable : Array Int := ((List.range 512).map cEntry).toArray
def mTable : Array Nat := ((List.range 10280).map fun i => mEntry (i / 257) (i % 257)).toArray

/-- The byte of the tables at an offset of the ROM, where one lies there (19 Table 19.2). -/
def byte (o : Nat) : Option Byte :=
  let half (v o : Nat) : Byte := BitVec.ofNat 8 (v / 2 ^ (8 * (o % 2)))
  if 0xA000 ≤ o ∧ o < 0xA320 then some (half (wTable.getD ((o - 0xA000) / 2) 0) o)
  else if 0xA400 ≤ o ∧ o < 0xA800 then some (half (wrap 16 (cTable.getD ((o - 0xA400) / 2) 0)) o)
  else if 0xA800 ≤ o ∧ o < 0xF850 then some (half (mTable.getD ((o - 0xA800) / 2) 0) o)
  else none

end Sys2Proof.Machine.Rom
end

