-- ==== Sys2Proof/Machine/Memory.lean ====
section
/-! DEFINITION. The address map, reads and writes of memory under ECC, and ECC error records (06.1, 06.5). -/

namespace Sys2Proof.Machine

/-- What an address names (06 Table 6.1). -/
inductive Space where
  | pantry | ringTable | granary | csr | cnSram | itcm | dtcm | remote | rom | hole
deriving DecidableEq, Repr

/-- The CSR slots that are populated (06 Table 6.2). -/
def slotPopulated (p : Part) (i : Nat) : Bool :=
  decide (i ≤ 0x11) || i == 0x20 || i == 0x21 || (decide (0x80 ≤ i) && decide (i ≤ 0x84)) ||
    (p.iob && decide (0xC0 ≤ i) && decide (i ≤ 0xC2))

/-- What an address names on a part (06 R249, R250). -/
def spaceOf (p : Part) (a : Nat) : Space :=
  if a < 0x380000 then .pantry
  else if a < 0x400000 then .ringTable
  else if a < 0x10000000 then .hole
  else if a < 0x10000000 + p.granary then .granary
  else if a < 0x40000000 then .hole
  else if a < 0x50000000 then (if slotPopulated p ((a - 0x40000000) / 0x10000) then .csr else .hole)
  else if a < 0x50040000 then .cnSram
  else if a < 0x60000000 then .hole
  else if a < 0x60020000 then .itcm
  else if a < 0x61000000 then .hole
  else if a < 0x61010000 then .dtcm
  else if a < 0x70000000 then .hole
  else if a < 0x74000000 then (if p.iob then .remote else .hole)
  else if a < 0xF0000000 then .hole
  else if a < 0xF0010000 then .rom
  else .hole

/-- Bytes of the ECC code word at an address; 0 where the memory has no SECDED (R266; 19 R785). -/
def wordSize (a : Nat) : Nat :=
  if a < 0x400000 then 8 else if a < 0x40000000 then 8
  else if 0x60000000 ≤ a ∧ a < 0x62000000 then 4
  else if 0x50000000 ≤ a ∧ a < 0x50040000 then 4 else 0

/-- The memory number of RG_ECC_CNTk and RG_ECC_INFO.MEM (06 R274, R277). -/
def memNumber (p : Part) (a : Nat) : Nat :=
  if a < 0x400000 then 0
  else if a < 0x40000000 then 3 + (a - 0x10000000) / 256 % (2 * p.stackCount) / 2
  else if a < 0x61000000 then 1 else 2

/-! Readers of RG_ECC_INFO.SRC (06.5). -/
def srcScrub : Nat := 0
def srcBosun : Nat := 1
def srcCapstan : Nat := 2
def srcWindow : Nat := 3
def srcPeer : Nat := 4
def srcLoom : Nat := 5
def srcHarrow : Nat := 6
def srcMill : Nat := 7
def srcHalyard : Nat := 9
def srcBind : Nat := 10

/-- Why an access has no data: an uncorrectable code word, a remote failure, or a run not yet read from the
peer. -/
inductive MemErr where
  | ecc (addr : Nat)
  | remote (reason : Nat)
  | wait (addr len : Nat)
deriving DecidableEq, Repr

/-- The boot ROM: the tables of 19 Table 19.2, and bytes that no table gives (06 R249, log 8). -/
def romByte (a : Nat) : Byte := (Rom.byte (a - 0xF0000000)).getD (Config.romByte (a - 0xF0000000))

/-- The canonical form of memory: addresses strictly rise, and no entry is 0, which an unlisted address reads as
(log 5). -/
def Memory.wf (m : List Host.Cell) : Bool := Store.wf 0 m

namespace State

/-- The compute die is up: HOVE_TO or UNDERWAY. -/
def dieUp (s : State) : Bool := decide (s.dev.mode = .hoveTo ∨ s.dev.mode = .underway)

/-- The bytes of memory as last written, with no ECC effect. -/
def peek (s : State) (a n : Nat) : List Byte :=
  if 0xF0000000 ≤ a then (List.range n).map fun i => Machine.romByte (a + i) else Store.getRun 0 s.mem a n

/-- One byte of memory. -/
def byteAt (s : State) (a : Nat) : Byte :=
  if 0xF0000000 ≤ a then Machine.romByte a else Store.get 0 s.mem a

/-- The little-endian word at an address, with no ECC effect. -/
def peekWord (s : State) (a : Nat) : Word := leWord (s.peek a 4)

/-- Puts bytes in memory with no ECC effect. -/
def poke (s : State) (a : Nat) (l : List Byte) : State := { s with mem := Store.setRun 0 s.mem a l }

/-- An address of the Crowsnest SRAM. -/
def inCn (a : Nat) : Bool := decide (0x50000000 ≤ a) && decide (a < 0x50040000)

/-- A write of an address of the Crowsnest SRAM is ignored now (19 R784). -/
def cnShut (s : State) (a : Nat) : Bool :=
  let k := s.rbit CN_CTRL 0
  let g := s.rbit CN_CTRL 1
  inCn a && ((k && decide (a < 0x50008000)) || (g && decide (0x50008000 ≤ a) && decide (a < 0x50010000)) ||
    ((k || g) && decide (0x50010000 ≤ a) && decide (a < 0x50030000)))

/-- What a reader gets of the bytes from `a`: those of the Crowsnest's working area are free values while a network is
enabled (19 R784). -/
def readBytes (s : State) (a n : Nat) : List Byte × State :=
  let l := s.peek a n
  if (s.rbit CN_CTRL 0 || s.rbit CN_CTRL 1) && decide (a < 0x50030000) && decide (0x50010000 < a + n) then
    let (fs, s) := s.drawBytes n
    (((l.zip fs).zipIdx.map fun ((x, f), i) => if 0x50010000 ≤ a + i ∧ a + i < 0x50030000 then f else x), s)
  else (l, s)

/-- Counts an error of the Crowsnest SRAM (19 R785). -/
def noteCnEcc (s : State) (a : Nat) (ue : Bool) : State :=
  if ue then (s.bump CN_ECC 16 16).setReg CN_ECC_ADDR (Word.nat a)
  else (s.bump CN_ECC 0 16).bump FT_CE_ECC 0 32

/-- Counts and records one ECC error (06 R267, R268, R274); the syndrome is a free value (log 6). -/
def noteEcc (s : State) (src a : Nat) (ue : Bool) : State :=
  if inCn a then s.noteCnEcc a ue
  else
  let k := memNumber s.part a
  let s := s.bump (RG_ECC_CNT k) (if ue then 16 else 0) 16
  let s := if ue then s else s.bump FT_CE_ECC 0 32
  if s.rbit RG_ECC_INFO 31 && !(ue && !s.rbit RG_ECC_INFO 4) then s
  else
    let (syn, s) := s.draw 8
    (s.setReg RG_ECC_ADDR (Word.nat a)).setReg RG_ECC_INFO
      (Word.nat (k + b2n ue * 16 + src * 256 + syn.toNat * 65536 + 2 ^ 31))

def setEcc (s : State) (w : Nat) (e : Ecc) : State := { s with ecc := Store.set .ok s.ecc w e }

/-- The damaged code words that the `n` bytes from `a` touch, lowest first. -/
def damaged (s : State) (a n : Nat) : List (Nat × Ecc) :=
  if n = 0 then [] else s.ecc.filter fun e => decide (e.1 < a + n) && decide (a < e.1 + wordSize e.1)

/-- A read's ECC check of every code word it touches: single errors are corrected and written back; the
lowest uncorrectable word is answered (06 R267, R268). A correction's write-back is no write to an armed target (log 129). -/
def eccRead (s : State) (src a n : Nat) : State × Option Nat :=
  (s.damaged a n).foldl (fun (s, ue) (w, e) =>
    match e with
    | .single => ((s.noteEcc src w false).setEcc w .ok, ue)
    | .double => (s.noteEcc src w true, match ue with | some x => some x | none => some w)
    | .ok => (s, ue)) (s, none)

/-- An armed injection meets a write of the bytes from `a` to `a + n - 1` (06 R275). -/
def injectOn (s : State) (a n : Nat) : State :=
  match s.inject with
  | none => s
  | some i =>
    if n ≠ 0 ∧ i.word < a + n ∧ a < i.word + wordSize i.word then
      { (s.setEcc i.word i.kind).setReg RG_ECC_INJ 0 with inject := none }
    else s

/-- A write of bytes under ECC: whole code words replace theirs; a partly written word is corrected first, or,
if it is uncorrectable, not written and answered (06 R269, R275). -/
def eccPut (s : State) (src a : Nat) (l : List Byte) : State × Option Nat :=
  let n := l.length
  if n = 0 then (s, none)
  else
    let whole (w : Nat) : Bool := decide (a ≤ w) && decide (w + wordSize w ≤ a + n)
    let (s, bad) := (s.damaged a n).foldl (fun (s, bad) (w, e) =>
      if whole w then (s.setEcc w .ok, bad)
      else match e with
        | .single => ((s.noteEcc src w false).setEcc w .ok, bad)
        | .double => (s.noteEcc src w true, bad ++ [w])
        | .ok => (s, bad)) (s, ([] : List Nat))
    let size := max (wordSize a) 1
    let first := a / size * size
    let last := (a + n - 1) / size * size
    let (b, l) := if bad.contains first then (first + size, l.drop (first + size - a)) else (a, l)
    let l := if bad.contains last ∧ last ≠ first then l.take (last - b) else l
    ((s.poke b l).injectOn b l.length, bad.head?)

/-- A write of bytes; those the Crowsnest shuts out are ignored and set WPROT, area by area (19 R784). -/
def eccWrite (s : State) (src a : Nat) (l : List Byte) : State × Option Nat :=
  if (List.range l.length).any fun i => s.cnShut (a + i) then
    let s0 := s
    [(0x50000000, 0x50008000), (0x50008000, 0x50010000), (0x50010000, 0x50030000), (0x50030000, 0x50040000)].foldl
      (fun (s, ue) (lo, hi) =>
        let b := max a lo
        let e := min (a + l.length) hi
        if b < e ∧ s0.cnShut b = false then
          let (s, u) := s.eccPut src b ((l.drop (b - a)).take (e - b))
          (s, match ue with | some x => some x | none => u)
        else (s, ue)) (s.setRf CN_STAT 4 1 1, (none : Option Nat))
  else s.eccPut src a l

/-- A descriptor's read of a run: its bytes, or why it has none. Runs of the Sweade window come from what has
been read of the peer so far (20 R821, R826). -/
def readMem (s : State) (src a n : Nat) : State × Option MemErr × List Byte :=
  if spaceOf s.part a = .remote then
    match s.view.find? fun r => r.addr == a && r.len == n with
    | some r => (s, r.fail.map .remote, r.data)
    | none => (s, some (.wait a n), [])
  else
    let (s, ue) := s.eccRead src a n
    let (l, s) := s.readBytes a n
    (s, ue.map .ecc, l)

/-- A descriptor's write of a run; runs of the Sweade window are sent to the peer. -/
def writeMem (s : State) (src a : Nat) (l : List Byte) : State × Option MemErr :=
  if spaceOf s.part a = .remote then ({ s with viewOut := s.viewOut ++ [(a, l)] }, none)
  else
    let (s, ue) := s.eccWrite src a l
    (s, ue.map .ecc)

end State

end Sys2Proof.Machine
end

