-- ==== Sys2Proof/Machine/Device.lean ====
section
/-! DEFINITION. Fault records, device-state transitions, HAIL lines, BECALMED entry and the reset kinds
(03, 16.6). -/

namespace Sys2Proof.Machine

/-- LK_TIME: the millisecond count and a free fraction of a millisecond (17 LK_TIME; log 1). -/
def State.lkTime (s : State) : Word × State :=
  let (x, s) := s.draw 32
  (s.deck.ms * 1000 + Word.nat (x.toNat % 1000), s)

/-! ### HAIL (03.9) -/

def hexDigit (n : Nat) : Byte := BitVec.ofNat 8 (if n % 16 < 10 then 48 + n % 16 else 55 + n % 16)
/-- `k` upper-case hexadecimal digits. -/
def hexDigits : Nat → Nat → List Byte
  | 0, _ => []
  | k + 1, x => hexDigits k (x / 16) ++ [hexDigit x]
/-- `k` decimal digits. -/
def decDigits : Nat → Nat → List Byte
  | 0, _ => []
  | k + 1, x => decDigits k (x / 10) ++ [BitVec.ofNat 8 (48 + x % 10)]
def ascii (l : List Nat) : List Byte := l.map (BitVec.ofNat 8)
def comma : List Byte := [44]

/-- The three letters of a state (03 Table 3.10). -/
def Mode.letters : Mode → List Byte
  | .muster => ascii [77, 85, 83]
  | .becalmed => ascii [66, 69, 67]
  | .hoveTo => ascii [72, 79, 86]
  | .underway => ascii [85, 78, 68]
  | .reefed => ascii [82, 69, 69]
  | .moored => []

/-- DK_STATE.STATE (05.4); MOORED is never read. -/
def Mode.code : Mode → Nat
  | .moored => 0 | .muster => 1 | .becalmed => 2 | .hoveTo => 3 | .underway => 4 | .reefed => 5

namespace State

/-- The whole line of 03 R150 sampled now, with CR and LF. -/
def hailLine (s : State) : List Byte :=
  let t := sgn 12 (s.dkf DK_TEMP 0 12) / 4
  let body := ascii [71, 76, 75] ++ comma ++ s.dev.mode.letters ++ comma ++ hexDigits 2 (s.dkf DK_CAUSE 0 8) ++ comma
    ++ hexDigits 4 (s.dk DK_STAGE).toNat ++ comma
    ++ hexDigits 4 (s.dk DK_FAULT_HI).toNat ++ hexDigits 4 (s.dk DK_FAULT_LO).toNat ++ comma
    ++ hexDigits 4 (s.dk DK_FAULT_SEQ).toNat ++ comma
    ++ (if t < 0 then [45] else [43]) ++ decDigits 3 t.natAbs ++ comma
    ++ decDigits 5 s.dev.hail.count
  [35] ++ body ++ [42] ++ hexDigits 2 (body.foldl (fun a b => Nat.xor a b.toNat) 0) ++ [13, 10]

/-- The units that a stage tests one after another; GRANARY_MBIST counts its stacks itself (03 Table 3.4). -/
def stageUnits (st : Nat) : Nat :=
  match st with
  | 2 => 4 | 3 => 3 | 4 => 3 | 6 => 4 | 7 => 3 | 8 => 2 | 10 => 3 | _ => 1

/-- A Muster stage runs: in MUSTER before the boot flow, or in a cold wake. -/
def mustering (s : State) : Bool :=
  !s.dev.booting && (decide (s.dev.mode = .muster) || (decide (s.dev.mode = .reefed) && s.dev.waking && s.dev.cold)) &&
    decide (1 ≤ s.dkf DK_STAGE 0 8) && decide (s.dkf DK_STAGE 0 8 ≤ 10)

/-- DK_STAGE.UNIT as it stands when it is sampled: which of a running stage's units is under test then is a free choice
(03 R120; log 20). -/
def testUnit (s : State) : State :=
  let n := stageUnits (s.dkf DK_STAGE 0 8)
  if s.mustering && decide (1 < n) then
    let (x, s) := s.draw 8
    s.setDkf DK_STAGE 8 4 (x.toNat % n)
  else s

/-- A line starts: its fields are sampled now (03 R152). -/
def hailStart (s : State) : State :=
  let s := s.testUnit
  { s with dev := { s.dev with hail := { s.dev.hail with
      sending := s.hailLine, count := (s.dev.hail.count + 1) % 100000 } } }

/-- A line falls due: it starts, or waits behind the line being sent (05 R235). -/
def hailDue (s : State) : State :=
  let bec := decide (s.dev.mode = .becalmed)
  if s.dev.hail.sending = [] then s.hailStart
  else
    let w := match s.dev.hail.waiting with
      | some true => some true
      | _ => some bec
    { s with dev := { s.dev with hail := { s.dev.hail with waiting := w } } }

/-- A line ends and a waiting line starts (03 R152). -/
def hailEnd (s : State) : State :=
  let s' := { s with dev := { s.dev with hail := { s.dev.hail with sending := [], waiting := none } } }
  match s.dev.hail.waiting with
  | some _ => s'.hailStart
  | none => s'

/-! ### Transitions (03 Table 3.8) -/

/-- The frame in progress as the device enters a state (17 R720). -/
def frameEnters (f : Frame) (m : Mode) : Frame :=
  let up := decide (m = .hoveTo ∨ m = .underway)
  { f with live := if f.live = some up then f.live else none }

/-- Enters a device state: DK_STATE, the STATE source, the line counter and the HAIL line that DK_HAIL_CFG
enables (03 R134, R150, R151; 05 DK_HAIL_CFG). -/
def enter (s : State) (m : Mode) : State :=
  let old := s.dev.mode
  let s := { s with dev := { s.dev with mode := m, hail := { s.dev.hail with count := 0 } }
                    lk := { s.lk with frame := s.lk.frame.map fun f => frameEnters f m } }
  let work := decide (old = .hoveTo ∧ m = .underway)
  let idle := decide (old = .underway ∧ m = .hoveTo)
  let s := if work || idle then s else s.raise irqSTATE
  let line := match m with
    | .muster => s.dkbit DK_HAIL_CFG 0
    | .hoveTo => if idle then s.dkbit DK_HAIL_CFG 4 else s.dkbit DK_HAIL_CFG 1
    | .reefed => s.dkbit DK_HAIL_CFG 2
    | .underway => s.dkbit DK_HAIL_CFG 3
    | _ => false
  if line then s.hailDue else s

/-- The condition of 03 R135 that makes the device UNDERWAY. -/
def working (s : State) : Bool :=
  !s.cap.flights.isEmpty ||
  s.cap.rings.any (fun (_, r) => decide (r.st = .halted) || (decide (r.st = .enabled) && decide (r.head ≠ r.tail))) ||
  !s.cap.binds.isEmpty

/-- HOVE_TO and UNDERWAY follow the condition of 03 R135. -/
def updateWork (s : State) : State :=
  match s.dev.mode with
  | .hoveTo => if s.working then s.enter .underway else s
  | .underway => if s.working then s else s.enter .hoveTo
  | _ => s

def setCause (s : State) (c : Nat) : State :=
  if s.dev.mode = .becalmed then s else s.setDkf DK_CAUSE 0 8 c

/-! ### Fault records (16 R697–R700) -/

/-- Writes a fault record and its Deck mirrors; none once BECALMED (16 R698, R699; 05 R234).
`cls` is 2 L, 3 E, 4 F; `at?` is the ring and entry. -/
def recordFault (s : State) (cls code : Nat) (multi : Bool) (detail : Word) (at? : Option (Nat × Nat)) (addr : Nat) :
    State :=
  if s.dev.mode = .becalmed then s
  else
    let seq := (s.dkf DK_FAULT_SEQ 0 16 + 1) % 65536
    let s := s.setReg (FT_REC 0) (Word.nat (code + cls * 256 + b2n multi * 2048 + seq * 65536))
    let s := s.setReg (FT_REC 1) detail
    let s := s.setReg (FT_REC 2) (match at? with
      | some (r, k) => Word.nat (r + 2 ^ 14 + k * 65536)
      | none => 0)
    let s := s.setReg (FT_REC 3) (Word.nat addr)
    let s := s.setReg (FT_REC 4) s.deck.ms
    let s := s.setDk DK_FAULT_LO (BitVec.ofNat 16 detail.toNat)
    let s := s.setDk DK_FAULT_HI (BitVec.ofNat 16 (code + cls * 256))
    let s := s.setDk DK_FAULT_SEQ (BitVec.ofNat 16 seq)
    if cls = 3 then s.bump FT_ECNT 0 32 else if cls = 2 then s.bump FT_LATENT 0 32 else s

/-- The pair is clocked: the compute die is up, in MUSTER too, or a wake has its supply (03 R127, R143; 16 R684). -/
def pairRuns (s : State) : Bool :=
  match s.dev.mode with
  | .muster | .hoveTo | .underway => true
  | .reefed => s.dev.waking && s.dev.vinOk
  | _ => false

/-- Bosun executes for some KB cycles more: how many is a free value (14 R613; log 1). -/
def passCycles (s : State) : State :=
  let (x, s) := s.draw 32
  { s with bosun := { s.bosun with cycle := (s.bosun.cycle + x.toNat) % 2 ^ 64 } }

/-- A class F fault met while the device is BECALMED: a free choice makes it one of the recorded fault's KF cycle. Then MULTI is
set and the lower code stands. A parity error supersedes a LOCK_MISMATCH of the 4 KB cycles before it, and is then
recorded alone; COMP_FAULT and LOCK_MISMATCH exclude each other in one comparison (16 R682, R683, R696; log 116). -/
def mergeFault (s : State) (code : Nat) (detail : Word) (addr : Nat) : State :=
  let old := s.rf (FT_REC 0) 0 8
  let (x, s) := s.draw 1
  if x = 0 ∨ s.rf (FT_REC 0) 8 3 ≠ 4 ∨ (old = 0x22 ∧ code = 0x20) ∨ (old = 0x20 ∧ code = 0x21) ∨
      (old = 0x21 ∧ code = 0x20) then s
  else
    let parity := decide (old = 0x20 ∧ code = 0x22)
    let s := if parity then s else s.setRf (FT_REC 0) 11 1 1
    if parity ∨ code < old then
      let s := ((s.setRf (FT_REC 0) 0 8 code).setReg (FT_REC 1) detail).setReg (FT_REC 3) (Word.nat addr)
      ((s.setDk DK_FAULT_LO (BitVec.ofNat 16 detail.toNat)).setDkf DK_FAULT_HI 0 8 code).setDkf DK_CAUSE 0 8 code
    else s

/-- Nothing that follows is of the recorded fault's KF cycle. -/
def closeTie (s : State) : State := { s with dev := { s.dev with tie := none } }

/-- The class E record of an ECC error outside a ring (16 R698, Table 16.5). RG_ECC_INFO gives the Crowsnest SRAM no
number: MEM is a free value there. -/
def recordEcc (s : State) (src a : Nat) : State :=
  let (mem, s) := if inCn a then let (x, s) := s.draw 3; (x.toNat, s) else (memNumber s.part a, s)
  s.recordFault 3 0x30 false (Word.nat (mem + src * 16)) none a

/-! ### The Sweade port leaves LINKED (20 R814, R836) -/

/-- Every operation without a response fails DOWN, Bell operations that wait are dropped, and the next session starts
afresh. -/
def linkDown (s : State) : State :=
  if s.sw.linked then
    let s := ((s.bumpBy SW_CNT1 24 8 s.sw.bellQ.length).bump SW_CNT1 8 8).raise irqLINK
    { s with sw := { s.sw with
      linked := false, paired := false, peer := [], own := [], slots := 0, rxSeq := 0, txSeq := 0, nak := false
      replay := [], next := 0, crq := {}, crs := {}, cms := {}, bellQ := [], rspQ := [], msgQ := []
      ops := s.sw.ops.map fun o => { o with answer := some (o.answer.getD (1, [])) } } }
  else s

/-- A Deck read returns a value: in 8-bit mode its low byte, with its high byte held for the slot (05 R211). -/
def deckReturn (s : State) (o : Nat) (v : Half) : State :=
  { s with deck :=
    if s.dev.straps.busw then
      { s.deck with data := BitVec.ofNat 16 (v.toNat % 256), readHold := some (o / 2, BitVec.ofNat 8 (v.toNat / 256)) }
    else { s.deck with data := v } }

/-- What a DK_WIN_DATA read returns (05 R214). -/
def winReturn (s : State) (v : Word) : State :=
  let s := s.setDk DK_WIN_DATA_HI (BitVec.ofNat 16 (v.toNat / 65536))
  (s.setDk DK_WIN_DATA (BitVec.ofNat 16 v.toNat)).deckReturn DK_WIN_DATA (BitVec.ofNat 16 v.toNat)

/-- The host operations that wait for no doorbell, Bell or window write once the Capstan is stopped: a Bell operation does
nothing then, and the command that waited has ended (03 R145; 05 R227, R229; log 110). -/
def dropHost (s : State) : State :=
  let door (d : HostOp) : Bool := match d with | .door _ _ => true | _ => false
  { s with deck := { s.deck with
      doors := s.deck.doors.filter door
      win := s.deck.win.map fun w => { w with ahead := ((s.deck.doors.take w.ahead).filter door).length } } }

/-- A window access to the peer fails as the link goes (05 R224; 20 R836). -/
def winDown (s : State) : State :=
  match s.deck.win with
  | some w =>
    if w.remote then
      let s := { s with deck := { s.deck with win := none } }
      let s := if w.write.isSome || w.late then s else s.winReturn 0
      ((s.setDkf DK_WIN_CTRL 4 1 0).setDkf DK_WIN_CTRL 8 4 8).raise irqWIN
    else s
  | none => s

/-- Islands 0 to 7 go to code 40 (03 R145; 04 R181, R182, R201). -/
def codes40 (s : State) : State :=
  (List.range 8).foldl (fun s i =>
    let s := s.setReg (TR_ISL i) (putFld (putFld (s.reg (TR_ISL i)) 0 6 40) 8 2 0)
    let x := Store.get {} s.trim.islands i
    { s with trim := { s.trim with islands := Store.set {} s.trim.islands i { x with streak := 0, low := 0 } } }) s

/-- A DK_CMD command finishes (05 R219). -/
def finishCmd (s : State) (op result : Nat) : State :=
  let s := { s with dev := { s.dev with command := none } }
  (s.setDk DK_CMDSTAT (BitVec.ofNat 16 (2 + result * 16 + op * 256))).raise irqCMD

/-! ### I²C (17 R735, R737) -/

def i2cRun (s : State) (c : Nat) : Option I2cRun := Store.get none s.i2c c
def setI2c (s : State) (c : Nat) (r : Option I2cRun) : State := { s with i2c := Store.set none s.i2c c r }
def setI2cOut (s : State) (c : Nat) (l : List I2cSym) : State := { s with i2cOut := Store.set [] s.i2cOut c l }

/-- What a transfer sends, up to `n` of its data bytes and, where `again`, its repeated address. -/
def i2cSends (r : I2cRun) (n : Nat) (again : Bool) : List I2cSym :=
  [.start, .byte (BitVec.ofNat 8 (2 * r.addr))] ++ (r.data.take n).map I2cSym.byte ++
    (if again then [.start, .byte (BitVec.ofNat 8 (2 * r.addr + 1))] else [])

/-- A transfer ends where it stands, which is a free choice: how many bytes have been acknowledged, and what the lines have
carried, with a STOP where `stop` lets the controller send one (03 R146; 17 R737). -/
def i2cCut (s : State) (c : Nat) (stop : Bool) : Nat × State :=
  match s.i2cRun c with
  | none => (0, s)
  | some r =>
    let (x, s) := s.draw 32
    let n := x.toNat % (r.wcnt + 1)
    let again := decide (n = r.wcnt ∧ r.rcnt ≠ 0) && x.toNat / 16 % 2 == 1
    let l := i2cSends r (n + x.toNat / 32 % 2) again ++ (if stop && x.toNat / 64 % 2 == 1 then [.stop] else [])
    (n, (s.setI2c c none).setI2cOut c l)

/-- A controller stops in the middle of a transfer, which ends with no result: in BECALMED, or as its die loses its supply
(03 R146; 02 R68). -/
def i2cStop (s : State) (c : Nat) : State :=
  let s := if s.rbit (I2C c + 0x18) 0 then s.setRf (I2C c + 0x18) 0 1 0 else s
  (s.i2cCut c false).2

/-- What entry to BECALMED does to the units outside the Capstan and Bosun: the islands are parked, I²C transfers and
open CSI-2 frames end, the outputs take their safe states, and the QSPI reader stops, leaving its destination undefined
(03 R145, R146; 21 R865). -/
def safeStates (s : State) : State :=
  let s := s.codes40
  let s := (s.i2cStop 0).i2cStop 1
  let s := match s.dev.reader with
    | some r =>
      let (l, s) := s.drawBytes (4096 * r.n)
      { (s.eccWrite srcHalyard r.dst l).1.setRf MU_QRD_STAT 0 1 0 with dev := { s.dev with reader := none } }
    | none => s
  { s with
    csi := []
    lk := { s.lk with frame := s.lk.frame.map fun f => { f with strobe := false } }
    audio := { s.audio with dac := (0, 0), tx := [] } }

/-- A class F fault abandons a BIND: what its commit phase may have touched is undefined (21 R858). -/
def spoilBind (s : State) : State :=
  s.dev.bindDest.foldl (fun s (a, n) => let (l, s) := s.drawBytes n; (s.eccWrite srcBind a l).1) s

/-- Entry to BECALMED on a class F fault or a Muster failure, or a further fault met there: the fault record, DK_CAUSE, every descriptor in
flight abandoned, Bosun halted, the islands parked and every running save, wake, BIND and boot ended; a command that
runs finishes with FAILED (03 R145, R153, R160; 05 R219, Table 5.2; 16 R699; log 31). -/
def becalm (s : State) (code : Nat) (multi : Bool) (detail : Word) (addr : Nat := 0) : State :=
  if s.dev.mode = .moored then s
  else if s.dev.mode = .becalmed then (if s.dev.tie.isSome then s.mergeFault code detail addr else s)
  else
    let pair := s.pairRuns
    let s := if s.bosun.run then s.passCycles else s
    let s := ((s.recordFault 4 code multi detail none addr).setCause code).linkDown.winDown.dropHost.safeStates.spoilBind
    let s := { s with
      cap := { s.cap with flights := [] }
      sw := { s.sw with st := .detect, ops := [], inbox := [], tx := none }
      bosun := { s.bosun with wait := none, run := false }
      dev := { s.dev with
        stopping := false, binding := false, bindDest := [], bindStale := false, waking := false, cold := false
        booting := false, wakeKept := false, coreEn := true
        tie := some pair
        retained := s.dev.retained && !s.dev.reefing, reefing := false } }
    let s := s.enter .becalmed
    match s.dev.command with
    | some c => s.finishCmd c.op 5
    | none => s

end State

end Sys2Proof.Machine
end

