-- ==== Sys2Proof/Machine/Regions.lean ====
section
/-! DEFINITION. The region table: admission checks, accesses by Bosun and the peer, reference counts, commits,
the scrubber and ECC injection (06.3–06.5). -/

namespace Sys2Proof.Machine

/-- A range that a descriptor names: first and last byte, unbounded, and its direction (06 R255); an absent one keeps
its number and has `hi < lo`. -/
structure Range where
  lo : Int
  hi : Int
  reads : Bool
  writes : Bool
deriving DecidableEq, Repr

/-- A numbered range that is absent. -/
def Range.absent : Range := ⟨0, -1, false, false⟩

/-- The attribute bit of an engine class: Loom 8, Harrow 9, Mill 10, Halyard 12 (06 RG_ATTRn). -/
def classAttr (cls : Nat) : Nat := if cls = 4 then 12 else 8 + cls

/-- The region entries of a BASE, LIMIT and ATTR: what they cover (06 R254). -/
structure Entry where
  lo : Nat
  hi : Nat
  attr : Nat
deriving DecidableEq, Repr

def Entry.valid (e : Entry) : Bool := e.attr.testBit 0
/-- Whether two byte intervals, neither of them empty, meet. -/
def overlaps (lo hi lo' hi' : Int) : Bool :=
  decide (lo ≤ hi) && decide (lo' ≤ hi') && decide (lo ≤ hi') && decide (lo' ≤ hi)

namespace State

def regionForce (s : State) (n : Nat) : Entry :=
  ⟨(s.force (RG_BASE n)).toNat, (s.force (RG_LIMIT n)).toNat, (s.force (RG_ATTR n)).toNat⟩
def regionStaged (s : State) (n : Nat) : Entry :=
  ⟨(s.reg (RG_BASE n)).toNat, (s.reg (RG_LIMIT n)).toNat, (s.reg (RG_ATTR n)).toNat⟩

/-- The lowest-numbered entry in force with every bit of `need` that wholly contains an interval. -/
def findRegion (s : State) (lo hi : Int) (need : List Nat) : Option Nat :=
  (List.range 64).find? fun n =>
    let e := s.regionForce n
    e.valid && decide ((e.lo : Int) ≤ lo) && decide (hi ≤ (e.hi : Int)) && need.all e.attr.testBit

/-- The region check of a descriptor: the entries to charge, or the failing range (06 R256). -/
def regionCheck (s : State) (cls : Nat) : List Range → Nat → List Nat → Except Nat (List Nat)
  | [], _, charged => .ok charged
  | r :: rs, i, charged =>
    if r.hi < r.lo then s.regionCheck cls rs (i + 1) charged
    else if r.lo < 0 ∨ r.hi > 0xFFFFFFFF then .error i
    else
      let need := [classAttr cls] ++ (if r.reads then [1] else []) ++ (if r.writes then [2] else [])
      match s.findRegion r.lo r.hi need with
      | none => .error i
      | some n => s.regionCheck cls rs (i + 1) (NSet.insert charged n)

/-- A range meets the range in force or the staged range of a pending entry (06 R261). -/
def pendingHold (s : State) (rs : List Range) : Bool :=
  s.rgPend.any fun n => [s.regionForce n, s.regionStaged n].any fun e =>
    e.valid && rs.any fun r => overlaps e.lo e.hi r.lo r.hi

def charge (s : State) (es : List Nat) : State :=
  { s with rgRef := es.foldl (fun m n => Store.set 0 m n (Store.get 0 m n + 1)) s.rgRef }
def uncharge (s : State) (es : List Nat) : State :=
  { s with rgRef := es.foldl (fun m n => Store.set 0 m n (Store.get 0 m n - 1)) s.rgRef }

/-- RG_STAT.PEND follows the pending set (06.4). -/
def syncPend (s : State) : State := s.setRf RG_STAT 0 1 (b2n (!s.rgPend.isEmpty))

end State

/-! ### Commits (06.4) -/

/-- One memory wholly holds an interval (06 R264, check 2). -/
def oneMemory (p : Part) (lo hi : Nat) : Bool :=
  let inn (a b : Nat) : Bool := decide (a ≤ lo) && decide (hi ≤ b)
  inn 0 0x3FFFFF || inn 0x10000000 (0x10000000 + p.granary - 1) || inn 0x60000000 0x6001FFFF ||
    inn 0x61000000 0x6100FFFF || inn 0x50000000 0x5003FFFF || inn 0xF0000000 0xF000FFFF ||
    (p.iob && inn 0x70000000 0x73FFFFFF) ||
    (decide (0x40000000 ≤ lo) && decide (hi < 0x50000000) && lo / 0x10000 == hi / 0x10000 &&
      slotPopulated p ((lo - 0x40000000) / 0x10000))

/-- The first check of 06 R264 that a region entry fails, as RG_STAT.REJ_WHY. 04 R185 calls the CK_ and TR_ blocks readable by
Halyard descriptors, but 06 R253 and R264 let no entry with an engine's attribute cover CSR space: the model follows 06, so
no descriptor range reaches a CSR (log 121). -/
def regionReject (p : Part) (e : Entry) : Option Nat :=
  if !e.valid then none
  else if e.lo > e.hi then some 0
  else if !oneMemory p e.lo e.hi then some 1
  else if overlaps e.lo e.hi 0x380000 0x3FFFFF && !decide (e.attr % 2 ^ 13 / 16 = 0 ∧ !e.attr.testBit 2) then some 2
  else if (decide (0xF0000000 ≤ e.lo) && e.attr.testBit 2) ||
      (decide (0x40000000 ≤ e.lo ∧ e.lo < 0x50000000) && [5, 8, 9, 10, 12].any e.attr.testBit) then some 3
  else none

/-- RG_CTLn.COMMIT: sets PEND (06 R260, R262). -/
def rgCommit (n : Nat) (s : State) : State :=
  if n < 64 then { s with rgPend := NSet.insert s.rgPend n }.syncPend else s

/-- A pending commit applies, or is rejected, once REF is 0 and the QSPI reader does not use the entry (06 R260, R264;
21 R865). -/
def rgApply (n : Nat) (s : State) : State :=
  let read := match s.dev.reader with | some r => r.entry == n | none => false
  if s.rgPend.contains n && Store.get 0 s.rgRef n == 0 && !read then
    let s := { s with rgPend := NSet.erase s.rgPend n }.syncPend
    match regionReject s.part (s.regionStaged n) with
    | none => s.commit [RG_BASE n, RG_LIMIT n, RG_ATTR n]
    | some why => ((s.setRf RG_STAT 2 1 1).setRf RG_STAT 8 6 n).setRf RG_STAT 14 2 why
  else s

/-- A commit pending past its limit: STALE (06 R262); both STALE sources are raised (05 Table 5.5, 15 R658). -/
def rgStale (n : Nat) (s : State) : State :=
  if s.rgPend.contains n then
    let s := ((s.setRf RG_STAT 1 1 1).setRf RG_STAT 16 6 n).raise irqSTALE
    { s with bosun := { s.bosun with latStale := true } }
  else s

/-! ### Scrubber (06 R272, R273) -/

/-- 64-byte blocks of the scrubber's cycle. -/
def scrubBlocks (p : Part) : Nat := 65536 + 2048 + 1024 + p.granary / 64

/-- The address of a block of the cycle. -/
def scrubAddr (k : Nat) : Nat :=
  if k < 65536 then k * 64
  else if k < 67584 then 0x60000000 + (k - 65536) * 64
  else if k < 68608 then 0x61000000 + (k - 67584) * 64
  else 0x10000000 + (k - 68608) * 64

/-- The scrubber reads its next block. -/
def scrub (s : State) : State :=
  if s.rbit RG_SCRUB_CFG 4 && s.dieUp then
    let (s, ue) := s.eccRead srcScrub (scrubAddr s.scrubAt) 64
    let s := match ue with
      | some a => s.recordEcc srcScrub a
      | none => s
    if s.scrubAt + 1 < scrubBlocks s.part then { s with scrubAt := s.scrubAt + 1 }
    else { s with scrubAt := 0 }.bump RG_SCRUB_CFG 16 16
  else s

/-! ### Injection (06 R275) -/

/-- A write of RG_ECC_INJ.MODE: 1 and 2 arm on the code word of RG_ECC_INJ_ADDR, 0 withdraws; 3 is reserved and
keeps the field (00 R20). -/
def injectMode (mode : Nat) (s : State) : State :=
  let a := (s.reg RG_ECC_INJ_ADDR).toNat
  match mode with
  | 0 => { s.setReg RG_ECC_INJ 0 with inject := none }
  | 3 => s
  | m =>
    let ok := match spaceOf s.part a with
      | .pantry | .ringTable | .granary | .itcm | .dtcm => true
      | _ => false
    if ok then
      { s.setReg RG_ECC_INJ (Word.nat (m + 4)) with
          inject := some ⟨a / wordSize a * wordSize a, if m = 1 then .single else .double⟩ }
    else { s.setReg RG_ECC_INJ 0 with inject := none }

/-! ### Meanings -/

/-- RG_COMMIT (06 R260, R262). -/
def execRgCommit (n : Nat) (s : State) : Out := .next (rgCommit n s)
/-- RG_COMMIT_APPLY (06 R260, R264). -/
def execRgCommitApply (n : Nat) (s : State) : Out := .next (rgApply n s)
/-- RG_COMMIT_STALE (06 R262). -/
def execRgCommitStale (n : Nat) (s : State) : Out := .next (rgStale n s)
/-- SCRUB_BLOCK (06 R272). -/
def execScrubBlock (s : State) : Out := .next (scrub s)
/-- ECC_INJECT_ARM: a write of MODE 1 or 2 (06 R275). -/
def execEccInjectArm (mode : Nat) (s : State) : Out :=
  .next (if mode = 1 ∨ mode = 2 then injectMode mode s else s)
/-- ECC_INJECT_WITHDRAW: a write of MODE 0 (06 R275). -/
def execEccInjectWithdraw (s : State) : Out := .next (injectMode 0 s)

end Sys2Proof.Machine
end

