-- ==== Sys2Proof/Machine/Capstan.lean ====
section
/-! DEFINITION. The Capstan: ring table, ring operations, doorbells, Bells and thresholds, epochs and Tack,
completion records and ring halts (07). Admission is in Machine/Admission.lean. -/

namespace Sys2Proof.Machine

/-! ### Rings (07.1) -/

/-- Entries of a ring: 2^SIZE in force. -/
def Ring.slots (r : Ring) : Nat := 2 ^ r.size
/-- `(a - b) mod S`. -/
def Ring.dist (r : Ring) (a b : Nat) : Nat := (a + r.slots - b) % r.slots
/-- The index after `k`. -/
def Ring.succ (r : Ring) (k : Nat) : Nat := (k + 1) % r.slots
/-- The address of entry `k`. -/
def Ring.entry (r : Ring) (k : Nat) : Nat := r.base + 64 * k
def RingSt.code : RingSt → Nat
  | .disabled => 0 | .enabled => 1 | .halted => 2

/-- Engine instances of a class, and the window of each (07 Table 7.3). -/
def classInsts (cls : Nat) : Nat := if cls = 0 ∨ cls = 4 then 4 else 2
def classWindow (cls : Nat) : Nat := if cls = 3 then 8 else if cls = 4 then 24 else 16

namespace State

def ring (s : State) (n : Nat) : Ring := Store.get {} s.cap.rings n

/-- The address of ring `n`'s descriptor (07.1). -/
def ringAddr (n : Nat) : Nat := 0x380000 + 32 * n

/-- State words 4 to 7 of a ring descriptor (07 Table 7.1). -/
def ringWords (r : Ring) : List Word :=
  [Word.nat (r.head + r.tail * 65536),
   Word.nat (r.done + r.st.code * 65536 + b2n r.phase * 2 ^ 18),
   Word.nat (r.fidx + r.fstat * 65536),
   Word.nat (r.cut + b2n r.cutV * 65536)]

/-- Changes a ring's state and mirrors words 4 to 7 (07 R295). -/
def setRing (s : State) (n : Nat) (r : Ring) : State :=
  let s := { s with cap := { s.cap with rings := Store.set {} s.cap.rings n r } }
  (s.eccWrite srcCapstan (ringAddr n + 16) (wordsBytes (ringWords r))).1

/-! ### Epochs (07.7) -/

def epochCur (s : State) : Nat := s.rf CAP_EPOCH 0 8
def draining (s : State) : Bool := s.rbit CAP_EPOCH 8
def held (s : State) : Bool := s.rbit CAP_EPOCH 9

/-- The epoch of entry `k` of a ring. -/
def epochOf (s : State) (r : Ring) (k : Nat) : Nat := r.epochs.getD (r.dist k r.done) s.epochCur

/-- Stage 2 of R304 for entry `k` (07 R318, R319). -/
def epochOk (s : State) (r : Ring) (k : Nat) : Bool :=
  r.efree || !(s.draining || s.held) || s.epochOf r k != s.epochCur

/-- The rings that hold a drain: an old-epoch entry without a record (07 R318). -/
def holders (s : State) : List Nat :=
  let old := (s.epochCur + 255) % 256
  (s.cap.rings.filter fun (_, r) => !r.efree && decide (r.st ≠ .disabled) && r.epochs.contains old).map (·.1)

/-- HOLDER follows the lowest holder of a drain that is marked STALE (07 R320). -/
def updateHolder (s : State) : State :=
  if s.draining && s.rbit CAP_EPOCH 30 then
    match s.holders with
    | n :: _ => s.setRf CAP_EPOCH 16 14 n
    | [] => s
  else s

/-! ### Bells (07.6) -/

def bell (s : State) (n : Nat) : Word := Store.get 0 s.cap.bells n

/-- WAIT ≥ (mode 0) and WAIT = (mode 1) of 07 R312. -/
def bellHolds (x v : Word) (eq : Bool) : Bool := if eq then x == v else decide ((x - v).toNat < 2 ^ 31)

/-- The head entry's Bell wait judged now (07 R304 stage 3, R313). -/
def latchOne (s : State) (r : Ring) : Ring :=
  if r.st = .enabled ∧ r.head ≠ r.tail ∧ r.admFault = none ∧ r.waitOk = false then
    if r.reached || (!s.dkbit DK_CTRL 1 && s.epochOk r r.head) then
      let w0 := s.peekWord (r.entry r.head)
      let v := s.peekWord (r.entry r.head + 4)
      let m := fld w0 16 2
      let ok := m = 0 ∨ m = 3 ∨ bellHolds (s.bell (fld w0 24 8)) v (m = 2)
      { r with reached := true, waitOk := decide ok }
    else r
  else r

/-- Every head at stage 3 is judged against the Bells as they stand. -/
def latchWaits (s : State) : State :=
  { s with cap := { s.cap with rings := s.cap.rings.map fun (n, r) => (n, s.latchOne r) } }

/-- A Bosun wait on Bell `n` is judged (14 R617). -/
def latchBosun (s : State) (n : Nat) : State :=
  match s.bosun.wait with
  | some w =>
    if w.sel = n ∧ (w.kind = .ge ∨ w.kind = .eq) ∧ bellHolds (s.bell n) w.operand (w.kind = .eq) then
      { s with bosun := { s.bosun with wait := some { w with sat := true } } }
    else s
  | none => s

/-- An armed threshold is evaluated and may fire (07 R316; 15 R658). -/
def evalThreshold (s : State) (n : Nat) : State :=
  let cfg := CAP_BTHR + 8 * n + 4
  if s.rbit cfg 0 && bellHolds (s.bell n) (s.reg (CAP_BTHR + 8 * n)) (s.rbit cfg 1) then
    let s := (s.setRf cfg 0 1 0).setRf (CAP_BFIRED + 4 * (n / 32)) (n % 32) 1 1
    let s := if s.rbit cfg 2 then s.raise irqBELL else s
    let rec' := if s.rbit cfg 3 then NSet.insert s.bosun.bellRec n else NSet.erase s.bosun.bellRec n
    { s with bosun := { s.bosun with bellRec := rec' } }
  else s

end State

/-! ### Ring operations (07.2) -/

/-- A ring's configuration words, decoded (07 Table 7.1). -/
def ringCfg (ws : List Word) : Ring :=
  let w0 := wordAt ws 0
  { size := fld w0 0 5, prio := fld w0 5 3, cls := fld w0 8 3, efree := bit w0 11, stream := bit w0 12
    mask := fld w0 16 4, base := fld (wordAt ws 1) 6 26 * 64, cqbase := fld (wordAt ws 2) 4 28 * 16
    tmo := fld (wordAt ws 3) 0 16 }

/-- The `n` bytes from `a` lie in the Pantry general area or in the populated Granary (07 R298). -/
def inRam (p : Part) (a n : Nat) : Bool :=
  decide (a + n ≤ 0x380000) || (decide (0x10000000 ≤ a) && decide (a + n ≤ 0x10000000 + p.granary))

/-- The checks of ENABLE on words 0 to 3 (07 R298). -/
def ringCfgOk (p : Part) (ws : List Word) : Bool :=
  let r := ringCfg ws
  let w0 := wordAt ws 0
  let ones (m : Nat) : Nat := [0, 1, 2, 3].foldl (fun n i => n + b2n (m.testBit i)) 0
  fld w0 13 3 == 0 && fld w0 20 12 == 0 && fld (wordAt ws 1) 0 6 == 0 && fld (wordAt ws 2) 0 4 == 0 &&
  fld (wordAt ws 3) 16 16 == 0 && decide (2 ≤ r.size) && decide (r.size ≤ 16) && decide (r.cls ≤ 4) &&
  r.mask != 0 && decide (r.mask < 2 ^ classInsts r.cls) &&
  (!r.stream || (r.cls == 4 && ones r.mask == 1)) &&
  inRam p r.base (64 * r.slots) && inRam p r.cqbase (16 * r.slots) &&
  !overlaps r.base (r.base + 64 * r.slots - 1) r.cqbase (r.cqbase + 16 * r.slots - 1)

namespace State

/-- SIZE in word 0 of a ring descriptor is written as 0 (07 Table 7.2, R298). -/
def clearSize (s : State) (n : Nat) : State :=
  let w0 := putFld (s.peekWord (ringAddr n)) 0 5 0
  let (s', ue) := s.eccWrite srcCapstan (ringAddr n) (leBytes 4 w0.toNat)
  match ue with
  | some a => s'.becalm 0x25 false (Word.nat (memNumber s.part a + srcCapstan * 16)) a
  | none => s'

/-- Puts a ring's preset in force; FIDX, FSTAT and CUT stay (07 Table 7.2 ENABLE). -/
def enableWith (s : State) (n : Nat) (ws : List Word) : State :=
  let r := s.ring n
  s.setRing n { ringCfg ws with st := .enabled, phase := true, fidx := r.fidx, fstat := r.fstat, cut := r.cut }

/-- The ring operations of 07 Table 7.2: the state and the RESULT (0 OK, 1 STATE, 2 BUSY, 3 BADARG). -/
def ringEnable (s : State) (n : Nat) : State × Nat :=
  if (s.ring n).st ≠ .disabled then (s, 1)
  else
    let (s', ue) := s.eccRead srcCapstan (ringAddr n) 16
    match ue with
    | some a => (s'.becalm 0x25 false (Word.nat (memNumber s.part a + srcCapstan * 16)) a, 3)
    | none =>
      let ws := bytesWords 4 (s'.peek (ringAddr n) 16)
      if ringCfgOk s.part ws then (s'.enableWith n ws, 0) else (s'.clearSize n, 3)

/-- Releases a ring's SID bindings, and the gap marks of those SIDs (08 R367, R370). -/
def unbindRing (s : State) (n : Nat) : State :=
  { s with cap := { s.cap with
      binds := s.cap.binds.filter fun b => b.2 != n + 1
      gaps := s.cap.gaps.filter fun k => Store.get 0 s.cap.binds k != n + 1 } }

def ringDisable (s : State) (n : Nat) : State × Nat :=
  let r := s.ring n
  if r.st = .disabled then (s.clearSize n, 0)
  else if s.cap.flights.any (·.ring == n) then (s, 2)
  else
    let s := (s.setRing n { r with
      size := 0, st := .disabled, head := r.done, tail := r.done, epochs := [], cutV := false
      reached := false, waitOk := false, admFault := none }).clearSize n
    (((s.unbindRing n).updateHolder).updateWork, 0)

def ringRetry (s : State) (n : Nat) : State × Nat :=
  let r := s.ring n
  if r.st ≠ .halted then (s, 1)
  else (s.setRing n { r with head := r.fidx, st := .enabled, reached := false, waitOk := false }, 0)

def ringSkip (s : State) (n : Nat) : State × Nat :=
  let r := s.ring n
  if r.st ≠ .halted then (s, 1)
  else
    let k := r.succ r.fidx
    let s := s.setRing n { r with
      head := k, done := k, phase := if k = 0 then !r.phase else r.phase, st := .enabled
      epochs := r.epochs.drop 1, reached := false, waitOk := false }
    ((s.updateHolder).updateWork, 0)

def ringPrio (s : State) (n arg : Nat) : State × Nat :=
  let r := s.ring n
  if r.st = .disabled then (s, 1) else (s.setRing n { r with prio := arg % 8 }, 0)

/-- CAP_RING_OPSTAT takes a finished operation's RESULT, OP and RING (07 R328). -/
def opStat (x : State × Nat) (op n : Nat) : State :=
  if x.1.dev.mode = .becalmed then x.1
  else x.1.setReg CAP_OPSTAT (Word.nat (2 + x.2 * 16 + op % 8 * 256 + n % 16384 * 65536))

/-- The engines, the Capstan and Bosun run: the die is up and not fenced for REEF (03 R139, R145). -/
def capRuns (s : State) : Bool := s.dieUp && !s.dev.reefing

/-- What a ring operation does, and its RESULT (07 R297). -/
def ringAct (s : State) (n op arg : Nat) : State × Nat :=
  match op with
  | 1 => s.ringEnable n
  | 2 => s.ringDisable n
  | 3 => s.ringRetry n
  | 4 => s.ringSkip n
  | 5 => s.ringPrio n arg
  | _ => (s, 3)

/-- A write of CAP_RING_OP. The operation takes effect at its place in the serial order and runs until `ringEnd`; a
reserved OP and the DISABLE of a disabled ring report at once; a write while one runs performs nothing (07 R297, R302,
R328; log 11). -/
def ringStart (s : State) (n op arg : Nat) : State :=
  if !s.capRuns then s
  else if s.cap.op.isSome then { s with cap := { s.cap with refused := some (op, n) } }
  else
    let now := decide (op = 0 ∨ 5 < op) || (op == 2 && (s.ring n).st == .disabled)
    let (s, res) := s.ringAct n op arg
    if now then opStat (s, res) op n
    else { s.setRf CAP_OPSTAT 0 1 1 with cap := { s.cap with op := some ⟨op, n, res⟩ } }

/-- The ring operation that runs finishes: CAP_RING_OPSTAT takes its result, and then RESULT BUSY for the writes refused
while it ran (07 R328). -/
def ringEnd (s : State) : State :=
  match s.cap.op with
  | none => s
  | some p =>
    let late := s.cap.refused
    let s := opStat ({ s with cap := { s.cap with op := none, refused := none } }, p.result) p.op p.ring
    match late with
    | some (op, n) => opStat (s, 2) op n
    | none => s

/-- A ring operation's event: the end of the one that runs, where it is that one; else a write of CAP_RING_OP, to its end where
none runs (07 R328; log 11). -/
def ringOp (s : State) (n op arg : Nat) : State :=
  if !s.capRuns then s
  else match s.cap.op with
    | some p => if p.op = op ∧ p.ring = n then s.ringEnd else s.ringStart n op arg
    | none => (s.ringStart n op arg).ringEnd

/-! ### Posting (07.3) -/

/-- A doorbell or POST offers tail `t` for ring `n`: the code of 05 Table 5.4 (07 R300–R303). -/
def offerTail (s : State) (n t : Nat) : State × Nat :=
  let r := s.ring n
  if r.size = 0 then (s, 1)
  else if r.slots ≤ t then (s, 2)
  else if r.dist t r.done < r.dist r.tail r.done then (s, 5)
  else
    let more := List.replicate (r.dist t r.tail) s.epochCur
    ((s.setRing n { r with tail := t, epochs := r.epochs ++ more }).updateWork, 0)

/-! ### Tack (07 R317–R320) -/

/-- A Tack: refused while a drain is pending or held. -/
def tack (s : State) : State × Bool :=
  if s.draining || s.held then (s, false)
  else
    let s := s.latchWaits
    let old := s.epochCur
    let s := ((s.setRf CAP_EPOCH 0 8 (old + 1)).setRf CAP_EPOCH 8 1 1).setRf CAP_EPOCH 30 1 0
    let s := { s with cap := { s.cap with dice := s.cap.dice.filter fun k => k / 256 != (old + 1) % 2 } }
    let s := s.cap.rings.foldl (fun s (n, r) =>
      if r.st ≠ .disabled ∧ r.efree = false ∧ r.epochs.contains old then
        s.setRing n { r with cut := r.tail, cutV := true }
      else s) s
    (s, true)

end State

end Sys2Proof.Machine
end

