-- ==== Sys2Proof/Machine/Tiles.lean ====
section
/-! DEFINITION. Access to the engines' own state, the tile and mask registers of a Mill, its recipes, and what
abandoning a descriptor does to engine state (10.8, 11.8, 12.1, 12.2, 12.5). -/

namespace Sys2Proof.Machine

/-- Operation of a descriptor. -/
def opcOf (d : List Word) : Nat := fld (wordAt d 0) 0 8
/-- A field of a descriptor as a number, and as a signed number. -/
def df (d : List Word) (w lo n : Nat) : Nat := fld (wordAt d w) lo n
def ds (d : List Word) (w : Nat) : Int := sgn 32 (wordAt d w).toNat

namespace State

def loom (s : State) (i : Nat) : Loom := Store.get {} s.looms i
def setLoom (s : State) (i : Nat) (x : Loom) : State := { s with looms := Store.set {} s.looms i x }
def harrow (s : State) (i : Nat) : Harrow := Store.get {} s.harrows i
def setHarrow (s : State) (i : Nat) (x : Harrow) : State := { s with harrows := Store.set {} s.harrows i x }
def mill (s : State) (i : Nat) : Mill := Store.get {} s.mills i
def setMill (s : State) (i : Nat) (x : Mill) : State := { s with mills := Store.set {} s.mills i x }

/-- `n` free numbers of `w` bits. -/
def drawNats (s : State) (w : Nat) : Nat → List Nat × State
  | 0 => ([], s)
  | n + 1 =>
    let (x, s1) := s.draw w
    let (l, s2) := s1.drawNats w n
    (x.toNat :: l, s2)

end State

/-! ### Tile and mask registers (12.2) -/

/-- Elements per register of a container: C32 256, C16 512. -/
def perReg (c32 : Bool) : Nat := if c32 then 256 else 512

/-- Elements of a group, as bits (12 R514). -/
def Mill.group (m : Mill) (c32 : Bool) (reg n : Nat) : List Nat :=
  if c32 then (Store.getRun 0 m.tregs (256 * reg) n).map (·.toNat)
  else ((Store.getRun 0 m.tregs (256 * reg) ((n + 1) / 2)).flatMap fun w => [w.toNat % 65536, w.toNat / 65536]).take n

/-- The words that halfwords in pairs spell, over the words that stood there. -/
def pairUp : List Word → List (Option Nat) → List Word
  | w :: ws, a :: b :: t =>
    Word.nat (a.getD (w.toNat % 65536) % 65536 + b.getD (w.toNat / 65536) % 65536 * 65536) :: pairUp ws t
  | w :: _, [a] => [Word.nat (a.getD (w.toNat % 65536) % 65536 + w.toNat / 65536 * 65536)]
  | _, _ => []

/-- Writes group elements from element 0; `none` leaves an element as it stands. -/
def Mill.setGroup (m : Mill) (c32 : Bool) (reg : Nat) (l : List (Option Nat)) : Mill :=
  if c32 then
    let old := Store.getRun 0 m.tregs (256 * reg) l.length
    let new := (l.zip old).map fun (x, w) => match x with | some v => Word.nat v | none => w
    { m with tregs := Store.setRun 0 m.tregs (256 * reg) new }
  else
    let old := Store.getRun 0 m.tregs (256 * reg) ((l.length + 1) / 2)
    { m with tregs := Store.setRun 0 m.tregs (256 * reg) (pairUp old l) }

/-- Writes group elements from element `j0` on. -/
def Mill.setGroupAt (m : Mill) (c32 : Bool) (reg j0 : Nat) (l : List Nat) : Mill :=
  m.setGroup c32 reg (List.replicate j0 none ++ l.map some)

/-- The first `n` bits of a mask register. -/
def Mill.mask (m : Mill) (k n : Nat) : List Bool :=
  ((Store.getRun 0 m.masks (128 * k) ((n + 31) / 32)).flatMap fun w => (List.range 32).map (bit w)).take n

/-- The word that bits spell over another, and so on for each word. -/
def packMask : List Word → List (Option Bool) → List Word
  | [], _ => []
  | w :: ws, l =>
    ((l.take 32).zipIdx.foldl (fun v (b, i) => match b with | some x => putFld v i 1 (b2n x) | none => v) w) ::
      packMask ws (l.drop 32)

/-- Writes mask bits from bit 0; `none` leaves a bit. -/
def Mill.setMask (m : Mill) (k : Nat) (l : List (Option Bool)) : Mill :=
  let old := Store.getRun 0 m.masks (128 * k) ((l.length + 31) / 32)
  { m with masks := Store.setRun 0 m.masks (128 * k) (packMask old l) }

/-! ### Recipes (12.5) -/

/-- A recipe instruction (12 Table 12.6). -/
structure MillIns where
  op : Nat
  ty : Nat
  d : Nat
  a : Nat
  b : Nat
  c : Nat
  bimm : Bool
  zm : Bool
  men : Bool
  imm : Nat
  vcnt : Nat
  vsrc : Bool
  msk : Nat
deriving DecidableEq, Repr

def millIns (w0 w1 : Word) : MillIns :=
  { op := fld w0 0 6, ty := fld w0 6 3, d := fld w0 9 5, a := fld w0 14 5, b := fld w0 19 5, c := fld w0 24 5
    bimm := bit w0 29, zm := bit w0 30, men := bit w0 31, imm := fld w1 0 16, vcnt := fld w1 16 12
    vsrc := bit w1 28, msk := fld w1 29 3 }

/-- The recipe of a Mill descriptor in the recipe store. -/
def millRecipe (m : Mill) (d : List Word) : List MillIns :=
  (List.range (df d 6 16 7)).map fun p => millIns (wordAt m.recipe (2 * p)) (wordAt m.recipe (2 * p + 1))

/-- Whether a TYPE, and a stream or CVT format, is held in C32 (12 Table 12.2, R524, R531). -/
def tyC32 (ty : Nat) : Bool := ty == 0 || ty == 2
def fmtC32 (f : Nat) : Bool := f == 6 || f == 8

namespace MillIns

def cnt (i : MillIns) (vl : Nat) : Nat := if i.vsrc then vl else i.vcnt + 1
/-- Elements written (12 R529). -/
def outCount (i : MillIns) (vl : Nat) : Nat := if i.op = 0x31 then i.imm else i.cnt vl
/-- The destination is a mask register. -/
def toMask (i : MillIns) : Bool := (decide (0x10 ≤ i.op) && decide (i.op ≤ 0x18)) || i.op == 0x2A
/-- The container of a group destination. -/
def dC32 (i : MillIns) : Bool :=
  if i.op = 0x20 then fmtC32 i.b else if i.op = 0x24 then i.c % 2 == 1 else tyC32 i.ty

end MillIns

/-- A stream slot of a Mill descriptor (12 Table 12.4). -/
structure Strm where
  kind : Nat
  addr : Nat
  fmt : Nat
  reg : Nat
  pre : Nat
  tile : Nat
  order : Bool
  nchm : Nat
  l0 : Nat
  s1 : Nat

/-- Slot `k` of a Mill descriptor: 0 IN0, 1 IN1, 2 OUT. -/
def strm (d : List Word) (k : Nat) : Strm :=
  let w := 7 + 3 * k
  { kind := df d (w + 1) 0 2, addr := (wordAt d w).toNat, fmt := df d (w + 1) 2 4, reg := df d (w + 1) 6 5
    pre := df d (w + 1) 11 8, tile := df d (w + 1) 19 2, order := bit (wordAt d (w + 1)) 21
    nchm := df d (w + 1) 22 7, l0 := df d (w + 2) 0 13, s1 := df d (w + 2) 13 19 * 32 }

/-- A stream's group container: ACC loads FP32. -/
def Strm.c32 (t : Strm) : Bool := t.kind == 1 || fmtC32 t.fmt

/-- The feed that pairs a Loom descriptor. -/
def Feed.isOf (g : Feed) (f : Flight) : Bool := g.lring == f.ring && g.lidx == f.idx

namespace State

/-- The first `n` elements of a group become free values. -/
def spoilGroup (s : State) (i : Nat) (c32 : Bool) (reg n : Nat) : State :=
  let (l, s) := s.drawNats (if c32 then 32 else 16) n
  s.setMill i ((s.mill i).setGroupAt c32 reg 0 l)

/-- The first `n` bits of a mask register become free values. -/
def spoilMask (s : State) (i k n : Nat) : State :=
  let (l, s) := s.drawNats 1 n
  s.setMill i ((s.mill i).setMask k (l.map fun x => some (x == 1)))

/-- Every element that a Mill descriptor's streams or recipe name as a destination becomes a free value (12 R543). -/
def spoilMill (s : State) (i : Nat) (d : List Word) : State :=
  let vl := min (df d 6 0 13) (wordAt d 5).toNat
  let s := [0, 1].foldl (fun s k =>
    let t := strm d k
    if t.kind = 3 then s else s.spoilGroup i t.c32 t.reg (vl + t.pre)) s
  ((millRecipe (s.mill i) d).filter fun x => x.op != 0).foldl (fun s x =>
    if x.toMask then s.spoilMask i x.d (x.outCount vl) else s.spoilGroup i x.dC32 x.d (x.outCount vl)) s

/-- The destination group of a Sheaf descriptor: container, first register, elements (13 R563, R564, R570). -/
def sheafDest (d : List Word) : Bool × Nat × Nat :=
  let rows := df d 5 0 13
  let cols := df d 5 16 13
  let whole := opcOf d == 2 || opcOf d == 4
  let c32 := !whole || df d 4 13 1 == 0
  (c32, df d 4 8 5, if whole then rows * cols else if df d 4 14 1 = 0 then rows else cols)

def fifo (s : State) (i : Nat) : List (Word × Word) := Store.get [] s.fifos i
def setFifo (s : State) (i : Nat) (l : List (Word × Word)) : State := { s with fifos := Store.set [] s.fifos i l }

/-- A Mill releases the blocks of a slot, or of every slot, and then asks for none: coupled banks become free (12 R526). -/
def releaseBlocks (s : State) (i : Nat) (slot : Option Nat) : State :=
  let m := s.mill i
  let mine (h : Nat × Nat × Block) : Bool := match slot with | some k => h.1 == k | none => true
  let s := if slot.isNone then
      (List.range 4).foldl (fun s t =>
        let l := s.loom t
        if l.asks.contains i then s.setLoom t { l with asks := l.asks.filter (· != i) } else s) s
    else s
  let s := (m.hold.filter mine).foldl (fun s (_, t, b) =>
    match b.bank with
    | some n => s.setLoom t { s.loom t with held := (s.loom t).held.filter (· != n) }
    | none => s) s
  s.setMill i { m with hold := m.hold.filter fun h => !mine h }

/-- A number of cycles up to `n`, as a free value: how far an engine had got (07 R343; log 1). -/
def freeCycles (s : State) (n : Nat) : Nat × State := let (x, s) := s.draw 32; (x.toNat % (n + 1), s)

/-- The pairing entry of an ended Loom descriptor, and the feed it leaves: one whose Harrow descriptor has ended too is
gone (10 R454, 11 R485). -/
def loomEnded (s : State) (f : Flight) : State :=
  let l := s.loom f.inst
  s.setLoom f.inst { l with
    looms := l.looms.map fun e => if e.ring = f.ring ∧ e.idx = f.idx then { e with ended := true } else e
    feed := match l.feed with
      | some g => if g.isOf f then (if g.gone then none else some { g with lost := true }) else some g
      | none => none }

/-- What a Loom descriptor that fails leaves undefined: the block that it was to keep, or was continuing (10 R447, R453). -/
def loseKept (s : State) (f : Flight) : State :=
  let l := s.loom f.inst
  let w := wordAt f.desc 0
  let hit := match f.st with
    | .queued => false
    | .running _ => bit w 12 || bit w 13
    | _ => bit w 13 && l.keptNum == f.own
  if !f.null && hit then s.setLoom f.inst { l with kept := none } else s

/-- What a CONV that fails leaves undefined: the rows that it was to keep (11 R491). -/
def loseRows (s : State) (f : Flight) : State :=
  let h := s.harrow f.inst
  let hit := match f.st with
    | .queued => false
    | .running _ => true
    | _ => h.keptNum == f.own
  if !f.null && opcOf f.desc == 1 && bit (wordAt f.desc 0) 13 && hit then s.setHarrow f.inst { h with kept := none } else s

/-- What abandoning a descriptor does to its engine: kept blocks and rows become undefined, pairing places are
kept, Mill and Sheaf destinations become undefined and held blocks are released (10 R447, R453, R454; 11 R491;
12 R526; 13 R580). -/
def abandonEngine (s : State) (f : Flight) : State :=
  let started := match f.st with | .queued => false | _ => true
  let running := match f.st with | .running _ => true | _ => false
  match f.cls with
  | 0 =>
    let s := s.loseKept f
    if running && bit (wordAt f.desc 0) 14 then s.loomEnded f else s
  | 1 =>
    let s := s.loseRows f
    let h := s.harrow f.inst
    s.setHarrow f.inst { h with
      halo := h.halo.map fun e => if e.ring = f.ring ∧ e.idx = f.idx then { e with ended := true } else e }
  | 2 =>
    let s := if running then s.releaseBlocks f.inst none else s
    if started && !f.null then s.spoilMill f.inst f.desc else s
  | 3 =>
    let (c32, reg, n) := sheafDest f.desc
    if started && !f.null then s.spoilGroup f.inst c32 reg (ceilDiv n (perReg c32) * perReg c32) else s
  | _ => s

/-- What a remote write that fails leaves undefined in the engine of its descriptor (10 R453, 12 R543). -/
def engineFault (s : State) (f : Flight) : State :=
  match f.cls with
  | 0 => s.loseKept f
  | 2 => s.spoilMill f.inst f.desc
  | _ => s

end State

end Sys2Proof.Machine
end

