-- ==== Sys2Proof/Machine/Bells.lean ====
section
/-! DEFINITION. Bell operations with everything they set off, completion records and ring halts
(07.5, 07.6, 07.8). -/

namespace Sys2Proof.Machine

namespace State

/-- A Bell operation goes to the peer, or is dropped and counted while the port is not PAIRED (20 R827, R828). -/
def sendBell (s : State) (b : Nat) (set : Bool) (v : Word) : State :=
  if s.sw.paired then { s with sw := { s.sw with bellQ := s.sw.bellQ ++ [(s.sw.issued, b, set, v)] } }
  else s.bump SW_CNT1 24 8

/-- The exports of local Bell `n`, in entry order (20 R827). -/
def exportBell (s : State) (n : Nat) (set : Bool) (v : Word) : State :=
  if s.part.iob then
    (List.range 16).foldl (fun s i =>
      let e := s.reg (SW_BEXP i)
      if bit e 31 ∧ fld e 0 8 = n then s.sendBell (fld e 8 8) set v else s) s
  else s

/-- ADD or SET of `v` on Bell `n`: the Bell, then the waits, the threshold and the exports that follow from it; nothing
while the Capstan is stopped (03 R145; 07 R312–R316; 14 R617; 20 R827). -/
def bellOp (s : State) (n : Nat) (set : Bool) (v : Word) : State :=
  if !s.dieUp || s.dev.reefing then s
  else
  let s := s.latchWaits
  let x := if set then v else s.bell n + v
  let s := { s with cap := { s.cap with bells := Store.set 0 s.cap.bells n x } }
  (((s.latchWaits).latchBosun n).evalThreshold n).exportBell n set v

/-! ### Completion records (07.5) -/

/-- The two Bell signals of a header, signal 0 first (08 R346). -/
def signals (s : State) (d : List Word) : State :=
  let w0 := wordAt d 0
  let w2 := wordAt d 2
  let w3 := wordAt d 3
  let one (s : State) (op b v : Nat) : State :=
    if op = 1 then s.bellOp b false (Word.nat v) else if op = 2 then s.bellOp b true (Word.nat v) else s
  one (one s (fld w0 18 2) (fld w2 0 8) (fld w3 0 16)) (fld w0 20 2) (fld w2 8 8) (fld w3 16 16)

/-- Writes record `k` of ring `n` (07 Table 7.4). -/
def writeRecord (s : State) (n k status epoch : Nat) (detail : Word) (cycles inst : Nat) : State :=
  let r := s.ring n
  (s.eccWrite srcCapstan (r.cqbase + 16 * k) (wordsBytes
    [Word.nat (k + status * 65536 + epoch % 256 * 2 ^ 24), detail, Word.nat (min cycles 0xFFFFFFFF),
     Word.nat (b2n r.phase + inst * 2)])).1

/-- Every byte of the extents an abandoned descriptor may write becomes a free value (07 R324, 00 R7). -/
def scramble (s : State) (ws : List (Nat × Nat)) : State :=
  ws.foldl (fun s (a, n) => let (l, s) := s.drawBytes n; (s.eccWrite srcCapstan a l).1) s

/-- A stream descriptor abandoned while it receives a unit, or reads a block, discards its rest and leaves GAP for the next
(08 R372). -/
def abandonStream (s : State) (f : Flight) : State :=
  let s' := { s with
    cap := { s.cap with gaps := NSet.insert s.cap.gaps (fld (wordAt f.desc 6) 0 4) }
    sw := { s.sw with inbox := s.sw.inbox.map fun m => match m.dest with
      | some (r, k, _) => if r = f.ring ∧ k = f.idx then { m with dest := none } else m
      | none => m } }
  match f.st with
  | .running (.streamRecv _ _) => s'
  | .running .streamRead =>
    { s' with audio := { s.audio with queue := s.audio.queue.filter (· != .reading f.ring f.idx) } }
  | _ => s

/-- Cancels an entry after a halting one: its CANCELLED record, no Bells, its charges released (07 R324;
06 R257). CYCLES of one that had started is a free value: how far its engine had got is not fixed. It is 0 for one that
waits for its unit or for its halo partner (07 R343; 08 R375; 11 R481). -/
def cancelFlight (s : State) (f : Flight) : State :=
  let s := (s.uncharge f.charged).abandonEngine f
  let (c, s) := match f.st with
    | .queued => (0, s)
    | .finished _ _ c => (c, s.scramble f.writes)
    | .ended _ _ c => (c, s.scramble f.writes)
    | .running .streamWait => (0, s)
    | .running (.harrow 0) => (0, s)
    | .running _ => let (w, s) := s.draw 32; (w.toNat, (s.scramble f.writes).abandonStream f)
  s.writeRecord f.ring f.idx 0xFE f.epoch 0 c f.inst

/-- The HALT source of the host names the first halted ring (05 R230). -/
def noteHalt (s : State) (n : Nat) : State :=
  let s := if s.dkbit DK_HALT_RING 14 then s.setDkf DK_HALT_RING 15 1 1
    else (s.setDkf DK_HALT_RING 0 14 n).setDkf DK_HALT_RING 14 1 1
  let s := s.raise irqHALT
  { s with bosun := { s.bosun with latHalt := true } }

/-- Ring `n` halts at entry `k`, whose record has been written: the later entries are cancelled, the ring is
HALTED, then the fault record, CAP_HALTED and the HALT sources follow (07 R323–R325; 16 R701). -/
def haltRing (s : State) (n k head status : Nat) (detail : Word) (addr : Nat) : State :=
  let later := s.cap.flights.filter fun f => f.ring == n
  let s := { s with cap := { s.cap with flights := s.cap.flights.filter fun f => f.ring != n } }
  let s := later.foldl cancelFlight s
  let r := s.ring n
  let s := match r.admFault with
    | some a => if a.idx = k then s else s.writeRecord n a.idx 0xFE (s.epochOf r a.idx) 0 0 0
    | none => s
  let s := s.setRing n { r with
    st := .halted, fidx := k, fstat := status, head := head, admFault := none, reached := false, waitOk := false }
  let s := s.recordFault 3 status false detail (some (n, k)) addr
  s.noteHalt n

/-- The descriptor in flight for entry `k` of ring `n`. -/
def flightAt (s : State) (n k : Nat) : Option Flight := s.cap.flights.find? fun f => f.ring == n && f.idx == k

/-- Applies `g` to the flights of entry `k` of ring `n`. -/
def mapFlight (s : State) (n k : Nat) (g : Flight → Flight) : State :=
  { s with cap := { s.cap with flights := s.cap.flights.map fun f => if f.ring == n && f.idx == k then g f else f } }

/-- The next completion record of ring `n` (07 R310, R311, R323, R324). -/
def completion (s : State) (n : Nat) : State :=
  let r := s.ring n
  if !s.capRuns || r.st ≠ .enabled then s
  else
    let k := r.done
    match s.flightAt n k with
    | some f =>
      match f.st with
      | .finished status detail cycles =>
        let detail := if f.shared && status = 0 then putFld detail 31 1 1 else detail
        let s := s.writeRecord n k status f.epoch detail cycles f.inst
        let s := { s with cap := { s.cap with flights := s.cap.flights.filter fun g => !(g.ring == n && g.idx == k) } }
        let s := s.uncharge f.charged
        if 0x10 ≤ status then s.haltRing n k (r.succ k) status detail f.addr
        else
          let k' := r.succ k
          let s := s.setRing n { r with
            done := k', phase := if k' = 0 then !r.phase else r.phase, epochs := r.epochs.drop 1 }
          ((s.signals f.desc).updateHolder).updateWork
      | _ => s
    | none =>
      match r.admFault with
      | some a =>
        if a.idx = k then
          (s.writeRecord n k a.status (s.epochOf r k) a.detail 0 0).haltRing n k k a.status a.detail a.addr
        else s
      | none => s

/-- An engine's finished descriptor frees its window slot; a null one is finished at its turn
(07 R306; 08 R348). -/
def engineFinish (s : State) (n k : Nat) : State :=
  if !s.capRuns then s
  else
    s.mapFlight n k fun f =>
      match f.st with
      | .ended st d c => { f with st := .finished st d c }
      | .queued =>
        let first := s.cap.flights.find? fun g => g.cls == f.cls && g.inst == f.inst &&
          (match g.st with | .finished _ _ _ => false | .running .streamWait => false
                           | .running (.streamRecv _ _) => false | .running .streamRead => false | _ => true)
        if f.null && (match first with | some g => g.ring == n && g.idx == k | none => false) then
          { f with st := .finished 1 0 0 }
        else f
      | _ => f

/-! ### Tack events (07 R318, R320) -/

/-- No old-epoch entry remains: the drain completes. -/
def drainComplete (s : State) : State :=
  if s.draining && s.holders.isEmpty then
    let s := s.latchWaits
    let s := (s.setRf CAP_EPOCH 8 1 0).setRf CAP_EPOCH 30 1 0
    let s := s.cap.rings.foldl (fun s (n, r) => if r.cutV then s.setRing n { r with cutV := false } else s) s
    let s := if s.rbit CAP_TACK_CFG 9 then s.setRf CAP_EPOCH 9 1 1 else s
    if s.rbit CAP_TACK_CFG 8 then s.bellOp (s.rf CAP_TACK_CFG 0 8) false 1 else s
  else s

/-- A drain past its limit: STALE and HOLDER, and Bosun's STALE source (15 R658). -/
def drainStale (s : State) : State :=
  match s.draining, s.holders with
  | true, n :: _ =>
    let s := ((s.setRf CAP_EPOCH 10 1 1).setRf CAP_EPOCH 16 14 n).setRf CAP_EPOCH 30 1 1
    { s with bosun := { s.bosun with latStale := true } }
  | _, _ => s

/-- RELEASE. -/
def tackRelease (s : State) : State := s.setRf CAP_EPOCH 9 1 0

/-- A write of CAP_BTCFGn (07 R316). -/
def writeBtcfg (s : State) (n : Nat) (v : Word) : State :=
  let a := CAP_BTHR + 8 * n + 4
  (s.setReg a (storeFields (csrFields a) (s.reg a) v)).evalThreshold n

end State

/-! ### Meanings -/

/-- ENABLE (07 R297, R298). -/
def execEnable (ring : Nat) (s : State) : Out := .next (if ring < 16384 then s.ringOp ring 1 0 else s)
/-- DISABLE (07 R297, R341). -/
def execDisable (ring : Nat) (s : State) : Out := .next (if ring < 16384 then s.ringOp ring 2 0 else s)
/-- RESUME_RETRY (07 R297, R326). -/
def execResumeRetry (ring : Nat) (s : State) : Out := .next (if ring < 16384 then s.ringOp ring 3 0 else s)
/-- RESUME_SKIP (07 R297, R326). -/
def execResumeSkip (ring : Nat) (s : State) : Out := .next (if ring < 16384 then s.ringOp ring 4 0 else s)
/-- PRIO (07 R297). -/
def execPrio (ring arg : Nat) (s : State) : Out := .next (if ring < 16384 then s.ringOp ring 5 arg else s)
/-- RING_OP_BADARG: a reserved OP, 0, 6 or 7 (07 R328). -/
def execRingOpBadarg (ring op : Nat) (s : State) : Out :=
  .next (if ring < 16384 ∧ (op = 0 ∨ op = 6 ∨ op = 7) then s.ringOp ring op 0 else s)
/-- ENGINE_FINISH (07 R306). -/
def execEngineFinish (ring idx : Nat) (s : State) : Out := .next (s.engineFinish ring idx)
/-- COMPLETION_RECORD (07 R310). -/
def execCompletionRecord (ring : Nat) (s : State) : Out := .next (s.completion ring)
/-- CAP_BELL_WRITE: SET (07 R312). -/
def execCapBellWrite (n : Nat) (v : Word) (s : State) : Out := .next (if n < 256 then s.bellOp n true v else s)
/-- CAP_BELL_ADD_WRITE: ADD (07 R312). -/
def execCapBellAddWrite (n : Nat) (v : Word) (s : State) : Out := .next (if n < 256 then s.bellOp n false v else s)
/-- THRESHOLD_ARM: a write of CAP_BTCFGn with ARM = 1 (07 R316, R336). -/
def execThresholdArm (n : Nat) (v : Word) (s : State) : Out :=
  .next (if n < 256 ∧ bit v 0 then s.writeBtcfg n v else s)
/-- TACK_DRAIN_COMPLETE (07 R318, R337). -/
def execTackDrainComplete (s : State) : Out := .next s.drainComplete
/-- TACK_DRAIN_STALE (07 R320). -/
def execTackDrainStale (s : State) : Out := .next s.drainStale
/-- TACK_RELEASE: a write of CAP_TACK_CFG.RELEASE (07 R318). -/
def execTackRelease (s : State) : Out := .next s.tackRelease

end Sys2Proof.Machine
end

