-- ==== Sys2Proof/Machine/Engine.lean ====
section
/-! DEFINITION. What every engine class shares: descriptor fields and their checks, and how an engine command
advances the oldest descriptor of an instance's window (07 R306, 08.2, 20 R826). -/

namespace Sys2Proof.Machine

/-! ### Descriptor checks (08 R347) -/

/-- A field and whether it passes: word, lowest bit, passed. -/
abbrev Check := Nat × Nat × Bool

/-- The first failing field, as DETAIL gives it: word in 3:0 and lowest bit in 8:4 (08 Table 8.2). -/
def firstBad (cs : List Check) : Option Word :=
  (cs.find? fun c => !c.2.2).map fun c => Word.nat (c.1 + c.2.1 * 16)

/-- A reserved stretch of bits is 0. -/
def zero (d : List Word) (w lo n : Nat) : Check := (w, lo, fld (wordAt d w) lo n == 0)
/-- A field is 0 unless it is in use. -/
def unused (used : Bool) (d : List Word) (w lo n : Nat) : Check := (w, lo, used || fld (wordAt d w) lo n == 0)
/-- Whole words are reserved. -/
def zeroWords (d : List Word) (ws : List Nat) : List Check := ws.map fun w => zero d w 0 32

/-- Word 0 of the header up to OPC, CLASS and bit 11 (08 Table 8.1). -/
def header0 (d : List Word) (opcOk : Bool) : List Check :=
  [(0, 0, opcOk), (0, 8, decide (fld (wordAt d 0) 8 3 ≤ 4)), zero d 0 11 1]

/-- The Bell fields of the header after EFLAGS (08 Table 8.1, R345). -/
def headerBells (d : List Word) : List Check :=
  let w0 := wordAt d 0
  let wm := fld w0 16 2
  let s0 := fld w0 18 2
  let s1 := fld w0 20 2
  [(0, 16, wm != 3), (0, 18, s0 != 3), (0, 20, s1 != 3), zero d 0 22 2, unused (wm != 0) d 0 24 8,
   unused (wm != 0) d 1 0 32, unused (s0 != 0) d 2 0 8, unused (s1 != 0) d 2 8 8, zero d 2 16 16,
   unused (s0 != 0) d 3 0 16, unused (s1 != 0) d 3 16 16]

/-- What an engine class gives the Capstan for one descriptor (08 R347, R348). -/
structure ClassChecks where
  /-- The body's fields in scan order, from EFLAGS on. -/
  opcOk : Bool
  eflags : List Check
  body : List Check
  limit : List Check
  align : List Check
  /-- The class checks of step 5: status and detail of the first that fails. -/
  cls : Option (Nat × Word)
  null : Bool
  ranges : List Range

/-- Steps 1 to 5 of 08 R347 on a descriptor of a ring of class `cls`: the status and detail of the first check
that fails. -/
def fieldChecks (cls : Nat) (d : List Word) (c : ClassChecks) : Option (Nat × Word) :=
  match firstBad (header0 d c.opcOk ++ c.eflags ++ headerBells d ++ c.body) with
  | some x => some (0x10, x)
  | none =>
    if df d 0 8 3 ≠ cls then some (0x11, Word.nat cls)
    else match firstBad c.limit with
      | some x => some (0x12, x)
      | none => match firstBad c.align with
        | some x => some (0x13, x)
        | none => c.cls

/-- A dense range of `n` bytes from `a`. -/
def Range.span (a n : Nat) (writes : Bool) : Range := ⟨a, (a : Int) + n - 1, !writes, writes⟩

/-- Where two extents meet. -/
def meet (a b : Int × Int) : Option (Int × Int) :=
  if overlaps a.1 a.2 b.1 b.2 then some (max a.1 b.1, min a.2 b.2) else none

/-- Writes whole elements in ascending order up to a code word that cannot be merged (06 R269, 08 R384). -/
def writeElems (src : Nat) (s : State) (a : Nat) (l : List Byte) : State × Option MemErr :=
  let whole (w : Nat) : Bool := decide (a ≤ w) && decide (w + wordSize w ≤ a + l.length)
  match (s.damaged a l.length).find? fun (w, e) => e = .double && !whole w with
  | some (w, _) =>
    let k := w - a
    let (s, _) := s.writeMem src a (l.take k)
    s.writeMem src (a + k) ((l.drop k).take 1)
  | none => s.writeMem src a l

/-- Writes a row; bytes that lie in `[lo, hi]` become free values (08 R358, R360, R362). -/
def writeRow (src : Nat) (s : State) (a : Nat) (l : List Byte) (free : Option (Int × Int)) : State × Option MemErr :=
  match free with
  | none => writeElems src s a l
  | some (lo, hi) =>
    let (fs, s) := s.drawBytes l.length
    let l := (l.zip fs).zipIdx.map fun ((x, f), i) => if lo ≤ ((a + i : Nat) : Int) ∧ ((a + i : Nat) : Int) ≤ hi then f else x
    writeElems src s a l

/-! ### Advancing a descriptor -/

/-- How an engine's work on a descriptor ended. -/
inductive EngRes where
  /-- Its result: status, DETAIL, CYCLES and the ECC code word of an error. -/
  | ended (s : State) (status : Nat) (detail : Word) (cycles : Nat) (addr : Nat)
  /-- It waits, with this progress. -/
  | stay (s : State) (p : Prog)
  /-- It needs a run of the peer's memory for a range. -/
  | wait (a n range : Nat)

/-- What an engine's work leaves also undergoes `g`. -/
def EngRes.andThen (r : EngRes) (g : State → State) : EngRes :=
  match r with
  | .ended s st d c a => .ended (g s) st d c a
  | .stay s p => .stay (g s) p
  | .wait a n r => .wait a n r

/-- The fault an access error gives a descriptor (08 Table 8.2; 20 R825), or the wait. -/
def memStop (s : State) (e : MemErr) (range cycles : Nat) : EngRes :=
  match e with
  | .ecc a => .ended s 0x30 (Word.nat range) cycles a
  | .remote r => .ended s 0x31 (Word.nat (range + r * 256)) cycles 0
  | .wait a n => .wait a n range

/-- Whether a flight still occupies its engine in order: stream descriptors that wait do not (08 R368). -/
def Flight.inOrder (f : Flight) : Bool :=
  match f.st with
  | .queued => true
  | .running .streamWait => false
  | .running (.streamRecv _ _) => false
  | .running .streamRead => false
  | .running _ => true
  | _ => false

namespace State

/-- An earlier descriptor of the same ring has ended on the instance with a fault (11 R485: none behind it starts). -/
def behindFault (s : State) (f : Flight) : Bool :=
  f.st == .queued && s.cap.flights.any fun g => g.ring == f.ring && g.cls == f.cls && g.inst == f.inst &&
    (match g.st with
     | .ended st _ _ => decide (0x10 ≤ st)
     | .finished st _ _ => decide (0x10 ≤ st)
     | _ => false)

/-- The descriptor an instance is on: the oldest of its window that has not ended (07 R306). -/
def current (s : State) (cls inst : Nat) : Option Flight :=
  (s.cap.flights.find? fun f => f.cls == cls && f.inst == inst && f.inOrder).filter fun f => !s.behindFault f

/-- A remote operation is refused here, with a reason (20 R822). -/
def remoteRefusal (s : State) (a n : Nat) : Option Nat :=
  if !s.sw.linked then some 1
  else if !s.sw.paired then some 2
  else if a - 0x70000000 + n > (fld (wordAt s.sw.peer 1) 0 3) * 0x1000000 then some 5
  else none

/-- The pieces of at most 224 bytes of a run (20 R821). -/
def pieces : Nat → Nat → Nat → List (Nat × Nat)
  | 0, _, _ => []
  | k + 1, a, n => if n = 0 then [] else (a, min n 224) :: pieces k (a + min n 224) (n - min n 224)

/-- Issues the operations of a run, in order; one refused here is answered at once (20 R821, R822). -/
def issueRun (s : State) (o : RemOwner) (write : Bool) (a : Nat) (data : List Byte) (n : Nat) : State :=
  (pieces (n / 224 + 1) a n).foldl (fun s (b, m) =>
    let op : RemOp := {
      owner := o, write := write, addr := b, data := (data.drop (b - a)).take m, len := m, runAddr := a, runLen := n
      num := s.sw.issued, answer := (s.remoteRefusal b m).map fun r => (r, []) }
    { s with sw := { s.sw with ops := s.sw.ops ++ [op], issued := s.sw.issued + 1 } }) s

/-- The data of answered operations up to the first that failed. -/
def goodData (ops : List RemOp) : List Byte :=
  (ops.takeWhile fun p => (p.answer.getD (1, [])).1 == 0).flatMap fun p => (p.answer.getD (0, [])).2

/-- The outcome of a run all of whose operations are answered: its data, or the first failure's reason. -/
def runOutcome (s : State) (o : RemOwner) : Option (Nat × List Byte) :=
  let ops := s.sw.ops.filter fun p => p.owner = o
  if ops.all fun p => p.answer.isSome then
    some (match ops.find? fun p => (p.answer.getD (0, [])).1 != 0 with
      | some p => ((p.answer.getD (0, [])).1, [])
      | none => (0, ops.flatMap fun p => (p.answer.getD (0, [])).2))
  else none

def dropOps (s : State) (o : RemOwner) : State :=
  { s with sw := { s.sw with ops := s.sw.ops.filter fun p => !decide (p.owner = o) } }

/-- Whether an operation belongs to an entry's descriptor. -/
def ownedBy (ring idx : Nat) (p : RemOp) : Bool :=
  match p.owner with
  | .flight r k _ => r == ring && k == idx
  | _ => false

/-- Answered operations of a descriptor take effect on it. A read run is kept for its engine, up to the operation that failed. The
responses to a run of writes let the next one go, or end the descriptor: none goes after one that failed
(20 R826; 10 R453; 12 R543). -/
def settleRun (s : State) (ring idx : Nat) : State :=
  let ops := s.sw.ops.filter (ownedBy ring idx)
  if ops.isEmpty || !(ops.all fun p => p.answer.isSome) then s
  else
    let bad := ops.find? fun p => (p.answer.getD (0, [])).1 != 0
    let rng (p : RemOp) : Nat := match p.owner with | .flight _ _ g => g | _ => 0
    let s := { s with sw := { s.sw with ops := s.sw.ops.filter fun p => !ownedBy ring idx p } }
    match s.flightAt ring idx, ops with
    | some f, p :: _ =>
      match f.st with
      | .running (.remoteWrite st d c) =>
        match bad with
        | some p =>
          let (c, s) := (s.engineFault f).freeCycles c
          s.mapFlight ring idx fun f =>
            { f with st := .ended 0x31 (Word.nat (rng p + (p.answer.getD (0, [])).1 * 256)) c, out := [] }
        | none =>
          match f.out with
          | [] => s.mapFlight ring idx fun f => { f with st := .ended st d c }
          | (a, l) :: rest =>
            (s.mapFlight ring idx fun f => { f with out := rest }).issueRun (.flight ring idx (rng p)) true a l l.length
      | _ =>
        let fail := bad.map fun q => (q.answer.getD (0, [])).1
        s.mapFlight ring idx fun f => { f with rem := f.rem ++ [⟨p.runAddr, p.runLen, goodData ops, fail⟩] }
    | _, _ => s

/-- As `settleRun`; operations that it issues and that are refused here at once take effect too (20 R822). -/
def settleFlight (s : State) (ring idx : Nat) : State := (s.settleRun ring idx).settleRun ring idx

/-- The stall counters `ks` of an engine count up by free amounts, saturating (log 1). -/
def stalls (s : State) (base : Nat) (ks : List Nat) : State :=
  ks.foldl (fun s k =>
    let (x, s) := s.draw 32
    let a := base + 0x10 + 4 * k
    s.setReg a (Word.nat (min 0xFFFFFFFF ((s.reg a).toNat + x.toNat)))) s

/-- Ends a descriptor outside its engine's own command. -/
def endFlight (s : State) (ring idx status : Nat) (detail : Word) (cycles : Nat) : State :=
  s.mapFlight ring idx fun f => { f with st := .ended status detail cycles }

/-- Advances the descriptor an instance is on, if its operation is `opc` and it is not null: `g` does its work. Its remote
writes go to the peer at its end: a mover's together, an engine's run by run, since nothing follows a write of an engine that
fails (08 R384; 10 R453; 12 R543). -/
def advance (s : State) (cls inst opc : Nat) (wrRange : Nat) (g : Flight → State → EngRes) : State :=
  if !s.capRuns then s
  else match s.current cls inst with
    | none => s
    | some f =>
      if opcOf f.desc ≠ opc || f.null || s.sw.ops.any (ownedBy f.ring f.idx) then s
      else match g f { s with view := f.rem, viewOut := f.out } with
        | .wait a n rg =>
          let s := s.issueRun (.flight f.ring f.idx rg) false a [] n
          (s.mapFlight f.ring f.idx fun f =>
            match f.st with | .queued => { f with st := .running .remoteRead } | _ => f).settleFlight f.ring f.idx
        | .stay s' p =>
          { s' with view := [], viewOut := [] }.mapFlight f.ring f.idx fun f =>
            { f with st := .running p, out := s'.viewOut }
        | .ended s' st d c a =>
          let out := s'.viewOut
          let s' := { s' with view := [], viewOut := [] }
          if out.isEmpty then s'.mapFlight f.ring f.idx fun f => { f with st := .ended st d c, addr := a }
          else
            let now := if cls = 4 then out else out.take 1
            let s' := now.foldl (fun s (a, l) => s.issueRun (.flight f.ring f.idx wrRange) true a l l.length) s'
            (s'.mapFlight f.ring f.idx fun f =>
              { f with st := .running (.remoteWrite st d c), addr := a, out := out.drop now.length }).settleFlight f.ring f.idx

end State

end Sys2Proof.Machine
end

