-- ==== Sys2Proof/Machine/Halyard.lean ====
section
/-! DEFINITION. The Halyard movers: descriptor checks, copies, fills, gathers, layout changes, CRC-32 and
streams (08.4–08.9). -/

namespace Sys2Proof.Machine

/-- The DAC sample-frame size of STREAM_OUT (18 R760). -/
def dacFrame (s : State) : Nat := (if s.fbit AU_PLAY 2 then 1 else 2) * (if s.fbit AU_PLAY 1 then 4 else 2)

/-- SIDs whose source is on I/O die B (08 Table 8.5). -/
def iobSid (sid : Nat) : Bool := sid == 3 || sid == 4 || sid == 8

/-- A Halyard descriptor's dimensions: counts and strides, innermost strided first; the source's and the
destination's. -/
def halDims (d : List Word) : List (Nat × Int × Int) :=
  let n := df d 6 18 2
  ([(df d 7 0 16, ds d 9, ds d 12), (df d 7 16 16, ds d 10, ds d 13), (df d 8 0 16, ds d 11, ds d 14)]).take n

/-- The extent of 08 R357. -/
def extent (base n0 size : Nat) (dims : List (Nat × Int)) : Int × Int :=
  let step (c : Nat) (st : Int) : Int := ((c : Int) - 1) * st
  ((base : Int) + (dims.map fun (c, st) => min 0 (step c st)).foldl (· + ·) 0,
   (base : Int) + n0 * size - 1 + (dims.map fun (c, st) => max 0 (step c st)).foldl (· + ·) 0)

/-- The geometry of RELAYOUT: block, blocks per pixel, NHWC and blocked spans in bytes, and whether it goes to the
blocked layout (08 R359). -/
structure Relay where
  b : Nat
  cb : Nat
  nhwc : Nat
  blocked : Nat
  toBlocked : Bool

def relayOf (d : List Word) : Relay :=
  let c := df d 6 0 16
  let m := df d 6 18 3
  let b := if m % 2 = 0 then 16 else 32
  let cb := ceilDiv c b
  let px := df d 8 0 16 * df d 7 16 16 * df d 7 0 16 * 2 ^ df d 6 16 2
  ⟨b, cb, px * c, px * cb * b, decide (m < 2)⟩

/-- The checks, null test and ranges of a Halyard descriptor for ring `n` (08 R354–R356, R365, R366). -/
def halyardChecks (s : State) (n : Nat) (r : Ring) (d : List Word) : ClassChecks :=
  let o := opcOf d
  let w0 := wordAt d 0
  let crc := bit w0 12
  let check := bit w0 13
  let nodst := bit w0 14
  let esz := df d 6 16 2
  let size := 2 ^ esz
  let dims := df d 6 18 2
  let sid := df d 6 0 4
  let strm := o == 5 || o == 6
  let src := (wordAt d 4).toNat
  let dst := (wordAt d 5).toNat
  let efl : Bool := (!crc || o == 1 || o == 3 || o == 4) && (!check || crc) && (!nodst || (crc && (o == 1 || o == 3)))
  let move : List Check :=
    [(6, 16, esz != 3), zero d 6 20 12, unused (dims ≥ 1) d 7 0 16, unused (dims ≥ 2) d 7 16 16,
     unused (dims ≥ 3) d 8 0 16, zero d 8 16 16]
  let body : List Check := match o with
    | 1 => [unused (!nodst) d 5 0 32] ++ move ++
        [unused (dims ≥ 1) d 9 0 32, unused (dims ≥ 2) d 10 0 32, unused (dims ≥ 3) d 11 0 32,
         unused (dims ≥ 1 && !nodst) d 12 0 32, unused (dims ≥ 2 && !nodst) d 13 0 32,
         unused (dims ≥ 3 && !nodst) d 14 0 32, unused check d 15 0 32]
    | 2 => [zero d 4 0 32] ++ move ++ zeroWords d [9, 10, 11] ++
        [unused (dims ≥ 1) d 12 0 32, unused (dims ≥ 2) d 13 0 32, unused (dims ≥ 3) d 14 0 32,
         zero d 15 (8 * size) (32 - 8 * size)]
    | 3 => [unused (!nodst) d 5 0 32, (6, 16, esz != 3), (6, 18, decide (df d 6 18 2 ≤ 1)), zero d 6 20 12,
        zero d 7 16 16, unused (!nodst) d 11 0 32] ++ zeroWords d [12, 13, 14] ++ [unused check d 15 0 32]
    | 4 => [(6, 16, esz != 3), (6, 18, decide (df d 6 18 3 ≤ 3)), zero d 6 21 11, zero d 8 16 16,
        zero d 9 (8 * size) (32 - 8 * size)] ++ zeroWords d [10, 11, 12, 13, 14] ++ [unused check d 15 0 32]
    | 5 => [zero d 4 0 32, (6, 0, [1, 3, 4, 5, 6, 8].contains sid), zero d 6 4 28] ++
        zeroWords d [8, 9, 10, 11, 12, 13, 14, 15]
    | _ => [zero d 5 0 32, (6, 0, sid == 7), zero d 6 4 28] ++ zeroWords d [8, 9, 10, 11, 12, 13, 14, 15]
  let limit : List Check := match o with
    | 3 => [(6, 0, decide (df d 6 0 16 * size ≤ 4096))]
    | 4 => [(6, 0, decide (df d 6 0 16 * size ≤ 4096))]
    | 6 => [(7, 0, decide ((wordAt d 7).toNat ≤ 32768))]
    | _ => []
  let mult (w m : Nat) : Check := (w, 0, (wordAt d w).toNat % m == 0)
  let align : List Check := match o with
    | 1 => [4, 5, 9, 10, 11, 12, 13, 14].map fun w => mult w size
    | 2 => [5, 12, 13, 14].map fun w => mult w size
    | 3 => [mult 4 size, mult 5 size, mult 8 (if df d 6 18 2 = 0 then 2 else 4), mult 9 size, mult 11 size]
    | 4 => [mult 4 size, mult 5 size]
    | 5 => [mult 5 32]
    | _ => [mult 4 32, mult 7 (dacFrame s)]
  let bound := Store.get 0 s.cap.binds sid
  let cls : Option (Nat × Word) :=
    if strm != r.stream then some (0x16, 0)
    else if !strm then none
    else if iobSid sid && !s.part.iob then some (0x17, Word.nat sid)
    else if bound ≠ 0 ∧ bound ≠ n + 1 then some (0x18, Word.nat (bound - 1))
    else none
  let hd := halDims d
  let n0 := df d 6 0 16
  let se := extent src n0 size (hd.map fun (c, a, _) => (c, a))
  let de := extent dst n0 size (hd.map fun (c, _, b) => (c, b))
  let g := relayOf d
  let iw := if df d 6 18 2 = 0 then 2 else 4
  let nidx := df d 7 0 16
  let ge := extent dst n0 size [(nidx, ds d 11)]
  let ranges : List Range := match o with
    | 1 => ⟨se.1, se.2, true, false⟩ :: (if nodst then [] else [⟨de.1, de.2, false, true⟩])
    | 2 => [⟨de.1, de.2, false, true⟩]
    | 3 => [Range.span (wordAt d 8).toNat (nidx * iw) false,
        ⟨src, (src : Int) + ((wordAt d 10).toNat - 1) * (wordAt d 9).toNat + n0 * size - 1, true, false⟩] ++
        (if nodst then [] else [⟨ge.1, ge.2, false, true⟩])
    | 4 => [Range.span src (if g.toBlocked then g.nhwc else g.blocked) false,
        Range.span dst (if g.toBlocked then g.blocked else g.nhwc) true]
    | 5 => [Range.span dst (wordAt d 7).toNat true]
    | _ => [Range.span src (wordAt d 7).toNat false]
  let null : Bool := match o with
    | 1 => n0 == 0 || hd.any fun x => x.1 == 0
    | 2 => n0 == 0 || hd.any fun x => x.1 == 0
    | 3 => n0 == 0 || nidx == 0 || (wordAt d 10).toNat == 0
    | 4 => g.nhwc == 0
    | _ => (wordAt d 7).toNat == 0
  { opcOk := decide (1 ≤ o ∧ o ≤ 6), eflags := [(0, 12, efl), zero d 0 15 1], body := body, limit := limit
    align := align, cls := cls, null := null, ranges := ranges }

/-! ### Runs (08 R373) -/

def beats (a l : Nat) : Nat := ceilDiv (a % 32 + l) 32
/-- Code words that a run touches only in part. -/
def pcw (a l : Nat) : Nat :=
  if l = 0 then 0
  else
    let first := a / 8
    let last := (a + l - 1) / 8
    let pa := a % 8 ≠ 0 ∨ a + l < first * 8 + 8
    let pb := (a + l) % 8 ≠ 0
    if first = last then b2n (decide (pa ∨ pb)) else b2n (decide (a % 8 ≠ 0)) + b2n (decide pb)

/-- A Halyard descriptor in progress: memory, CRC register, Σ (max(rb, wb) + 1), Σ (rb + wb). -/
structure Hal where
  s : State
  crc : Nat := 0xFFFFFFFF
  t : Nat := 0
  io : Nat := 0
  stop : Option (MemErr × Nat) := none
  fault : Option (Nat × Word) := none

/-- Moves `k` elements one after another from `a` to `b`: the bytes read, and where it stops (08 R357, R361). -/
def moveCells (size : Nat) (free : Option (Int × Int)) (rs rd : Nat) :
    Nat → Nat → Nat → State → List Byte → State × Option (MemErr × Nat) × List Byte
  | 0, _, _, s, acc => (s, none, acc)
  | k + 1, a, b, s, acc =>
    let (s, e, l) := s.readMem srcHalyard a size
    match e with
    | some x => (s, some (x, rs), acc)
    | none =>
      let (s, e) := writeRow srcHalyard s b l free
      match e with
      | some x => (s, some (x, rd), acc ++ l)
      | none => moveCells size free rs rd k (a + size) (b + size) s (acc ++ l)

/-- A row whose bytes are read after some of them have been overwritten: source and destination meet. -/
def selfMeets (p : Part) (n : Nat) (row : Option Nat × Option Nat) : Bool :=
  match row with
  | (some a, some b) => spaceOf p a != .remote && decide (a < b + n) && decide (b < a + n) && a != b
  | _ => false

/-- Moves one row of `n` bytes from `src` (none: the bytes `fillBytes`) to `dst` (none: no write). A source error stops
it after the elements before the failing word, or before the peer's failing operation (08 R384; 20 R821, R826). -/
def moveRow (size n : Nat) (free : Option (Int × Int)) (rs rd : Nat) (fillBytes : List Byte) (h : Hal)
    (row : Option Nat × Option Nat) : Hal :=
  let rb := (match row.1 with | some a => beats a n | none => 0) + (match row.2 with | some a => pcw a n | none => 0)
  let wb := match row.2 with | some a => beats a n | none => 0
  if h.stop.isSome || h.fault.isSome then h
  else if selfMeets h.s.part n row then
    let (s, stop, l) := moveCells size free rs rd (n / size) (row.1.getD 0) (row.2.getD 0) h.s []
    { h with s := s, crc := l.foldl crcByte h.crc, t := h.t + max rb wb + 1, io := h.io + rb + wb, stop := stop }
  else
    let (s, e, l) := match row.1 with
      | some a => h.s.readMem srcHalyard a n
      | none => (h.s, none, fillBytes)
    let l := match e, row.1 with
      | some (.ecc w), some a => (s.peek a n).take ((w - a) / size * size)
      | some _, _ => l.take (l.length / size * size)
      | none, _ => l
    let (s, e') := match row.2 with
      | some a => if l.isEmpty then (s, none) else writeRow srcHalyard s a l free
      | none => (s, none)
    let stop := match e' with
      | some x => some (x, rd)
      | none => e.map fun x => (x, rs)
    { h with s := s, crc := l.foldl crcByte h.crc, t := h.t + max rb wb + 1, io := h.io + rb + wb, stop := stop }

/-- CYCLES of a Halyard descriptor that began at `s0`: T and a free amount within the bound of 08 R374, where a word corrected on a
read counts 2. Waits for the peer have no bound but the link's own, retries and credits (20 R834). One that stops has
counted a free part of it (07 R343). -/
def halCycles (h : Hal) (ib : Nat) (check : Bool) (s0 : State) : Nat × State :=
  let t := 16 + ib + h.t + (if check then 4 else 0)
  let fixed := (h.s.reg FT_CE_ECC - s0.reg FT_CE_ECC).toNat
  let remote := !s0.view.isEmpty || !h.s.viewOut.isEmpty
  let (x, s) := h.s.draw 32
  let slack := if remote then 0xFFFFFFFF else 8 + 16 * (ib + h.io) + 2 * fixed
  if h.stop.isSome || h.fault.isSome then (x.toNat % (t + slack + 1), s) else (t + x.toNat % (slack + 1), s)

/-- Ends a COPY, FILL, GATHER or RELAYOUT (08 R364, R374). -/
def halEnd (d : List Word) (h : Hal) (ib : Nat) (s0 : State) (freeCrc : Bool) : EngRes :=
  let w0 := wordAt d 0
  let (cyc, s) := halCycles h ib (bit w0 13) s0
  match h.stop, h.fault with
  | some (e, rg), _ => memStop s e rg cyc
  | none, some (st, x) => .ended s st x cyc 0
  | none, none =>
    let (f, s) := if freeCrc then s.draw 32 else (0, s)
    let c : Word := if freeCrc then f else Word.nat (Nat.xor h.crc 0xFFFFFFFF)
    if bit w0 12 then
      if bit w0 13 ∧ c ≠ wordAt d 15 then .ended s 0x33 c cyc 0 else .ended s 0 c cyc 0
    else .ended s 0 0 cyc 0

/-- The rows of COPY and FILL in the order of 08 R357: source and destination address of each. -/
def halRows (d : List Word) : List (Nat × Nat) :=
  let hd := halDims d
  let g (k : Nat) : Nat × Int × Int := hd.getD k (1, 0, 0)
  let src := (wordAt d 4).toNat
  let dst := (wordAt d 5).toNat
  (List.range (g 2).1).flatMap fun (i3 : Nat) =>
    (List.range (g 1).1).flatMap fun (i2 : Nat) => (List.range (g 0).1).map fun (i1 : Nat) =>
    (((src : Int) + i1 * (g 0).2.1 + i2 * (g 1).2.1 + i3 * (g 2).2.1).toNat,
     ((dst : Int) + i1 * (g 0).2.2 + i2 * (g 1).2.2 + i3 * (g 2).2.2).toNat)

/-- COPY (08 R357, R358). -/
def doCopy (f : Flight) (s : State) : EngRes :=
  let d := f.desc
  let nodst := bit (wordAt d 0) 14
  let size := 2 ^ df d 6 16 2
  let n := df d 6 0 16 * size
  let hd := halDims d
  let se := extent (wordAt d 4).toNat (df d 6 0 16) size (hd.map fun (c, a, _) => (c, a))
  let de := extent (wordAt d 5).toNat (df d 6 0 16) size (hd.map fun (c, _, b) => (c, b))
  let free := if nodst then none else meet se de
  let h := (halRows d).foldl (fun h (a, b) => moveRow size n free 0 1 [] h (some a, if nodst then none else some b)) { s := s }
  halEnd d h 0 s free.isSome

/-- FILL (08 R357). -/
def doFill (f : Flight) (s : State) : EngRes :=
  let d := f.desc
  let size := 2 ^ df d 6 16 2
  let n0 := df d 6 0 16
  let row := (List.replicate n0 (leBytes size (wordAt d 15).toNat)).flatten
  let h := (halRows d).foldl (fun h (_, b) => moveRow size (n0 * size) none 0 0 row h (none, some b)) { s := s }
  halEnd d { h with crc := 0 } 0 s false

/-- GATHER (08 R361, R362). -/
def doGather (f : Flight) (s : State) : EngRes :=
  let d := f.desc
  let nodst := bit (wordAt d 0) 14
  let size := 2 ^ df d 6 16 2
  let n := df d 6 0 16 * size
  let iw := if df d 6 18 2 = 0 then 2 else 4
  let nidx := df d 7 0 16
  let idx := (wordAt d 8).toNat
  let dst := (wordAt d 5).toNat
  let srows := (wordAt d 10).toNat
  let ib := beats idx (nidx * iw)
  let (s1, e, l) := s.readMem srcHalyard idx (nidx * iw)
  let good := match e with
    | some (.ecc w) => (w - idx) / iw
    | some _ => l.length / iw
    | none => nidx
  let l := match e with
    | some (.ecc _) => s1.peek idx (nidx * iw)
    | _ => l
  let de := extent dst (df d 6 0 16) size [(nidx, ds d 11)]
  let free := if nodst then none else
    if overlaps de.1 de.2 idx ((idx : Int) + nidx * iw - 1) then some de else none
  let h := (List.range good).foldl (fun h (j : Nat) =>
    if h.stop.isSome || h.fault.isSome then h
    else
      let i := leNat ((l.drop (j * iw)).take iw)
      if srows ≤ i then { h with fault := some (0x32, Word.nat j) }
      else
        let a := (wordAt d 4).toNat + i * (wordAt d 9).toNat
        let b := ((dst : Int) + j * ds d 11).toNat
        moveRow size n free 1 2 [] h (some a, if nodst then none else some b)) { s := s1 }
  let h := match e with
    | some x => if h.stop.isSome || h.fault.isSome then h else { h with stop := some (x, 0) }
    | none => h
  halEnd d h ib s false

/-- The pixel runs of one side of RELAYOUT for pixel `p` of image `i`: address and length of each. -/
def pixelRuns (d : List Word) (base : Nat) (blocked : Bool) (i p : Nat) : List (Nat × Nat) :=
  let g := relayOf d
  let size := 2 ^ df d 6 16 2
  let hw := df d 7 16 16 * df d 7 0 16
  let c := df d 6 0 16
  if blocked then (List.range g.cb).map fun k => (base + ((i * g.cb + k) * hw + p) * g.b * size, g.b * size)
  else [(base + (i * hw + p) * c * size, c * size)]

/-- Reads the runs of a pixel; the first error stops it. -/
def readRuns (s : State) : List (Nat × Nat) → List Byte → State × Option MemErr × List Byte
  | [], acc => (s, none, acc)
  | (a, n) :: t, acc =>
    let (s, e, l) := s.readMem srcHalyard a n
    match e with
    | some x => (s, some x, acc)
    | none => readRuns s t (acc ++ l)

/-- RELAYOUT (08 R359, R360, R363). Its CRC is undefined only where a source byte that it feeds is (log 109). -/
def doRelayout (f : Flight) (s : State) : EngRes :=
  let d := f.desc
  let g := relayOf d
  let size := 2 ^ df d 6 16 2
  let src := (wordAt d 4).toNat
  let dst := (wordAt d 5).toNat
  let hw := df d 7 16 16 * df d 7 0 16
  let c := df d 6 0 16
  let sspan := if g.toBlocked then g.nhwc else g.blocked
  let dspan := if g.toBlocked then g.blocked else g.nhwc
  let free := meet (src, (src : Int) + sspan - 1) (dst, (dst : Int) + dspan - 1)
  let pad := (List.replicate (g.cb * g.b - c) (leBytes size (wordAt d 9).toNat)).flatten
  let pixel (h : Hal) (i p : Nat) : Hal :=
    if h.stop.isSome then h
    else
      let sr := pixelRuns d src (!g.toBlocked) i p
      let dr := pixelRuns d dst g.toBlocked i p
      let (s, e, l) := readRuns h.s sr []
      let rb := (sr.map fun (a, n) => beats a n).sum + (dr.map fun (a, n) => pcw a n).sum
      let wb := (dr.map fun (a, n) => beats a n).sum
      match e with
      | some x => { h with s := s, stop := some (x, 0) }
      | none =>
        let l := if g.toBlocked then l ++ pad else l.take (c * size)
        let (s, e, _) := dr.foldl (fun (s, e, l) (a, n) =>
          match e with
          | some x => (s, some x, l)
          | none => let (s, e) := writeRow srcHalyard s a (l.take n) free; (s, e, l.drop n)) (s, (none : Option MemErr), l)
        { h with s := s, t := h.t + max rb wb + 1, io := h.io + rb + wb, stop := e.map fun x => (x, 1) }
  let h := (List.range (df d 8 0 16)).foldl (fun h i => (List.range hw).foldl (fun h p => pixel h i p) h) { s := s }
  -- a source byte is read after an earlier pixel has overwritten it
  let meets (x y : Nat × Nat) : Bool := decide (x.1 < y.1 + y.2) && decide (y.1 < x.1 + x.2)
  let cells := (List.range (df d 8 0 16)).flatMap fun i => (List.range hw).map fun p => (i, p)
  let seen := cells.foldl (fun ((bad, seen) : Bool × List (Nat × Nat)) (i, p) =>
    ((bad || (pixelRuns d src (!g.toBlocked) i p).any fun r => seen.any (meets r)), seen ++ pixelRuns d dst g.toBlocked i p))
    (false, [])
  let late : Bool := free.isSome && seen.1
  let viewAt (a : Nat) : List Byte := match s.view.find? fun r => r.addr == a with | some r => r.data | none => []
  let srcRuns : List Nat :=
    if g.toBlocked then (List.range (df d 8 0 16 * hw)).map fun p => src + p * c * size
    else (List.range (df d 8 0 16 * g.cb * hw)).map fun p => src + p * g.b * size
  let crcSrc := if spaceOf s.part src = .remote then srcRuns.flatMap viewAt else s.peek src sspan
  halEnd d { h with crc := if bit (wordAt d 0) 12 then crcSrc.foldl crcByte 0xFFFFFFFF else 0 } 0 s late

/-! ### Streams (08.8) -/

/-- DETAIL of an OK stream record (08 R370). -/
def streamDetail (bytes : Nat) (trunc gap stopped : Bool) : Word :=
  Word.nat (bytes + b2n trunc * 2 ^ 24 + b2n gap * 2 ^ 25 + b2n stopped * 2 ^ 26)

def flightSid (f : Flight) : Nat := df f.desc 6 0 4

namespace State

/-- The GAP mark of a SID is taken. -/
def takeGap (s : State) (sid : Nat) : Bool × State :=
  (s.cap.gaps.contains sid, { s with cap := { s.cap with gaps := NSet.erase s.cap.gaps sid } })

/-- A unit was lost, or the DAC underran: GAP for the bound ring's next descriptor (08 R370). -/
def markGap (s : State) (sid : Nat) : State :=
  if Store.get 0 s.cap.binds sid ≠ 0 then { s with cap := { s.cap with gaps := NSet.insert s.cap.gaps sid } } else s

/-- The oldest started descriptor that waits for a unit of a SID (08 R368). -/
def waiting (s : State) (sid : Nat) : Option Flight :=
  s.cap.flights.find? fun f => f.cls == 4 && flightSid f == sid &&
    (match f.st with | .running .streamWait => true | _ => false)

/-- The most KF cycles from a unit's first byte to its descriptor's last access: its duration, at 800 cycles to the microsecond,
and 24; none where its source's or its peer's own time sets it (08 R375; 17 R722, R733; 18 R766; 20 R831). -/
def streamBound (sid n : Nat) : Option Nat :=
  match sid with
  | 1 => some ((3840 + 2) * 800 + 24)
  | 5 | 6 | 7 => some (ceilDiv n 32 * 16 + 2 * 800 + 24)
  | _ => none

/-- Ends a stream descriptor whose last byte of a unit of `n` bytes has been moved; its CYCLES are a free value within
the bound of 08 R375. -/
def endStream (s : State) (f : Flight) (n status : Nat) (detail : Word) (addr : Nat) : State :=
  let out := s.viewOut
  let (c, s) := s.freeCycles (if out.isEmpty then (streamBound (flightSid f) n).getD 0xFFFFFFFF else 0xFFFFFFFF)
  let s := { s with viewOut := [] }
  if out.isEmpty then s.mapFlight f.ring f.idx fun f => { f with st := .ended status detail c, addr := addr }
  else
    let s := out.foldl (fun s (a, l) => s.issueRun (.flight f.ring f.idx 0) true a l l.length) s
    (s.mapFlight f.ring f.idx fun f => { f with st := .running (.remoteWrite status detail c), addr := addr }).settleFlight
      f.ring f.idx

/-- A unit's bytes go to the descriptor that takes it, which ends (08 R369, R370). -/
def fillUnit (s : State) (f : Flight) (gap : Bool) (l : List Byte) : State :=
  let cap := (wordAt f.desc 7).toNat
  let (s, e) := writeElems srcHalyard s (wordAt f.desc 5).toNat (l.take cap)
  match e with
  | some (.ecc a) => s.endStream f l.length 0x30 0 a
  | _ => s.endStream f l.length 0 (streamDetail (min l.length cap) (decide (cap < l.length)) gap false) 0

/-- A whole unit goes to the oldest waiting descriptor; the answer says whether one took it (08 R368, R369). -/
def deliver (s : State) (sid : Nat) (l : List Byte) : State × Bool :=
  match s.waiting sid with
  | none => (s.markGap sid, false)
  | some f =>
    let (gap, s) := s.takeGap sid
    (s.fillUnit f gap l, true)

/-- The waiting descriptors of a stopped stream end with STOPPED, but for those that take the units already begun
(08 R371). -/
def stopStream (s : State) (sid : Nat) : State :=
  let begun := (s.units.filter fun u => u.1 == sid).length
  ((s.cap.flights.filter fun f => f.cls == 4 && flightSid f == sid &&
    (match f.st with | .running .streamWait => true | _ => false)).drop begun).foldl (fun s f =>
      let (gap, s) := s.takeGap sid
      s.mapFlight f.ring f.idx fun f => { f with st := .ended 0 (streamDetail 0 false gap true) 0 }) s

/-- Starts the stream descriptor an instance is on (08 R368). -/
def startStream (s : State) (inst opc : Nat) : State :=
  match s.current 4 inst with
  | some f =>
    if opcOf f.desc = opc ∧ f.null = false ∧ f.st = .queued then
      s.mapFlight f.ring f.idx fun f => { f with st := .running .streamWait }
    else s
  | none => s

/-- The waiting STREAM_OUT descriptor of an instance receives its unit while fewer than two blocks are queued: its block is queued
from then on (18 R760). -/
def takeBlockTurn (s : State) (inst : Nat) : State :=
  match s.waiting 7 with
  | some f =>
    if f.inst = inst ∧ s.audio.queue.length < 2 then
      { s with audio := { s.audio with queue := s.audio.queue ++ [QBlock.reading f.ring f.idx] } }.mapFlight f.ring f.idx
        fun f => { f with st := .running .streamRead }
    else s
  | none => s

/-- What a descriptor that has read its block, or failed to, leaves in its place of the queue, if a restart has not discarded
it (18 R771). -/
def putBlock (s : State) (f : Flight) (l : Option (List Byte)) : State :=
  let new := match l with | some l => [QBlock.block l] | none => []
  let queue := s.audio.queue.flatMap fun b => if b == QBlock.reading f.ring f.idx then new else [b]
  { s with audio := { s.audio with queue := queue } }

/-- STREAM_OUT: a descriptor receives its unit, and one that has received it reads its block (08 R369, 18 R760). -/
def streamOut (s : State) (inst : Nat) : State :=
  let s := (s.startStream inst 6).takeBlockTurn inst
  match s.cap.flights.find? fun f => f.cls == 4 && f.inst == inst && f.st == .running .streamRead &&
      !(s.sw.ops.any (ownedBy f.ring f.idx)) with
  | some f =>
    let n := (wordAt f.desc 7).toNat
    let (s, e, l) := { s with view := f.rem }.readMem srcHalyard (wordAt f.desc 4).toNat n
    let s := { s with view := [] }
    match e with
    | some (.ecc a) => (s.putBlock f none).endStream f n 0x30 0 a
    | some (.remote r) => (s.putBlock f none).endStream f n 0x31 (Word.nat (r * 256)) 0
    | some (.wait a n) => (s.issueRun (.flight f.ring f.idx 0) false a [] n).settleFlight f.ring f.idx
    | none =>
      let (gap, s) := s.takeGap 7
      (s.putBlock f (some l)).endStream f n 0 (streamDetail n false gap false) 0
  | none => s

end State

/-! ### Meanings -/

/-- COPY on Halyard instance `inst` (08 R357). -/
def execCopy (inst : Nat) (s : State) : Out := .next (s.advance 4 inst 1 1 doCopy)
/-- FILL (08 R357). -/
def execFill (inst : Nat) (s : State) : Out := .next (s.advance 4 inst 2 0 doFill)
/-- GATHER (08 R361). -/
def execGather (inst : Nat) (s : State) : Out := .next (s.advance 4 inst 3 2 doGather)
/-- RELAYOUT (08 R359). -/
def execRelayout (inst : Nat) (s : State) : Out := .next (s.advance 4 inst 4 1 doRelayout)
end Sys2Proof.Machine
end

