-- ==== Sys2Proof/Machine/Num.lean ====
section
/-! DEFINITION. Numbers: floating-point values as exact dyadic numbers, the four rounding modes, FP32 and FP16
encodings with the device's departures from IEEE 754, the conversions and Dice (09.6–09.9). -/

namespace Sys2Proof.Machine

/-- A floating-point value: `fin neg m e` is ±m × 2^e, with a signed zero where `m` is 0. -/
inductive Fp where
  | nan
  | inf (neg : Bool)
  | fin (neg : Bool) (m : Nat) (e : Int)
deriving DecidableEq, Repr

namespace Fp

/-- The value of FP32 bits; a subnormal reads as a zero of its sign (09 R398). -/
def of32 (x : Nat) : Fp :=
  let neg := x / 2 ^ 31 % 2 == 1
  let ex : Nat := x / 2 ^ 23 % 256
  let fr : Nat := x % 2 ^ 23
  if ex = 255 then (if fr = 0 then .inf neg else .nan)
  else if ex = 0 then .fin neg 0 0
  else .fin neg (fr + 2 ^ 23) ((ex : Int) - 150)

/-- The value of FP16 bits, subnormals included (09 R399). -/
def of16 (x : Nat) : Fp :=
  let neg := x / 2 ^ 15 % 2 == 1
  let ex : Nat := x / 2 ^ 10 % 32
  let fr : Nat := x % 2 ^ 10
  if ex = 31 then (if fr = 0 then .inf neg else .nan)
  else if ex = 0 then .fin neg fr (-24)
  else .fin neg (fr + 2 ^ 10) ((ex : Int) - 25)

def ofInt (x : Int) : Fp := .fin (decide (x < 0)) x.natAbs 0

def neg : Fp → Fp
  | .nan => .nan
  | .inf n => .inf (!n)
  | .fin n m e => .fin (!n) m e

def abs : Fp → Fp
  | .nan => .nan
  | .inf _ => .inf false
  | .fin _ m e => .fin false m e

def isNan : Fp → Bool
  | .nan => true
  | _ => false

def isZero : Fp → Bool
  | .fin _ 0 _ => true
  | _ => false

/-- The exact product; 0 × ∞ is invalid (09 R400). -/
def mul : Fp → Fp → Fp
  | .nan, _ => .nan
  | _, .nan => .nan
  | .inf a, .inf b => .inf (a != b)
  | .inf a, .fin b m _ => if m = 0 then .nan else .inf (a != b)
  | .fin a m _, .inf b => if m = 0 then .nan else .inf (a != b)
  | .fin a m e, .fin b n f => .fin (a != b) (m * n) (e + f)

/-- A signed mantissa at exponent `g ≤ e`. -/
def mant (neg : Bool) (m : Nat) (e g : Int) : Int :=
  let x : Int := m * 2 ^ (e - g).toNat
  if neg then -x else x

/-- The exact sum; ∞ − ∞ is invalid, an exact zero sum of opposite signs is +0 (09 R400, R402). -/
def add : Fp → Fp → Fp
  | .nan, _ => .nan
  | _, .nan => .nan
  | .inf a, .inf b => if a = b then .inf a else .nan
  | .inf a, .fin _ _ _ => .inf a
  | .fin _ _ _, .inf b => .inf b
  | .fin a m e, .fin b n f =>
    if m = 0 ∧ n = 0 then .fin (a && b) 0 0
    else
      let g := min e f
      let x := mant a m e g + mant b n f g
      if m = 0 then .fin b n f else if n = 0 then .fin a m e else .fin (decide (x < 0)) x.natAbs g

/-- Exact order of two values that are not NaN: -1, 0 or 1; zeros of either sign are equal. -/
def cmp (x y : Fp) : Int :=
  match x, y with
  | .inf a, .inf b => if a = b then 0 else if a then -1 else 1
  | .inf a, _ => if a then -1 else 1
  | _, .inf b => if b then 1 else -1
  | .fin a m e, .fin b n f =>
    let g := min e f
    let d := mant a m e g - mant b n f g
    if d < 0 then -1 else if d = 0 then 0 else 1
  | _, _ => 0

end Fp

/-! ### Rounding (09.7) -/

/-- Rounds a magnitude `m / 2^k` (plus a positive amount below one unit of `m` where `sticky`) to an integer in mode
`rm`, for a value of sign `neg`; `u` is the U16 draw of SR (09 R404, R405). -/
def roundMag (rm u : Nat) (neg : Bool) (m k : Nat) (sticky : Bool := false) : Nat :=
  let q := m / 2 ^ k
  let r := m % 2 ^ k
  if r = 0 ∧ !sticky then q
  else
    match rm with
    | 0 => if r * 2 > 2 ^ k ∨ (r * 2 = 2 ^ k ∧ (sticky ∨ q % 2 = 1)) then q + 1 else q
    | 1 => if r * 2 ≥ 2 ^ k then q + 1 else q
    | 2 => q
    | _ =>
      if neg then (if u * 2 ^ k < (2 ^ k - r) * 65536 then q else q + 1)
      else (if u * 2 ^ k < r * 65536 then q + 1 else q)

/-- Rounds ±m × 2^e to an integer. -/
def roundInt (rm u : Nat) (neg : Bool) (m : Nat) (e : Int) : Int :=
  let q : Nat := if 0 ≤ e then m * 2 ^ e.toNat else roundMag rm u neg m (-e).toNat
  if neg then -(q : Int) else q

/-- FP32 bits of ±m × 2^e rounded (09 R398): with an unbounded exponent first, then below 2^−126 to zero. -/
def pack32 (rm u : Nat) (neg : Bool) (m : Nat) (e : Int) (sticky : Bool := false) : Nat :=
  let sg := b2n neg * 2 ^ 31
  if m = 0 then sg
  else
    let k : Int := (m.log2 : Int) - 23
    let q := if 0 ≤ k then roundMag rm u neg m k.toNat sticky else m * 2 ^ (-k).toNat
    let (q, x) := if q = 2 ^ 24 then (2 ^ 23, e + k + 1) else (q, e + k)
    -- the value is q × 2^x with 2^23 ≤ q < 2^24
    if x < -149 then sg
    else if x > 104 then sg + (if rm = 2 then 0x7F7FFFFF else 0x7F800000)
    else sg + (x + 150).toNat * 2 ^ 23 + (q - 2 ^ 23)

/-- FP32 bits of a value. -/
def to32 (rm u : Nat) : Fp → Nat
  | .nan => 0x7FC00000
  | .inf n => b2n n * 2 ^ 31 + 0x7F800000
  | .fin n m e => pack32 rm u n m e

/-- FP16 bits of a value, subnormals included, its range by SAT (09 R399, R407). -/
def to16 (rm u : Nat) (sat : Bool) : Fp → Nat
  | .nan => 0x7E00
  | .inf n => b2n n * 2 ^ 15 + 0x7C00
  | .fin n m e =>
    let sg := b2n n * 2 ^ 15
    if m = 0 then sg
    else
      let k : Int := max ((m.log2 : Int) - 10) (-24 - e)
      let q := if 0 ≤ k then roundMag rm u n m k.toNat else m * 2 ^ (-k).toNat
      let (q, x) := if q = 2 ^ 11 then (2 ^ 10, e + k + 1) else (q, e + k)
      if q = 0 then sg
      else if x > 5 then
        if sat then sg + 0x7BFF else sg + (if rm = 2 then 0x7BFF else 0x7C00)
      else if q < 2 ^ 10 then sg + q
      else sg + (x + 25).toNat * 2 ^ 10 + (q - 2 ^ 10)

/-- x × y + z rounded once to FP32, to nearest even (09 R393, R397). -/
def fma32 (x y z : Fp) : Nat := to32 0 0 (Fp.add (Fp.mul x y) z)

/-- Sum, difference and product of FP32 bits, rounded once. -/
def add32 (a b : Nat) : Nat := to32 0 0 (Fp.add (Fp.of32 a) (Fp.of32 b))
def sub32 (a b : Nat) : Nat := to32 0 0 (Fp.add (Fp.of32 a) (Fp.neg (Fp.of32 b)))
def mul32 (a b : Nat) : Nat := to32 0 0 (Fp.mul (Fp.of32 a) (Fp.of32 b))

/-- min and max (09 R402): NaN gives NaN, −0 lies below +0. -/
def Fp.minmax (wantMax : Bool) (x y : Fp) : Fp :=
  if x.isNan || y.isNan then .nan
  else
    let c := Fp.cmp x y
    let xneg := match x with | .fin n _ _ => n | .inf n => n | .nan => false
    let less := c < 0 || (c == 0 && xneg)
    if less != wantMax then x else y

def minmax32 (wantMax : Bool) (a b : Nat) : Nat := to32 0 0 (Fp.minmax wantMax (Fp.of32 a) (Fp.of32 b))

/-! ### Formats and conversions (09 Table 9.1, Table 9.4) -/

inductive Fmt where
  | u4 | s4 | u8 | s8 | u16 | s16 | s32 | fp16 | fp32
deriving DecidableEq, Repr

namespace Fmt

def bits : Fmt → Nat
  | .u4 => 4 | .s4 => 4 | .u8 => 8 | .s8 => 8 | .u16 => 16 | .s16 => 16 | .s32 => 32 | .fp16 => 16 | .fp32 => 32

def isFp : Fmt → Bool
  | .fp16 => true | .fp32 => true | _ => false

def signed : Fmt → Bool
  | .u4 => false | .u8 => false | .u16 => false | _ => true

def lo (f : Fmt) : Int := if f.signed then -(2 ^ (f.bits - 1) : Nat) else 0
def hi (f : Fmt) : Int := if f.signed then (2 ^ (f.bits - 1) : Nat) - 1 else (2 ^ f.bits : Nat) - 1

/-- The integer that bits of an integer format spell. -/
def toInt (f : Fmt) (x : Nat) : Int :=
  let x := x % 2 ^ f.bits
  if f.signed then sgn f.bits x else x

/-- An integer saturated to an integer format's range, as bits (09 R418). -/
def sat (f : Fmt) (x : Int) : Nat := wrap f.bits (max f.lo (min f.hi x))

end Fmt

/-- The conversion of 09 Table 9.4 between two formats. -/
def convert (src dst : Fmt) (rm u : Nat) (sat : Bool) (x : Nat) : Nat :=
  let v : Fp := match src with
    | .fp16 => Fp.of16 x
    | .fp32 => Fp.of32 x
    | f => Fp.ofInt (f.toInt x)
  match dst with
  | .fp32 => to32 rm u v
  | .fp16 => to16 rm u sat v
  | f =>
    match v with
    | .nan => 0
    | .inf n => f.sat (if n then f.lo else f.hi)
    | .fin n m e => f.sat (roundInt rm u n m e)

/-! ### Dice (09.9) -/

/-- The rounds of Dice. -/
def diceRound : Nat → Nat → Nat → Nat → Nat
  | 0, x, _, _ => x
  | n + 1, x, y, k =>
    let p := 0xD256D193 * x
    diceRound n (Nat.xor (Nat.xor (p / 2 ^ 32) k) y % 2 ^ 32) (p % 2 ^ 32) ((k + 0x9E3779B9) % 2 ^ 32)

/-- The Dice function of 09 R409. -/
def dice (seed dstream lane ctr : Nat) : Nat :=
  diceRound 8 ctr (dstream * 2 ^ 24 + lane * 2 ^ 16 + 0xA5C3) seed

end Sys2Proof.Machine
end

