-- ==== Sys2Proof/Machine/Loom.lean ====
section
/-! DEFINITION. The Loom: descriptor checks, its stores, the exact products and their FP32 accumulation, hand-out,
CHAIN and KEEP, and cycle counts (10). -/

namespace Sys2Proof.Machine

/-! ### Descriptor (10.7) -/

/-- The fields of a Loom descriptor. -/
structure LoomD where
  chain : Bool
  keep : Bool
  feed : Bool
  ww : Nat
  af : Nat
  serial : Bool
  lane : Bool
  g : Nat
  out : Nat
  z : Nat
  nout : Nat
  k : Nat
  nch : Nat
  npos : Nat
  ko : Nat

def loomD (d : List Word) : LoomD :=
  let w0 := wordAt d 0
  { chain := bit w0 12, keep := bit w0 13, feed := bit w0 14, ww := df d 4 0 3, af := df d 4 3 3
    serial := bit (wordAt d 4) 6, lane := bit (wordAt d 4) 7, g := 32 * 2 ^ df d 4 8 2, out := df d 4 10 2
    z := df d 4 12 8, nout := df d 4 20 6, k := df d 5 0 16, nch := df d 5 16 7, npos := (wordAt d 6).toNat
    ko := df d 14 0 16 }

namespace LoomD

/-- Weight width WB. -/
def wb (x : LoomD) : Nat := x.ww + 1
/-- Stored bits per activation code (10 Table 10.3). -/
def bits (x : LoomD) : Nat :=
  if x.lane then 16 else match x.af with | 0 => 1 | 1 => 2 | 2 => 4 | 3 => 8 | _ => 1
/-- Serial bits per activation code (10 Table 10.3). -/
def ab (x : LoomD) : Nat := if x.lane then 16 else if x.af = 4 then 1 else x.bits + 1
def ng (x : LoomD) : Nat := ceilDiv x.k x.g
def wbytes (x : LoomD) : Nat := ceilDiv x.k 256 * x.wb * x.nch * 32
/-- Bytes of main codes of an activation row, and where its outlier codes begin (10 R432, R433). -/
def mainBytes (x : LoomD) : Nat := ceilDiv (x.k * x.bits) 8
def outlAt (x : LoomD) : Nat := ceilDiv x.mainBytes 32 * 32
def rowBytes (x : LoomD) : Nat := if x.nout = 0 then x.mainBytes else x.outlAt + 2 * x.nout
def osize (x : LoomD) : Nat := if x.out = 1 then 2 else 4
def blocks (x : LoomD) : Nat := ceilDiv x.npos 32

/-- C_pos of 10 R450. -/
def cpos (x : LoomD) : Nat :=
  let sw := if x.serial then 1024 else 256
  let m := if x.serial then x.ab * x.wb else x.wb
  ((List.range (ceilDiv x.k sw)).map fun j => max m (ceilDiv (ceilDiv (min sw (x.k - sw * j)) x.g) 8)).sum +
    (if x.nout = 0 then 0 else ceilDiv x.ko 8)

/-- What a descriptor waits for, as LM_STALLk: the load, activation reads or a feed, output, the fence (10 R451). -/
def waits (x : LoomD) : List Nat := [0, if x.feed then 3 else 1, 2, 4]

/-- The nominal count T (10 R450). -/
def count (x : LoomD) : Nat := 16 + (if x.serial then 0 else 4) + x.npos * x.cpos + 4 * x.blocks

end LoomD

/-- The lowest instance a ring's MASK names. -/
def soleInst (r : Ring) : Nat := ((List.range 4).find? r.mask.testBit).getD 0
/-- The MASK names more than one instance (07 R299). -/
def manyInsts (r : Ring) : Bool := decide (((List.range 4).filter r.mask.testBit).length ≠ 1)

/-- The class checks of 10 R442. -/
def loomClass (s : State) (r : Ring) (d : List Word) : Option (Nat × Word) :=
  let x := loomD d
  let c := (s.loom (soleInst r)).chain
  let held := x.chain || x.keep
  if held && decide (32 < x.npos) then some (0x42, 0)
  else if held && manyInsts r then some (0x42, 1)
  else if x.keep && x.k % x.g != 0 then some (0x42, 2)
  else
    let late := if x.nout ≠ 0 ∧ (x.ko = 0 ∨ (x.feed = false ∧ x.ko ≠ x.nout)) then some (0x45, Word.nat 0x3F) else none
    if x.chain then
      match c with
      | none => some (0x41, 0)
      | some c =>
        if c.af ≠ x.af then some (0x40, 0)
        else if c.z ≠ x.z then some (0x40, 1)
        else if c.gs ≠ df d 4 8 2 then some (0x40, 2)
        else if c.lane ≠ b2n x.lane then some (0x40, 3)
        else if c.npos ≠ x.npos then some (0x42, 3)
        else if c.nch ≠ x.nch then some (0x42, 4)
        else late
    else late

/-- The checks, null test and ranges of a Loom descriptor (10 R428, R436–R442). -/
def loomChecks (s : State) (r : Ring) (d : List Word) : ClassChecks :=
  let x := loomD d
  let zmax := if x.lane ∨ 4 ≤ x.af then 0 else 2 ^ x.bits - 1
  let mem := x.out < 2 ∧ x.keep = false
  let body : List Check :=
    [(4, 0, !x.lane || x.ww == 7), (4, 3, decide (x.af ≤ 4) && (!x.lane || x.af == 0)), (4, 6, !x.lane || x.serial),
     (4, 8, df d 4 8 2 != 3), (4, 10, !x.keep || x.out == 0), (4, 12, decide (x.z ≤ zmax)),
     (4, 20, !x.lane || x.nout == 0), zero d 4 26 6, zero d 5 23 9, unused (!x.feed) d 7 0 32, unused (!x.feed) d 8 0 32,
     unused (decide mem) d 11 0 32, unused (decide mem) d 12 0 32, unused (x.nout != 0) d 13 0 32,
     unused (x.nout != 0) d 14 0 16, zero d 14 16 16, zero d 15 0 32]
  let limit : List Check :=
    [(5, 16, decide (x.nch ≤ 64)), (4, 20, decide (x.nout ≤ 32)), (14, 0, decide (x.ko ≤ 1024)),
     (5, 0, decide (x.ng ≤ 32)), (5, 0, decide (x.wbytes ≤ 131072)), (5, 0, decide (x.nch * x.ko ≤ 65536))]
  let align : List Check := [7, 8, 9, 10, 11, 12, 13].map fun w => (w, 0, (wordAt d w).toNat % 32 == 0)
  let a (w : Nat) : Nat := (wordAt d w).toNat
  let ranges : List Range :=
    [if x.feed then .absent else Range.span (a 7) ((x.npos - 1) * a 8 + x.rowBytes) false,
     Range.span (a 9) x.wbytes false, Range.span (a 10) (x.nch * x.ng * 2) false,
     if x.nout = 0 then .absent else Range.span (a 13) (64 + x.nch * x.ko) false,
     if mem then Range.span (a 11) ((x.npos - 1) * a 12 + x.nch * x.osize) true else .absent]
  { opcOk := opcOf d == 1, eflags := [zero d 0 15 1], body := body, limit := limit, align := align
    cls := loomClass s r d, null := x.k == 0 || x.nch == 0 || x.npos == 0, ranges := ranges }

/-! ### Operands (10.6, 09.1) -/

/-- The codes of `n` elements packed densely, as bits (09 R386). -/
def unpack (bits n : Nat) (l : List Byte) : List Nat :=
  if 16 ≤ bits then (List.range n).map fun i => leNat ((l.drop (bits / 8 * i)).take (bits / 8))
  else (l.flatMap fun b => (List.range (8 / bits)).map fun i => b.toNat / 2 ^ (bits * i) % 2 ^ bits).take n

/-- The activation term of a main-lane or wide-lane code (09 R388, R394). -/
def LoomD.term (x : LoomD) (q : Nat) : Int :=
  if x.lane then sgn 16 q else if x.af = 4 then 2 * (q : Int) - 1 else (q : Int) - x.z

/-- The bits of a plane of one chunk. -/
def planeBits (l : List Byte) : List Nat := l.flatMap fun b => (List.range 8).map fun i => b.toNat / 2 ^ i % 2

/-- The weights of one channel's chunk of 256 elements (10 R434, 09 Table 9.1). -/
def chunkWeights (x : LoomD) (ws : List Byte) (ch t : Nat) : List Int :=
  let plane (b : Nat) : List Nat := planeBits ((ws.drop (((t * x.wb + b) * x.nch + ch) * 32)).take 32)
  if x.wb = 1 then (plane 0).map fun (v : Nat) => 2 * (v : Int) - 1
  else (List.range x.wb).foldl (fun acc b =>
    (acc.zip (plane b)).map fun ((a, v) : Int × Nat) => a + (if b = x.wb - 1 then -((v * 2 ^ b : Nat) : Int) else ((v * 2 ^ b : Nat) : Int)))
    (List.replicate 256 (0 : Int))

/-- The weights of one channel. -/
def channelWeights (x : LoomD) (ws : List Byte) (ch : Nat) : List Int :=
  ((List.range (ceilDiv x.k 256)).flatMap (chunkWeights x ws ch)).take x.k

/-- The terms of one position: the activation terms of the main or wide lane, 0 at an outlier element, and the
outlier elements with their number and code (10 R432, R457). -/
structure Terms where
  acts : List Int
  outl : List (Nat × Nat × Int)

/-- Clears the terms of outlier elements. -/
def maskTerms (acts : List Int) (ks : List Nat) : List Int :=
  acts.zipIdx.map fun (a, k) => if ks.contains k then 0 else a

/-- The terms of a position from its codes: `c` input channels per tap (a memory-fed reduction is one tap). -/
def termsOf (x : LoomD) (l : Loom) (c : Nat) (w : Window) : Terms :=
  let idx := l.outList.take x.nout
  let taps := if c = 0 then 0 else x.k / c
  let ks := (List.range taps).flatMap fun t => idx.map fun i => if i < c then some (t * c + i) else none
  let outl := (ks.zip (w.outl.map (sgn 16))).zipIdx.filterMap fun ((k, q), o) => k.map fun k => (k, o, q)
  ⟨maskTerms (w.main.map x.term) (ks.filterMap id), outl⟩

/-- The partial P of group `g` of a channel (09 R390). -/
def partialSum (x : LoomD) (l : Loom) (ch g : Nat) (wts : List Int) (t : Terms) : Int :=
  (((t.acts.drop (g * x.g)).take x.g).zip ((wts.drop (g * x.g)).take x.g)).foldl (fun s (a, w) => s + a * w) 0 +
  (t.outl.filter fun e => e.1 / x.g = g).foldl (fun s (_, o, q) =>
    s + q * sgn 8 (l.outWeights.getD (ch * x.ko + o) 0).toNat) 0

/-- loom_value of 09 R393. -/
def loomValue (x : LoomD) (l : Loom) (ch : Nat) (wts : List Int) (t : Terms) (acc : Nat) : Nat :=
  (List.range x.ng).foldl (fun acc g =>
    fma32 (Fp.ofInt (partialSum x l ch g wts t)) (Fp.of16 (l.scales.getD (ch * x.ng + g) 0).toNat) (Fp.of32 acc)) acc

/-- A block of positions: word p × 64 + ch (10 R443, R444). -/
def loomBlock (x : LoomD) (l : Loom) (wts : List (List Int)) (rows : List Terms) (acc : Option (List Word)) : List Word :=
  (List.range 32).flatMap fun p =>
    match rows[p]? with
    | none => List.replicate 64 0
    | some t => (wts.zipIdx.map fun (w, ch) =>
        let a0 := match acc with | some b => (wordAt b (p * 64 + ch)).toNat | none => 0
        Word.nat (loomValue x l ch w t a0)) ++ List.replicate (64 - x.nch) 0

/-! ### Execution (10.8) -/

/-- What ending with a fault leaves of a Loom descriptor (10 R453, R454). -/
def loomFault (f : Flight) (s : State) : State :=
  let x := loomD f.desc
  let s := s.stalls (LM f.inst) x.waits
  let s := if x.keep || x.chain then s.setLoom f.inst { s.loom f.inst with kept := none } else s
  if x.feed then s.loomEnded f else s

/-- Ends with a fault of the Loom's own. -/
def loomStop (f : Flight) (s : State) (status : Nat) (detail : Word) (addr : Nat) : EngRes :=
  let (c, s) := (loomFault f s).freeCycles ((loomD f.desc).count + 3 * f.replays)
  .ended s status detail c addr

/-- Ends with an access error of a range, or waits. -/
def loomErr (f : Flight) (s : State) (e : MemErr) (range : Nat) : EngRes :=
  match e with
  | .wait a n => .wait a n range
  | .ecc a => loomStop f s 0x30 (Word.nat range) a
  | .remote r => loomStop f s 0x31 (Word.nat (range + r * 256)) 0

/-- The first position of an outlier list that is out of order, or not below `k` (10 Table 10.7). -/
def listFault (l : List Nat) (k : Option Nat) : Option Nat :=
  (List.range l.length).find? fun j =>
    (decide (0 < j) && decide (l.getD j 0 ≤ l.getD (j - 1) 0)) ||
      (match k with | some k => decide (k ≤ l.getD j 0) | none => false)

/-- Loads the stores from ranges 1 to 3 (10 R426). -/
def loomLoad (f : Flight) (s : State) : Except EngRes State :=
  let d := f.desc
  let x := loomD d
  let (s, e, w) := s.readMem srcLoom (wordAt d 9).toNat x.wbytes
  match e with
  | some e => .error (loomErr f s e 1)
  | none =>
    let (s, e, sc) := s.readMem srcLoom (wordAt d 10).toNat (x.nch * x.ng * 2)
    match e with
    | some e => .error (loomErr f s e 2)
    | none =>
      let (s, e, o) := if x.nout = 0 then (s, none, []) else s.readMem srcLoom (wordAt d 13).toNat (64 + x.nch * x.ko)
      match e with
      | some e => .error (loomErr f s e 3)
      | none =>
        let idx := unpack 16 32 o
        let s := s.setLoom f.inst { s.loom f.inst with
          weights := w, scales := (unpack 16 (x.nch * x.ng) sc).map (BitVec.ofNat 16), outList := idx
          outWeights := o.drop 64 }
        match listFault (idx.take x.nout) (if x.feed then none else some x.k) with
        | some j => .error (loomStop f s 0x45 (Word.nat j) 0)
        | none => .ok s

/-- The activation rows of `n` positions from position `p` (10 R433). -/
def loomRows (d : List Word) (x : LoomD) (s : State) (p : Nat) : Nat → State × Option MemErr × List Window
  | 0 => (s, none, [])
  | n + 1 =>
    let (s, e, l) := s.readMem srcLoom ((wordAt d 7).toNat + p * (wordAt d 8).toNat) x.rowBytes
    match e with
    | some e => (s, some e, [])
    | none =>
      let (s, e, t) := loomRows d x s (p + 1) n
      (s, e, ⟨unpack x.bits x.k l, unpack 16 x.nout (l.drop x.outlAt)⟩ :: t)

/-- Writes a block to memory, position by position (10 R444, R453). -/
def loomWrite (d : List Word) (x : LoomD) (words : List Word) (s : State) (p0 p : Nat) : Nat → State × Option MemErr
  | 0 => (s, none)
  | n + 1 =>
    let vals := (words.drop (p * 64)).take x.nch
    let bytes := if x.out = 1 then vals.flatMap fun w => leBytes 2 (to16 0 0 false (Fp.of32 w.toNat)) else wordsBytes vals
    let a := (wordAt d 11).toNat + (p0 + p) * (wordAt d 12).toNat
    let (s, e) := s.writeMem srcLoom a bytes
    match e with
    | some e =>
      let (l, s) := s.drawBytes bytes.length
      (s.poke a l, some e)
    | none => loomWrite d x words s p0 (p + 1) n

/-- The 64 tables of a slice: the 16 subset sums of each run of four centred values (10.3). -/
def sliceTables (acts : List Int) : List Int :=
  (List.range 64).flatMap fun t => (List.range 16).map fun m =>
    ((List.range 4).map fun i => if m.testBit i then acts.getD (4 * t + i) 0 else 0).sum

/-- What the table store holds after a position in table mode: its last two slices, the later first (10.3). -/
def tablesAfter (x : LoomD) (acts : List Int) (old : List (List Int)) : List (List Int) :=
  if x.serial then old
  else (((List.range (ceilDiv x.k 256)).map fun j => sliceTables ((acts.drop (256 * j)).take 256)).reverse ++ old).take 2

/-- One block: where it goes, or why the descriptor stops or waits. -/
def loomOne (f : Flight) (wts : List (List Int)) (s : State) (b : Nat) : Except EngRes State :=
  let d := f.desc
  let x := loomD d
  let l := s.loom f.inst
  let bank := if x.chain then (match l.kept with | some (k, _) => k | none => l.nextBank) else l.nextBank
  let m := min 32 (x.npos - 32 * b)
  if l.held.contains bank || (x.out == 2 && decide (8 ≤ (l.out.filter fun o => o.bank.isNone).length)) then
    .error (.stay s (.loom true b))
  else
    let src : Except EngRes (State × Nat × List Window) :=
      if x.feed then
        match l.feed.filter (Feed.isOf · f) with
        | none => .error (.stay s (.loom true b))
        | some g =>
          if m ≤ g.windows.length then
            .ok (s.setLoom f.inst { l with feed := some { g with windows := g.windows.drop m, taken := g.taken + m } },
              g.c, g.windows.take m)
          else
            match g.fault with
            | some (st, dt, a) => .error (loomStop f (s.setLoom f.inst { l with feed := some { g with windows := [] } }) st dt a)
            | none => .error (.stay s (.loom true b))
      else
        let (s, e, ws) := loomRows d x s (32 * b) m
        match e with
        | some e => .error (loomErr f s e 0)
        | none => .ok (s, x.k, ws)
    match src with
    | .error r => .error r
    | .ok (s, c, ws) =>
      let l := s.loom f.inst
      let (acc, s) : Option (List Word) × State :=
        if x.chain then
          match l.kept with
          | some (_, w) => (some w, s)
          | none => let (w, s) := s.drawNats 32 2048; (some (w.map Word.nat), s)
        else (none, s)
      let rows := ws.map (termsOf x l c)
      let words := loomBlock x l wts rows acc
      let l := s.loom f.inst
      let l := { l with
        nextBank := 1 - bank, banks := Store.set [] l.banks bank words
        tables := match rows.getLast? with | some t => tablesAfter x t.acts l.tables | none => l.tables }
      if x.keep then .ok (s.setLoom f.inst { l with kept := some (bank, words), keptNum := f.own })
      else
        let l := if x.chain then { l with kept := none } else l
        match x.out with
        | 2 => .ok (s.setLoom f.inst { l with out := l.out ++ [⟨none, words⟩] })
        | 3 => .ok (s.setLoom f.inst { l with out := l.out ++ [⟨some bank, words⟩], held := NSet.insert l.held bank })
        | _ =>
          let (s, e) := loomWrite d x words (s.setLoom f.inst l) (32 * b) 0 m
          match e with
          | some e => .error (loomErr f s e 4)
          | none => .ok s

/-- The remaining blocks, and the OK result (10 R451, R456). -/
def loomRun (f : Flight) (wts : List (List Int)) : Nat → State → Nat → EngRes
  | 0, s, _ =>
    let x := loomD f.desc
    .ended (s.stalls (LM f.inst) x.waits) 0 (Word.nat (if x.keep then 0 else min x.blocks 0xFFFF)) (x.count + 3 * f.replays) 0
  | n + 1, s, b =>
    match loomOne f wts s b with
    | .error r => r
    | .ok s => loomRun f wts n s (b + 1)

/-- The work of a Loom descriptor that has started. A feed that has failed before its first window ends it before the load of its
stores can fault (11 R485). -/
def doProduct (f : Flight) (s : State) : EngRes :=
  let x := loomD f.desc
  let go (s : State) (b : Nat) : EngRes :=
    loomRun f ((List.range x.nch).map (channelWeights x (s.loom f.inst).weights)) (x.blocks - b) s b
  match f.st with
  | .running (.loom true b) => go s b
  | _ =>
    match (((s.loom f.inst).feed.filter fun g => x.feed && g.isOf f && g.windows.isEmpty).bind (·.fault)) with
    | some (st, dt, a) => loomStop f s st dt a
    | none =>
      match loomLoad f s with
      | .error r => r
      | .ok s => go s 0

namespace State

/-- A Loom descriptor starts: PREC, the timeout in force and its place in the pairing order; where the Harrow descriptor of
that place has faulted already, it ends at once (10 R449, R454, R455; 11 R485). -/
def loomStart (s : State) (inst : Nat) : State :=
  match s.current 0 inst with
  | some f =>
    if f.st = .queued ∧ f.null = false ∧ opcOf f.desc = 1 then
      let x := loomD f.desc
      let l := s.loom inst
      let bad := if x.feed then (l.harrows[l.looms.length]?).bind (·.fault) else none
      let l := { l with
        prec := df f.desc 4 0 8, kept := if x.chain ∧ l.keptNum = f.cont then l.kept else none
        looms := if x.feed then l.looms ++ [⟨f.ring, f.idx, bad.isSome⟩] else l.looms }
      let s := (s.setLoom inst l).mapFlight f.ring f.idx fun f => { f with
        st := .running (.loom false 0), tmo := s.rf (LM inst + 4) 0 16 }
      match bad with
      | some (st, dt, a) =>
        let (c, s) := (loomFault f s).freeCycles x.count
        (s.endFlight f.ring f.idx st dt c).mapFlight f.ring f.idx fun f => { f with addr := a }
      | none => s
    else s
  | none => s

/-- Admission of a Loom descriptor changes its tile's chain state (10 R446). -/
def loomAdmit (s : State) (inst : Nat) (d : List Word) : State :=
  let x := loomD d
  s.setLoom inst { s.loom inst with
    keeps := (s.loom inst).keeps + b2n x.keep
    chain := if x.keep then some ⟨x.af, x.z, df d 4 8 2, b2n x.lane, x.npos, x.nch⟩ else none }

/-- Its pairing Harrow has not started within FEED_TMO (10 R455). -/
def feedTimeout (s : State) (inst : Nat) : State :=
  match s.current 0 inst with
  | some f =>
    let l := s.loom inst
    match f.st with
    | .running (.loom _ _) =>
      let place := l.looms.findIdx fun e => e.ring == f.ring && e.idx == f.idx
      if (loomD f.desc).feed ∧ f.tmo ≠ 0 ∧ place < l.looms.length ∧ l.harrows.length ≤ place ∧ s.capRuns then
        let (c, s) := (loomFault f s).freeCycles ((loomD f.desc).count + 3 * f.replays)
        s.endFlight f.ring f.idx 0x44 0 c
      else s
    | _ => s
  | none => s

end State

/-! ### Meanings -/

/-- PRODUCT: the Loom descriptor that tile `inst` is on starts and, unless it has ended so, advances as far as it can
(10 R443–R445). -/
def execProduct (inst : Nat) (s : State) : Out :=
  let u := s.loomStart inst
  let waits := (u.current 0 inst).any fun f => f.st == .queued
  .next (if !s.capRuns then s else if waits then u else u.advance 0 inst 1 4 doProduct)
/-- FEED_TIMEOUT (10 R455). -/
def execFeedTimeout (inst : Nat) (s : State) : Out := .next (s.feedTimeout inst)

end Sys2Proof.Machine
end

