-- ==== Sys2Proof/Machine/Harrow.lean ====
section
/-! DEFINITION. The Harrow: descriptor checks, window geometry, feeds and their pairing with a Loom, stripes and
halos, pooling, up-sampling and space-to-depth, and cycle counts (11). -/

namespace Sys2Proof.Machine

/-! ### Descriptor and geometry (11.3, 11.4) -/

/-- The fields of a Harrow descriptor; strides, dilations and the factor as they act. -/
structure HarrowD where
  op : Nat
  sin : Bool
  sout : Bool
  excl : Bool
  inhwc : Bool
  ih : Nat
  iw : Nat
  c : Nat
  layout : Nat
  fmt : Nat
  kh : Nat
  kw : Nat
  sy : Nat
  sx : Nat
  dy : Nat
  dx : Nat
  pt : Nat
  pb : Nat
  pl : Nat
  pr : Nat
  tile : Nat
  f : Nat
  rm : Nat
  padv : Nat
  nout : Nat
  role : Nat
  hsend : Nat
  hrecv : Nat
  keepr : Nat

def harrowD (d : List Word) : HarrowD :=
  let w0 := wordAt d 0
  { op := opcOf d, sin := bit w0 12, sout := bit w0 13, excl := bit w0 14, inhwc := bit w0 15
    ih := df d 7 0 16, iw := df d 7 16 16, c := df d 8 0 12, layout := df d 8 12 1, fmt := df d 8 13 3
    kh := df d 8 16 4, kw := df d 8 20 4, sy := df d 8 24 2 + 1, sx := df d 8 26 2 + 1, dy := df d 8 28 2 + 1
    dx := df d 8 30 2 + 1, pt := df d 9 0 6, pb := df d 9 6 6, pl := df d 9 12 6, pr := df d 9 18 6
    tile := df d 9 24 2, f := if df d 9 26 1 = 1 then 4 else 2, rm := df d 9 27 2, padv := df d 10 0 16
    nout := df d 10 16 6, role := df d 10 22 2, hsend := df d 11 0 6, hrecv := df d 11 6 6, keepr := df d 11 12 6 }

namespace HarrowD

/-- CONV or TCONV. -/
def feeds (x : HarrowD) : Bool := decide (x.op ≤ 2)
def pools (x : HarrowD) : Bool := x.op == 3 || x.op == 4
/-- Bits and bytes per element (11 Table 11.3). -/
def bits (x : HarrowD) : Nat := match x.fmt with | 0 => 1 | 1 => 2 | 2 => 4 | 3 => 8 | 4 => 1 | _ => 16
def size (x : HarrowD) : Nat := if x.fmt = 5 then 2 else 1
/-- Block of the layout and blocks per pixel. -/
def blk (x : HarrowD) : Nat := if x.layout = 0 then 16 else 32
def cb (x : HarrowD) : Nat := ceilDiv x.c x.blk
/-- Bytes of one channel block of a row. -/
def blockBytes (x : HarrowD) : Nat := x.iw * x.blk * x.bits / 8
/-- Insertion factors and strides (11 R472). -/
def uy (x : HarrowD) : Nat := if x.op = 2 then x.sy else 1
def ux (x : HarrowD) : Nat := if x.op = 2 then x.sx else 1
def ty (x : HarrowD) : Nat := if x.op = 2 then 1 else x.sy
def tx (x : HarrowD) : Nat := if x.op = 2 then 1 else x.sx
def spanY (x : HarrowD) : Nat := (x.kh - 1) * x.dy + 1
def spanX (x : HarrowD) : Nat := (x.kw - 1) * x.dx + 1
/-- Stored rows, where `kept` rows were kept for it (11 R471). -/
def rows (x : HarrowD) (kept : Nat) : Nat :=
  x.ih + (if x.sin then kept else 0) + (if x.role = 0 then 0 else x.hrecv)
/-- Padded virtual heights and widths. -/
def padH (x : HarrowD) (kept : Nat) : Nat := x.pt + ((x.rows kept - 1) * x.uy + 1) + x.pb
def padW (x : HarrowD) : Nat := x.pl + ((x.iw - 1) * x.ux + 1) + x.pr
/-- The window is empty by rows, or by columns; E = 0 or IW = 0 makes the virtual size 1 - U (11 R472). -/
def emptyH (x : HarrowD) (kept : Nat) : Bool := decide (x.pt + x.rows kept * x.uy + 1 + x.pb < x.spanY + x.uy)
def emptyW (x : HarrowD) : Bool := decide (x.pl + x.iw * x.ux + 1 + x.pr < x.spanX + x.ux)
/-- Output height and width (11 R472, R488, R489). -/
def oh (x : HarrowD) (kept : Nat) : Nat :=
  if x.op ≤ 4 then (x.padH kept - x.spanY) / x.ty + 1 else if x.op = 7 then x.ih / x.f else x.ih * x.f
def ow (x : HarrowD) : Nat :=
  if x.op ≤ 4 then (x.padW - x.spanX) / x.tx + 1 else if x.op = 7 then x.iw / x.f else x.iw * x.f
def k (x : HarrowD) : Nat := x.kh * x.kw * x.c
def ko (x : HarrowD) : Nat := x.nout * x.kh * x.kw
/-- Output channels and blocks of a memory operation. -/
def oc (x : HarrowD) : Nat := if x.op = 7 then x.c * x.f * x.f else x.c
def ocb (x : HarrowD) : Nat := ceilDiv x.oc x.blk

/-- Beats of a stored row, and rows the line buffers hold (11 R478, Table 11.6). -/
def rowBeats (x : HarrowD) : Nat :=
  if x.inhwc then ceilDiv (x.iw * x.c * x.size) 32
  else x.cb * ceilDiv (x.iw * x.blk * x.bits) 256 + (if x.nout = 0 then 0 else 2 * x.iw)
def resident (x : HarrowD) : Nat :=
  match x.op with
  | 2 => ceilDiv x.spanY x.sy + 1
  | 5 => 3
  | 6 => 3
  | 7 => 2 * x.f
  | _ => x.spanY + x.sy + (if x.role = 1 then x.hsend + x.hrecv else 0)

/-- What a descriptor waits for, as HW_STALLk: memory reads, the tile, the halo port, writes (11 R494). -/
def waits (x : HarrowD) : List Nat := if x.feeds then [0, 1] ++ (if x.role = 0 then [] else [2]) else [0, 3]

/-- T_H (11 R494). -/
def count (x : HarrowD) (kept : Nat) : Nat :=
  if x.feeds then 16 + x.oh kept * x.ow * (ceilDiv (x.k * x.bits) 2048 + ceilDiv (x.ko * 16) 2048)
  else
    let l := ceilDiv (x.cb * x.blk * x.size) 32
    let cp := match x.op with
      | 5 => l
      | 6 => 4 * l
      | 7 => ceilDiv (x.ocb * x.blk * x.size) 32
      | _ => x.kh * x.kw * l
    16 + x.oh kept * x.ow * cp

end HarrowD

/-- The class checks of 11 R480. -/
def harrowClass (s : State) (r : Ring) (d : List Word) : Option (Nat × Word) :=
  let x := harrowD d
  let st := (s.harrow (soleInst r)).stripe
  let kept := match st with | some t => t.keepr | none => 0
  let shape : Option (Nat × Word) :=
    if !x.sin then none
    else match st with
      | none => some (0x4B, 0)
      | some t =>
        if t.iw ≠ x.iw then some (0x4C, 0)
        else if t.c ≠ x.c then some (0x4C, 1)
        else if t.layout ≠ x.layout then some (0x4C, 2)
        else if t.fmt ≠ x.fmt then some (0x4C, 3)
        else if t.outl ≠ (x.nout != 0) then some (0x4C, 4)
        else none
  if x.feeds && manyInsts r then some (0x4F, 0)
  else if x.op == 7 && (x.ih % x.f != 0 || x.iw % x.f != 0) then some (0x4F, 1)
  else if decide (x.ih < x.hsend) then some (0x4F, 2)
  else match shape with
    | some e => some e
    | none =>
      if decide (x.op ≤ 4) && x.emptyH kept then some (0x4A, 0)
      else if decide (x.op ≤ 4) && x.emptyW then some (0x4A, 1)
      else if min (x.rows kept) x.spanY < x.keepr then some (0x4F, 3)
      else none

/-- The checks, null test and ranges of a Harrow descriptor (11 R474–R480). -/
def harrowChecks (s : State) (r : Ring) (d : List Word) : ClassChecks :=
  let x := harrowD d
  let kept := match (s.harrow (soleInst r)).stripe with | some t => t.keepr | none => 0
  let conv := x.op == 1
  let window := decide (x.op ≤ 4)
  let up := x.op == 5 || x.op == 6 || x.op == 7
  let stripes := x.sin || x.sout
  let kOk (w : Nat) : Bool := if window then decide (1 ≤ w ∧ w ≤ 11) else w == 0
  let body : List Check :=
    [unused (!x.inhwc) d 6 0 32, (8, 13, if x.feeds then decide (x.fmt ≤ 5) else x.fmt == 3 || x.fmt == 5),
     (8, 16, kOk x.kh), (8, 20, kOk x.kw), unused window d 8 24 2, unused window d 8 26 2, unused window d 8 28 2,
     unused window d 8 30 2, unused (window && !x.sin) d 9 0 6, unused window d 9 6 6, unused window d 9 12 6,
     unused window d 9 18 6, unused x.feeds d 9 24 2, unused up d 9 26 1,
     (9, 27, if x.op = 4 ∨ x.op = 6 then x.rm != 3 else x.rm == 0), zero d 9 29 3,
     (10, 0, decide (x.padv < 2 ^ x.bits)), (10, 16, if x.feeds then x.nout == 0 || x.fmt != 5 else x.nout == 0),
     (10, 22, if conv && !stripes then x.role != 3 else x.role == 0), zero d 10 24 8,
     unused (conv && x.role != 0 && !stripes) d 11 0 6, unused (conv && x.role != 0 && !stripes) d 11 6 6,
     unused (conv && x.sout) d 11 12 6, zero d 11 18 14, unused (!x.feeds || x.nout != 0) d 12 0 32,
     unused (!x.feeds || x.nout != 0) d 13 0 32, unused (!x.feeds) d 14 0 32, zero d 15 0 32]
  let limit : List Check :=
    [(10, 16, decide (x.nout ≤ 32)), (8, 0, !x.feeds || decide (x.k ≤ 65535)),
     (7, 16, decide (x.resident * 32 * x.rowBeats ≤ 196608))]
  let align : List Check := [4, 5, 6, 12, 13, 14].map fun w => (w, 0, (wordAt d w).toNat % 32 == 0)
  let a (w : Nat) : Nat := (wordAt d w).toNat
  let input := if x.inhwc then (x.ih - 1) * a 5 + x.iw * x.c * x.size
    else (x.cb - 1) * a 6 + (x.ih - 1) * a 5 + x.blockBytes
  let ranges : List Range :=
    [Range.span (a 4) input false,
     if x.feeds && x.nout != 0 then Range.span (a 12) ((x.ih - 1) * a 13 + x.iw * 64) false else .absent,
     if x.feeds then .absent
     else Range.span (a 12) ((x.ocb - 1) * a 14 + (x.oh kept - 1) * a 13 + x.ow * x.blk * x.size) true]
  { opcOk := decide (1 ≤ x.op ∧ x.op ≤ 7)
    eflags := [unused conv d 0 12 1, unused conv d 0 13 1, unused x.pools d 0 14 1, unused (x.op == 7) d 0 15 1]
    body := body, limit := limit, align := align, cls := harrowClass s r d
    null := x.ih == 0 || x.iw == 0 || x.c == 0, ranges := ranges }

/-! ### Stored rows (11.3) -/

/-- Element `i` of packed codes from byte `base`, as bits. -/
def codeOf (bits base : Nat) (l : List Byte) (i : Nat) : Nat :=
  if bits = 16 then leNat ((l.drop (base + 2 * i)).take 2)
  else (l.getD (base + i * bits / 8) 0).toNat / 2 ^ (i * bits % 8) % 2 ^ bits

/-- The code of channel `c` at column `col` of a stored row. -/
def HwRow.code (x : HarrowD) (r : HwRow) (col c : Nat) : Nat :=
  if x.inhwc then codeOf x.bits 0 r.main (col * x.c + c)
  else codeOf x.bits (c / x.blk * x.blockBytes) r.main (col * x.blk + c % x.blk)

/-- Reads the channel blocks of own row `i` from block `b` on. -/
def readBlocks (d : List Word) (x : HarrowD) (i b : Nat) : Nat → State → List Byte → State × Option MemErr × List Byte
  | 0, s, acc => (s, none, acc)
  | n + 1, s, acc =>
    let (s, e, l) := s.readMem srcHarrow ((wordAt d 4).toNat + i * (wordAt d 5).toNat + b * (wordAt d 6).toNat) x.blockBytes
    match e with
    | some e => (s, some e, acc)
    | none => readBlocks d x i (b + 1) n s (acc ++ l)

/-- Reads own row `i` and its outlier row: the range index of an error (11 R471, R479, R484). -/
def readRow (d : List Word) (x : HarrowD) (s : State) (i : Nat) : State × Option (MemErr × Nat) × HwRow :=
  let (s, e, l) :=
    if x.inhwc then s.readMem srcHarrow ((wordAt d 4).toNat + i * (wordAt d 5).toNat) (x.iw * x.c * x.size)
    else readBlocks d x i 0 x.cb s []
  match e with
  | some e => (s, some (e, 0), ⟨[], []⟩)
  | none =>
    if x.nout = 0 then (s, none, ⟨l, []⟩)
    else
      let (s, e, o) := s.readMem srcHarrow ((wordAt d 12).toNat + i * (wordAt d 13).toNat) (x.iw * 64)
      (s, e.map fun e => (e, 1), ⟨l, o⟩)

/-- Reads rows in the order given until one fails: the rows read, the failing row and its error. -/
def readRows (d : List Word) (x : HarrowD) : List Nat → State → List (Nat × HwRow) →
    State × List (Nat × HwRow) × Option (Nat × MemErr × Nat)
  | [], s, acc => (s, acc, none)
  | i :: t, s, acc =>
    let (s, e, r) := readRow d x s i
    match e with
    | some (e, g) => (s, acc, some (i, e, g))
    | none => readRows d x t s (acc ++ [(i, r)])

/-- Status, DETAIL and code word of an access error. -/
def errOf (e : MemErr) (range : Nat) : Nat × Word × Nat :=
  match e with
  | .ecc a => (0x30, Word.nat range, a)
  | .remote r => (0x31, Word.nat (range + r * 256), 0)
  | .wait _ _ => (0x31, Word.nat range, 0)

/-! ### Element streams (11 R473, R484) -/

/-- The row and column of the tap at padded virtual coordinates; none is a PAD. -/
def tapAt (x : HarrowD) (e vy vx : Nat) : Option (Nat × Nat) :=
  if vy < x.pt ∨ vx < x.pl then none
  else
    let y := vy - x.pt
    let c := vx - x.pl
    if y % x.uy ≠ 0 ∨ c % x.ux ≠ 0 ∨ e ≤ y / x.uy ∨ x.iw ≤ c / x.ux then none else some (y / x.uy, c / x.ux)

/-- The taps of the window at output (oy, ox), in the order of 11 R473. -/
def taps (x : HarrowD) (e oy ox : Nat) : List (Option (Nat × Nat)) :=
  (List.range x.kh).flatMap fun ky => (List.range x.kw).map fun kx =>
    tapAt x e (oy * x.ty + ky * x.dy) (ox * x.tx + kx * x.dx)

/-- The elements of one position. -/
def window (x : HarrowD) (rows : List HwRow) (e oy ox : Nat) : Window :=
  let ts := taps x e oy ox
  { main := ts.flatMap fun t => (List.range x.c).map fun c =>
      match t with
      | some (r, q) => (rows.getD r ⟨[], []⟩).code x q c
      | none => x.padv
    outl := ts.flatMap fun t => (List.range x.nout).map fun j =>
      match t with
      | some (r, q) => codeOf 16 (64 * q) (rows.getD r ⟨[], []⟩).outl j
      | none => 0 }

/-- Stored rows that output row `oy` of a window operation waits for; the last waits for all (log 24). -/
def need (x : HarrowD) (e oh oy : Nat) : Nat :=
  if oy + 1 = oh then e
  else
    let top := oy * x.ty + x.spanY
    if top ≤ x.pt then 0 else min e ((top - 1 - x.pt) / x.uy + 1)

/-- The output rows whose stored rows are among the first `have_`. -/
def readyRows (x : HarrowD) (e oh have_ : Nat) : List Nat :=
  (List.range oh).takeWhile fun oy => decide (need x e oh oy ≤ have_)

/-! ### Memory operations (11.7) -/

/-- Exact division with rounding (11 R487). -/
def divRound (s : Int) (n rm : Nat) : Int :=
  let q := s / (n : Int)
  let r := (s % (n : Int)).toNat
  if r = 0 then q
  else if rm = 2 then (if s < 0 then q + 1 else q)
  else if 2 * r ≠ n then (if n < 2 * r then q + 1 else q)
  else if rm = 0 then (if q % 2 = 0 then q else q + 1)
  else (if 0 < s then q + 1 else q)

/-- A code as a number of its format. -/
def HarrowD.num (x : HarrowD) (q : Nat) : Int := if x.fmt = 5 then sgn 16 q else (q : Int)

/-- The row pair and weights of bilinear interpolation along one axis (11 R488). -/
def bilinear (f n o : Nat) : List (Nat × Nat) :=
  let ny : Int := 2 * (o : Int) + 1 - f
  let y0 : Int := ny / (2 * (f : Int))
  let wy := (ny - 2 * f * y0).toNat
  let clamp (y : Int) : Nat := (max 0 (min ((n : Int) - 1) y)).toNat
  [(clamp y0, 2 * f - wy), (clamp (y0 + 1), wy)]

/-- The code of lane `c` of output pixel (oy, ox) of a memory operation (11 R487–R489). -/
def pixelCode (x : HarrowD) (rows : List HwRow) (e oy ox c : Nat) : Nat :=
  let at_ (r q c : Nat) : Nat := (rows.getD r ⟨[], []⟩).code x q c
  let code (v : Int) : Nat := wrap x.bits v
  match x.op with
  | 5 => at_ (oy / x.f) (ox / x.f) c
  | 6 =>
    let sum := (bilinear x.f x.ih oy).foldl (fun (a : Int) (r, wr) =>
      (bilinear x.f x.iw ox).foldl (fun (a : Int) (q, wq) => a + (wr * wq : Nat) * x.num (at_ r q c)) a) 0
    code (divRound sum (4 * x.f * x.f) x.rm)
  | 7 => at_ (oy * x.f + c / x.c / x.f) (ox * x.f + c / x.c % x.f) (c % x.c)
  | _ =>
    let ts := taps x e oy ox
    let vals := if x.excl then ts.filterMap fun t => t.map fun (r, q) => x.num (at_ r q c)
      else ts.map fun t => match t with | some (r, q) => x.num (at_ r q c) | none => x.num x.padv
    match vals with
    | [] => x.padv
    | v :: t =>
      if x.op = 3 then code (t.foldl max v) else code (divRound (t.foldl (· + ·) v) vals.length x.rm)

/-- Stored rows that an output row of a memory operation waits for. -/
def memNeed (x : HarrowD) (oh oy : Nat) : Nat :=
  if oy + 1 = oh then x.ih
  else match x.op with
    | 5 => oy / x.f + 1
    | 6 => ((bilinear x.f x.ih oy).map fun p => p.1 + 1).foldl max 0
    | 7 => (oy + 1) * x.f
    | _ => need x x.ih oh oy

/-- The bytes of block `b` of an output pixel: padding lanes hold PADV. -/
def pixelBlock (x : HarrowD) (rows : List HwRow) (oy ox b : Nat) : List Byte :=
  (List.range x.blk).flatMap fun l =>
    leBytes x.size (if b * x.blk + l < x.oc then pixelCode x rows x.ih oy ox (b * x.blk + l) else x.padv)

/-- Writes the blocks of the pixels given, in raster order (11.7). -/
def writePixels (d : List Word) (x : HarrowD) (rows : List HwRow) (free : Option (Int × Int)) :
    List (Nat × Nat × Nat) → State → State × Option MemErr
  | [], s => (s, none)
  | (oy, ox, b) :: t, s =>
    let a := (wordAt d 12).toNat + b * (wordAt d 14).toNat + oy * (wordAt d 13).toNat + ox * x.blk * x.size
    let (s, e) := writeRow srcHarrow s a (pixelBlock x rows oy ox b) free
    match e with
    | some e => (s, some e)
    | none => writePixels d x rows free t s

/-- Ends a Harrow descriptor with a fault; its CYCLES are a free value. -/
def harrowStop (f : Flight) (s : State) (status : Nat) (detail : Word) (addr : Nat) : EngRes :=
  let x := harrowD f.desc
  let (c, s) := ((s.stalls (HW f.inst) x.waits).loseRows f).freeCycles (x.count f.kept)
  .ended s status detail c addr

/-- POOL_MAX, POOL_AVG, UP_NEAREST, UP_BILINEAR and S2D (11 R487–R489, R497, R506). -/
def doMemOp (f : Flight) (s : State) : EngRes :=
  let d := f.desc
  let x := harrowD d
  let (s, got, bad) := readRows d x (List.range x.ih) s []
  match bad with
  | some (_, .wait a n, g) => .wait a n g
  | _ =>
    let rows := got.map (·.2)
    let oh := x.oh 0
    let ready := (List.range oh).takeWhile fun oy => decide (memNeed x oh oy ≤ rows.length)
    let cells := ready.flatMap fun oy => (List.range x.ow).flatMap fun ox => (List.range x.ocb).map fun b => (oy, ox, b)
    let r := (harrowChecks s {} d).ranges
    let ext (k : Nat) : Int × Int := let g := r.getD k .absent; (g.lo, g.hi)
    let (s, e) := writePixels d x rows (meet (ext 0) (ext 2)) cells s
    match e, bad with
    | some e, _ => let (st, dt, a) := errOf e 2; harrowStop f s st dt a
    | none, some (_, e, g) => let (st, dt, a) := errOf e g; harrowStop f s st dt a
    | none, none => .ended (s.stalls (HW f.inst) x.waits) 0 (Word.nat (oh % 65536)) (x.count 0) 0

/-! ### Feeds (11.5, 11.8) -/

/-- Own rows in reading order: the upper halo part reads the rows it sends first (11 R492). -/
def ownOrder (x : HarrowD) : List Nat :=
  if x.role = 1 then (List.range x.hsend).map (· + (x.ih - x.hsend)) ++ List.range (x.ih - x.hsend)
  else List.range x.ih

/-- Whether own row `i` is sent to the other Harrow. -/
def sentRow (x : HarrowD) (i : Nat) : Bool :=
  if x.role = 1 then decide (x.ih - x.hsend ≤ i) else x.role == 2 && decide (i < x.hsend)

/-- The rows from row 0 up that have been read. -/
def prefixRows (got : List (Nat × HwRow)) : Nat → Nat → List HwRow
  | _, 0 => []
  | i, n + 1 =>
    match got.find? fun e => e.1 == i with
    | some e => e.2 :: prefixRows got (i + 1) n
    | none => []

/-- `n` rows of free contents (11 R491). -/
def freeRows (x : HarrowD) (s : State) : Nat → State × List HwRow
  | 0 => (s, [])
  | n + 1 =>
    let (a, s) := s.drawBytes (x.cb * x.blockBytes)
    let (b, s) := s.drawBytes (if x.nout = 0 then 0 else x.iw * 64)
    let (s, t) := freeRows x s n
    (s, ⟨a, b⟩ :: t)

/-- Stage 1: the own rows are read and the halo rows sent (11 R490, R492, R884). -/
def feedRead (f : Flight) (s : State) : Except EngRes State :=
  let d := f.desc
  let x := harrowD d
  let (s, got, bad) := readRows d x (ownOrder x) s []
  match bad with
  | some (_, .wait a n, g) => .error (.wait a n g)
  | _ =>
    let sent := (got.filter fun e => sentRow x e.1).map (·.2)
    let err := bad.map fun (_, e, g) => errOf e g
    let s := if x.role = 0 then s else
      let o := s.harrow (1 - f.inst)
      let fail := if sent.length < x.hsend then err.map fun e => (e.1, putFld e.2.1 0 4 0xE, e.2.2) else none
      s.setHarrow (1 - f.inst) { o with inbox := sent, inboxFail := fail }
    let lostEarly := x.role == 1 && decide (sent.length < x.hsend)
    let own := if lostEarly then [] else prefixRows got 0 x.ih
    let h := s.harrow f.inst
    let (s, old) := if !x.sin then (s, []) else
      match h.kept.filter fun _ => h.keptNum == f.cont with
      | some l => (s, l)
      | none => freeRows x s f.kept
    let err := err.map fun e => ((if lostEarly then 0 else old.length + own.length), e)
    .ok (s.setHarrow f.inst { s.harrow f.inst with
      kept := if x.op = 1 then none else h.kept, rows := old ++ own, err := err })

/-- Stage 2: the received rows join the own rows, or their lack becomes the fault to come (11 R471, R884). -/
def feedJoin (f : Flight) (s : State) : Option State :=
  let x := harrowD f.desc
  let h := s.harrow f.inst
  if x.role = 0 then some s
  else if h.inbox.length < x.hrecv ∧ h.inboxFail.isNone then none
  else
    let got := h.inbox.take x.hrecv
    let lack : Option (Nat × Word × Nat) :=
      if got.length < x.hrecv then h.inboxFail else none
    let h := { h with inbox := [], inboxFail := none }
    some (s.setHarrow f.inst (
      if x.role = 2 then
        match lack with
        | some e => { h with rows := got, err := some (got.length, e) }
        | none => { h with rows := got ++ h.rows, err := h.err.map fun (i, e) => (i + got.length, e) }
      else
        match h.err with
        | some _ => h
        | none => { h with rows := h.rows ++ got, err := lack.map fun e => (h.rows.length + got.length, e) }))

/-- What the paired Loom descriptor ends with: the same status and code word, and range index 0 (11 R485). -/
def loomShare (e : Nat × Word × Nat) : Nat × Word × Nat := (e.1, putFld e.2.1 0 4 0, e.2.2)

/-- A started Loom descriptor ends with a fault outside its own command. -/
def loomEnd (f : Flight) (s : State) (status : Nat) (detail : Word) : State :=
  let (c, s) := (loomFault f s).freeCycles ((loomD f.desc).count + 3 * f.replays)
  s.endFlight f.ring f.idx status detail c

/-- A started Harrow descriptor's fault is noted for the Loom it pairs with; one that has started and is not paired yet ends at once
(11 R485). -/
def noteFeedFault (f : Flight) (s : State) (e : Nat × Word × Nat) : State :=
  let bad := loomShare e
  let t := (harrowD f.desc).tile
  let l := s.loom t
  let mine (i r k : Nat) : Bool := i == f.inst && r == f.ring && k == f.idx
  let l : Loom := { l with harrows := l.harrows.map fun (e : HwEnt) => if mine e.inst e.ring e.idx then { e with fault := some bad } else e }
  let l := match l.feed with
    | some g =>
      if mine g.inst g.ring g.idx then
        if g.lost then { l with feed := none }
        else { l with feed := some { g with offered := true, fault := some bad, gone := true } }
      else l
    | none => l
  let s := s.setLoom t l
  let place := l.harrows.findIdx fun e => mine e.inst e.ring e.idx
  match (if place < l.harrows.length then l.looms[place]? else none) with
  | some a =>
    match (if a.ended then none else s.flightAt a.ring a.idx) with
    | some g => (loomEnd g s bad.1 bad.2.1).mapFlight g.ring g.idx fun g => { g with addr := bad.2.2 }
    | none => s
  | none => s

/-- Its own fault: the rows it lacks. -/
def feedFail (f : Flight) (s : State) : EngRes :=
  match (s.harrow f.inst).err with
  | some (_, e) => harrowStop f (noteFeedFault f s e) e.1 e.2.1 e.2.2
  | none => harrowStop f s 0x31 0 0

/-- Stage 3: windows are offered to the paired tile, and the descriptor ends when they are taken, when the rows it
lacks are needed, or when the Loom descriptor has ended (11 R482, R485, R498). -/
def feedDeliver (f : Flight) (s : State) : EngRes :=
  let x := harrowD f.desc
  let h := s.harrow f.inst
  let e := x.rows f.kept
  let oh := x.oh f.kept
  let l := s.loom x.tile
  let ready := readyRows x e oh h.rows.length
  match l.feed.filter fun g => g.inst == f.inst && g.ring == f.ring && g.idx == f.idx with
  | none =>
    if h.err.isSome ∧ ready.isEmpty then feedFail f s else .stay s (.harrow 3)
  | some g =>
    if !g.offered then
      if g.lost then harrowStop f (s.setLoom x.tile { l with feed := none }) 0x4E 0 0
      else if h.err.isSome ∧ ready.isEmpty then feedFail f s
      else
        let ws := ready.flatMap fun oy => (List.range x.ow).map fun ox => window x h.rows e oy ox
        let g := { g with offered := true, windows := ws, fault := h.err.map fun t => loomShare t.2 }
        .stay (s.setLoom x.tile { l with feed := some g }) (.harrow 3)
    else if g.windows.isEmpty ∧ h.err.isSome then feedFail f s
    else if g.windows.isEmpty then
      let kept := if x.sout then some (h.rows.drop (h.rows.length - x.keepr)) else if x.op = 1 then none else h.kept
      let s := (s.setLoom x.tile { l with feed := none }).setHarrow f.inst
        { h with kept := kept, keptNum := if x.sout then f.own else h.keptNum, rows := [] }
      .ended (s.stalls (HW f.inst) x.waits) 0 (Word.nat (oh % 65536)) (x.count f.kept) 0
    else if g.lost then
      let per := x.k + x.ko
      let (u, s) := s.draw 32
      let n := g.taken * per + u.toNat % (g.windows.length * per + 1)
      harrowStop f (s.setLoom x.tile { l with feed := none }) 0x4E (Word.nat (min n 0xFFFFFFFF)) 0
    else .stay s (.harrow 3)

/-- The work of a started CONV or TCONV. -/
def doFeed (f : Flight) (s : State) : EngRes :=
  let join (s : State) : EngRes :=
    match feedJoin f s with
    | some s => feedDeliver f s
    | none => .stay s (.harrow 2)
  match f.st with
  | .running (.harrow 1) =>
    match feedRead f s with
    | .error r => r
    | .ok s => join s
  | .running (.harrow 2) => join s
  | .running (.harrow 3) => feedDeliver f s
  | _ => .stay s (.harrow 0)

namespace State

/-- A Harrow descriptor starts: its place in the pairing order of its tile (11 R481). -/
def feedStart (s : State) (inst ring idx : Nat) : State :=
  match s.flightAt ring idx with
  | some f =>
    let t := (harrowD f.desc).tile
    let l := s.loom t
    (s.setLoom t { l with harrows := l.harrows ++ [⟨inst, ring, idx, none⟩] }).mapFlight ring idx fun f =>
      { f with st := .running (.harrow 1) }
  | none => s

/-- A CONV or TCONV begins execution: it starts, or takes its place in the halo order (11 R481, R492, R493). -/
def harrowBegin (s : State) (inst opc : Nat) : State :=
  match s.current 1 inst with
  | some f =>
    if f.st = .queued ∧ f.null = false ∧ opcOf f.desc = opc then
      let h := s.harrow inst
      let s := s.setHarrow inst { h with rows := [], err := none }
      if (harrowD f.desc).role = 0 then s.feedStart inst f.ring f.idx
      else
        (s.setHarrow inst { s.harrow inst with halo := h.halo ++ [⟨f.ring, f.idx, false⟩] }).mapFlight f.ring f.idx
          fun f => { f with st := .running (.harrow 0), tmo := s.rf (HW inst + 4) 0 16 }
    else s
  | none => s

/-- The first disagreement of a halo pair (11 R492, R493). -/
def haloBad (a b : HarrowD) : Option Nat :=
  if !((a.role == 1 && b.role == 2) || (a.role == 2 && b.role == 1)) then some 0
  else if a.hsend ≠ b.hrecv ∨ b.hsend ≠ a.hrecv then some 1
  else if a.iw ≠ b.iw ∨ a.c ≠ b.c ∨ a.layout ≠ b.layout ∨ a.fmt ≠ b.fmt ∨ (a.nout == 0) ≠ (b.nout == 0) then some 2
  else none

/-- The oldest begun halo descriptors of HW0 and HW1 pair; one that faults has only waited (07 R343; 11 R492–R494). -/
def haloPair (s : State) : State :=
  match (s.harrow 0).halo, (s.harrow 1).halo with
  | a :: ta, b :: tb =>
    let s := (s.setHarrow 0 { s.harrow 0 with halo := ta, inbox := [], inboxFail := none }).setHarrow 1
      { s.harrow 1 with halo := tb, inbox := [], inboxFail := none }
    let stop (s : State) (e : LoomEnt) (n : Nat) : State :=
      if e.ended then s
      else match s.flightAt e.ring e.idx with
        | some f => (s.stalls (HW f.inst) [2]).endFlight e.ring e.idx 0x4D (Word.nat n) 0
        | none => s
    match s.flightAt a.ring a.idx, s.flightAt b.ring b.idx with
    | some f, some g =>
      if a.ended || b.ended then stop (stop s a 3) b 3
      else
        match haloBad (harrowD f.desc) (harrowD g.desc) with
        | some n => stop (stop s a n) b n
        | none => (s.feedStart 0 a.ring a.idx).feedStart 1 b.ring b.idx
    | _, _ => stop (stop s a 3) b 3
  | _, _ => s

/-- A descriptor's partner has not begun within HALO_TMO (11 R493). -/
def haloTimeout (s : State) (inst : Nat) : State :=
  match s.current 1 inst with
  | some f =>
    let h := s.harrow inst
    if f.st = .running (.harrow 0) ∧ f.tmo ≠ 0 ∧ (s.harrow (1 - inst)).halo.length < h.halo.length ∧ s.capRuns then
      let s := s.setHarrow inst { h with
        halo := h.halo.map fun e => if e.ring = f.ring ∧ e.idx = f.idx then { e with ended := true } else e }
      (s.stalls (HW inst) [2]).endFlight f.ring f.idx 0x49 0 0
    else s
  | none => s

/-- The first difference of 11 R483. -/
def feedBad (x : HarrowD) (kept : Nat) (y : LoomD) : Option Nat :=
  if x.k ≠ y.k then some 0
  else if x.oh kept * x.ow ≠ y.npos then some 1
  else if x.ko ≠ y.ko ∨ x.nout ≠ y.nout then some 2
  else if (if y.lane then x.fmt ≠ 5 else x.fmt ≠ y.af) then some 3
  else none

/-- A started Harrow descriptor ends as it is paired: its engine had got some way, and its stripe rows become undefined
(07 R343; 11 R491, R497). -/
def feedEnd (s : State) (g : Flight) (status : Nat) (detail : Word) : State :=
  let x := harrowD g.desc
  let (c, s) := ((s.stalls (HW g.inst) x.waits).loseRows g).freeCycles (x.count g.kept)
  s.endFlight g.ring g.idx status detail c

/-- The oldest unpaired Loom and Harrow descriptors of a tile are judged (10 R454; 11 R482, R483, R485). -/
def feedPair (s : State) (tile : Nat) : State :=
  let l := s.loom tile
  match l.looms, l.harrows with
  | a :: ta, b :: tb =>
    if l.feed.isSome || !s.capRuns then s
    else
      let s := s.setLoom tile { l with looms := ta, harrows := tb }
      let lf := if a.ended then none else s.flightAt a.ring a.idx
      let hf := if b.fault.isSome then none else s.flightAt b.ring b.idx
      match lf, hf with
      | none, none => s
      | none, some g => s.feedEnd g 0x4E 0
      | some f, none =>
        let (st, dt, a) := b.fault.getD (0x30, 0, 0)
        (loomEnd f s st dt).mapFlight f.ring f.idx fun f => { f with addr := a }
      | some f, some g =>
        match feedBad (harrowD g.desc) g.kept (loomD f.desc) with
        | some n => (loomEnd f s 0x43 (Word.nat n)).feedEnd g 0x48 (Word.nat n)
        | none =>
          s.setLoom tile { s.loom tile with
            feed := some {
              inst := g.inst, ring := g.ring, idx := g.idx, lring := f.ring, lidx := f.idx, c := (harrowD g.desc).c } }
  | _, _ => s

/-- Admission of a CONV changes the stripe state (11 R491). -/
def harrowAdmit (s : State) (inst : Nat) (d : List Word) : State :=
  let x := harrowD d
  if x.op = 1 then
    s.setHarrow inst { s.harrow inst with
      keeps := (s.harrow inst).keeps + b2n x.sout
      stripe := if x.sout then some ⟨x.keepr, x.iw, x.c, x.layout, x.fmt, x.nout != 0⟩ else none }
  else s

/-- A CONV or TCONV begins, and advances as far as it can. -/
def feed (s : State) (inst opc : Nat) : State :=
  if s.capRuns then (s.harrowBegin inst opc).advance 1 inst opc 2 doFeed else s

end State

/-! ### Meanings -/

/-- FEED_PAIR on tile `inst` (11 R483). -/
def execFeedPair (inst : Nat) (s : State) : Out := .next (s.feedPair inst)
/-- CONV on Harrow `inst` (11 R473). -/
def execConv (inst : Nat) (s : State) : Out := .next (s.feed inst 1)
/-- TCONV (11 R473). -/
def execTconv (inst : Nat) (s : State) : Out := .next (s.feed inst 2)
/-- POOL_MAX (11 R487). -/
def execPoolMax (inst : Nat) (s : State) : Out := .next (s.advance 1 inst 3 2 doMemOp)
/-- POOL_AVG (11 R487). -/
def execPoolAvg (inst : Nat) (s : State) : Out := .next (s.advance 1 inst 4 2 doMemOp)
/-- UP_NEAREST (11 R488). -/
def execUpNearest (inst : Nat) (s : State) : Out := .next (s.advance 1 inst 5 2 doMemOp)
/-- UP_BILINEAR (11 R488). -/
def execUpBilinear (inst : Nat) (s : State) : Out := .next (s.advance 1 inst 6 2 doMemOp)
/-- S2D (11 R489). -/
def execS2d (inst : Nat) (s : State) : Out := .next (s.advance 1 inst 7 2 doMemOp)
/-- HALO_PAIR (11 R492, R493). -/
def execHaloPair (s : State) : Out := .next (if s.capRuns then s.haloPair else s)
/-- HALO_TIMEOUT on Harrow `inst` (11 R493). -/
def execHaloTimeout (inst : Nat) (s : State) : Out := .next (s.haloTimeout inst)

end Sys2Proof.Machine
end

