-- ==== Sys2Proof/Machine/Ports.lean ====
section
/-! DEFINITION. The elements that a Mill and its Sheaf touch, and what becomes of those that they touch at once (12 R512, 13 R589). -/

namespace Sys2Proof.Machine

/-! ### The Sheaf's descriptor (13.2) -/

structure SheafD where
  op : Nat
  lenv : Bool
  men : Bool
  reg : Nat
  ty : Nat
  dreg : Nat
  f16 : Bool
  col : Bool
  fn : Nat
  msk : Nat
  lreg : Nat
  summ : Nat
  rows : Nat
  cols : Nat
  sidx : Nat
  tag : Nat
  eps : Nat

def sheafD (d : List Word) : SheafD :=
  { op := opcOf d, lenv := bit (wordAt d 0) 12, men := bit (wordAt d 0) 13, reg := df d 4 0 5, ty := df d 4 5 3
    dreg := df d 4 8 5, f16 := bit (wordAt d 4) 13, col := bit (wordAt d 4) 14, fn := df d 4 15 3, msk := df d 4 18 3
    lreg := df d 4 21 5, summ := df d 4 26 2, rows := df d 5 0 13, cols := df d 5 16 13, sidx := df d 6 0 12
    tag := df d 6 16 8, eps := (wordAt d 7).toNat }

namespace SheafD

/-- E, NRES and L (13.2). -/
def elems (x : SheafD) : Nat := x.rows * x.cols
def nres (x : SheafD) : Nat := if x.col then x.cols else x.rows
def len (x : SheafD) : Nat := if x.col then x.rows else x.cols
/-- The whole shape is written. -/
def whole (x : SheafD) : Bool := x.op == 2 || x.op == 4
/-- Registers of the source, destination and length groups. -/
def srcRegs (x : SheafD) : Nat := ceilDiv x.elems (perReg (tyC32 x.ty))
def dstRegs (x : SheafD) : Nat := if x.whole then ceilDiv x.elems (perReg (!x.f16)) else ceilDiv x.nres 256
def lenRegs (x : SheafD) : Nat := if x.lenv then ceilDiv x.nres 256 else 0
/-- The group index of position `t` of result `i` (13 R564). -/
def index (x : SheafD) (i t : Nat) : Nat := if x.col then t * x.cols + i else i * x.cols + t
/-- Entries pushed. -/
def pushes (x : SheafD) : Nat := match x.summ with | 0 => 0 | 1 => 1 | _ => x.nres

end SheafD

/-! ### Recipe operands (12.5) -/

namespace MillIns

/-- Which operands an operation uses: A, B, C, IMM (12 Table 12.7). -/
def uses (i : MillIns) : Bool × Bool × Bool × Bool :=
  match i.op with
  | 0x04 => (true, true, true, false)
  | 0x07 => (true, false, false, false)
  | 0x08 => (true, false, false, false)
  | 0x09 => (false, true, false, false)
  | 0x0A => (true, true, true, false)
  | 0x0B => (true, false, false, true)
  | 0x17 => (true, false, false, false)
  | 0x18 => (false, false, false, false)
  | 0x20 => (true, true, true, false)
  | 0x24 => (true, true, true, true)
  | 0x28 => (false, false, false, false)
  | 0x29 => (false, false, false, false)
  | 0x2A => (false, false, false, true)
  | 0x30 => (true, true, false, true)
  | 0x31 => (true, true, false, true)
  | _ => (true, true, false, false)

def maskOp (i : MillIns) : Bool := decide (0x14 ≤ i.op ∧ i.op ≤ 0x18)

end MillIns

/-! ### Touched elements (12 R512) -/

/-- Elements of tile registers as halves, 512 to a register: from `lo` up to but not `hi` (12 R514). -/
structure Span where
  lo : Nat
  hi : Nat
  c32 : Bool
deriving DecidableEq, Repr

/-- Elements `a` up to but not `b` of a group. -/
def Span.of (c32 : Bool) (reg a b : Nat) : Span :=
  let w := if c32 then 2 else 1
  ⟨512 * reg + w * a, 512 * reg + w * b, c32⟩

/-- The elements of two spans that share a half. -/
def Span.meet (p q : Span) : Option Span :=
  let lo := max p.lo q.lo
  let hi := min p.hi q.hi
  let wide := p.c32 || q.c32
  if lo < hi then some (if wide then ⟨lo / 2 * 2, (hi + 1) / 2 * 2, true⟩ else ⟨lo, hi, false⟩) else none

/-- What a descriptor reads and writes: spans, and the first bits of mask registers. -/
structure Touch where
  reads : List Span
  writes : List Span
  mreads : List (Nat × Nat)
  mwrites : List (Nat × Nat)

/-- The elements of a destination that a merging mask leaves to be written: those active in `act`. -/
def activeSpans (c32 : Bool) (reg : Nat) (act : List Bool) : List Span :=
  act.zipIdx.filterMap fun (a, j) => if a then some (Span.of c32 reg j (j + 1)) else none

/-- What one recipe instruction reads (12 R529–R533, Table 12.7). -/
def MillIns.reads (i : MillIns) (vl : Nat) : List Span :=
  let n := i.cnt vl
  let c := tyC32 i.ty
  let (a, b, _, _) := i.uses
  let group (on : Bool) (c32 : Bool) (reg lo hi : Nat) : List Span := if on then [Span.of c32 reg lo hi] else []
  if i.maskOp then []
  else match i.op with
    | 0x0B => [Span.of c i.a i.imm (i.imm + 1)]
    | 0x20 => [Span.of c i.a 0 n]
    | 0x24 => [Span.of c i.a 0 n, Span.of (i.c % 2 == 1) i.b 0 i.imm]
    | 0x30 => [Span.of c i.a 0 (n + i.imm - 1), Span.of c i.b 0 i.imm]
    | 0x31 => [Span.of c i.a 0 (n + i.imm - 1), Span.of c i.b 0 n]
    | op => group a c i.a 0 n ++ group (b && !i.bimm) c i.b 0 n ++ group (op == 0x04) c i.c 0 n

/-- What a Mill descriptor's streams and recipe touch. A mask that the recipe leaves alone tells which elements of a merging
destination are written. -/
def millTouch (m : Mill) (d : List Word) : Touch :=
  let vl := min (df d 6 0 13) (wordAt d 5).toNat
  let is := (millRecipe m d).filter fun i => i.op != 0
  let made (k : Nat) : Bool := is.any fun i => i.toMask && i.d == k
  let slot (k : Nat) : List Span :=
    let t := strm d k
    if t.kind = 3 then [] else [Span.of t.c32 t.reg 0 (vl + (if k = 2 then 0 else t.pre))]
  { reads := slot 2 ++ is.flatMap fun i => i.reads vl
    writes := slot 0 ++ slot 1 ++ is.flatMap fun i =>
      if i.toMask then []
      else if i.men && !i.zm && !made i.msk then activeSpans i.dC32 i.d (m.mask i.msk (i.outCount vl))
      else [Span.of i.dC32 i.d 0 (i.outCount vl)]
    mreads := is.flatMap fun i =>
      (if i.men then [(i.msk, i.outCount vl)] else []) ++
        (if i.maskOp && i.op != 0x18 then [(i.a, i.cnt vl)] ++ (if i.op = 0x17 then [] else [(i.b, i.cnt vl)]) else []) ++
        (if i.op = 0x0A then [(i.c, i.cnt vl)] else [])
    mwrites := is.flatMap fun i => if i.toMask then [(i.d, i.outCount vl)] else [] }

/-- What a Sheaf descriptor touches (13 R563, R564). -/
def sheafTouch (d : List Word) : Touch :=
  let x := sheafD d
  let (c32, reg, n) := State.sheafDest d
  { reads := [Span.of (tyC32 x.ty) x.reg 0 x.elems] ++ (if x.lenv then [Span.of true x.lreg 0 x.nres] else [])
    writes := [Span.of c32 reg 0 n]
    mreads := if x.men then [(x.msk, x.elems)] else []
    mwrites := [] }

namespace State

/-- The latest descriptor of an instance that has started and whose engine has not freed its slot: it may be in the middle of
its work. -/
def liveOn (s : State) (cls inst : Nat) : Option Flight :=
  (s.cap.flights.filter fun f => f.cls == cls && f.inst == inst && !f.null &&
    (match f.st with
     | .running _ => true
     | .ended _ _ _ => true
     | _ => false)).getLast?

/-- Every element that one of two descriptors writes and the other reads or writes becomes a free value (12 R512, 13 R589;
log 44). -/
def clash (s : State) (inst : Nat) (md sd : List Word) : State :=
  let a := millTouch (s.mill inst) md
  let b := sheafTouch sd
  let spans := (a.writes.flatMap fun w => (b.reads ++ b.writes).filterMap w.meet) ++
    b.writes.flatMap fun w => a.reads.filterMap w.meet
  let masks := a.mwrites.flatMap fun (k, n) => b.mreads.filterMap fun (j, m) => if j = k then some (k, min n m) else none
  let s := spans.foldl (fun s p =>
    let (l, s) := s.drawNats 16 (p.hi - p.lo)
    s.setMill inst ((s.mill inst).setGroupAt false (p.lo / 512) (p.lo % 512) l)) s
  masks.foldl (fun s (k, n) => s.spoilMask inst k n) s

/-- What a Mill descriptor's work and a live Sheaf descriptor of the same pair do to each other. -/
def millClash (s : State) (inst : Nat) (d : List Word) : State :=
  match s.liveOn 3 inst with
  | some g => s.clash inst d g.desc
  | none => s

/-- What a Sheaf descriptor's work and a live Mill descriptor of the same pair do to each other. -/
def sheafClash (s : State) (inst : Nat) (d : List Word) : State :=
  match s.liveOn 2 inst with
  | some g => s.clash inst g.desc d
  | none => s

end State

end Sys2Proof.Machine
end

