-- ==== Sys2Proof/Machine/Mill.lean ====
section
/-! DEFINITION. The Mill: descriptor checks, streams, recipes, draws, filters, and cycle counts (12). -/

namespace Sys2Proof.Machine

/-! ### Descriptor (12.3) -/

/-- Stream formats (12 Table 12.4). -/
def millFmt (f : Nat) : Fmt :=
  match f with
  | 0 => .u4 | 1 => .s4 | 2 => .u8 | 3 => .s8 | 4 => .u16 | 5 => .s16 | 6 => .s32 | 7 => .fp16 | _ => .fp32

/-- Bits of a stream format. -/
def fmtBits (f : Nat) : Nat := (millFmt f).bits

/-- Iterations of a Mill descriptor. -/
def millIters (d : List Word) : Nat := ceilDiv (wordAt d 5).toNat (df d 6 0 13)
/-- VL of iteration `i` (12 R522). -/
def millVl (d : List Word) (i : Nat) : Nat := min (df d 6 0 13) ((wordAt d 5).toNat - i * df d 6 0 13)

/-- The extent of a MEM or REPEAT stream (12 R520), in bytes, rounded out. -/
def strmRange (d : List Word) (t : Strm) (writes : Bool) : Range :=
  let b := fmtBits t.fmt
  let chunk := df d 6 0 13
  let n := (wordAt d 5).toNat
  let a : Int := t.addr
  let lo (x : Int) : Int := x / 8
  if t.kind = 2 then ⟨a, a + lo ((t.l0 * b : Nat) + 7) - 1, !writes, writes⟩
  else if t.l0 = 0 then ⟨a - lo ((t.pre * b : Nat) + 7), a + lo ((n * b : Nat) + 7) - 1, !writes, writes⟩
  else
    let m := (millIters d - 1) * t.l0 + min t.l0 chunk
    ⟨a, a + lo ((m * b : Nat) + 7) - 1 + ((chunk - 1) / t.l0 * t.s1 : Nat), !writes, writes⟩

/-- The first stream slot that fails a test. -/
def firstSlot (p : Nat → Bool) : Option Nat := [0, 1, 2].find? p

/-- The class checks of 12 R521; DETAIL: check and slot. -/
def millClass (d : List Word) : Option (Nat × Word) :=
  let chunk := df d 6 0 13
  let n := (wordAt d 5).toNat
  let t := strm d
  let form (c slot : Nat) : Option (Nat × Word) := some (0x53, Word.nat (c + slot * 16))
  let group (k : Nat) : Bool :=
    (t k).kind != 3 && decide (32 < (t k).reg + ceilDiv (chunk + (t k).pre) (perReg (t k).c32))
  let pre (k : Nat) : Bool := (t k).kind == 0 && decide (0 < (t k).pre) && (t k).l0 != 0
  let empty (k : Nat) : Bool := ((t k).kind == 2 && (t k).l0 == 0) || ((t k).kind == 1 && (t k).nchm == 0)
  let order (k : Nat) : Bool := (t k).kind == 1 && (t k).order &&
    (((t k).nchm != 32 && (t k).nchm != 64) || chunk % (32 * (t k).nchm) != 0)
  let o := t 2
  match firstSlot group, firstSlot pre, firstSlot empty, firstSlot order with
  | some k, _, _, _ => form 1 k
  | none, some k, _, _ => form 2 k
  | none, none, some k, _ => form 3 k
  | none, none, none, some k => form 4 k
  | none, none, none, none =>
    if (t 0).kind = 1 ∧ (t 1).kind = 1 ∧ (t 0).tile = (t 1).tile then form 5 1
    else if o.kind = 0 ∧ o.fmt < 2 ∧ (n % 2 = 1 ∨ chunk % 2 = 1 ∨ o.l0 % 2 = 1) then form 6 2
    else if bit (wordAt d 0) 12 ∧ df d 6 16 7 = 0 then form 7 3
    else none

/-- The checks, null test and ranges of a Mill descriptor (12 R515–R521). -/
def millChecks (d : List Word) : ClassChecks :=
  let dice := bit (wordAt d 0) 12
  let slot (k : Nat) : List Check :=
    let w := 7 + 3 * k
    let q := (strm d k).kind
    let input := k ≠ 2
    [unused (q == 0 || q == 2) d w 0 32, (w + 1, 0, decide input || q == 0 || q == 3),
     (w + 1, 2, if q = 0 ∨ q = 2 then decide (df d (w + 1) 2 4 ≤ 8) else df d (w + 1) 2 4 == 0),
     unused (q != 3) d (w + 1) 6 5, unused (decide input && q == 0) d (w + 1) 11 8, unused (q == 1) d (w + 1) 19 2,
     unused (q == 1) d (w + 1) 21 1, unused (q == 1) d (w + 1) 22 7, zero d (w + 1) 29 3,
     unused (q == 0 || q == 2) d (w + 2) 0 13, unused (q == 0) d (w + 2) 13 19]
  let body : List Check :=
    [zero d 6 13 3, zero d 6 23 1, unused dice d 6 24 8] ++ slot 0 ++ slot 1 ++ slot 2
  let nchm (k : Nat) : Check := (8 + 3 * k, 22, (strm d k).kind != 1 || decide ((strm d k).nchm ≤ 64))
  let align : List Check := (4, 0, (wordAt d 4).toNat % 32 == 0) ::
    [0, 1, 2].map fun k =>
      let t := strm d k
      (7 + 3 * k, 0, !(t.kind == 0 || t.kind == 2) || t.addr % max 1 (fmtBits t.fmt / 8) == 0)
  let rng (k : Nat) : Range :=
    let t := strm d k
    if t.kind = 0 ∨ t.kind = 2 then strmRange d t (k == 2) else .absent
  { opcOk := opcOf d == 1, eflags := [zero d 0 13 3], body := body
    limit := [(6, 0, decide (df d 6 0 13 ≤ 4096)), (6, 16, decide (df d 6 16 7 ≤ 64)), nchm 0, nchm 1]
    align := align, cls := millClass d, null := (wordAt d 5).toNat == 0 || df d 6 0 13 == 0
    ranges := [if df d 6 16 7 = 0 then .absent else Range.span (wordAt d 4).toNat (32 + 8 * df d 6 16 7) false,
      rng 0, rng 1, rng 2] }

/-! ### Recipe checks (12 R528, R535) -/

namespace MillIns

def known (i : MillIns) : Bool :=
  (decide (1 ≤ i.op) && decide (i.op ≤ 0x0B)) || (decide (0x10 ≤ i.op) && decide (i.op ≤ 0x18)) ||
    [0x20, 0x24, 0x28, 0x29, 0x2A, 0x30, 0x31].contains i.op

def tyOk (i : MillIns) : Bool :=
  match i.op with
  | 0x24 => i.ty == 2 || i.ty == 3 || i.ty == 4
  | 0x28 => i.ty == 0
  | 0x29 => i.ty == 2
  | 0x2A => i.ty == 0
  | 0x30 => i.ty == 0
  | 0x31 => i.ty == 0
  | _ => if i.maskOp then i.ty == 0 else decide (i.ty ≤ 4)

def bimmOk (i : MillIns) : Bool :=
  !i.bimm || [0x01, 0x02, 0x03, 0x04, 0x05, 0x06, 0x09, 0x0A, 0x10, 0x11, 0x12, 0x13].contains i.op

/-- Reason 0: a reserved OP, TYPE, field or encoding. -/
def bad0 (i : MillIns) : Bool :=
  let (a, b, c, m) := i.uses
  !i.known || !i.tyOk || !i.bimmOk || (i.toMask && decide (8 ≤ i.d)) ||
  (if a then i.maskOp && decide (8 ≤ i.a) else i.a != 0) ||
  (if b && !i.bimm then (i.maskOp && decide (8 ≤ i.b)) || (i.op == 0x20 && decide (9 ≤ i.b)) else i.b != 0) ||
  (if c then (i.op == 0x0A && decide (8 ≤ i.c)) || (i.op == 0x20 && decide (8 ≤ i.c)) || (i.op == 0x24 && decide (4 ≤ i.c))
    else i.c != 0) ||
  (!m && !i.bimm && i.imm != 0) || (i.vsrc && i.vcnt != 0) || (!i.men && i.msk != 0)

/-- Reason 1: a group past t31 for its count. -/
def bad1 (i : MillIns) (chunk : Nat) : Bool :=
  let n := i.cnt chunk
  let past32 (c32 : Bool) (reg cnt : Nat) : Bool := decide (32 < reg + ceilDiv cnt (perReg c32))
  let t32 := tyC32 i.ty
  let (a, b, _, _) := i.uses
  let filter := i.op == 0x30 || i.op == 0x31
  (a && !i.maskOp && i.op != 0x0B && past32 t32 i.a (if filter then n + i.imm - 1 else n)) ||
  (b && !i.bimm && !i.maskOp && i.op != 0x20 &&
    past32 (if i.op = 0x24 then i.c % 2 == 1 else t32) i.b (if i.op = 0x24 ∨ i.op = 0x30 then i.imm else n)) ||
  (i.op == 0x04 && past32 t32 i.c n) ||
  (!i.toMask && past32 i.dC32 i.d (i.outCount chunk))

/-- Reason 2: a draw without DICE, or with a fixed count. -/
def bad2 (i : MillIns) (dice : Bool) : Bool :=
  (i.op == 0x28 || i.op == 0x29 || i.op == 0x2A || (i.op == 0x20 && i.c % 4 == 3)) && (!dice || !i.vsrc)

/-- Reason 3: IMM out of range. -/
def bad3 (i : MillIns) : Bool :=
  match i.op with
  | 0x0B => decide ((32 - i.a) * perReg (tyC32 i.ty) ≤ i.imm)
  | 0x24 => i.imm == 0 || decide (4096 < i.imm)
  | 0x30 => i.imm == 0 || decide (256 < i.imm)
  | 0x31 => i.imm == 0 || decide (256 < i.imm)
  | _ => false

def reason (i : MillIns) (chunk : Nat) (dice : Bool) : Option Nat :=
  if i.bad0 then some 0 else if i.bad1 chunk then some 1 else if i.bad2 dice then some 2
  else if i.bad3 then some 3 else none

end MillIns

/-- The first failure of a recipe: DETAIL of PROGRAM (12 R535, Table 12.8). -/
def recipeBad (d : List Word) (header : List Word) (is : List MillIns) : Option Word :=
  if (header.drop 2).any (· != 0) then some (Word.nat (4 * 64))
  else
    let dice := bit (wordAt d 0) 12
    is.zipIdx.findSome? fun (i, p) => (i.reason (df d 6 0 13) dice).map fun r => Word.nat (p + r * 64)

/-! ### Element operations (12.5) -/

/-- The format of a TYPE (12 Table 12.2). -/
def tyFmt (ty : Nat) : Fmt :=
  match ty with | 0 => .fp32 | 1 => .fp16 | 2 => .s32 | 3 => .s16 | _ => .u16

/-- The value of element bits, and the bits of a result, in a floating-point TYPE. -/
def tyVal (ty x : Nat) : Fp := if ty = 0 then Fp.of32 x else Fp.of16 x
def tyBits (ty : Nat) (v : Fp) : Nat := if ty = 0 then to32 0 0 v else to16 0 0 false v

/-- ADD to NEG on element bits (12 Table 12.7, R530). -/
def arith (op ty a b c : Nat) : Nat :=
  if ty < 2 then
    let x := tyVal ty a
    let y := tyVal ty b
    tyBits ty (match op with
      | 0x01 => Fp.add x y
      | 0x02 => Fp.add x (Fp.neg y)
      | 0x03 => Fp.mul x y
      | 0x04 => Fp.add (Fp.mul x y) (tyVal ty c)
      | 0x05 => Fp.minmax false x y
      | 0x06 => Fp.minmax true x y
      | 0x07 => Fp.abs x
      | _ => Fp.neg x)
  else
    let f := tyFmt ty
    let x := f.toInt a
    let y := f.toInt b
    f.sat (match op with
      | 0x01 => x + y
      | 0x02 => x - y
      | 0x03 => x * y
      | 0x04 => x * y + f.toInt c
      | 0x05 => min x y
      | 0x06 => max x y
      | 0x07 => x.natAbs
      | _ => -x)

/-- CEQ, CNE, CLT and CLE (12 R530). -/
def compare (op ty a b : Nat) : Bool :=
  let (nan, c) : Bool × Int :=
    if ty < 2 then ((tyVal ty a).isNan || (tyVal ty b).isNan, Fp.cmp (tyVal ty a) (tyVal ty b))
    else (false, (tyFmt ty).toInt a - (tyFmt ty).toInt b)
  match op with
  | 0x10 => !nan && c == 0
  | 0x11 => nan || c != 0
  | 0x12 => !nan && decide (c < 0)
  | _ => !nan && decide (c ≤ 0)

/-- IMM as operand B (12 R528). -/
def immBits (ty imm : Nat) : Nat :=
  match ty with
  | 0 => to32 0 0 (Fp.of16 imm)
  | 2 => wrap 32 (sgn 16 imm)
  | _ => imm

/-- FIR of element `j` and XCORR of tap `k` (12 R538). -/
def fir (a b : List Nat) (t j : Nat) : Nat :=
  (List.range t).foldl (fun acc k =>
    fma32 (Fp.of32 (b.getD k 0)) (Fp.of32 (a.getD (j + t - 1 - k) 0)) (Fp.of32 acc)) 0
def xcorr (a b : List Nat) (t k cnt : Nat) : Nat :=
  (List.range cnt).foldl (fun acc j =>
    fma32 (Fp.of32 (b.getD j 0)) (Fp.of32 (a.getD (j + t - 1 - k) 0)) (Fp.of32 acc)) 0

/-- The draw for element `e` of instruction `p` (09 R410, 12 R536). -/
def draw32 (m : Mill) (d : List Word) (e p : Nat) : Nat :=
  dice (wordAt m.recipe 130).toNat (df d 6 24 8) (e % 32) (((wordAt m.recipe 131).toNat + 64 * (e / 32) + p) % 2 ^ 32)

/-- The LUT entry that an index selects; none is out of range (12 R533). -/
def lutAt (i : MillIns) (x : Int) : Option Nat :=
  if x < 0 then (if i.c / 2 % 2 = 1 then some 0 else none)
  else if (i.imm : Int) ≤ x then (if i.c / 2 % 2 = 1 then some (i.imm - 1) else none)
  else some x.toNat

/-- One instruction at index `p` of iteration `it`: the registers after it, or the element that faults LANE_RANGE
(12 R529, R533, R536). -/
def millExec (m : Mill) (d : List Word) (p it vl : Nat) (i : MillIns) : Except Nat Mill :=
  let n := i.cnt vl
  let on := i.outCount vl
  let act : List Bool := if i.men then m.mask i.msk on else List.replicate on true
  let t32 := tyC32 i.ty
  let grp (reg k : Nat) : List Nat := m.group t32 reg k
  let bs (_ : Unit) : List Nat := if i.bimm then List.replicate n (immBits i.ty i.imm) else grp i.b n
  let e (j : Nat) : Nat := it * df d 6 0 13 + j
  let fin (l : List Nat) : Mill := m.setGroup i.dC32 i.d
    ((l.zip act).map fun (x, a) => if a then some x else if i.zm then some 0 else none)
  let finMask (l : List Bool) : Mill := m.setMask i.d
    ((l.zip act).map fun (x, a) => if a then some x else if i.zm then some false else none)
  match i.op with
  | 0x04 => .ok (fin (((grp i.a n).zip ((bs ()).zip (grp i.c n))).map fun (a, b, c) => arith 4 i.ty a b c))
  | 0x09 => .ok (fin (bs ()))
  | 0x0A => .ok (fin (((grp i.a n).zip ((bs ()).zip (m.mask i.c n))).map fun (a, b, c) => if c then a else b))
  | 0x0B => .ok (fin (List.replicate n ((grp i.a (i.imm + 1)).getD i.imm 0)))
  | 0x14 => .ok (finMask (((m.mask i.a n).zip (m.mask i.b n)).map fun (a, b) => a && b))
  | 0x15 => .ok (finMask (((m.mask i.a n).zip (m.mask i.b n)).map fun (a, b) => a || b))
  | 0x16 => .ok (finMask (((m.mask i.a n).zip (m.mask i.b n)).map fun (a, b) => a != b))
  | 0x17 => .ok (finMask ((m.mask i.a n).map fun a => !a))
  | 0x18 => .ok (finMask (List.replicate n true))
  | 0x20 =>
    .ok (fin ((grp i.a n).zipIdx.map fun (a, j) =>
      let u := if i.c % 4 = 3 then draw32 m d (e j) p / 65536 else 0
      let r := convert (tyFmt i.ty) (millFmt i.b) (i.c % 4) u (i.c / 4 % 2 == 1) a
      if i.b = 1 then wrap 16 (sgn 4 r) else if i.b = 3 then wrap 16 (sgn 8 r) else r))
  | 0x24 =>
    let tab := m.group (i.c % 2 == 1) i.b i.imm
    let idx := (grp i.a n).map fun a => lutAt i ((tyFmt i.ty).toInt a)
    match (idx.zip act).zipIdx.find? fun ((x, a), _) => a && x.isNone with
    | some (_, j) => .error j
    | none => .ok (fin (idx.map fun x => tab.getD (x.getD 0) 0))
  | 0x28 => .ok (fin ((List.range n).map fun j => to32 0 0 (.fin false (draw32 m d (e j) p / 256) (-24))))
  | 0x29 => .ok (fin ((List.range n).map fun j => draw32 m d (e j) p))
  | 0x2A => .ok (finMask ((List.range n).map fun j => decide (draw32 m d (e j) p / 65536 < i.imm)))
  | 0x30 =>
    let a := grp i.a (n + i.imm - 1)
    let b := grp i.b i.imm
    .ok (fin ((List.range n).map fun j => fir a b i.imm j))
  | 0x31 =>
    let a := grp i.a (n + i.imm - 1)
    let b := grp i.b n
    .ok (fin ((List.range i.imm).map fun k => xcorr a b i.imm k n))
  | op =>
    if 0x10 ≤ op ∧ op ≤ 0x13 then .ok (finMask (((grp i.a n).zip (bs ())).map fun (a, b) => compare op i.ty a b))
    else if op = 0x07 ∨ op = 0x08 then .ok (fin ((grp i.a n).map fun a => arith op i.ty a 0 0))
    else .ok (fin (((grp i.a n).zip (bs ())).map fun (a, b) => arith op i.ty a b 0))

/-! ### Cycle counts (12 R539) -/

/-- c_p of an instruction. -/
def MillIns.cost (i : MillIns) (vl : Nat) : Nat :=
  let n := i.cnt vl
  if i.maskOp then ceilDiv n 256
  else if i.op = 0x24 ∨ i.op = 0x28 ∨ i.op = 0x29 ∨ i.op = 0x2A then ceilDiv n 16
  else if i.op = 0x30 then i.imm * ceilDiv n 16
  else if i.op = 0x31 then n * ceilDiv i.imm 16
  else
    let c16 := !tyC32 i.ty && (i.toMask || !i.dC32)
    ceilDiv n (if c16 then 32 else 16)

/-- T of a Mill descriptor. -/
def millCount (d : List Word) (is : List MillIns) : Nat :=
  let w (t : Strm) : Nat := if t.c32 then 16 else 32
  let iter (i : Nat) : Nat :=
    let vl := millVl d i
    let ld (k : Nat) : Nat :=
      let t := strm d k
      if t.kind = 3 then 0 else if t.kind = 1 then ceilDiv vl 16 else ceilDiv (vl + t.pre) (w t)
    let st := let t := strm d 2; if t.kind = 0 then ceilDiv vl (w t) else 0
    ld 0 + ld 1 + (is.map fun x => 2 + x.cost vl).sum + st
  16 + ((List.range (millIters d)).map iter).sum

/-! ### Streams (12.4) -/

/-- Elements `n` of a format from bit address `a` on: the bytes that hold them, and the elements they spell. -/
def bitRun (a : Int) (bits n : Nat) : Nat × Nat :=
  let lo := (a / 8).toNat
  (lo, ((a + (n * bits : Nat) + 7) / 8).toNat - lo)

/-- A loaded element in its container (12 R524). -/
def loadElem (fmt x : Nat) : Nat :=
  match fmt with
  | 1 => wrap 16 (sgn 4 x)
  | 3 => wrap 16 (sgn 8 x)
  | _ => x

/-- Reads runs of elements: bit address and count of each. -/
def readElems (fmt : Nat) : List (Int × Nat) → State → List Nat → State × Option MemErr × List Nat
  | [], s, acc => (s, none, acc)
  | (a, n) :: t, s, acc =>
    let b := fmtBits fmt
    let (lo, k) := bitRun a b n
    let (s, e, l) := s.readMem srcMill lo k
    match e with
    | some e => (s, some e, acc)
    | none =>
      let skip := if b < 8 then ((a - (lo * 8 : Nat)) / b).toNat else 0
      readElems fmt t s (acc ++ ((unpack b (skip + n) l).drop skip).map (loadElem fmt))

/-- The runs of a MEM stream in iteration `i`: bit address and count (12 R523). -/
def memRuns (d : List Word) (t : Strm) (i vl : Nat) : List (Int × Nat) :=
  let b := fmtBits t.fmt
  let a : Int := (t.addr * 8 : Nat)
  if t.l0 = 0 then [(a + (((i * df d 6 0 13 : Nat) : Int) - t.pre) * b, vl + t.pre)]
  else (List.range (ceilDiv vl t.l0)).map fun r =>
    (a + (i * t.l0 * b + r * t.s1 * 8 : Nat), min t.l0 (vl - r * t.l0))

/-- The block and word of ACC element `e` (12 R525). -/
def accWord (t : Strm) (e : Nat) : Nat × Nat :=
  let r := e % (32 * t.nchm)
  let (q, c) := if t.order then (r / 32 % 32, 32 * (r / 1024) + r % 32) else (r / t.nchm, r % t.nchm)
  (e / (32 * t.nchm), q * 64 + c)

/-- How loading a slot went. -/
inductive LoadRes where
  | done (s : State)
  /-- An ACC stream waits for a block, with elements loaded so far. -/
  | block (s : State) (elem : Nat)
  | err (s : State) (e : MemErr)

/-- Loads ACC elements from `j` on, block by block (12 R525, R526). -/
def loadAcc (inst : Nat) (t : Strm) (slot base vl : Nat) : Nat → State → Nat → LoadRes
  | 0, s, _ => .done s
  | n + 1, s, j =>
    if vl ≤ j then .done s
    else
      match ((s.mill inst).hold.find? fun h => h.1 == slot) with
      | none => .block s j
      | some (_, _, b) =>
        let per := 32 * t.nchm
        let last := min vl (j + (per - (base + j) % per))
        let vals := (List.range (last - j)).map fun k => (wordAt b.words (accWord t (base + j + k)).2).toNat
        let s := s.setMill inst ((s.mill inst).setGroupAt true t.reg j vals)
        let s := if (base + last) % per = 0 then s.releaseBlocks inst (some slot) else s
        loadAcc inst t slot base vl n s last

/-- Loads slot `slot` of iteration `i` from element `j` on. -/
def loadSlot (f : Flight) (s : State) (i slot j : Nat) : LoadRes :=
  let d := f.desc
  let t := strm d slot
  let vl := millVl d i
  match t.kind with
  | 0 =>
    let (s, e, l) := readElems t.fmt (memRuns d t i vl) s []
    match e with
    | some e => .err s e
    | none => .done (s.setMill f.inst ((s.mill f.inst).setGroupAt t.c32 t.reg 0 l))
  | 1 => loadAcc f.inst t slot (i * df d 6 0 13) vl (vl + 1) s j
  | 2 =>
    let m := min t.l0 vl
    let (s, e, l) := readElems t.fmt [((t.addr * 8 : Nat), m)] s []
    match e with
    | some e => .err s e
    | none => .done (s.setMill f.inst ((s.mill f.inst).setGroupAt t.c32 t.reg 0
        ((List.range vl).map fun j => l.getD (j % t.l0) 0)))
  | _ => .done s

/-- The bytes of stored elements (12 R524). -/
def storeBytes (fmt : Nat) (l : List Nat) : List Byte :=
  let b := fmtBits fmt
  if b < 8 then
    (List.range (l.length / 2)).map fun i => BitVec.ofNat 8 (l.getD (2 * i) 0 % 16 + l.getD (2 * i + 1) 0 % 16 * 16)
  else l.flatMap fun x => leBytes (b / 8) x

/-- Stores iteration `i`; an error leaves its output bytes undefined (12 R523, R543). -/
def storeOut (f : Flight) (s : State) (i : Nat) : State × Option MemErr :=
  let d := f.desc
  let t := strm d 2
  if t.kind ≠ 0 then (s, none)
  else
    let vl := millVl d i
    let l := (s.mill f.inst).group t.c32 t.reg vl
    let runs := memRuns d { t with pre := 0 } i vl
    let (s, e, _) := runs.foldl (fun (s, e, l) (a, n) =>
      match e with
      | some x => (s, some x, l)
      | none => let (s, e) := s.writeMem srcMill (a / 8).toNat (storeBytes t.fmt (l.take n)); (s, e, l.drop n))
      (s, (none : Option MemErr), l)
    match e with
    | none => (s, none)
    | some x =>
      (runs.foldl (fun s (a, n) =>
        let (b, s) := s.drawBytes (n * fmtBits t.fmt / 8)
        s.poke (a / 8).toNat b) s, some x)

/-! ### Execution -/

/-- What a descriptor waits for, as ML_STALLk: reads, writes, Loom blocks (12 R540). -/
def millWaits (d : List Word) : List Nat :=
  let kind (k : Nat) : Nat := (strm d k).kind
  (if df d 6 16 7 = 0 ∧ kind 0 % 2 = 1 ∧ kind 1 % 2 = 1 then [] else [0]) ++ (if kind 2 = 0 then [1] else []) ++
    (if kind 0 = 1 ∨ kind 1 = 1 then [2] else [])

/-- Ends a Mill descriptor with a fault; all but PROGRAM leave its destinations undefined (12 R543). -/
def millStop (f : Flight) (s : State) (status : Nat) (detail : Word) (addr : Nat) : EngRes :=
  let s := s.releaseBlocks f.inst none
  let s := if status = 0x50 then s else s.spoilMill f.inst f.desc
  let (c, s) := (s.stalls (ML f.inst) (millWaits f.desc)).freeCycles
    (millCount f.desc (millRecipe (s.mill f.inst) f.desc) + 3 * f.replays)
  .ended s status detail c addr

def millErr (f : Flight) (s : State) (e : MemErr) (range : Nat) : EngRes :=
  match e with
  | .wait a n => .wait a n range
  | .ecc a => millStop f s 0x30 (Word.nat range) a
  | .remote r => millStop f s 0x31 (Word.nat (range + r * 256)) 0

/-- Runs the recipe in iteration `it` (12 R529, R533). -/
def runRecipe (d : List Word) (it vl : Nat) : List (MillIns × Nat) → Mill → Except Word Mill
  | [], m => .ok m
  | (i, p) :: t, m =>
    match millExec m d p it vl i with
    | .ok m => runRecipe d it vl t m
    | .error j => .error (Word.nat (p + j * 64 + it % 16384 * 2 ^ 18))

/-- The recipe and the store of an iteration whose inputs are loaded. -/
def finishIter (f : Flight) (s : State) (i : Nat) : Except EngRes State :=
  let d := f.desc
  let vl := millVl d i
  let m := { s.mill f.inst with vl := vl }
  match runRecipe d i vl (millRecipe m d).zipIdx m with
  | .error w => .error (millStop f s 0x51 w 0)
  | .ok m =>
    let (s, e) := storeOut f (s.setMill f.inst m) i
    match e with
    | some e => .error (millErr f s e 3)
    | none => .ok s

/-- A stream asks its tile for a block (12 R526). -/
def State.askBlock (s : State) (f : Flight) (k : Nat) : State :=
  let t := (strm f.desc k).tile
  let l := s.loom t
  if l.asks.contains f.inst then s else s.setLoom t { l with asks := l.asks ++ [f.inst] }

/-- Iteration `i` from slot `k`, element `j`. -/
def runIter (f : Flight) (s : State) (i k j : Nat) : Except EngRes State :=
  let second (s : State) (j : Nat) : Except EngRes State :=
    match loadSlot f s i 1 j with
    | .done s => finishIter f s i
    | .block s j => .error (.stay (s.askBlock f 1) (.mill i 1 j))
    | .err s e => .error (millErr f s e 2)
  if k = 1 then second s j
  else
    match loadSlot f s i 0 j with
    | .done s => second s 0
    | .block s j => .error (.stay (s.askBlock f 0) (.mill i 0 j))
    | .err s e => .error (millErr f s e 1)

/-- The remaining iterations, and the OK result (12 R540, R545). -/
def runIters (f : Flight) : Nat → State → Nat → Nat → Nat → EngRes
  | 0, s, _, _, _ =>
    let n := millIters f.desc
    let m := s.mill f.inst
    .ended ((s.releaseBlocks f.inst none).stalls (ML f.inst) (millWaits f.desc)) 0
      (Word.nat (min n 0xFFFF + min f.blocks 0x7FFF * 65536)) (millCount f.desc (millRecipe m f.desc) + 3 * f.replays) 0
  | n + 1, s, i, k, j =>
    match runIter f s i k j with
    | .error r => r
    | .ok s => runIters f n s (i + 1) 0 0

/-- Loads the recipe store (12 R510); the Dice header stands behind the 64 instructions. An error on the way still leaves what came of
the recipe to name its destinations (12 R543). -/
def loadRecipe (f : Flight) (s : State) : Except EngRes State :=
  let d := f.desc
  let n := df d 6 16 7
  if n = 0 then .ok (s.setMill f.inst { s.mill f.inst with recipe := [] })
  else
    let (s, e, l) := s.readMem srcMill (wordAt d 4).toNat (32 + 8 * n)
    let ws := bytesWords (8 + 2 * n) l
    let body := ws.drop 8
    let m := { s.mill f.inst with recipe := body ++ List.replicate (130 - 2 * n) 0 ++ ws.take 2 }
    match e with
    | some e => .error (millErr f (match e with | .wait _ _ => s | _ => s.setMill f.inst m) e 0)
    | none =>
      match recipeBad d (ws.take 8) (millRecipe m d) with
      | some w => .error (millStop f (s.setMill f.inst m) 0x50 w 0)
      | none => .ok (s.setMill f.inst m)

/-- The work of a Mill descriptor that has started (12 R522), and its meeting with the Sheaf's (12 R512). -/
def doRun (f : Flight) (s : State) : EngRes :=
  let go (s : State) (i k j : Nat) : EngRes :=
    (runIters f (millIters f.desc - i) (s.millClash f.inst f.desc) i k j).andThen fun s => s.millClash f.inst f.desc
  match f.st with
  | .running (.mill i 0 j) => go s i 0 j
  | .running (.mill i 1 j) => go s i 1 j
  | _ =>
    match loadRecipe f s with
    | .error r => r
    | .ok s => go s 0 0 0

namespace State

/-- A Mill descriptor starts; the ACC timeout in force applies (12 R542). -/
def millStart (s : State) (inst : Nat) : State :=
  match s.current 2 inst with
  | some f =>
    if f.st = .queued ∧ f.null = false ∧ opcOf f.desc = 1 then
      s.mapFlight f.ring f.idx fun f => { f with st := .running (.mill 0 2 0), tmo := s.rf (ML inst + 4) 0 16 }
    else s
  | none => s

/-- The slot of a Mill's running descriptor that waits for a block. -/
def accWaiting (s : State) (inst : Nat) : Option (Flight × Nat) :=
  match s.current 2 inst with
  | some f =>
    match f.st with
    | .running (.mill _ k _) =>
      if k < 2 ∧ (strm f.desc k).kind = 1 ∧ !((s.mill inst).hold.any fun h => h.1 == k) then some (f, k) else none
    | _ => none
  | none => none

/-- The waiting stream takes the next finished block of its tile, if no stream asked for it before (12 R526). -/
def takeBlock (s : State) (inst : Nat) : State :=
  match s.accWaiting inst with
  | some (f, k) =>
    let t := (strm f.desc k).tile
    match (if (s.loom t).asks.head? = some inst then (s.loom t).out else []) with
    | b :: rest =>
      let m := s.mill inst
      let s := s.setLoom t { s.loom t with out := rest, asks := (s.loom t).asks.drop 1 }
      (s.setMill inst { m with hold := m.hold ++ [(k, t, b)] }).mapFlight f.ring f.idx fun f => { f with blocks := f.blocks + 1 }
    | [] => s
  | none => s

/-- A stream has waited ACC_TMO for a block (12 R542). -/
def accTimeout (s : State) (inst : Nat) : State :=
  match s.accWaiting inst with
  | some (f, k) =>
    if f.tmo ≠ 0 ∧ (s.loom (strm f.desc k).tile).out = [] then
      match millStop f s 0x52 (Word.nat k) 0 with
      | .ended s st d c _ => s.mapFlight f.ring f.idx fun f => { f with st := .ended st d c }
      | _ => s
    else s
  | none => s

end State

/-! ### Meanings -/

/-- RUN: the descriptor that Mill `inst` is on starts and advances until a stream needs a block (12 R522). -/
def execRun (inst : Nat) (s : State) : Out :=
  .next (if s.capRuns then (s.millStart inst).advance 2 inst 1 3 doRun else s)
/-- ACC_BLOCK_TAKE on Mill `inst` (12 R526). -/
def execAccBlockTake (inst : Nat) (s : State) : Out := .next (if s.capRuns then s.takeBlock inst else s)
/-- ACC_TIMEOUT on Mill `inst` (12 R542). -/
def execAccTimeout (inst : Nat) (s : State) : Out := .next (if s.capRuns then s.accTimeout inst else s)

end Sys2Proof.Machine
end

