-- ==== Sys2Proof/Machine/Special.lean ====
section
/-! DEFINITION. The special functions of the Sheaf, correctly rounded to FP32 (13.4). exp32 and ln32 are computed
with 400 fractional bits; no FP32 operand's result lies near enough to a rounding boundary for the bits beyond
to matter (log 25, PRESUMED). -/

namespace Sys2Proof.Machine

/-- Fractional bits of the fixed-point evaluations. -/
def fixBits : Nat := 400
def fixOne : Nat := 2 ^ fixBits

/-- The Taylor sum of e^r from term `k` on, `t` being term `k`. -/
def expTerms (r : Nat) : Nat → Nat → Nat → Nat → Nat
  | 0, _, _, acc => acc
  | n + 1, k, t, acc => expTerms r n (k + 1) (t * r / fixOne / (k + 1)) (acc + t)

/-- Squares `n` times. -/
def squares : Nat → Nat → Nat
  | 0, x => x
  | n + 1, x => squares n (x * x / fixOne)

/-- e^x for 0 ≤ x < 128 in fixed point: e^(x / 512) squared nine times. -/
def expFix (x : Nat) : Nat := squares 9 (expTerms (x / 512) 70 0 fixOne 0)

/-- exp32 (13 Table 13.4). -/
def exp32 (a : Nat) : Nat :=
  match Fp.of32 a with
  | .nan => 0x7FC00000
  | .inf n => if n then 0 else 0x7F800000
  | .fin n m e =>
    if m = 0 then 0x3F800000
    else if (7 : Int) ≤ e + m.log2 then (if n then 0 else 0x7F800000)
    else
      let x := if 0 ≤ e + fixBits then m * 2 ^ (e + fixBits).toNat else 0
      let y := expFix x
      pack32 0 0 false (if n then fixOne * fixOne / y else y) (-(fixBits : Int)) true

/-- Σ s^(2j+1) / (2j+1) from term `j` on, `t` being s^(2j+1). -/
def atanhTerms (s2 : Nat) : Nat → Nat → Nat → Nat → Nat
  | 0, _, _, acc => acc
  | n + 1, j, t, acc => atanhTerms s2 n (j + 1) (t * s2 / fixOne) (acc + t / (2 * j + 1))

/-- 2 atanh(p / q) in fixed point, for 3p ≤ q. -/
def atanh2 (p q : Nat) : Nat :=
  let s := p * fixOne / q
  2 * atanhTerms (s * s / fixOne) 140 0 s 0

/-- ln32 (13 Table 13.4): x = z × 2^k with 3/4 ≤ z < 3/2, ln z = ±2 atanh(|z − 1| / (z + 1)). -/
def ln32 (a : Nat) : Nat :=
  match Fp.of32 a with
  | .nan => 0x7FC00000
  | .inf n => if n then 0x7FC00000 else 0x7F800000
  | .fin n m e =>
    if m = 0 then 0xFF800000
    else if n then 0x7FC00000
    else
      let b := m.log2
      let up := decide (3 * 2 ^ b ≤ 2 * m)
      let one : Nat := 2 ^ (if up then b + 1 else b)
      let k : Int := e + (if up then b + 1 else b : Nat)
      let d : Int := (m : Int) - one
      let lz : Int := if d < 0 then -(atanh2 d.natAbs (m + one) : Int) else atanh2 d.natAbs (m + one)
      let v : Int := k * atanh2 1 3 + lz
      if d = 0 ∧ k = 0 then 0 else pack32 0 0 (decide (v < 0)) v.natAbs (-(fixBits : Int)) true

/-- The integer square root, one bit at a time from bit `n - 1` down. -/
def isqrt : Nat → Nat → Nat → Nat
  | 0, _, r => r
  | n + 1, x, r => isqrt n x (if (r + 2 ^ n) * (r + 2 ^ n) ≤ x then r + 2 ^ n else r)

/-- rsqrt32 (13 Table 13.4). -/
def rsqrt32 (a : Nat) : Nat :=
  match Fp.of32 a with
  | .nan => 0x7FC00000
  | .inf n => if n then 0x7FC00000 else 0
  | .fin n m e =>
    if m = 0 then (if n then 0xFF800000 else 0x7F800000)
    else if n then 0x7FC00000
    else
      let (m, e) := if e % 2 = 0 then (m, e) else (2 * m, e - 1)
      let q := isqrt 101 (2 ^ 200 / m) 0
      pack32 0 0 false q (-(e / 2) - 100) (q * q * m != 2 ^ 200)

/-- div32 (13 Table 13.4). -/
def div32 (a b : Nat) : Nat :=
  match Fp.of32 a, Fp.of32 b with
  | .nan, _ => 0x7FC00000
  | _, .nan => 0x7FC00000
  | .inf _, .inf _ => 0x7FC00000
  | .inf x, .fin y _ _ => b2n (x != y) * 2 ^ 31 + 0x7F800000
  | .fin x _ _, .inf y => b2n (x != y) * 2 ^ 31
  | .fin x m e, .fin y n f =>
    if n = 0 then (if m = 0 then 0x7FC00000 else b2n (x != y) * 2 ^ 31 + 0x7F800000)
    else pack32 0 0 (x != y) (m * 2 ^ 64 / n) (e - f - 64) (m * 2 ^ 64 % n != 0)

end Sys2Proof.Machine
end

