-- ==== Sys2Proof/Machine/Sheaf.lean ====
section
/-! DEFINITION. The Sheaf: descriptor checks, the reductions, softmax, log-sum-exp, normalisation, scalar summaries
and cycle counts (13). -/

namespace Sys2Proof.Machine

/-! ### Descriptor (13.2) -/

namespace SheafD

/-- T (13 Table 13.8). -/
def count (x : SheafD) : Nat :=
  let w := if tyC32 x.ty then 16 else 32
  let r := ceilDiv x.elems w
  let q := ceilDiv x.elems 4
  16 + (if x.lenv then ceilDiv x.nres 16 else 0) + 8 + x.pushes + match x.op with
    | 1 => r + ceilDiv x.nres 16
    | 2 => r + 2 * q + x.nres
    | 3 => r + q + x.nres
    | _ => 3 * r + 2 * x.nres

end SheafD

/-- Whether two register runs meet. -/
def regsMeet (a n b m : Nat) : Bool := decide (a < b + m) && decide (b < a + n) && n != 0 && m != 0

/-- The class checks of 13 R563. -/
def sheafClass (r : Ring) (d : List Word) : Option (Nat × Word) :=
  let x := sheafD d
  let inPlace := x.whole && x.dreg == x.reg && tyC32 x.ty == !x.f16
  let bad (k : Nat) : Bool :=
    match k with
    | 1 => manyInsts r
    | 2 => decide (32 < x.reg + x.srcRegs)
    | 3 => decide (32 < x.dreg + x.dstRegs)
    | 4 => decide (32 < x.lreg + x.lenRegs)
    | 5 => (!inPlace && regsMeet x.dreg x.dstRegs x.reg x.srcRegs) || regsMeet x.dreg x.dstRegs x.lreg x.lenRegs
    | 6 => (x.summ == 2 && decide (16 < x.nres)) || (x.summ == 1 && decide (0 < x.nres ∧ x.nres ≤ x.sidx))
    | _ => x.men && decide (8 < x.msk + ceilDiv x.elems 4096)
  ([1, 2, 3, 4, 5, 6, 7].find? bad).map fun k => (0x58, Word.nat k)

/-- The checks and null test of a Sheaf descriptor; it names no range (13 R559–R563). -/
def sheafChecks (r : Ring) (d : List Word) : ClassChecks :=
  let x := sheafD d
  let body : List Check :=
    [(4, 5, if x.op = 1 then decide (x.ty ≤ 4) else decide (x.ty ≤ 1)), unused x.whole d 4 13 1,
     (4, 15, if x.op = 1 then x.fn != 7 else x.fn == 0), unused x.men d 4 18 3, unused x.lenv d 4 21 5,
     (4, 26, x.summ != 3), zero d 4 28 4, zero d 5 13 3, zero d 5 29 3, unused (x.summ == 1) d 6 0 12, zero d 6 12 4,
     unused (x.summ != 0) d 6 16 8, zero d 6 24 8, unused (x.op == 4) d 7 0 32] ++
    zeroWords d [8, 9, 10, 11, 12, 13, 14, 15]
  { opcOk := decide (1 ≤ x.op ∧ x.op ≤ 4), eflags := [zero d 0 14 2], body := body
    limit := [(5, 0, decide (x.rows ≤ 4096)), (5, 16, decide (x.cols ≤ 4096)), (5, 16, decide (x.elems ≤ 8192))]
    align := [], cls := sheafClass r d, null := x.rows == 0 || x.cols == 0, ranges := [] }

/-! ### Results (13.3, 13.5–13.7) -/

/-- One result: the outputs (position, FP32 or S32 bits) in place, its flags, and its summary's VALUE and INDEX. -/
structure SheafRes where
  writes : List (Nat × Nat)
  empty : Bool := false
  nan : Bool := false
  value : Nat := 0
  index : Nat := 0

def nan32 : Nat := 0x7FC00000

/-- The FP32 bits of an operand's value. -/
def bits32 (v : Fp) : Nat := to32 0 0 v

/-- The first element that no later one beats: the position and value of the maximum or minimum (13 R569). -/
def winner (wantMax : Bool) : List (Nat × Fp) → Option (Nat × Fp)
  | [] => none
  | h :: t => some (t.foldl (fun (b : Nat × Fp) x =>
      if b.2.isNan then b
      else if x.2.isNan then x
      else if (if wantMax then decide (0 < Fp.cmp x.2 b.2) else decide (Fp.cmp x.2 b.2 < 0)) then x else b) h)

/-- REDUCE over the active positions (13 R568–R570, Table 13.7). -/
def sheafReduce (fn : Nat) (u : List (Nat × Fp)) : SheafRes :=
  let scalar (v : Nat) (val : Nat) (idx : Nat) (nan : Bool) : SheafRes :=
    ⟨[(0, v)], u.isEmpty, nan, val, idx⟩
  match fn with
  | 0 =>
    let a := u.foldl (fun a x => add32 a (bits32 x.2)) 0
    scalar a a 0 (Fp.of32 a).isNan
  | 6 =>
    let a := u.foldl (fun a x => let b := bits32 x.2; fma32 (Fp.of32 b) (Fp.of32 b) (Fp.of32 a)) 0
    scalar a a 0 (Fp.of32 a).isNan
  | 5 =>
    let n := (u.filter fun x => !x.2.isZero).length
    scalar n n 0 false
  | _ =>
    let wantMax := fn == 1 || fn == 3
    let v := match winner wantMax u with
      | some w => bits32 w.2
      | none => if wantMax then 0xFF800000 else 0x7F800000
    let p := match winner wantMax u with | some w => w.1 | none => 0xFFFF
    let nan := v == nan32
    if fn ≤ 2 then scalar v v 0 nan else scalar p v p nan

/-- The maximum and exponential sum of 13 R571: none where the row counts as empty, or holds +∞ as its maximum. -/
def expSum (u : List (Nat × Nat)) (m : Nat) : List (Nat × Nat) × Nat :=
  let e := u.map fun (t, x) => (t, exp32 (sub32 x m))
  (e, e.foldl (fun s x => add32 s x.2) 0)

/-- SOFTMAX of a result of length `n` (13 R571, Table 13.7). -/
def sheafSoftmax (u : List (Nat × Fp)) (n : Nat) : SheafRes :=
  let all (v : Nat) : List (Nat × Nat) := (List.range n).map fun t => (t, v)
  let x := u.map fun (t, v) => (t, bits32 v)
  if n = 0 then { writes := [], empty := true, index := 0xFFFF }
  else match winner true u with
    | none => { writes := all 0, empty := true, index := 0xFFFF }
    | some (k, v) =>
      let m := bits32 v
      if v.isNan then { writes := all nan32, nan := true, value := nan32, index := k }
      else if m = 0xFF800000 then { writes := all 0, empty := true, index := 0xFFFF }
      else
        let y : List (Nat × Nat) :=
          if m = 0x7F800000 then
            let c := (x.filter fun p => p.2 == 0x7F800000).length
            x.map fun (t, b) => (t, if b = 0x7F800000 then div32 0x3F800000 (bits32 (Fp.ofInt c)) else 0)
          else
            let (e, s) := expSum x m
            e.map fun (t, b) => (t, div32 b s)
        let at_ (t : Nat) : Nat := match y.find? fun p => p.1 == t with | some p => p.2 | none => 0
        { writes := (List.range n).map fun t => (t, at_ t), value := at_ k, index := k }

/-- LSE (13 R572, Table 13.7). -/
def sheafLse (u : List (Nat × Fp)) (n : Nat) : SheafRes :=
  let x := u.map fun (t, v) => (t, bits32 v)
  let none_ : SheafRes := ⟨[(0, 0xFF800000)], true, false, 0xFF800000, 0xFFFF⟩
  if n = 0 then none_
  else match winner true u with
    | none => none_
    | some (k, v) =>
      let m := bits32 v
      if v.isNan then ⟨[(0, nan32)], false, true, nan32, k⟩
      else if m = 0xFF800000 then none_
      else
        let y := if m = 0x7F800000 then m else add32 m (ln32 (expSum x m).2)
        ⟨[(0, y)], false, y == nan32, y, k⟩

/-- NORM (13 R573, Table 13.7). -/
def sheafNorm (u : List (Nat × Fp)) (n eps : Nat) : SheafRes :=
  let all (v : Nat) : List (Nat × Nat) := (List.range n).map fun t => (t, v)
  let finite (v : Fp) : Bool := match v with | .fin _ _ _ => true | _ => false
  let x := u.map fun (t, v) => (t, bits32 v)
  if n = 0 then { writes := [], empty := true }
  else if u.isEmpty then { writes := all 0, empty := true }
  else if u.any fun p => !finite p.2 then { writes := all nan32, nan := true, value := nan32 }
  else
    let c := bits32 (Fp.ofInt u.length)
    let mu := div32 (x.foldl (fun s p => add32 s p.2) 0) c
    let var := div32 (x.foldl (fun v p =>
      let d := Fp.of32 (sub32 p.2 mu); fma32 d d (Fp.of32 v)) 0) c
    let rho := rsqrt32 (add32 var eps)
    let y := x.map fun (t, b) => (t, mul32 (sub32 b mu) rho)
    let at_ (t : Nat) : Nat := match y.find? fun p => p.1 == t with | some p => p.2 | none => 0
    { writes := (List.range n).map fun t => (t, at_ t), nan := y.any fun p => p.2 == nan32, value := rho }

/-! ### Execution -/

/-- What a descriptor waits for, as SH_STALLk: register ports, the summary FIFO. -/
def SheafD.waits (x : SheafD) : List Nat := if x.pushes = 0 then [0] else [0, 1]

/-- Ends a Sheaf descriptor with a fault; its count is T too (13 R579). -/
def sheafStop (f : Flight) (s : State) (status : Nat) (detail : Word) : EngRes :=
  let x := sheafD f.desc
  .ended (s.stalls (SH f.inst) x.waits) status detail x.count 0

/-- The work of a Sheaf descriptor: every write, then its summaries wait to be pushed (13 R564–R575). -/
def doSheaf (f : Flight) (s : State) : EngRes :=
  match f.st with
  | .running p => .stay s p
  | _ =>
    let x := sheafD f.desc
    let s := s.sheafClash f.inst f.desc
    let m := s.mill f.inst
    let lens : List Int :=
      if x.lenv then (m.group true x.lreg x.nres).map (sgn 32) else List.replicate x.nres (x.len : Int)
    match lens.zipIdx.find? fun (n, _) => decide (n < 0 ∨ (x.len : Int) < n) with
    | some (_, i) => sheafStop f s 0x59 (Word.nat i)
    | none =>
      let src := m.group (tyC32 x.ty) x.reg x.elems
      let mask := if x.men then m.mask x.msk x.elems else []
      let val (v : Nat) : Fp := match x.ty with
        | 0 => Fp.of32 v
        | 1 => Fp.of16 v
        | t => Fp.ofInt ((tyFmt t).toInt v)
      let res (i n : Nat) : SheafRes :=
        let u := (List.range n).filterMap fun t =>
          let k := x.index i t
          if !x.men || mask.getD k false then some (t, val (src.getD k 0)) else none
        match x.op with
        | 1 => sheafReduce x.fn u
        | 2 => sheafSoftmax u n
        | 3 => sheafLse u n
        | _ => sheafNorm u n x.eps
      let rs := lens.zipIdx.map fun (n, i) => res i n.toNat
      let out (v : Nat) : Nat := if x.f16 then to16 0 0 false (Fp.of32 v) else v
      let cells : List (Option Nat) :=
        if x.whole then
          let ws : List (Nat × Nat) := rs.zipIdx.flatMap fun (r, i) => r.writes.map fun (t, v) => (x.index i t, out v)
          (List.range x.elems).map fun k => (ws.find? fun p => p.1 == k).map (·.2)
        else rs.map fun r => some ((r.writes.getD 0 (0, 0)).2)
      let s := (s.setMill f.inst (m.setGroup (!x.whole || !x.f16) x.dreg cells)).sheafClash f.inst f.desc
      let sel := match x.summ with
        | 0 => []
        | 1 => [x.sidx]
        | _ => List.range x.nres
      let todo := sel.zipIdx.filterMap fun (i, k) => rs[i]?.map fun r =>
        (i, Word.nat r.value, Word.nat (r.index % 65536 + x.tag * 65536 + b2n r.empty * 2 ^ 24 + b2n r.nan * 2 ^ 25 +
          b2n (k + 1 == sel.length) * 2 ^ 26))
      let detail := Word.nat (min (rs.filter (·.empty)).length 0xFFFF + min (rs.filter (·.nan)).length 0x7FFF * 65536)
      if todo.isEmpty then .ended (s.stalls (SH f.inst) x.waits) 0 detail x.count 0 else .stay s (.sheaf detail todo)

namespace State

/-- The next summary entry of a Sheaf enters its FIFO when there is room; the last ends the descriptor
(13 R574, R576). -/
def summaryPush (s : State) (inst : Nat) : State :=
  match s.current 3 inst with
  | some f =>
    match f.st with
    | .running (.sheaf detail ((_, v, w) :: rest)) =>
      if 16 ≤ (s.fifo inst).length then s
      else
        let s := s.setFifo inst (s.fifo inst ++ [(v, w)])
        if rest.isEmpty then
          (s.stalls (SH inst) [0, 1]).mapFlight f.ring f.idx fun f =>
            { f with st := .ended 0 detail (sheafD f.desc).count }
        else s.mapFlight f.ring f.idx fun f => { f with st := .running (.sheaf detail rest) }
    | _ => s
  | none => s

/-- A push has waited SUM_TMO on a full FIFO (13 R576). -/
def summaryTimeout (s : State) (inst : Nat) : State :=
  match s.current 3 inst with
  | some f =>
    match f.st with
    | .running (.sheaf _ ((i, _, _) :: _)) =>
      if f.tmo ≠ 0 ∧ 16 ≤ (s.fifo inst).length then
        (s.stalls (SH inst) [0, 1]).endFlight f.ring f.idx 0x5A (Word.nat i) (sheafD f.desc).count
      else s
    | _ => s
  | none => s

/-- A Sheaf descriptor starts: the push timeout in force applies (13 R576); it then runs. -/
def sheaf (s : State) (inst opc : Nat) : State :=
  if !s.capRuns then s
  else
    let s := match s.current 3 inst with
      | some f => if f.st = FlightSt.queued then s.mapFlight f.ring f.idx fun f => { f with tmo := s.rf (SH inst + 4) 0 16 } else s
      | none => s
    s.advance 3 inst opc 0 doSheaf

end State

/-! ### Meanings -/

/-- REDUCE on Sheaf `inst` (13 R568). -/
def execReduce (inst : Nat) (s : State) : Out := .next (s.sheaf inst 1)
/-- SOFTMAX (13 R571). -/
def execSoftmax (inst : Nat) (s : State) : Out := .next (s.sheaf inst 2)
/-- LSE (13 R572). -/
def execLse (inst : Nat) (s : State) : Out := .next (s.sheaf inst 3)
/-- NORM (13 R573). -/
def execNorm (inst : Nat) (s : State) : Out := .next (s.sheaf inst 4)
/-- SUMMARY_PUSH on Sheaf `inst` (13 R576). -/
def execSummaryPush (inst : Nat) (s : State) : Out := .next (if s.capRuns then s.summaryPush inst else s)
/-- SUMMARY_TIMEOUT on Sheaf `inst` (13 R576). -/
def execSummaryTimeout (inst : Nat) (s : State) : Out := .next (if s.capRuns then s.summaryTimeout inst else s)
/-- SUMMARY_FLUSH: a write of SH_CTRL.FLUSH (13 R577). -/
def execSummaryFlush (inst : Nat) (s : State) : Out := .next (if inst < 2 then s.setFifo inst [] else s)

end Sys2Proof.Machine
end

