-- ==== Sys2Proof/Machine/Trim.lean ====
section
/-! DEFINITION. VTRIM, replay and FTRIM, and the trim group's commits (04.4–04.6). -/

namespace Sys2Proof.Machine

namespace State

def island (s : State) (i : Nat) : Island := Store.get {} s.trim.islands i
def setIsland (s : State) (i : Nat) (x : Island) : State :=
  { s with trim := { s.trim with islands := Store.set {} s.trim.islands i x } }

/-- The island an engine instance lies on (04 Table 4.5). -/
def islandOf (cls inst : Nat) : Nat :=
  if cls = 0 then inst else if cls = 1 then 4 + inst else if cls = 4 then 8 else 6 + inst

/-- A descriptor is in flight, or runs, on an island. -/
def islandBusy (s : State) (i : Nat) : Bool := s.cap.flights.any fun f => islandOf f.cls f.inst == i
def islandRuns (s : State) (i : Nat) : Bool :=
  s.cap.flights.any fun f => islandOf f.cls f.inst == i && (match f.st with | .running _ => true | _ => false)
/-- A descriptor is in flight on a KC engine. -/
def kcBusy (s : State) : Bool := s.cap.flights.any fun f => f.cls != 4

def vtEn (s : State) : Bool := s.fbit TR_CTRL 0
def ftEn (s : State) : Bool := s.fbit TR_CTRL 1
def minCode (s : State) : Nat := s.ff TR_VT_CFG 8 6
/-- The effective ceiling and floor (04 R184, R190). -/
def ftCeil (s : State) : Nat := s.ff TR_FT_CFG 0 3
def ftFloor (s : State) : Nat := if s.ftEn then max (s.ff TR_FT_CFG 4 3) s.ftCeil else s.ftCeil

def islCode (s : State) (i : Nat) : Nat := s.rf (TR_ISL i) 0 6
def setCode (s : State) (i c : Nat) : State := s.setRf (TR_ISL i) 0 6 c
/-- The loops run outside MUSTER and BECALMED while the compute die is clocked (04 R184, R205). -/
def trimRuns (s : State) : Bool := s.capRuns

/-- FTRIM must step slower, or a commit excludes the step (04 R176, R191): admission to KC engines stops (R181). -/
def slowDue (s : State) : Bool := s.trim.slow || decide (s.trim.step < s.ftCeil)

/-- A step faster is due: the step is below the effective floor, or R180 permits it. -/
def fastDue (s : State) : Bool :=
  !s.slowDue && (decide (s.ftFloor < s.trim.step) ||
    (s.ftEn && decide (s.ftCeil < s.trim.step) &&
      (List.range 8).all fun i => decide ((s.island i).low ≥ 1024) && decide ((s.island i).since ≥ 16384)))

/-- Raises a step-up request (04 R173). -/
def upReq (s : State) (i : Nat) : State :=
  if s.vtEn && decide (s.islCode i < 40) then (s.setRf (TR_ISL i) 8 1 1).setRf (TR_ISL i) 9 1 0 else s

/-- An evaluation of an island's replicas (04 R172, R173, R176). The count of evaluations with margin runs only while a step
down could be requested: VTRIM acts, the code is above MIN_CODE and neither request waits (log 56). Once BECALMED, a failed
evaluation may still be one of the recorded fault's KF cycle (16 R696). -/
def vtrimEval (s : State) (i : Nat) (pass margin : Bool) : State :=
  if !s.trimRuns || decide (10 ≤ i) then
    (if s.dev.tie.isSome && !pass && decide (i < 10) then s.becalm 0x29 false (Word.nat i) else s)
  else
    let s := s.setRf (TR_ISL i) 10 2 (if !pass then 3 else if margin then 1 else 2)
    if 8 ≤ i then (if pass then s else s.becalm 0x29 false (Word.nat i))
    else
      let x := s.island i
      let code := s.islCode i
      let x := { x with
        low := if code ≤ 30 then min (x.low + 1) 1024 else 0, since := min (x.since + 1) 16384 }
      if pass && margin then
        if s.vtEn && decide (s.minCode < code) && !s.rbit (TR_ISL i) 8 && !s.rbit (TR_ISL i) 9 then
          if 31 ≤ x.streak then (s.setIsland i { x with streak := 0 }).setRf (TR_ISL i) 9 1 1
          else s.setIsland i { x with streak := x.streak + 1 }
        else s.setIsland i { x with streak := 0 }
      else
        let s := s.setIsland i { x with streak := 0 }
        if pass then s
        else if code < 40 then s.upReq i
        else if s.ftEn && decide (s.trim.step < s.ftFloor) then { s with trim := { s.trim with slow := true } }
        else s.becalm 0x29 false (Word.nat i)

/-- A step-down while no descriptor is in flight on the island (04 R174). -/
def vtrimDown (s : State) (i : Nat) : State :=
  if s.trimRuns && decide (i < 8) && s.rbit (TR_ISL i) 9 && !s.islandBusy i then
    (s.setCode i (max s.minCode (s.islCode i - 1))).setRf (TR_ISL i) 9 1 0
  else s

/-- A step-up at the island's next descriptor boundary: while no descriptor runs on it (04 R174). -/
def vtrimUp (s : State) (i : Nat) : State :=
  if s.trimRuns && decide (i < 8) && s.rbit (TR_ISL i) 8 && !s.islandRuns i then
    let c := min 40 (s.islCode i + 1)
    (s.setCode i c).setRf (TR_ISL i) 8 1 (b2n (decide (c < s.minCode)))
  else s

/-- A replay's 3 KC cycles in a descriptor's count: they are added at its end, or to the count it has ended with. -/
def countReplay (f : Flight) : Flight :=
  { f with replays := f.replays + 1, st := match f.st with
    | .running (.remoteWrite st d c) => .running (.remoteWrite st d (c + 3))
    | .ended st d c => .ended st d (c + 3)
    | st => st }

/-- A late capture on an engine with shadow latches: in the descriptor that runs, or, where none does, in the last cycles of the
one whose end is the engine's latest (04 R177, R179; log 58). -/
def replay (s : State) (i : Nat) : State :=
  let cls := if i < 4 then 0 else 2
  let inst := if i < 4 then i else i - 6
  let here (f : Flight) : Bool := f.cls == cls && f.inst == inst && !f.null
  let runs (f : Flight) : Bool := here f && (match f.st with | .running _ => true | _ => false)
  let ended (f : Flight) : Bool := here f && (match f.st with | .ended _ _ _ => true | _ => false)
  if s.trimRuns && (decide (i < 4) || i == 6 || i == 7) then
    match (s.cap.flights.find? runs).or (s.cap.flights.filter ended).getLast? with
    | some f =>
      let s := ((s.bump (TR_REPLAY i) 0 32).bump FT_CE_REPLAY 0 32).setDkf DK_TRIM_STAT 4 1 1
      (s.mapFlight f.ring f.idx countReplay).upReq i
    | none => s
  else s

/-- A trim commit applies once no descriptor is in flight on a KC engine (04 R187, R190, R191, R204). -/
def trApply (s : State) : State :=
  if s.rbit TR_STAT 4 && !s.kcBusy then
    let s := (s.commit [TR_CTRL, TR_FT_CFG, TR_VT_CFG]).setRf TR_STAT 4 1 0
    let s := if s.ff TR_FT_CFG 4 3 < s.ftCeil then s.setRf TR_STAT 6 1 1 else s
    let s := { s with trim := { s.trim with slow := s.trim.slow && s.ftEn && decide (s.trim.step < s.ftFloor) } }
    if s.vtEn then
      (List.range 8).foldl (fun s i => if s.islCode i < s.minCode then s.upReq i else s) s
    else s.codes40
  else s

/-- FTRIM steps slower; a commit that is due at the same boundary applies first (04 R181, R191). -/
def ftrimSlower (s : State) : State :=
  let s := if s.trimRuns then s.trApply else s
  if s.trimRuns && s.slowDue && !s.kcBusy && decide (s.trim.step < 4) then
    let s := (List.range 8).foldl (fun s i => s.setIsland i { s.island i with since := 0 }) s
    ({ s with trim := { s.trim with step := s.trim.step + 1, slow := false } }.codes40).bump TR_STEPS 0 16
  else s

/-- FTRIM steps faster; a commit that is due at the same boundary applies first (04 R182, R191). -/
def ftrimFaster (s : State) : State :=
  let s := if s.trimRuns then s.trApply else s
  if s.trimRuns && s.fastDue && !s.kcBusy && decide (0 < s.trim.step) then
    ({ s with trim := { s.trim with step := s.trim.step - 1 } }.codes40).bump TR_STEPS 16 16
  else s

/-- A write of TR_CTRL (04 R187). -/
def writeTrCtrl (s : State) (v : Word) : State :=
  let s := s.setReg TR_CTRL (storeFields (trFields 0) (s.reg TR_CTRL) v)
  if bit v 31 then s.setRf TR_STAT 4 1 1 else s

/-- A trim commit pending past its limit (04 R189; 15 R658). -/
def trStale (s : State) : State :=
  if s.rbit TR_STAT 4 then
    let s := (s.setRf TR_STAT 5 1 1).raise irqSTALE
    { s with bosun := { s.bosun with latStale := true } }
  else s

/-- TR_STAT and CK_STAT as read (04.6); a source that has failed stays without lock, whichever failed last (04 R164). -/
def trStat (s : State) : Word := Word.nat ((s.reg TR_STAT).toNat + s.trim.step + 8 * b2n (s.slowDue || s.fastDue))
def ckStat (s : State) : Word :=
  let u := s.rf CK_STAT 16 4
  let lost (k : Nat) : Bool := s.dev.lost.contains k
  Word.nat (b2n (!s.dev.backup) + 2 * b2n (!lost 2) + 4 * b2n (!lost 3 && !s.audio.relock) + 8 * b2n (!lost 4) +
    16 * b2n s.dev.backup + 256 * s.trim.step + 4096 * s.ff CK_KA_CFG 0 1 + 65536 * u)

/-- DK_TRIM_STAT as it stands (05.4; 04 R192); REEFED holds the value it had on entry (05 R243). -/
def dkTrim (s : State) : Half :=
  if s.dev.mode = .reefed then s.dk DK_TRIM_STAT else
  BitVec.ofNat 16 (s.trim.step + 8 * b2n ((List.range 8).any fun i => s.islCode i == 40) +
    16 * s.dkf DK_TRIM_STAT 4 1 + 32 * s.rf TR_STAT 4 1 + 64 * s.rf TR_STAT 5 1)

end State

/-! ### Meanings -/

/-- VTRIM_EVAL (04 R172, R173, R176). -/
def execVtrimEval (island : Nat) (pass margin : Bool) (s : State) : Out := .next (s.vtrimEval island pass margin)
/-- VTRIM_STEP_DOWN (04 R174). -/
def execVtrimStepDown (island : Nat) (s : State) : Out := .next (s.vtrimDown island)
/-- VTRIM_STEP_UP (04 R174). -/
def execVtrimStepUp (island : Nat) (s : State) : Out := .next (s.vtrimUp island)
/-- REPLAY (04 R177, R179). -/
def execReplay (island : Nat) (s : State) : Out := .next (s.replay island)
/-- FTRIM_STEP_SLOWER (04 R181). -/
def execFtrimStepSlower (s : State) : Out := .next s.ftrimSlower
/-- FTRIM_STEP_FASTER (04 R182). -/
def execFtrimStepFaster (s : State) : Out := .next s.ftrimFaster
/-- TR_COMMIT: a write of TR_CTRL with COMMIT (04 R187). -/
def execTrCommit (v : Word) (s : State) : Out := .next (if bit v 31 then s.writeTrCtrl v else s)
/-- TR_COMMIT_APPLY (04 R187). -/
def execTrCommitApply (s : State) : Out := .next s.trApply
/-- TR_COMMIT_STALE (04 R189). -/
def execTrCommitStale (s : State) : Out := .next s.trStale

end Sys2Proof.Machine
end

