-- ==== Sys2Proof/Machine/Admission.lean ====
section
/-! DEFINITION. Admission: arbitration, the checks of an entry, and what admission changes (07.4, 08.2). -/

namespace Sys2Proof.Machine

namespace State

/-- Window slots of an instance that are held (07 R306). -/
def windowUsed (s : State) (cls inst : Nat) : Nat :=
  (s.cap.flights.filter fun f => f.cls == cls && f.inst == inst &&
    (match f.st with | .finished _ _ _ => false | _ => true)).length

/-- The lowest instance of a ring's MASK with a free slot; none on a KC engine while FTRIM stops admission (04 R181). -/
def freeInst (s : State) (r : Ring) : Option Nat :=
  if r.cls ≠ 4 ∧ s.slowDue then none
  else (List.range 4).find? fun i => r.mask.testBit i && decide (s.windowUsed r.cls i < classWindow r.cls)

/-- Stages 1 to 4 of 07 R304. -/
def eligible (s : State) (r : Ring) : Bool :=
  decide (r.st = .enabled) && r.head != r.tail && r.admFault.isNone && s.epochOk r r.head && r.waitOk &&
    decide (s.cap.flights.length < 256) && (s.freeInst r).isSome

/-- The ring that wins arbitration among those whose heads are not held (07 R305; 06 R261). -/
def winner (s : State) (held : List Nat) : Option (Nat × Ring) :=
  let es := s.cap.rings.filter fun e => s.eligible e.2 && !held.contains e.1
  match es with
  | [] => none
  | e :: t =>
    let p := t.foldl (fun p x => min p x.2.prio) e.2.prio
    let same := es.filter fun x => x.2.prio == p
    let last := Store.get 0 s.cap.lastAdm p
    match same.find? fun x => decide (last ≤ x.1) with
    | some x => some x
    | none => same.head?

/-- The checks of a descriptor under the body layout of its ring's class (08 R347). -/
def classChecks (s : State) (n : Nat) (r : Ring) (d : List Word) : ClassChecks :=
  match r.cls with
  | 0 => loomChecks s r d
  | 1 => harrowChecks s r d
  | 2 => millChecks d
  | 3 => sheafChecks r d
  | _ => halyardChecks s n r d

/-- The head of ring `n` faults at admission (07 R323). -/
def admissionFault (s : State) (n status : Nat) (detail : Word) (addr : Nat) : State :=
  let r := s.ring n
  s.setRing n { r with admFault := some ⟨r.head, status, detail, addr⟩ }

/-- What admission changes outside the ring: chain and stripe state, Dice bindings, stream bindings
(08 R367, 09 R413, 10 R446, 11 R491); the rows kept for the descriptor, and its STREAM_SHARED mark. -/
def admitEffects (s : State) (n cls inst epoch : Nat) (d : List Word) : State × Nat × Bool :=
  match cls with
  | 0 => (s.loomAdmit inst d, 0, false)
  | 1 =>
    let kept := match (s.harrow inst).stripe with | some t => t.keepr | none => 0
    (s.harrowAdmit inst d, if (harrowD d).sin then kept else 0, false)
  | 2 =>
    if bit (wordAt d 0) 12 then
      let k := epoch % 2 * 256 + df d 6 24 8
      ({ s with cap := { s.cap with dice := NSet.insert s.cap.dice k } }, 0, s.cap.dice.contains k)
    else (s, 0, false)
  | 4 =>
    if opcOf d = 5 ∨ opcOf d = 6 then
      let sid := df d 6 0 4
      let gaps := if Store.get 0 s.cap.binds sid = n + 1 then s.cap.gaps else NSet.erase s.cap.gaps sid
      ({ s with cap := { s.cap with binds := Store.set 0 s.cap.binds sid (n + 1), gaps := gaps } }, 0, false)
    else (s, 0, false)
  | _ => (s, 0, false)

/-- Admits the head of ring `n` to an instance (07 R304 stage 7). -/
def admitHead (s : State) (n inst : Nat) (d : List Word) (null : Bool) (charged : List Nat) (rs : List Range) : State :=
  let r := s.ring n
  let epoch := s.epochOf r r.head
  let held := if r.cls = 0 then (s.loom inst).keeps else (s.harrow inst).keeps
  let (s, kept, shared) := if null then (s, 0, false) else s.admitEffects n r.cls inst epoch d
  let s := s.charge charged
  let f : Flight := {
    ring := n, idx := r.head, epoch := epoch, cls := r.cls, inst := inst, desc := d, charged := charged, null := null
    writes := if null then [] else (rs.filter fun g => g.writes && decide (g.lo ≤ g.hi)).map fun g =>
      (g.lo.toNat, (g.hi - g.lo + 1).toNat)
    shared := shared, kept := kept
    own := if r.cls = 0 then (s.loom inst).keeps else (s.harrow inst).keeps
    cont := held }
  let s := { s with cap := { s.cap with
    flights := s.cap.flights ++ [f], lastAdm := Store.set 0 s.cap.lastAdm r.prio (n + 1) } }
  ((s.setRing n { r with head := r.succ r.head, reached := false, waitOk := false }).latchWaits).updateWork

/-- Stages 6 and 7 for the head of ring `n`: whether a pending commit holds it (06 R261). -/
def judge (s : State) (n : Nat) (r : Ring) : State × Bool :=
  let a := r.entry r.head
  let (s, ue) := s.eccRead srcCapstan a 64
  match ue with
  | some w => (s.admissionFault n 0x30 (Word.nat 0xF) w, false)
  | none =>
    let d := bytesWords 16 (s.peek a 64)
    let c := s.classChecks n r d
    match fieldChecks r.cls d c with
    | some (st, x) => (s.admissionFault n st x 0, false)
    | none =>
      match s.freeInst r with
      | none => (s, false)
      | some i =>
        if c.null then (s.admitHead n i d true [] [], false)
        else if s.pendingHold c.ranges then (s, true)
        else match s.regionCheck r.cls c.ranges 0 [] with
          | .error k => (s.admissionFault n 0x14 (Word.nat k) 0, false)
          | .ok es => (s.admitHead n i d false es c.ranges, false)

/-- The winner is judged; where it is held, the others arbitrate without it. -/
def arbitrate : Nat → List Nat → State → State
  | 0, _, s => s
  | k + 1, held, s =>
    match s.winner held with
    | some (n, r) =>
      match s.judge n r with
      | (s, true) => arbitrate k (n :: held) s
      | (s, false) => s
    | none => s

/-- One arbitration (07 R304, R305). -/
def admission (s : State) : State :=
  if !s.capRuns || s.dkbit DK_CTRL 1 then s
  else
    let s := s.latchWaits
    arbitrate s.cap.rings.length [] s

/-- The head of ring `n` has waited TMO at stage 3 (07 R314). -/
def bellTimeout (s : State) (n : Nat) : State :=
  if !s.capRuns || s.dkbit DK_CTRL 1 then s
  else
    let s := s.latchWaits
    let r := s.ring n
    if r.st = .enabled ∧ r.reached ∧ r.waitOk = false ∧ r.tmo ≠ 0 ∧ r.admFault = none then
      s.admissionFault n 0x15 (Word.nat (fld (s.peekWord (r.entry r.head)) 24 8)) 0
    else s

end State

/-! ### Meanings -/

/-- ADMISSION: one arbitration of the Capstan (07 R304). -/
def execAdmission (s : State) : Out := .next s.admission
/-- BELL_TIMEOUT on a ring (07 R314). -/
def execBellTimeout (ring : Nat) (s : State) : Out := .next (s.bellTimeout ring)

end Sys2Proof.Machine
end

