-- ==== Sys2Proof/Machine/Window.lean ====
section
/-! DEFINITION. How an access of the Deck window ends (05 R222, R224). -/

namespace Sys2Proof.Machine

/-! ERR of DK_WIN_CTRL. -/
def winHOLE : Nat := 1
def winLOCKED : Nat := 2
def winUNAVAIL : Nat := 3
def winTIMEOUT : Nat := 4
def winBUSY : Nat := 5
def winECC : Nat := 6
def winREADONLY : Nat := 7
def winREMOTE : Nat := 8

namespace State

/-- The window address. -/
def winAddr (s : State) : Nat := (s.dk DK_WIN_ADDR_LO).toNat + (s.dk DK_WIN_ADDR_HI).toNat * 65536

/-- The address advances by 4 where INC is 1 (05 R224). -/
def winInc (s : State) : State :=
  if s.dkbit DK_WIN_CTRL 0 then
    let a := s.winAddr + 4
    (s.setDk DK_WIN_ADDR_LO (BitVec.ofNat 16 a)).setDk DK_WIN_ADDR_HI (BitVec.ofNat 16 (a / 65536))
  else s

/-- A window error is set (05 Table 5.5). -/
def winError (s : State) (e : Nat) : State := (s.setDkf DK_WIN_CTRL 8 4 e).raise irqWIN

/-- An access ends refused or with an error: a read returns 0 in both halves (05 R222, R224). -/
def winRefuse (s : State) (write : Bool) (e : Nat) : State :=
  (if write then s else s.winReturn 0).winError e

/-- An access to the peer whose operation is answered ends (05 R224; 20 R825). -/
def winSettle (s : State) : State :=
  match s.deck.win with
  | none => s
  | some w =>
    if !w.remote then s
    else match s.runOutcome .window with
      | none => s
      | some (reason, l) =>
        let s := s.dropOps .window
        let s := { s with deck := { s.deck with win := none } }
        if w.late then
          let s := s.setDkf DK_WIN_CTRL 4 1 0
          if reason = 0 then s else s.winError winREMOTE
        else if reason = 0 then (if w.write.isSome then s else s.winReturn (leWord l)).winInc
        else s.winRefuse w.write.isSome winREMOTE

end State

end Sys2Proof.Machine
end

