-- ==== Sys2Proof/Machine/SweadeLink.lean ====
section
/-! DEFINITION. The Sweade port's link: its states, sessions and pairing, and what follows when it leaves LINKED
(20.1, 20.3, 20.5). -/

namespace Sys2Proof.Machine

namespace State

/-! ### The port (20 R807) -/

def swRole (s : State) : Nat := s.dev.straps.role.toNat

/-- The port is OFF: R807, or VDD_PHY is absent (02 R107). -/
def portOff (s : State) : Bool :=
  !s.part.iob || !s.dev.straps.phy || s.swRole == 0 || !s.rbit SW_CTRL 0 || !s.dieUp

/-- DK_ID (05.4). -/
def dkId (s : State) : Nat := 0x1010 + s.part.code

/-- Words 2 to 7 of the port's own CONFIG (20 R819). -/
def ownConfig (s : State) : List Word :=
  let img := s.dev.image
  [Word.nat (s.dkId + (s.dk 0x08).toNat * 65536),
   Word.nat (s.part.stackCount + b2n img.isSome * 8 + s.sw.session % 256 * 256),
   s.part.serial,
   match img with | some i => i.key | none => 0,
   Word.nat s.sw.rxSeq,
   match img with | some i => i.peer | none => 0]

/-- The condition of 20 R820 that fails first, from two CONFIGs; 0 while all hold. -/
def pairWhy (own peer : List Word) : Nat :=
  let bound (c : List Word) : Bool := bit (wordAt c 1) 3
  let granary (c : List Word) : Nat := fld (wordAt c 1) 0 3 * 16777216
  let hi (c : List Word) : Nat := fld (wordAt c 0) 16 8
  let lo (c : List Word) : Nat := fld (wordAt c 0) 24 8
  if !(bound own && bound peer) then 1
  else if wordAt own 3 ≠ wordAt peer 3 ∨ wordAt own 3 = 0 then 2
  else if (wordAt own 5).toNat > granary peer ∨ (wordAt peer 5).toNat > granary own then 3
  else if lo own > hi peer ∨ lo peer > hi own then 4
  else 0

/-! ### Leaving LINKED and PAIRED -/

/-- An outstanding window write holds the next host operation (05 R227). -/
def winHolds (s : State) : Bool := match s.deck.win with | some w => w.write.isSome && w.ahead == 0 | none => false

/-- The oldest host operation leaves the queue. -/
def popHost (s : State) : State :=
  { s with deck := { s.deck with doors := s.deck.doors.drop 1, win := s.deck.win.map fun w => { w with ahead := w.ahead - 1 } } }

/-- A host Bell operation reaches the Capstan (05 R229; 15 R658). -/
def hostBell (s : State) (n : Nat) (set : Bool) (v : Word) : State :=
  let s := s.bellOp n set v
  { s with bosun := { s.bosun with latDeck := s.bosun.latDeck || s.capRuns } }

/-- The TACK or RESUME that runs reaches the Capstan (05 Table 5.2; 07 R317, R326, R328; 15 R658; log 14). -/
def hostCmd (s : State) : State :=
  match s.dev.command with
  | none => s
  | some c =>
    if c.op = 4 then
      let (s, ok) := s.tack
      let s := if ok then { s with bosun := { s.bosun with latDeck := true } } else s
      s.finishCmd 4 (if ok then 0 else 2)
    else if c.op = 5 then
      let n := c.arg.toNat
      let s := s.ringEnd
      let s := if c.skip then opStat (s.ringSkip n) 4 n else opStat (s.ringRetry n) 3 n
      { s with bosun := { s.bosun with latDeck := true } }.finishCmd 5 (if s.rf CAP_OPSTAT 4 3 = 0 then 0 else 5)
    else s

/-- Host Bell operations, and a TACK or RESUME, that wait for nothing any more reach the Capstan (05 R227; 07 R302). -/
def drainHost (s : State) : State :=
  s.deck.doors.foldl (fun s _ =>
    match s.deck.doors with
    | .bell n set v :: _ => if s.winHolds then s else s.popHost.hostBell n set v
    | .cmd :: _ => if s.winHolds then s else s.popHost.hostCmd
    | _ => s) s

/-- The operations of each owner that are all answered take effect. -/
def settleAll (s : State) : State :=
  let s := s.cap.flights.foldl (fun s f => s.settleFlight f.ring f.idx) s
  let s := { s with sw := { s.sw with ops := s.sw.ops.filter fun o => !(decide (o.owner = RemOwner.reader) && o.answer.isSome) } }
  let s := match s.runOutcome .dap with
    | some (0, l) => if l.isEmpty then s else { s with dev := { s.dev with dap := leWord l } }
    | _ => s
  let s := if (s.runOutcome .dap).isSome then s.dropOps .dap else s
  s.winSettle.drainHost

/-- A received message goes to its descriptor, with its trailer (20 R831). -/
def deliverMsg (s : State) (m : Inbound) (trunc incomplete : Bool) : State :=
  match m.dest with
  | none => s
  | some (ring, idx, gap) =>
    let n := m.bytes.length
    let unit := m.bytes ++ List.replicate ((32 - n % 32) % 32) (0 : Byte) ++
      wordsBytes [Word.nat (m.sid + b2n trunc * 256 + b2n incomplete * 512), Word.nat m.msgno, Word.nat n, m.time, 0, 0, 0, 0]
    match (s.cap.flights.find? fun f => f.ring == ring && f.idx == idx && flightSid f == 8 &&
        (match f.st with | .running (.streamRecv _ _) => true | _ => false)) with
    | some f => s.fillUnit f gap unit
    | none => s

/-- The port leaves PAIRED: messages in progress end, stream 8 stops (20 R832). -/
def unpaired (s : State) : State :=
  let ms := s.sw.inbox
  let s := { s with sw := { s.sw with inbox := [] } }
  (ms.foldl (fun s m => s.deliverMsg m false true) s).stopStream 8

/-- PAIRED follows the latest CONFIGs (20 R820). A port that stays LINKED refuses the operations it has not sent, drops the
Bell operations that wait, and sends no more segments (R822, R828, R843). -/
def updatePair (s : State) : State :=
  let p := s.sw.linked && !s.sw.peer.isEmpty && !s.sw.own.isEmpty && pairWhy s.sw.own s.sw.peer == 0
  let was := s.sw.paired
  let s := { s with sw := { s.sw with paired := p } }
  if was && !p then
    let s := s.bumpBy SW_CNT1 24 8 s.sw.bellQ.length
    { s with sw := { s.sw with
      bellQ := [], msgQ := []
      ops := s.sw.ops.map fun (o : RemOp) => if o.sent then o else { o with answer := some (o.answer.getD (2, [])) } } }.unpaired.settleAll
  else s

/-- The port leaves LINKED (20 R814, R836). -/
def leaveLinked (s : State) : State :=
  let was := s.sw.paired
  let s := s.linkDown
  let s := if was then s.unpaired else s
  s.settleAll

/-- The port goes OFF: its lanes enter electrical idle (20 R807). -/
def portStop (s : State) : State := { s.leaveLinked with sw := { s.leaveLinked.sw with st := .detect, tx := none } }

/-- The port leaves OFF for DETECT: TXDE takes effect (20 R809). -/
def portStart (s : State) : State := { s with sw := { s.sw with st := .detect, txde := s.rf SW_LTRIM 6 2 } }

/-- Entry to DETECT: TXDE takes effect (20 R809); from ACTIVE it is counted, and a port with no HOLD leaves LINKED
(20 R813, R814). -/
def enterDetect (s : State) : State :=
  let was := s.sw.st
  let s := { s with sw := { s.sw with st := .detect, txde := s.rf SW_LTRIM 6 2 } }
  if was = .active then
    let s := s.bump SW_CNT1 0 8
    if s.rf SW_CFG 0 8 = 0 then s.leaveLinked else s
  else s

/-- SW_CTRL.RETRAIN (20 R813). -/
def swRetrain (s : State) : State := if !s.portOff && decide (s.sw.st = .active) then s.enterDetect else s

/-- SW_CTRL.DROP: the port leaves LINKED and trains again (20 R814). -/
def swDrop (s : State) : State :=
  if s.sw.linked then
    let s := s.leaveLinked
    { s with sw := { s.sw with st := .detect, txde := s.rf SW_LTRIM 6 2 } }
  else s

/-- A write of SW_CTRL. -/
def writeSwCtrl (s : State) (v : Word) : State :=
  let off := s.portOff
  let s := if s.swRole = 0 then s else s.setReg SW_CTRL (storeFields (swFields 0) (s.reg SW_CTRL) v)
  let s := if s.portOff then s.portStop else if off then s.portStart else s
  let s := if bit v 1 then s.swRetrain else s
  if bit v 2 then s.swDrop else s

/-- A write of SW_RBELL (20 R827). -/
def writeRbell (s : State) (v : Word) : State :=
  let s := s.setReg SW_RBELL (storeFields (swFields 0x84) (s.reg SW_RBELL) v)
  let op := fld v 8 2
  if bit v 31 ∧ (op = 1 ∨ op = 2) then s.sendBell (fld v 0 8) (op = 2) (s.reg SW_RBELL_VAL) else s

/-! ### SW_STAT and the peer registers (20.10) -/

def LinkSt.code : LinkSt → Nat
  | .detect => 1 | .equalise => 2 | .align => 3 | .config => 4 | .active => 5

/-- SW_STAT as read. -/
def swStat (s : State) : Word :=
  let sw := s.sw
  let st := if s.portOff then 0 else LinkSt.code sw.st
  let why := if sw.linked ∧ sw.paired = false then
    (if sw.own.isEmpty ∨ sw.peer.isEmpty then 1 else pairWhy sw.own sw.peer) else 0
  Word.nat (st + b2n sw.linked * 8 + b2n sw.paired * 16 + b2n sw.roleB * 32 + b2n sw.lswap * 64 + sw.pol % 4 * 128 +
    why * 512 + b2n (s.rbit SW_STAT 12) * 4096)

/-- A Sweade register that is computed; none where it is held. -/
def swComputed (s : State) (o : Nat) : Option Word :=
  if o = 0 then (if s.swRole = 0 then some 0 else none)
  else if o = 4 then some s.swStat
  else if o = 0x0C then some s.part.serial
  else if o = 0x10 then some (wordAt s.sw.peer 0)
  else if o = 0x14 then some (wordAt s.sw.peer 2)
  else if o = 0x18 then some (Word.nat (fld (wordAt s.sw.peer 1) 0 4))
  else if o = 0xA0 ∧ s.rbit SW_LTRIM 1 then
    let c := s.rf SW_LTRIM 2 4
    some (putFld (putFld (s.reg SW_LTRIM) 8 4 c) 12 4 c)
  else none

/-! ### Forwarding (20 R829, R830) -/

/-- The segments of a message. -/
def segments (sid no : Nat) (time : Word) (trunc : Bool) (l : List Byte) : List TxFlit :=
  let n := max (ceilDiv l.length 224) 1
  (List.range n).map fun k =>
    let d := (l.drop (224 * k)).take 224
    let last := decide (k + 1 = n)
    { typ := 4, data := d,
      hdr := [Word.nat (d.length + sid % 16 * 256 + b2n (decide (k = 0)) * 4096 + b2n last * 8192 + b2n (last && trunc) * 16384),
        Word.nat no, Word.nat (224 * k), time] }

/-- A unit that a source sends is forwarded, if its SID is and the port was PAIRED when it began; a pairing lost since has cut
the message. How much of it the outbound buffer holds beyond 16 KiB depends on how fast the link drains it, and is a free value
(20 R829, R832; log 27). -/
def forward (s : State) (sid : Nat) (began : Bool) (time : Word) (l : List Byte) : State :=
  if !s.part.iob || !(s.rbit SW_FWD sid && (sid = 1 || sid = 3 || sid = 4 || sid = 5 || sid = 6)) then s
  else if !began then s.bump SW_CNT2 0 8
  else if !s.sw.paired then s
  else
    let held := s.sw.msgQ.foldl (fun n f => if fld (wordAt f.hdr 0) 8 4 = sid then n + f.data.length else n) 0
    let room := 16384 - held
    let (kept, s) := if l.length ≤ room then (l.length, s)
      else let (x, s) := s.draw 32; (min l.length (room + x.toNat), s)
    let s := if kept < l.length then s.bump SW_CNT2 8 8 else s
    let no := Store.get 0 s.sw.msgNo sid
    { s with sw := { s.sw with
      msgQ := s.sw.msgQ ++ segments sid no time (decide (kept < l.length)) (l.take kept)
      msgNo := Store.set 0 s.sw.msgNo sid ((no + 1) % 2 ^ 32) } }

end State

end Sys2Proof.Machine
end

