-- ==== Sys2Proof/Machine/Audio.lean ====
section
/-! DEFINITION. The audio front end: ticks, playback, capture units, GTRIM, and the audio group's commits
(18). -/

namespace Sys2Proof.Machine

/-! ### Rates and layout -/

/-- KA ÷ FS and KA ÷ PDM_CLK of the codes of AU_RATE (18 Table 18.1). -/
def fsDiv (c : Nat) : Nat :=
  match c with | 0 => 512 | 1 => 768 | 2 => 1024 | 3 => 1536 | 4 => 2048 | _ => 3072
def pdmDiv (c : Nat) : Nat :=
  match c with | 0 => 8 | 1 => 12 | _ => 24

/-- v ÷ 2^k, rounded to nearest even. -/
def rneShift (v : Int) (k : Nat) : Int := divRound v (2 ^ k) 0

/-- A stream sample of `ss` (18 R754): its bytes, and whether saturation acted. -/
def auSample (s32 : Bool) (v : Word) : List Byte × Bool :=
  if s32 then (leBytes 4 v.toNat, false)
  else
    let x := rneShift v.toInt 16
    let y := max (-32768) (min 32767 x)
    (leBytes 2 (wrap 16 y), x != y)

/-- A plane: its samples' bytes, zeros up to a multiple of 32 bytes. -/
def plane (s32 : Bool) (vs : List Word) : List Byte :=
  let l := vs.flatMap fun v => (auSample s32 v).1
  l ++ List.replicate ((32 - l.length % 32) % 32) (0 : Byte)

/-- A capture channel's sample: a converter's 24 bits, saturated to ±(2^23 − 1) (18 R751, R752). -/
def converter (v : Word) : Word :=
  let x := v.toInt / 256
  Word.nat (wrap 32 (max (-8388607) (min 8388607 x) * 256))

namespace State

def auRun (s : State) : Bool := s.fbit AU_CTRL 0
def auBlk (s : State) : Nat := s.ff AU_RATE 16 13
/-- I²S slots of the port in force. -/
def i2sSlots (s : State) : Nat := 2 * 2 ^ s.ff AU_I2S 4 2

/-- The streams of R767 that are stopped. -/
def auStopped (s : State) (sid : Nat) : Bool :=
  match sid with
  | 5 => !s.auRun || s.ff AU_CAP5 0 8 == 0
  | 6 => !s.auRun || (if s.fbit AU_CAP6 0 then s.ff AU_CAP6 8 8 == 0 else s.ff AU_CAP6 1 2 == 0)
  | 7 => !s.auRun || !(s.fbit AU_PLAY 0 || s.fbit AU_PLAY 3)
  | _ => false

/-- Stopped streams end their waiting descriptors (08 R371). -/
def auStop (s : State) : State :=
  [5, 6, 7].foldl (fun s sid => if s.auStopped sid then s.stopStream sid else s) s

/-! ### Playback (18 R759–R762) -/

/-- The next frame of the playing block, and its bytes left. -/
def playNext (s : State) (l : List Byte) : Option (Word × Word × List Byte) :=
  let w := if s.fbit AU_PLAY 1 then 4 else 2
  let mono := s.fbit AU_PLAY 2
  let n := if mono then w else 2 * w
  let sample (l : List Byte) : Word := Word.nat (leNat (l.take w) * (if w = 4 then 1 else 65536))
  if l.length < n then none
  else
    let a := sample l
    some (a, if mono then a else sample (l.drop w), l.drop n)

/-- The frame taken at a tick: from the playing block, else from the next queued one, once all its bytes have been read. -/
def takeFrame (s : State) : Option (Word × Word) × State :=
  match s.playNext s.audio.playing with
  | some (a, b, t) => (some (a, b), { s with audio := { s.audio with playing := t, played := true } })
  | none =>
    match s.audio.queue with
    | [] => (none, { s with audio := { s.audio with playing := [] } })
    | .reading _ _ :: _ => (none, { s with audio := { s.audio with playing := [] } })
    | .block l :: q =>
      match s.playNext l with
      | some (a, b, t) =>
        (some (a, b), { s with audio := { s.audio with playing := t, queue := q, played := true } })
      | none => (none, { s with audio := { s.audio with playing := [], queue := q } })

/-- The DAC's code of a played value: its top 24 bits, rounded and saturated (18 R762). -/
def dacCode (v : Word) : Word := Word.nat (wrap 32 (max (-8388608) (min 8388607 (rneShift v.toInt 8))))

/-- The transmit frame of a tick: slots of the width in force (18 R759). -/
def txFrame (s : State) (a b : Word) : List Word :=
  let one (v : Word) : Word :=
    if s.fbit AU_I2S 6 then v else Word.nat (leNat (auSample false v).1)
  [one a, one b] ++ List.replicate (s.i2sSlots - 2) (0 : Word)

/-- The I²S frame taken at a tick; a repeat in target mode counts a slip (18 R758). -/
def rxTick (s : State) : State :=
  if !s.fbit AU_I2S 0 then s
  else
    let (f, slip) := match s.audio.rxNew with
      | some f => (f, false)
      | none => (s.audio.rxLast, !s.fbit AU_I2S 3)
    let s := { s with audio := { s.audio with
      rxLast := f, rxNew := none, rxBlock := s.audio.rxBlock ++ [f], slips := s.audio.slips + b2n slip } }
    if slip then s.bump AU_SLIP 0 16 else s

/-- A tick can come: RUN is in force, the PLL is locked, and the block is not complete (18 R749, R750). -/
def tickDue (s : State) : Bool :=
  s.auRun && !s.audio.relock && decide (s.dev.mode ≠ .moored) && decide (s.dev.mode ≠ .muster) &&
    decide (s.audio.ticks < s.auBlk)

/-- One tick; the first of a block gives the block's TIME (18 R761, R763). -/
def playTick (s : State) : State :=
  if !s.tickDue then s
  else
    let s := if s.audio.ticks = 0 then let (t, s) := s.lkTime; { s with audio := { s.audio with time := t } } else s
    let (f, s) := s.takeFrame
    let live := s.fbit AU_PLAY 0 || s.fbit AU_PLAY 3
    let under := f.isNone && s.audio.played && live
    let s := if under && !s.audio.inUnder then (s.bump AU_CNT 16 8).markGap 7 else s
    let (a, b) := f.getD (0, 0)
    let s := { s with audio := { s.audio with
      inUnder := under
      past := ((⟨a, b, under⟩ : PlayFrame) :: s.audio.past).take 4400
      dac := if s.fbit AU_PLAY 0 && s.dieUp then (dacCode a, dacCode b) else (0, 0)
      tx := if s.fbit AU_PLAY 3 && decide (s.dev.mode ≠ Mode.becalmed) then s.txFrame a b else []
      tick := s.audio.tick + 1, ticks := s.audio.ticks + 1 } }
    s.rxTick

/-- A complete I²S frame is received; one that replaces another in target mode counts a slip (18 R758). -/
def i2sFrame (s : State) (slots : List Word) : State :=
  if s.fbit AU_I2S 0 && decide (s.dev.mode ≠ .moored) && decide (s.dev.mode ≠ .muster) then
    let n := s.i2sSlots
    let one (v : Word) : Word := if s.fbit AU_I2S 6 then v else Word.nat (v.toNat % 65536 * 65536)
    let f := ((slots ++ List.replicate n (0 : Word)).take n).map one
    let slip := s.audio.rxNew.isSome && !s.fbit AU_I2S 3
    let s := { s with audio := { s.audio with rxNew := some f, slips := s.audio.slips + b2n slip } }
    if slip then s.bump AU_SLIP 0 16 else s
  else s

/-! ### Capture units (18.6) -/

/-- The capture channels of a stream and their samples, given the converters' samples of the block. -/
def channels (s : State) (sid : Nat) (pdm adc : List (List Word)) : Nat × List (List Word) :=
  let ns := s.audio.ticks
  let fill (l : List Word) : List Word := (l ++ List.replicate ns (0 : Word)).take ns
  if sid = 5 then
    let m := s.ff AU_CAP5 0 8
    (m, ((List.range 8).filter m.testBit).map fun i => fill ((pdm.getD i []).map converter))
  else if s.fbit AU_CAP6 0 then
    let m := s.ff AU_CAP6 8 8 % 2 ^ s.i2sSlots
    (m, ((List.range 8).filter m.testBit).map fun i => fill (s.audio.rxBlock.map fun f => f.getD i 0))
  else
    let m := s.ff AU_CAP6 1 2
    (m, ((List.range 2).filter m.testBit).map fun i => fill ((adc.getD i []).map converter))

/-- The stream's configuration: SS, REF, RHIST. -/
def capCfg (s : State) (sid : Nat) : Bool × Nat × Nat :=
  if sid = 5 then (s.fbit AU_CAP5 8, s.ff AU_CAP5 9 2, s.ff AU_CAP5 16 8)
  else (s.fbit AU_CAP6 16, s.ff AU_CAP6 17 2, s.ff AU_CAP6 24 8)

/-- P(n − RDLY) at position `j` of the block (18 R764). -/
def refAt (s : State) (rdly : Nat) (j : Int) : PlayFrame :=
  let k : Int := (s.audio.ticks : Int) - 1 - j + rdly
  if k < 0 then ⟨0, 0, false⟩ else s.audio.past.getD k.toNat ⟨0, 0, false⟩

/-- The unit of a stream for the block in progress, SHORT when NOW ended it (18 R763, Table 18.3). -/
def captureUnit (s : State) (sid : Nat) (pdm adc : List (List Word)) (short : Bool) : List Byte :=
  let (s32, ref, rhist) := s.capCfg sid
  let ns := s.audio.ticks
  let blk := s.auBlk
  let (mask, chs) := s.channels sid pdm adc
  let tail := List.replicate (blk - ns) (0 : Word)
  let src := sid == 6 && s.fbit AU_CAP6 0
  let rdly := if src then 2 else 28
  let refs (right : Bool) : List Word :=
    ((List.range (rhist + ns)).map fun (i : Nat) =>
      let p := s.refAt rdly ((i : Int) - (rhist : Int))
      if right then p.right else p.left) ++ tail
  let sides : List Bool := (if ref % 2 = 1 then [false] else []) ++ (if 2 ≤ ref then [true] else [])
  let clip : Nat := chs.foldl (fun n l => l.foldl (fun n v =>
    n + b2n ((auSample s32 v).2 || (!src && v.toInt.natAbs / 256 == 8388607))) n) 0
  let under := sides.length * ((List.range ns).filter fun (j : Nat) => (s.refAt rdly (j : Int)).under).length
  let gt := sid == 6 && s.audio.byGtrim && !src
  let gains := if sid = 5 then 0 else (s.reg AU_GAIN_STAT).toNat
  let trailer : List Word := [
    Word.nat s.audio.block, s.audio.start,
    Word.nat (ns + 65536 * b2n short + 131072 * b2n (s.audio.block == 0) + 262144 * b2n s32 + 524288 * b2n gt + 1048576 * b2n src),
    Word.nat (mask + 256 * ref + 65536 * rhist), Word.nat gains,
    Word.nat (min clip 65535 + 65536 * min under 65535), s.audio.time, Word.nat (min s.audio.slips 65535)]
  (chs.flatMap fun l => plane s32 (l ++ tail)) ++ (sides.flatMap fun r => plane s32 (refs r)) ++ wordsBytes trailer

/-- A stream's unit is sent (18 R765; 20 R829). -/
def sendBlock (s : State) (sid : Nat) (pdm adc : List (List Word)) (short : Bool) : State :=
  if s.auStopped sid || !s.dieUp then s
  else
    let l := s.captureUnit sid pdm adc short
    let (time, s) := s.lkTime
    ({ s with units := s.units ++ [(sid, l)] }).forward sid s.sw.paired time l

/-! ### GTRIM (18 R755) -/

/-- One channel: the new code and quiet count. -/
def gtrimStep (s : State) (peak g quiet : Nat) : Nat × Nat :=
  if s.ff AU_GTRIM 8 8 * 32768 ≤ peak then (g - 1, 0)
  else
    let q := if peak < s.ff AU_GTRIM 16 8 * 32768 then quiet + 1 else 0
    if s.ff AU_GTRIM 24 8 ≤ q ∧ g < s.ff AU_GTRIM 1 5 then (g + 1, 0) else (g, q)

def gtrim (s : State) (adc : List (List Word)) : State :=
  if s.fbit AU_GTRIM 0 && !s.fbit AU_CAP6 0 then
    let s := if s.ff AU_CAP6 1 2 = 0 then s else { s with audio := { s.audio with byGtrim := true } }
    let peak (i : Nat) : Nat :=
      ((adc.getD i []).take s.audio.ticks).foldl (fun m v => max m (((converter v).toInt / 256).natAbs)) 0
    let s := if s.fbit AU_CAP6 1 then
      let (g, q) := s.gtrimStep (peak 0) (s.rf AU_GAIN_STAT 0 5) s.audio.quiet0
      { s.setRf AU_GAIN_STAT 0 5 g with audio := { s.audio with quiet0 := q } } else s
    if s.fbit AU_CAP6 2 then
      let (g, q) := s.gtrimStep (peak 1) (s.rf AU_GAIN_STAT 8 5) s.audio.quiet1
      { s.setRf AU_GAIN_STAT 8 5 g with audio := { s.audio with quiet1 := q } }
    else s
  else s

/-- The block in progress ends: its units are sent, GTRIM acts, the next begins (18 R750, R755, R775). -/
def endBlock (s : State) (pdm adc : List (List Word)) (short : Bool) : State :=
  let s := (s.sendBlock 5 pdm adc short).sendBlock 6 pdm adc short
  let s := s.gtrim adc
  { s with audio := { s.audio with
    ticks := 0, start := s.audio.tick, block := s.audio.block + 1, rxBlock := [], slips := 0 } }

/-- A block boundary: BLK ticks are complete (18 R750). -/
def blockBoundary (s : State) (pdm adc : List (List Word)) : State :=
  if s.auRun && decide (s.audio.ticks ≠ 0) && decide (s.auBlk ≤ s.audio.ticks) then s.endBlock pdm adc false else s

/-! ### Commits (18.7) -/

def auGroup : List Nat := [AU_CTRL, AU_RATE, AU_CAP5, AU_CAP6, AU_GTRIM, AU_PLAY, AU_I2S, AU_CN, CK_KA_CFG]

/-- A write of AU_CTRL (18 R768, R769). -/
def writeAuCtrl (s : State) (v : Word) : State :=
  let s := s.setReg AU_CTRL (storeFields (auFields 0) (s.reg AU_CTRL) v)
  if bit v 31 then
    let s := s.setRf AU_STAT 0 1 1
    if bit v 30 then { s with audio := { s.audio with now := true } } else s
  else s

/-- A write of AU_CAP6: RX slots at or above the slot count are reserved (18.9; 00 R20). The count is that of the staged AU_I2S.SLOTS,
which is the one the write is committed with (log 122). -/
def writeCap6 (s : State) (v : Word) : State :=
  let bad := decide (2 ^ (2 * 2 ^ s.rf AU_I2S 4 2) ≤ fld v 8 8)
  let v := if bad then putFld v 8 8 (s.rf AU_CAP6 8 8) else v
  s.setReg AU_CAP6 (storeFields (auFields 0xC) (s.reg AU_CAP6) v)

/-- The first check of R770 that the staged group fails. -/
def auReject (s : State) : Option Nat :=
  let ka := if s.rbit CK_KA_CFG 0 then 22579200 else 24576000
  let f := fsDiv (s.rf AU_RATE 0 3)
  let p := pdmDiv (s.rf AU_RATE 4 2)
  let blk := s.rf AU_RATE 16 13
  let port := s.rbit AU_I2S 0
  if f % p ≠ 0 ∨ ka < 8000 * f ∨ ka < 1024000 * p then some 0
  else if blk < 16 ∨ 4096 < blk ∨ blk % 16 ≠ 0 ∨ blk < s.rf AU_CAP5 16 8 ∨ blk < s.rf AU_CAP6 24 8 then some 1
  else if (s.rbit AU_CAP6 0 || s.rbit AU_PLAY 3) && !port then some 2
  else if decide (s.rf AU_I2S 1 2 ≤ 1) && s.rf AU_I2S 4 2 != 0 then some 3
  else if s.rbit AU_CN 0 && s.rbit CK_KA_CFG 0 then some 4
  else none

/-- A restart (18 R771). -/
def auRestart (s : State) : State :=
  let n := s.audio.queue.length + b2n (!s.audio.playing.isEmpty)
  let s := s.bumpBy AU_CNT 24 8 n
  { s with audio := { s.audio with
    queue := [], playing := [], inUnder := false, tick := 0, start := 0, ticks := 0, block := 0
    past := [], quiet0 := 0, quiet1 := 0, rxBlock := [], slips := 0 } }

/-- The audio commit applies, or is rejected (18 R756, R768, R770, R771). The outputs that it takes out of force are released at
once (18 R759, R762). -/
def auApply (s : State) : State :=
  let s := { s.setRf AU_STAT 0 1 0 with audio := { s.audio with now := false } }
  match s.auReject with
  | some why => (s.setRf AU_STAT 2 1 1).setRf AU_STAT 4 3 why
  | none =>
    let ka := s.rbit CK_KA_CFG 0 != s.fbit CK_KA_CFG 0
    let rate := s.rf AU_RATE 0 6 != s.ff AU_RATE 0 6
    let start := s.rbit AU_CTRL 0 && !s.auRun
    let dac := (s.rbit AU_PLAY 0 && !s.fbit AU_PLAY 0) || (s.rbit AU_PLAY 3 && !s.fbit AU_PLAY 3)
    let gt := s.rbit AU_GTRIM 0 && !s.fbit AU_GTRIM 0
    let s := s.commit auGroup
    let s := if s.fbit AU_CTRL 1 then
      { s.setReg AU_GAIN_STAT (s.reg AU_PGA) with audio := { s.audio with byGtrim := false } } else s
    let s := { s with audio := { s.audio with
      dac := if s.fbit AU_PLAY 0 then s.audio.dac else (0, 0), tx := if s.fbit AU_PLAY 3 then s.audio.tx else [] } }
    let s := if s.fbit AU_CTRL 1 || gt then { s with audio := { s.audio with quiet0 := 0, quiet1 := 0 } } else s
    let s := if dac then { s with audio := { s.audio with played := false, inUnder := false } } else s
    let s := if ka || rate || start then s.auRestart else s
    let s := if ka then { s with audio := { s.audio with relock := true } } else s
    s.auStop

/-- A pending commit meets its boundary: a block boundary while RUN is in force (18 R768). -/
def auCommitApply (s : State) : State :=
  if s.rbit AU_STAT 0 && !s.audio.now && (!s.auRun || decide (s.audio.ticks = 0)) then s.auApply else s

/-- A commit with NOW ends the blocks in progress and applies (18 R769). -/
def auCommitNow (s : State) (pdm adc : List (List Word)) : State :=
  if s.rbit AU_STAT 0 && s.audio.now then
    (if s.auRun && decide (s.audio.ticks ≠ 0) then s.endBlock pdm adc (decide (s.audio.ticks < s.auBlk)) else s).auApply
  else s

/-- The audio PLL has relocked (18 R771). -/
def auRelocked (s : State) : State := { s with audio := { s.audio with relock := false } }

/-- A commit pending past its limit (18 R772). -/
def auStale (s : State) : State :=
  if s.rbit AU_STAT 0 then (s.setRf AU_STAT 1 1 1).raise irqSTALE else s

/-- AU_STAT as read. -/
def auStat (s : State) : Word :=
  Word.nat ((s.reg AU_STAT).toNat + 128 * b2n s.auRun + 256 * s.audio.queue.length +
    1024 * b2n (!s.audio.playing.isEmpty) + 2048 * b2n s.audio.relock)

end State

/-! ### Meanings -/

/-- BLOCK_BOUNDARY, with the samples of the PDM slots and of the ADCs for the block (18 R750; log 4). -/
def execBlockBoundary (pdm adc : List (List Word)) (s : State) : Out := .next (s.blockBoundary pdm adc)
/-- PLAYBACK_TICK (18 R761). -/
def execPlaybackTick (s : State) : Out := .next s.playTick
/-- I2S_FRAME (18 R758). -/
def execI2sFrame (slots : List Word) (s : State) : Out := .next (s.i2sFrame slots)
/-- AU_COMMIT: a write of AU_CTRL with COMMIT (18 R768). -/
def execAuCommit (v : Word) (s : State) : Out := .next (if bit v 31 then s.writeAuCtrl v else s)
/-- AU_COMMIT_NOW: a commit written with NOW applies (18 R769). -/
def execAuCommitNow (pdm adc : List (List Word)) (s : State) : Out := .next (s.auCommitNow pdm adc)
/-- AU_COMMIT_APPLY (18 R770). -/
def execAuCommitApply (s : State) : Out := .next s.auCommitApply
/-- AUDIO_RELOCK_DONE (18 R771). -/
def execAudioRelockDone (s : State) : Out := .next s.auRelocked
/-- AU_COMMIT_STALE (18 R772). -/
def execAuCommitStale (s : State) : Out := .next s.auStale

end Sys2Proof.Machine
end

