-- ==== Sys2Proof/Machine/BosunCode.lean ====
section
/-! DEFINITION. Bosun's instructions: their encodings, read and written (14.4–14.11). -/

namespace Sys2Proof.Machine

abbrev Reg := BitVec 5

/-- R-format operations on two registers (14 Table 14.5). -/
inductive ROp where
  | add | sub | and | or | xor | nor | lts | ltu | min | max | minu | maxu | shl | shr | sar | mul | mulhs | mulhu
  | div | divu | rem | remu
deriving DecidableEq, Repr

/-- Immediate shifts. -/
inductive ShOp where
  | shli | shri | sari
deriving DecidableEq, Repr

/-- I-format arithmetic (14 R602). -/
inductive IOp where
  | addi | ltsi | ltui | andi | ori | xori
deriving DecidableEq, Repr

/-- Loads and stores (14 R603). -/
inductive LdOp where
  | ldb | ldbu | ldh | ldhu | ldw
deriving DecidableEq, Repr
inductive StOp where
  | stb | sth | stw
deriving DecidableEq, Repr

/-- Branch conditions (14 R604). -/
inductive BOp where
  | beq | bne | blt | bge | bltu | bgeu
deriving DecidableEq, Repr

/-- CSR operations (14 R611). -/
inductive COp where
  | csrrw | csrrs | csrrc
deriving DecidableEq, Repr

/-- A decoded Bosun instruction. -/
inductive BIns where
  | r (op : ROp) (rd ra rb : Reg)
  | sh (op : ShOp) (rd ra sh : Reg)
  | jr (ra : Reg)
  | jalr (rd ra : Reg)
  | i (op : IOp) (rd ra : Reg) (imm : BitVec 16)
  | movh (rd : Reg) (imm : BitVec 16)
  | ld (op : LdOp) (rd ra : Reg) (imm : BitVec 16)
  | st (op : StOp) (rs ra : Reg) (imm : BitVec 16)
  | br (op : BOp) (ra rb : Reg) (off : BitVec 16)
  | j (off : BitVec 26)
  | jal (off : BitVec 26)
  | lp (l : Bool) (ra : Reg) (off : BitVec 16)
  | lpi (l : Bool) (cnt : BitVec 9) (off : BitVec 16)
  | csr (op : COp) (rd ra : Reg) (n : BitVec 12)
  | post (rd ra rb : Reg)
  | belladd (ra rb : Reg)
  | bellset (ra rb : Reg)
  | waitge (rd ra rb : Reg)
  | waiteq (rd ra rb : Reg)
  | bellrd (rd ra : Reg)
  | sumrd (rd rb : Reg) (sh nb : Bool)
  | tack (rd : Reg)
  | hsig (ra : Reg)
  | fence
  | wfi
  | nop
  | eret
  | syscall (code : BitVec 20)
  | brk (code : BitVec 20)
  | mcrew
deriving DecidableEq, Repr

/-! ### Operation codes -/

/-- FN of an R-format operation (14 Table 14.5). -/
def ROp.fn : ROp → Nat
  | .add => 1 | .sub => 2 | .and => 3 | .or => 4 | .xor => 5 | .nor => 6 | .lts => 7 | .ltu => 8
  | .min => 9 | .max => 10 | .minu => 11 | .maxu => 12 | .shl => 16 | .shr => 17 | .sar => 18
  | .mul => 24 | .mulhs => 25 | .mulhu => 26 | .div => 28 | .divu => 29 | .rem => 30 | .remu => 31

def rOfFn (n : Nat) : Option ROp :=
  match n with
  | 1 => some .add | 2 => some .sub | 3 => some .and | 4 => some .or | 5 => some .xor | 6 => some .nor
  | 7 => some .lts | 8 => some .ltu | 9 => some .min | 10 => some .max | 11 => some .minu | 12 => some .maxu
  | 16 => some .shl | 17 => some .shr | 18 => some .sar | 24 => some .mul | 25 => some .mulhs | 26 => some .mulhu
  | 28 => some .div | 29 => some .divu | 30 => some .rem | 31 => some .remu | _ => none

def ShOp.fn : ShOp → Nat
  | .shli => 19 | .shri => 20 | .sari => 21

/-- OP of the other formats (14 Table 14.4). -/
def IOp.op : IOp → Nat
  | .addi => 4 | .ltsi => 5 | .ltui => 6 | .andi => 7 | .ori => 8 | .xori => 9
def LdOp.op : LdOp → Nat
  | .ldb => 16 | .ldbu => 17 | .ldh => 18 | .ldhu => 19 | .ldw => 20
def StOp.op : StOp → Nat
  | .stb => 24 | .sth => 25 | .stw => 26
def BOp.op : BOp → Nat
  | .beq => 32 | .bne => 33 | .blt => 34 | .bge => 35 | .bltu => 36 | .bgeu => 37
def COp.f : COp → Nat
  | .csrrw => 0 | .csrrs => 1 | .csrrc => 2

/-! ### Decoding -/

/-- The register field at a place. -/
def regAt (w : Word) (lo : Nat) : Reg := BitVec.ofNat 5 (fld w lo 5)

/-- R format. -/
def decodeR (w : Word) : Option BIns :=
  let fn := fld w 26 6
  let rd := regAt w 6
  let ra := regAt w 11
  let rb := regAt w 16
  let sh := regAt w 21
  match rOfFn fn with
  | some op => if sh = 0 then some (.r op rd ra rb) else none
  | none =>
    match fn with
    | 19 => if rb = 0 then some (.sh .shli rd ra sh) else none
    | 20 => if rb = 0 then some (.sh .shri rd ra sh) else none
    | 21 => if rb = 0 then some (.sh .sari rd ra sh) else none
    | 32 => if rd = 0 ∧ rb = 0 ∧ sh = 0 then some (.jr ra) else none
    | 33 => if rb = 0 ∧ sh = 0 ∧ rd ≠ ra then some (.jalr rd ra) else none
    | _ => none

/-- E format (14 Table 14.10). -/
def decodeE (w : Word) : Option BIns :=
  let rd := regAt w 6
  let ra := regAt w 11
  let rb := regAt w 16
  let sub := regAt w 21
  let plain (i : BIns) : Option BIns := if sub = 0 then some i else none
  match fld w 26 6 with
  | 1 => plain (.post rd ra rb)
  | 2 => if rd = 0 then plain (.belladd ra rb) else none
  | 3 => if rd = 0 then plain (.bellset ra rb) else none
  | 4 => plain (.waitge rd ra rb)
  | 5 => plain (.waiteq rd ra rb)
  | 6 => if rb = 0 then plain (.bellrd rd ra) else none
  | 8 =>
    if fld w 23 3 = 0 ∧ ra = 0 ∧ (rd ≠ rb ∨ rd = 0) then some (.sumrd rd rb (bit w 21) (bit w 22)) else none
  | 9 => if ra = 0 ∧ rb = 0 then plain (.tack rd) else none
  | 10 => if rd = 0 ∧ rb = 0 then plain (.hsig ra) else none
  | 11 => if rd = 0 ∧ ra = 0 ∧ rb = 0 then plain .fence else none
  | 12 => if rd = 0 ∧ ra = 0 ∧ rb = 0 then plain .wfi else none
  | _ => none

/-- Y format (14 R623). -/
def decodeY (w : Word) : Option BIns :=
  let code : BitVec 20 := BitVec.ofNat 20 (fld w 6 20)
  match fld w 26 6 with
  | 0 => if code = 0 then some .nop else none
  | 1 => if code = 0 then some .eret else none
  | 2 => some (.syscall code)
  | 3 => some (.brk code)
  | 4 => if code = 0 then some .mcrew else none
  | _ => none

/-- The instruction that a word spells; none is a word that R599 makes illegal, or that R605 or R618 does. -/
def decodeB (w : Word) : Option BIns :=
  let rd := regAt w 6
  let ra := regAt w 11
  let imm : BitVec 16 := BitVec.ofNat 16 (fld w 16 16)
  let off : BitVec 26 := BitVec.ofNat 26 (fld w 6 26)
  match fld w 0 6 with
  | 1 => decodeR w
  | 2 => decodeE w
  | 3 => decodeY w
  | 4 => some (.i .addi rd ra imm)
  | 5 => some (.i .ltsi rd ra imm)
  | 6 => some (.i .ltui rd ra imm)
  | 7 => some (.i .andi rd ra imm)
  | 8 => some (.i .ori rd ra imm)
  | 9 => some (.i .xori rd ra imm)
  | 10 => if ra = 0 then some (.movh rd imm) else none
  | 16 => some (.ld .ldb rd ra imm)
  | 17 => some (.ld .ldbu rd ra imm)
  | 18 => some (.ld .ldh rd ra imm)
  | 19 => some (.ld .ldhu rd ra imm)
  | 20 => some (.ld .ldw rd ra imm)
  | 24 => some (.st .stb rd ra imm)
  | 25 => some (.st .sth rd ra imm)
  | 26 => some (.st .stw rd ra imm)
  | 32 => some (.br .beq rd ra imm)
  | 33 => some (.br .bne rd ra imm)
  | 34 => some (.br .blt rd ra imm)
  | 35 => some (.br .bge rd ra imm)
  | 36 => some (.br .bltu rd ra imm)
  | 37 => some (.br .bgeu rd ra imm)
  | 40 => some (.j off)
  | 41 => some (.jal off)
  | 48 => if fld w 7 4 = 0 then some (.lp (bit w 6) ra imm) else none
  | 49 => some (.lpi (bit w 6) (BitVec.ofNat 9 (fld w 7 9)) imm)
  | 60 =>
    if fld w 18 2 ≠ 0 then none
    else match fld w 16 2 with
      | 0 => some (.csr .csrrw rd ra (BitVec.ofNat 12 (fld w 20 12)))
      | 1 => some (.csr .csrrs rd ra (BitVec.ofNat 12 (fld w 20 12)))
      | 2 => some (.csr .csrrc rd ra (BitVec.ofNat 12 (fld w 20 12)))
      | _ => none
  | _ => none

/-! ### Encoding -/

/-- A word of three register fields, a sub field and FN above OP. -/
def packR (op rd ra rb sub fn : Nat) : Word :=
  Word.nat (op + rd * 2 ^ 6 + ra * 2 ^ 11 + rb * 2 ^ 16 + sub * 2 ^ 21 + fn * 2 ^ 26)
/-- A word of two register fields and 16 bits above them. -/
def packI (op lo hi imm : Nat) : Word := Word.nat (op + lo * 2 ^ 6 + hi * 2 ^ 11 + imm * 2 ^ 16)

/-- The word of an instruction (14.4). -/
def encodeB : BIns → Word
  | .r op rd ra rb => packR 1 rd.toNat ra.toNat rb.toNat 0 op.fn
  | .sh op rd ra sh => packR 1 rd.toNat ra.toNat 0 sh.toNat op.fn
  | .jr ra => packR 1 0 ra.toNat 0 0 32
  | .jalr rd ra => packR 1 rd.toNat ra.toNat 0 0 33
  | .i op rd ra imm => packI op.op rd.toNat ra.toNat imm.toNat
  | .movh rd imm => packI 10 rd.toNat 0 imm.toNat
  | .ld op rd ra imm => packI op.op rd.toNat ra.toNat imm.toNat
  | .st op rs ra imm => packI op.op rs.toNat ra.toNat imm.toNat
  | .br op ra rb off => packI op.op ra.toNat rb.toNat off.toNat
  | .j off => Word.nat (40 + off.toNat * 2 ^ 6)
  | .jal off => Word.nat (41 + off.toNat * 2 ^ 6)
  | .lp l ra off => packI 48 (b2n l) ra.toNat off.toNat
  | .lpi l cnt off => Word.nat (49 + b2n l * 2 ^ 6 + cnt.toNat * 2 ^ 7 + off.toNat * 2 ^ 16)
  | .csr op rd ra n => packI 60 rd.toNat ra.toNat (op.f + n.toNat * 2 ^ 4)
  | .post rd ra rb => packR 2 rd.toNat ra.toNat rb.toNat 0 1
  | .belladd ra rb => packR 2 0 ra.toNat rb.toNat 0 2
  | .bellset ra rb => packR 2 0 ra.toNat rb.toNat 0 3
  | .waitge rd ra rb => packR 2 rd.toNat ra.toNat rb.toNat 0 4
  | .waiteq rd ra rb => packR 2 rd.toNat ra.toNat rb.toNat 0 5
  | .bellrd rd ra => packR 2 rd.toNat ra.toNat 0 0 6
  | .sumrd rd rb sh nb => packR 2 rd.toNat 0 rb.toNat (b2n sh + 2 * b2n nb) 8
  | .tack rd => packR 2 rd.toNat 0 0 0 9
  | .hsig ra => packR 2 0 ra.toNat 0 0 10
  | .fence => packR 2 0 0 0 0 11
  | .wfi => packR 2 0 0 0 0 12
  | .nop => Word.nat 3
  | .eret => Word.nat (3 + 2 ^ 26)
  | .syscall code => Word.nat (3 + code.toNat * 2 ^ 6 + 2 * 2 ^ 26)
  | .brk code => Word.nat (3 + code.toNat * 2 ^ 6 + 3 * 2 ^ 26)
  | .mcrew => Word.nat (3 + 4 * 2 ^ 26)

/-- The operand combinations that R605 and R618 make illegal are absent. -/
def BIns.ok : BIns → Bool
  | .jalr rd ra => rd != ra
  | .sumrd rd rb _ _ => rd != rb || rd == 0
  | _ => true

/-! ### Placement (14 R606) -/

/-- A branch or jump. -/
def BIns.jumps : BIns → Bool
  | .jr _ => true
  | .jalr _ _ => true
  | .br _ _ _ _ => true
  | .j _ => true
  | .jal _ => true
  | _ => false

/-- Slot-barred. -/
def BIns.barred : BIns → Bool
  | .lp _ _ _ => true
  | .lpi _ _ _ => true
  | .mcrew => true
  | .eret => true
  | .syscall _ => true
  | .brk _ => true
  | .waitge _ _ _ => true
  | .waiteq _ _ _ => true
  | .wfi => true
  | .sumrd _ _ _ nb => !nb
  | x => x.jumps

end Sys2Proof.Machine
end

