-- ==== Sys2Proof/Machine/BosunRegs.lean ====
section
/-! DEFINITION. Bosun's registers and CSRs, and the output bundles that the comparator sees (14.1, 14.9, 15.2, 15.6,
16.1, 16.4). -/

namespace Sys2Proof.Machine

def BS_STATUS : Nat := 0x000
def BS_EPC : Nat := 0x001
def BS_CAUSE : Nat := 0x002
def BS_BADADDR : Nat := 0x003
def BS_EVEC : Nat := 0x004
def BS_IMASK : Nat := 0x005
def BS_IPEND : Nat := 0x006
def BS_ESP : Nat := 0x008
def BS_SPLIM_LO : Nat := 0x009
def BS_SPLIM_HI : Nat := 0x00A
/-- BS_LCn, BS_LSn, BS_LEn. -/
def BS_LC (n : Nat) : Nat := 0x010 + 3 * n
def BS_LS (n : Nat) : Nat := 0x011 + 3 * n
def BS_LE (n : Nat) : Nat := 0x012 + 3 * n
def BS_WAIT_TMO : Nat := 0x018
def BS_CREW_IBASE : Nat := 0x019
def BS_CREW_DBASE : Nat := 0x01A
def BS_CYCLE_LO : Nat := 0x020
def BS_CYCLE_HI : Nat := 0x021
def BS_INSTRET : Nat := 0x022
def BS_HOSTMSG : Nat := 0x024
def BS_SCRATCH : Nat := 0x025
def BS_ID : Nat := 0x028
def BS_ESAVE (k : Nat) : Nat := 0x040 + k
def BS_LS_STAT : Nat := 0x080
def BS_LS_SIGL : Nat := 0x081
def BS_LS_SIGT : Nat := 0x082
def BS_LS_TEST : Nat := 0x083

/-- The block address of the CSR with a number (14 R612). -/
def bsAddr (n : Nat) : Nat := 0x40030000 + 4 * n

/-- The fields of a CSR by number (14 Table 14.9, 15.2, 15.4, 16.4). -/
def bsFields (n : Nat) : List Field :=
  match n with
  | 0x000 => [fRo 0 1, fRw 1 1, fRo 2 6]
  | 0x001 => [fRw 2 30]
  | 0x004 => [fRw 9 23 0x300000]
  | 0x005 => [fRw 0 7]
  | 0x008 => [fRw 3 29 0xC200080]
  | 0x009 => [fRw 3 29 0xC200080]
  | 0x00A => [fRw 3 29 0xC202000]
  | 0x010 => [fRw 0 32]
  | 0x011 => [fRw 2 30]
  | 0x012 => [fRw 2 30]
  | 0x013 => [fRw 0 32]
  | 0x014 => [fRw 2 30]
  | 0x015 => [fRw 2 30]
  | 0x018 => [fRw 0 16]
  | 0x019 => [fRw 2 16 0x8000]
  | 0x01A => [fRw 2 16 0x4000]
  | 0x024 => [fRw 0 32]
  | 0x025 => [fRw 0 32]
  | 0x028 => [fRo 0 32 0x101]
  | 0x083 => [fRw 0 5 0 [0], fWo 31 1]
  | _ => []

def bsReset (n : Nat) : Word := Word.nat (resetOf (bsFields n))

/-- The number names a CSR (14 Table 14.9, 15.4, 16.4). -/
def bsKnown (n : Nat) : Bool :=
  decide (n ≤ 6) || (decide (0x008 ≤ n) && decide (n ≤ 0x00A)) || (decide (0x010 ≤ n) && decide (n ≤ 0x015)) ||
    (decide (0x018 ≤ n) && decide (n ≤ 0x01A)) || (decide (0x020 ≤ n) && decide (n ≤ 0x022)) ||
    n == 0x024 || n == 0x025 || n == 0x028 || (decide (0x040 ≤ n) && decide (n ≤ 0x04F)) ||
    (decide (0x080 ≤ n) && decide (n ≤ 0x083))

/-- Marked RO. -/
def bsRo (n : Nat) : Bool :=
  n == 2 || n == 3 || n == 6 || (decide (0x020 ≤ n) && decide (n ≤ 0x022)) || n == 0x028 ||
    (decide (0x040 ≤ n) && decide (n ≤ 0x04F)) || (decide (0x080 ≤ n) && decide (n ≤ 0x082))

/-- Readable, and writable, in Crew. -/
def bsCrewRead (n : Nat) : Bool :=
  n == 6 || (decide (0x010 ≤ n) && decide (n ≤ 0x015)) || n == 0x018 || (decide (0x020 ≤ n) && decide (n ≤ 0x022)) ||
    n == 0x028
def bsCrewWrite (n : Nat) : Bool := decide (0x010 ≤ n) && decide (n ≤ 0x015)

namespace Core

def csrGet (c : Core) (n : Nat) : Word := Store.get (bsReset n) c.csr n
def csrPut (c : Core) (n : Nat) (v : Word) : Core := { c with csr := Store.set (bsReset n) c.csr n v }
/-- w0 reads as 0 and discards writes (14 R590). -/
def reg (c : Core) (r : Nat) : Word := if r = 0 then 0 else Store.get 0 c.w r
def setReg (c : Core) (r : Nat) (v : Word) : Core := if r = 0 then c else { c with w := Store.set 0 c.w r v }

/-- Register `i` of 16 Table 16.2, counted from 1. -/
def swept (c : Core) (i : Nat) : Word :=
  if i ≤ 31 then c.reg i
  else if i = 32 then c.pc
  else if i ≤ 38 then c.csrGet (i - 33)
  else if i ≤ 41 then c.csrGet (i - 39 + 8)
  else if i ≤ 47 then c.csrGet (i - 42 + 0x10)
  else if i ≤ 50 then c.csrGet (i - 48 + 0x18)
  else c.csrGet (i - 51 + 0x24)

/-- The signature of a copy (16 R685). -/
def signature (c : Core) : Word := crc32 (wordsBytes ((List.range 52).map fun i => c.swept (i + 1)))

end Core

namespace State

def core (s : State) : Core := s.bosun.core
def setCore (s : State) (c : Core) : State := { s with bosun := { s.bosun with core := c } }
def bw (s : State) (r : Reg) : Word := s.core.reg r.toNat
def setBw (s : State) (r : Reg) (v : Word) : State := s.setCore (s.core.setReg r.toNat v)
/-- A field of a CSR that Bosun holds. -/
def bsf (s : State) (n lo w : Nat) : Nat := fld (s.core.csrGet n) lo w
def bsv (s : State) (n : Nat) : Word := s.core.csrGet n
def setBs (s : State) (n : Nat) (v : Word) : State := s.setCore (s.core.csrPut n v)
def setBsf (s : State) (n lo w x : Nat) : State := s.setBs n (putFld (s.bsv n) lo w x)

/-- Crew mode. -/
def crew (s : State) : Bool := s.bsf BS_STATUS 0 1 == 1
/-- The ESAVE bank is occupied. -/
def esv (s : State) : Bool := s.bsf BS_STATUS 7 1 == 1

/-- BS_IPEND.SRC and CKPT (15 R658, R662). -/
def ipend (s : State) : Nat :=
  let bell := s.bosun.bellRec.any fun n => s.rbit (CAP_BFIRED + 4 * (n / 32)) (n % 32)
  b2n s.bosun.latHalt + 2 * b2n s.bosun.latStale + 4 * b2n bell + 8 * b2n (!(s.fifo 0).isEmpty) +
    16 * b2n (!(s.fifo 1).isEmpty) + 32 * b2n (!s.cn.fifo.isEmpty) + 64 * b2n s.bosun.latDeck +
    256 * b2n (s.rbit (bsAddr BS_LS_STAT) 8 || s.bosun.ckpt)

/-- The pending and enabled sources. -/
def ienabled (s : State) : Nat := Nat.land (s.ipend % 128) (s.bsf BS_IMASK 0 7)

/-- A read of the CSR with a number, by a CSR instruction, a load or the window. The cycle count goes on while Bosun executes;
a read of its low half latches its high half (14 R613). -/
def bsRead (s : State) (n : Nat) : Word × State :=
  if n = BS_IPEND then (Word.nat s.ipend, s)
  else if n = BS_CYCLE_LO then
    let s := if s.bosun.run then s.passCycles else s
    (Word.nat s.bosun.cycle, { s with bosun := { s.bosun with cycleHi := Word.nat (s.bosun.cycle / 2 ^ 32) } })
  else if n = BS_CYCLE_HI then (s.bosun.cycleHi, s)
  else if n = BS_INSTRET then (s.bosun.instret, s)
  else if 0x080 ≤ n ∧ n ≤ 0x083 then (s.reg (bsAddr n), s)
  else (s.bsv n, s)

/-! ### Output bundles (16 Table 16.1) -/

/-- MODE, which every bundle carries. -/
def bundleMode (s : State) : Nat := b2n s.crew * 2 ^ 171
def emit (s : State) (b : Nat) : State :=
  { s with bosun := { s.bosun with bundle := s.bosun.bundle ++ [b + s.bundleMode] } }
def emitFetch (s : State) (pc : Word) : State := s.emit (1 + pc.toNat / 4 * 2)
/-- A data access of `size` bytes: a store with its data, or a load. -/
def emitData (s : State) (size addr : Nat) (st : Option Nat) : State :=
  s.emit (2 ^ 31 + (match st with | some d => 2 ^ 32 + d * 2 ^ 67 | none => 0) +
    (if size = 4 then 2 else size - 1) * 2 ^ 33 + addr * 2 ^ 35)
/-- An engine-facing item. -/
def emitItem (s : State) (fn : Nat) (a b : Word) : State :=
  s.emit (2 ^ 99 + fn * 2 ^ 100 + a.toNat * 2 ^ 104 + b.toNat * 2 ^ 136)
def emitSum (s : State) (sh nb : Bool) : State := s.emit (2 ^ 168 + b2n sh * 2 ^ 169 + b2n nb * 2 ^ 170)
def emitHalt (s : State) : State := s.emit (2 ^ 172)

end State

/-- The bits in which two bundles differ, lowest first. -/
def bundleDiff (a b : Nat) : List Nat := (List.range 173).filter fun i => a.testBit i != b.testBit i

/-- The bundles before the first in which two copies differ, and the bits that differ there; a copy with no output
left presents MODE alone. -/
def bundlesDiffer : List Nat → List Nat → Option (List Nat × List Nat)
  | [], [] => none
  | x :: _, [] => some ([], bundleDiff x (x / 2 ^ 171 % 2 * 2 ^ 171))
  | [], y :: _ => some ([], bundleDiff y (y / 2 ^ 171 % 2 * 2 ^ 171))
  | x :: a, y :: b =>
    if x ≠ y then some ([], bundleDiff x y)
    else (bundlesDiffer a b).map fun d => (x :: d.1, d.2)

end Sys2Proof.Machine
end

