-- ==== Sys2Proof/Machine/CnNet.lean ====
section
/-! DEFINITION. The Crowsnest's networks: the audio features, the layers, the scores and their thresholds, and
the enabling of a network (19.2–19.7). -/

namespace Sys2Proof.Machine

/-! ### Audio features (19 R786) -/

/-- lg: sixteenths of an octave, then a quarter of them. -/
def lg (v : Nat) : Nat :=
  if v = 0 then 0
  else
    let e := v.log2
    let f := if 4 ≤ e then v / 2 ^ (e - 4) % 16 else v * 2 ^ (4 - e) % 16
    min 255 ((16 * e + f) / 4)

/-- The codes of a feature frame from the 400 feed samples that end with it. -/
def features (feed : List Word) : List Nat :=
  let x : Array Int := ((List.replicate (400 - feed.length) 0 ++ feed).map fun (w : Word) => w.toInt / 65536).toArray
  let xw : Array Int := ((List.range 400).map fun n => x.getD n 0 * (Rom.wTable.getD n 0 : Nat)).toArray
  let dot (off b : Nat) : Int :=
    (List.range 400).foldl (fun a n => a + xw.getD n 0 * Rom.cTable.getD ((n * b + off) % 512) 0) 0 / 2 ^ 30
  let p : Array Nat := ((List.range 257).map fun b =>
    let re := dot 0 b
    let im := dot 384 b
    (re * re + im * im).toNat).toArray
  (List.range 40).map fun m =>
    lg ((List.range 257).foldl (fun a b => a + Rom.mTable.getD (m * 257 + b) 0 * p.getD b 0) 0)

/-! ### Layers (19 R787, R788, R790) -/

/-- A layer's record: M, S, ZOUT, biases and weights. -/
structure Layer where
  m : Nat
  sh : Nat
  z : Int
  bias : Array Int
  wts : Array Int

/-- The record at an offset of a block: its output channels and the number of its weights. -/
def layerAt (block : List Byte) (off co n : Nat) : Layer :=
  let r := block.drop off
  let s8 (b : Byte) : Int := b.toInt
  { m := leNat (r.take 2), sh := (r.getD 2 0).toNat, z := (r.getD 3 0).toNat
    bias := ((bytesWords co (r.drop 8)).map BitVec.toInt).toArray
    wts := (((r.drop (8 + 4 * co)).take n).map s8).toArray }

/-- Requantisation of one output. -/
def Layer.out (l : Layer) (acc : Int) (relu : Bool) : Int :=
  let y := l.z + (acc * (l.m : Int) + 2 ^ (l.sh - 1)) / 2 ^ l.sh
  max (if relu then l.z else 0) (min 255 y)

/-- A feature map: height, width, channels, codes, and its zero point. -/
structure Fmap where
  h : Nat
  w : Nat
  c : Nat
  a : Array Int
  z : Int

/-- A centred code; padding is 0. -/
def Fmap.at (f : Fmap) (y x : Int) (c : Nat) : Int :=
  if 0 ≤ y ∧ y < f.h ∧ 0 ≤ x ∧ x < f.w then f.a.getD ((y.toNat * f.w + x.toNat) * f.c + c) 0 - f.z else 0

/-- A convolution: kernel, strides, top and left padding, output size; depthwise reads its own channel alone. -/
def conv (f : Fmap) (l : Layer) (dw relu : Bool) (kh kw sy sx pt pl ho wo co : Nat) : Fmap :=
  let taps (oy ox k : Nat) : Int :=
    (List.range kh).foldl (fun a ky => (List.range kw).foldl (fun a kx =>
      let y : Int := (sy * oy + ky : Nat) - (pt : Int)
      let x : Int := (sx * ox + kx : Nat) - (pl : Int)
      if dw then a + f.at y x k * l.wts.getD ((k * kh + ky) * kw + kx) 0
      else (List.range f.c).foldl (fun a ci => a + f.at y x ci * l.wts.getD (((k * kh + ky) * kw + kx) * f.c + ci) 0) a)
      a) (l.bias.getD k 0)
  { h := ho, w := wo, c := co, z := l.z
    a := ((List.range ho).flatMap fun oy => (List.range wo).flatMap fun ox =>
      (List.range co).map fun k => l.out (taps oy ox k) relu).toArray }

/-- An average pool over every position. -/
def pool (f : Fmap) : Fmap :=
  let n := f.h * f.w
  { h := 1, w := 1, c := f.c, z := f.z
    a := ((List.range f.c).map fun k =>
      divRound ((List.range n).foldl (fun a i => a + f.a.getD (i * f.c + k) 0) 0) n 0).toArray }

/-- The offset, output channels and weights of each record (19 Table 19.5). -/
def kwRecords : List (Nat × Nat × Nat) :=
  [(32, 32, 1280), (1448, 32, 288), (1872, 32, 1024), (3032, 32, 288), (3456, 32, 1024), (4616, 32, 288), (5040, 32, 1024),
   (6200, 32, 288), (6624, 32, 1024), (7784, 22, 704)]
def gsRecords : List (Nat × Nat × Nat) := [(32, 16, 576), (680, 32, 4608), (5424, 32, 9216), (14776, 8, 256)]

/-- The keyword network on 100 feature frames, oldest first (19 Table 19.3). -/
def kwInfer (block : List Byte) (frames : List (List Nat)) : List Nat :=
  let zf : Int := (block.getD 4 0).toNat
  let rec_ (i : Nat) : Layer := let r := kwRecords.getD i (0, 0, 0); layerAt block r.1 r.2.1 r.2.2
  let pad := List.replicate (100 - frames.length) (List.replicate 40 (block.getD 4 0).toNat)
  let inp : Fmap := { h := 100, w := 40, c := 1, z := zf, a := ((pad ++ frames).flatMap fun r => r.map Int.ofNat).toArray }
  let k1 := conv inp (rec_ 0) false true 10 4 2 2 4 1 50 20 32
  let dp (f : Fmap) (i : Nat) : Fmap :=
    conv (conv f (rec_ i) true true 3 3 1 1 1 1 50 20 32) (rec_ (i + 1)) false true 1 1 1 1 0 0 50 20 32
  let f := conv (pool (dp (dp (dp (dp k1 1) 3) 5) 7)) (rec_ 9) false false 1 1 1 1 0 0 1 1 22
  f.a.toList.map Int.toNat

/-- The gesture network on 4 frames, newest first (19 Table 19.4). -/
def gsInfer (block : List Byte) (frames : List (List Nat)) : List Nat :=
  let zf : Int := (block.getD 4 0).toNat
  let rec_ (i : Nat) : Layer := let r := gsRecords.getD i (0, 0, 0); layerAt block r.1 r.2.1 r.2.2
  let chans : Array (Array Nat) := (frames.map List.toArray).toArray
  let inp : Fmap := { h := 30, w := 40, c := 4, z := zf
                      a := ((List.range 1200).flatMap fun i =>
                        (List.range 4).map fun k => (((chans.getD k #[]).getD i 0 : Nat) : Int)).toArray }
  let g1 := conv inp (rec_ 0) false true 3 3 2 2 1 1 15 20 16
  let g2 := conv g1 (rec_ 1) false true 3 3 2 2 1 1 8 10 32
  let g3 := conv g2 (rec_ 2) false true 3 3 1 1 1 1 8 10 32
  let f := conv (pool g3) (rec_ 3) false false 1 1 1 1 0 0 1 1 8
  f.a.toList.map Int.toNat

/-- The check of a weight block (19 R791). -/
def blockOk (gesture : Bool) (block : List Byte) : Bool :=
  let ws := bytesWords 8 block
  decide (wordAt ws 0 = if gesture then 0x47570001 else 0x4B570001) && fld (wordAt ws 1) 8 24 == 0 &&
  (ws.drop 2).all (· == 0) &&
  (if gesture then gsRecords else kwRecords).all fun (off, _, _) =>
    let r := block.drop off
    decide (1 ≤ (r.getD 2 0).toNat) && decide ((r.getD 2 0).toNat ≤ 40) && ((r.drop 4).take 4).all (· == 0)

/-- The base and length of a weight block. -/
def blockBase (gesture : Bool) : Nat := if gesture then 0x50008000 else 0x50000000
def blockLen (gesture : Bool) : Nat := if gesture then 15072 else 8584

namespace State

def net (s : State) (gesture : Bool) : Net := if gesture then s.cn.gs else s.cn.kw
def setNet (s : State) (gesture : Bool) (n : Net) : State :=
  { s with cn := if gesture then { s.cn with gs := n } else { s.cn with kw := n } }
/-- KEN or GEN. -/
def netOn (s : State) (gesture : Bool) : Bool := s.rbit CN_CTRL (b2n gesture)

def cnFloor (s : State) (gesture : Bool) : Nat := s.rf CN_FLOOR (16 * b2n gesture) 15
def setFloor (s : State) (gesture : Bool) (n : Nat) : State := s.setRf CN_FLOOR (16 * b2n gesture) 15 n

/-- The enable bit clears and the inference in progress is discarded (19 R785, R792, CN_CTRL). -/
def netOff (s : State) (gesture : Bool) : State :=
  (s.setRf CN_CTRL (b2n gesture) 1 0).setNet gesture { s.net gesture with due := [] }

/-- The datapath reads code words in turn: a single error is corrected, and the first uncorrectable one ends the reading and
disables the network (19 R785). -/
def datapathWords (s : State) (gesture : Bool) (ws : List (Nat × Ecc)) : State × Bool :=
  let (s, ok) := ws.foldl (fun (s, ok) (w, e) =>
    match ok, e with
    | true, .single => ((s.noteCnEcc w false).setEcc w .ok, true)
    | true, .double => (s.noteCnEcc w true, false)
    | _, _ => (s, ok)) (s, true)
  if ok then (s, true) else ((s.netOff gesture).setRf CN_STAT 5 1 1, false)

/-- The datapath uses the working area, whose layout the spec does not give: of a damaged word there it is free whether the
datapath reads it, writes it whole or leaves it (19 R783, R785; log 123). -/
def workingWords (s : State) : State × List (Nat × Ecc) :=
  (s.damaged 0x50010000 0x20000).foldl (fun (s, ws) (w, e) =>
    let (d, s) := s.draw 2
    if d = 0 then (s, ws) else if d = 1 then (s.setEcc w .ok, ws) else (s, ws ++ [(w, e)])) (s, ([] : List (Nat × Ecc)))

/-- The datapath's use of its working area for a frame or an inference. -/
def datapathWork (s : State) (gesture : Bool) : State × Bool :=
  let (s, ws) := s.workingWords
  s.datapathWords gesture ws

/-- The words that the check of a block reads: its header and the first 8 bytes of each record (19 R790, R791). -/
def checkedWords (s : State) (gesture : Bool) : List (Nat × Ecc) :=
  s.damaged (blockBase gesture) 32 ++
    (if gesture then gsRecords else kwRecords).flatMap fun (off, _, _) => s.damaged (blockBase gesture + off) 8

/-- A write of 1 to an enable bit: the block is checked, and the network starts from empty history; a failed check leaves it
disabled (19 R785, R791; log 59). -/
def netEnable (s : State) (gesture : Bool) : State :=
  let (s, ok) := s.datapathWords gesture (s.checkedWords gesture)
  if !ok then s
  else if blockOk gesture (s.peek (blockBase gesture) (blockLen gesture)) then
    let s := ((s.setRf CN_CTRL (b2n gesture) 1 1).setNet gesture {}).setFloor gesture 0
    if gesture then s else { s with cn := { s.cn with feed := [] } }
  else (s.netOff gesture).setRf CN_STAT (2 + b2n gesture) 1 1

/-- A write of CN_CTRL. -/
def writeCnCtrl (s : State) (v : Word) : State :=
  let atr (s : State) (g : Bool) : State :=
    let i := 2 + b2n g
    let s := if bit v i && !s.rbit CN_CTRL i then s.setNet g { s.net g with floorOn := false } else s
    s.setRf CN_CTRL i 1 (b2n (bit v i))
  let en (s : State) (g : Bool) : State :=
    if bit v (b2n g) then s.netEnable g else s.netOff g
  en (en (atr (atr s false) true) false) true

/-- A level updates the floor while ATRIM is enabled (19 R794). -/
def level (s : State) (gesture : Bool) (l : Nat) : State :=
  if s.rbit CN_CTRL (2 + b2n gesture) then
    let n := s.cnFloor gesture
    let nt := s.net gesture
    if !nt.floorOn then (s.setFloor gesture l).setNet gesture { nt with floorOn := true }
    else if l < n then s.setFloor gesture l
    else s.setFloor gesture (n + (l - n + 511) / 512)
  else s

/-- 160 feed samples complete a feature frame; after every second one a keyword inference is due, the first after the first
frame (19 R786, R798; log 124). -/
def featureFrame (s : State) (samples : List Word) : State :=
  if s.netOn false && samples.length == 160 then
    let (s, ok) := s.datapathWork false
    if !ok then s else
    let feed := s.cn.feed ++ samples
    let feed := feed.drop (feed.length - 400)
    let s := { s with cn := { s.cn with feed := feed } }
    let f := features feed
    let nt := s.net false
    let frames := (f :: nt.frames).take 100
    let nt := { nt with
      frames := frames, count := nt.count + 1,
      due := if nt.count % 2 = 0 then nt.due ++ [frames.reverse] else nt.due }
    (s.setNet false nt).level false (f.foldl (· + ·) 0)
  else s

/-- A forwarded frame of 1,200 codes arrives: a gesture inference is due (19.5; 17 R725). -/
def gestureFrame (s : State) (codes : List Nat) : State :=
  if s.netOn true then
    let (s, ok) := s.datapathWork true
    if !ok then s else
    let nt := s.net true
    let prev := nt.frames.getD 0 (List.replicate 1200 0)
    let frames := (codes :: nt.frames).take 4
    let l := (codes.zip prev).foldl (fun a (x, y) => a + (max x y - min x y)) 0 / 16
    (s.setNet true { nt with
      frames := frames, count := nt.count + 1,
      due := nt.due ++ [frames ++ List.replicate (4 - frames.length) (List.replicate 1200 0)] }).level true l
  else s

/-! ### Detection (19 R793, R794) -/

/-- thr(c). A T0 above smax stays above every score; until ATRIM's first level N is 0 (04 R194; 19 R794; log 123). -/
def threshold (s : State) (gesture : Bool) (c : Nat) : Nat :=
  let t0 := s.rf (if gesture then CN_GTHR (c / 2) else CN_KTHR (c / 2)) (16 * (c % 2)) 10
  let cfg := if gesture then CN_GCFG else CN_KCFG
  let smax := if gesture then 510 else 1020
  let n := if (s.net gesture).floorOn then s.cnFloor gesture else 0
  if s.rbit CN_CTRL (2 + b2n gesture) && decide (t0 ≤ smax) then min smax (t0 + s.rf cfg 8 8 * (n - s.rf cfg 16 15) / 256)
  else t0

/-- The smoothed scores. -/
def scores (hist : List (List Nat)) (classes : Nat) : List Nat :=
  (List.range classes).map fun c => hist.foldl (fun a q => a + q.getD c 0) 0

/-- Counts and registers of a finished inference, and the event it raises: class and score. -/
def detect (s : State) (gesture : Bool) (codes : List Nat) : State × Option (Nat × Nat) :=
  let g := b2n gesture
  let nt := s.net gesture
  let hist := (codes :: nt.hist).take (if gesture then 2 else 4)
  let sc := scores hist (if gesture then 8 else 22)
  let best := sc.foldl max 0
  let c := (List.range sc.length).find? (fun i => sc.getD i 0 == best) |>.getD 0
  let s := s.setReg (if gesture then CN_GLAST else CN_KLAST) (Word.nat (c + best * 65536))
  let s := s.setRf CN_INF (16 * g) 16 (s.rf CN_INF (16 * g) 16 + 1)
  let nt := { nt with hist := hist, ran := true }
  let en := s.rbit (if gesture then CN_GMASK else CN_KMASK) c
  if 0 < nt.hold then (s.setNet gesture { nt with hold := nt.hold - 1 }, none)
  else if c < (if gesture then 8 else 20) ∧ en ∧ s.threshold gesture c ≤ best then
    (s.setNet gesture { nt with hold := s.rf (if gesture then CN_GCFG else CN_KCFG) 0 8 }, some (c, best))
  else (s.setNet gesture nt, none)

/-- An inference reads every weight of its network's block, and works in the working area (19 R785). -/
def datapathRead (s : State) (gesture : Bool) : State × Bool :=
  let (s, ok) := s.datapathWords gesture (s.damaged (blockBase gesture) (blockLen gesture))
  if ok then s.datapathWork gesture else (s, false)

/-- The next inference that is due, keyword first (19.1): its network, codes and state. -/
def infer (s : State) : State × Option (Bool × Nat × Nat) :=
  let g := s.cn.kw.due.isEmpty
  match (s.net g).due with
  | [] => (s, none)
  | x :: t =>
    let (s, ok) := (s.setNet g { s.net g with due := t }).datapathRead g
    if ok then
      let block := s.peek (blockBase g) (blockLen g)
      let (s, e) := s.detect g (if g then gsInfer block x else kwInfer block x)
      (s, e.map fun (c, v) => (g, c, v))
    else (s, none)

/-- CN_STAT as read. -/
def cnStat (s : State) : Word :=
  let run (g : Bool) : Nat := b2n (s.netOn g && (s.net g).ran)
  Word.nat ((s.reg CN_STAT).toNat + run false + 2 * run true +
    64 * b2n (!(s.cn.kw.due.isEmpty && s.cn.gs.due.isEmpty)))

/-- A read of CN_EVENT (19.9). -/
def readCnEvent (s : State) : Word × State :=
  let o := b2n s.cn.ovf * 32768
  match s.cn.fifo with
  | [] => (Word.nat o, { s with cn := { s.cn with ovf := false } })
  | e :: t =>
    (Word.nat (e.cls % 32 + e.net % 2 * 32 + 16384 + o + e.score * 65536),
      { s with cn := { s.cn with ovf := false, fifo := t } }.setReg CN_EVTIME e.time)

end State

end Sys2Proof.Machine
end

