-- ==== Sys2Proof/Machine/Csi.lean ====
section
/-! DEFINITION. The CSI-2 receiver and the I²C controllers (17.8–17.10). -/

namespace Sys2Proof.Machine

/-! ### Lines (17 R732) -/

/-- A payload cut or completed to `n` bytes. -/
def fitTo (l : List Byte) (n : Nat) : List Byte := (l ++ List.replicate n (0 : Byte)).take n

/-- RAW10 groups of 5 bytes, each as four halfwords. -/
def unpack10 : Nat → List Byte → List Byte
  | 0, _ => []
  | k + 1, l =>
    let lo := (l.getD 4 0).toNat
    ((List.range 4).flatMap fun i => leBytes 2 ((l.getD i 0).toNat * 4 + lo / 4 ^ i % 4)) ++ unpack10 k (l.drop 5)

/-- Line bytes LB of a format and width. -/
def lineBytes (dt w : Nat) : Nat := if dt = 0 then w else if dt = 1 then 5 * w / 4 else 2 * w

/-- A line as stored. -/
def storeLine (dt w : Nat) (l : List Byte) : List Byte :=
  let l := fitTo l (lineBytes dt w)
  if dt = 1 then unpack10 (w / 4) l else l

/-- The CSI-2 data type of a DT field. -/
def csiType (dt : Nat) : Nat := if dt = 0 then 0x2A else if dt = 1 then 0x2B else 0x1E

namespace State

def csiOpen (s : State) (vc : Nat) : Option CsiFrame := Store.get none s.csi vc
def setOpen (s : State) (vc : Nat) (f : Option CsiFrame) : State := { s with csi := Store.set none s.csi vc f }
/-- The receiver hears its lanes (02 R68, R107). -/
def csiLive (s : State) : Bool := s.part.iob && s.dev.straps.phy && s.rbit CSI_CTRL 0 && s.dieUp
/-- A VC is enabled in force. -/
def vcOn (s : State) (vc : Nat) : Bool := decide (vc < 2) && s.fbit (CSI_VC vc) 0
def csiErr (s : State) (i : Nat) : State := s.setRf CSI_ERR i 1 1
/-- Streams 3 and 4 while stopped (17 R733). -/
def csiStopped (s : State) (sid : Nat) : Bool := !(s.rbit CSI_CTRL 0 && s.vcOn (sid - 3))
def csiStop (s : State) : State :=
  [3, 4].foldl (fun s sid => if s.csiStopped sid then s.stopStream sid else s) s

/-- A VC's open frame ends: its unit is sent, if it holds a line (17 R732, R733). -/
def csiEnd (s : State) (vc : Nat) : State :=
  match s.csiOpen vc with
  | none => s
  | some f =>
    let s := (s.setOpen vc none).setRf (CSI_FRM vc) 16 16 f.written
    if f.bytes.isEmpty || !s.dieUp then s
    else
      ({ s with units := s.units ++ [(3 + vc, f.bytes)] }).forward (3 + vc) f.pair f.time f.bytes

/-- A Frame Start (17 Table 17.3). -/
def csiStart (s : State) (vc fnum : Nat) : State :=
  if !s.csiLive then s
  else if !s.vcOn vc then s.csiErr 9
  else
    let s := if (s.csiOpen vc).isSome then (s.csiErr 5).csiEnd vc else s
    (s.setRf (CSI_FRM vc) 0 16 fnum).setOpen vc (some {})

/-- A Frame End. -/
def csiFinish (s : State) (vc : Nat) : State :=
  if !s.csiLive then s
  else if !s.vcOn vc then s.csiErr 9
  else match s.csiOpen vc with
    | none => s.csiErr 9
    | some f => (if f.received = s.ff (CSI_VC vc) 16 10 then s else s.csiErr 8).csiEnd vc

/-- A long packet (17 Table 17.3, R732). -/
def csiLine (s : State) (vc dt : Nat) (l : List Byte) (crcOk : Bool) : State :=
  if !s.csiLive then s
  else
    let d := s.ff (CSI_VC vc) 1 2
    if !s.vcOn vc || dt != csiType d then s.csiErr 9
    else match s.csiOpen vc with
      | none => s.csiErr 6
      | some f =>
        let w := s.ff (CSI_VC vc) 5 11
        let s := if crcOk then s else (s.csiErr 4).bump CSI_CNT 16 8
        let f := { f with received := f.received + 1 }
        if s.ff (CSI_VC vc) 16 10 < f.received then (s.csiErr 8).setOpen vc (some f)
        else
          let s := if l.length = lineBytes d w then s else s.csiErr 7
          let (f, s) := if f.written = 0 then let (t, s) := s.lkTime; ({ f with time := t, pair := s.sw.paired }, s) else (f, s)
          s.setOpen vc (some { f with bytes := f.bytes ++ storeLine d w l, written := f.written + 1 })

/-- A condition that discards, or only flags, what is received: 0 SoT corrected, 1 SoT lost, 2 header corrected,
3 header lost, 4 a packet of no use, and others an ignored short packet. -/
def csiDiscard (s : State) (kind : Nat) : State :=
  if !s.csiLive then s
  else match kind with
    | 0 => s.csiErr 0
    | 1 => (s.csiErr 1).bump CSI_CNT 24 8
    | 2 => (s.csiErr 2).bump CSI_CNT 0 8
    | 3 => (s.csiErr 3).bump CSI_CNT 8 8
    | 4 => s.csiErr 9
    | _ => s

/-- A write of LK_CSI_CTRL (17 R734). -/
def writeCsiCtrl (s : State) (v : Word) : State :=
  let s := s.setReg CSI_CTRL (storeFields (csiFields 0) (s.reg CSI_CTRL) v)
  let s := if bit v 31 then s.setRf CSI_STAT 0 1 1 else s
  if bit v 0 then s else ((s.csiEnd 0).csiEnd 1).csiStop

/-- A staged VC passes R734. -/
def vcOk (s : State) (vc : Nat) : Bool :=
  let a := CSI_VC vc
  let w := s.rf a 5 11
  let dt := s.rf a 1 2
  let h := s.rf a 16 10
  !s.rbit a 0 || (decide (2 ≤ w) && decide (w ≤ 1280) && !(dt == 1 && w % 4 != 0) && !(dt == 2 && w % 2 != 0) &&
    decide (1 ≤ h) && decide (h ≤ 800))

/-- A pending commit applies, or is rejected (17 R734). -/
def csiApply (s : State) : State :=
  let idle := !s.rbit CSI_CTRL 0 || [0, 1].all fun vc => !(s.vcOn vc && (s.csiOpen vc).isSome)
  if s.rbit CSI_STAT 0 && idle then
    let s := s.setRf CSI_STAT 0 1 0
    match [0, 1].find? fun vc => !s.vcOk vc with
    | some vc => (s.setRf CSI_STAT 2 1 1).setRf CSI_STAT 3 1 vc
    | none => (s.commit [CSI_CTRL, CSI_VC 0, CSI_VC 1]).csiStop
  else s

def csiStale (s : State) : State :=
  if s.rbit CSI_STAT 0 then (s.setRf CSI_STAT 1 1 1).raise irqSTALE else s

/-- LK_CSI_STAT as read. -/
def csiStat (s : State) : Word :=
  Word.nat ((s.reg CSI_STAT).toNat + 16 * b2n (s.csiOpen 0).isSome + 32 * b2n (s.csiOpen 1).isSome)

/-! ### I²C (17 R735–R737) -/

/-- The controller is on the part, its die has its supplies, and it may drive its lines: not in BECALMED (02 R68; 03 R146;
log 119). -/
def i2cHas (s : State) (c : Nat) : Bool :=
  (decide (c = 0) && (s.dieUp || decide (s.dev.mode = .reefed))) || (decide (c = 1) && s.part.iob && s.dieUp)

/-- A register of a controller is within a write's reach: BECALMED leaves the registers to the window (03 R146). -/
def i2cSeen (s : State) (c : Nat) : Bool := s.i2cHas c || decide (s.dev.mode = .becalmed ∧ (c = 0 ∨ (c = 1 ∧ s.part.iob = true)))

/-- A write of LK_I2C_XFER: GO takes the address and the bytes to write as they stand. -/
def writeXfer (s : State) (c : Nat) (v : Word) : State :=
  let a := I2C c + 4
  let s := s.setReg a (storeFields (i2cFields 4) (s.reg a) v)
  if bit v 31 ∧ fld v 8 4 ≤ 8 ∧ fld v 12 4 ≤ 8 ∧ (s.i2cRun c).isNone ∧ s.i2cHas c then
    let data := (wordsBytes [s.reg (I2C c + 8), s.reg (I2C c + 0x0C)]).take (fld v 8 4)
    (s.setI2c c (some { wcnt := fld v 8 4, rcnt := fld v 12 4, addr := fld v 0 7, data := data })).setRf (I2C c + 0x18) 0 1 1
  else s

/-- A transfer ends with a result and the bytes acknowledged. -/
def i2cEnd (s : State) (c result n : Nat) : State :=
  let a := I2C c + 0x18
  ((((s.setI2c c none).setRf a 0 1 0).setRf a 1 1 1).setRf a 2 3 result).setRf a 8 4 n

/-- A transfer meets its target: the bus was free, the address was acknowledged, `acks` data bytes were, the repeated
address was, and the bytes read (17 R735; log 4). -/
def i2cMeet (s : State) (c : Nat) (free addr : Bool) (acks : Nat) (again : Bool) (rd : List Byte) : State :=
  match s.i2cRun c with
  | none => s
  | some r =>
    if !free then (s.setI2cOut c []).i2cEnd c 3 0
    else if !addr then (s.setI2cOut c (i2cSends r 0 false ++ [.stop])).i2cEnd c 1 0
    else if acks < r.wcnt then (s.setI2cOut c (i2cSends r (acks + 1) false ++ [.stop])).i2cEnd c 2 acks
    else if r.rcnt ≠ 0 ∧ again = false then (s.setI2cOut c (i2cSends r r.wcnt true ++ [.stop])).i2cEnd c 1 r.wcnt
    else
      let s := s.setI2cOut c (i2cSends r r.wcnt (decide (r.rcnt ≠ 0)) ++ [.stop])
      let l := fitTo rd r.rcnt
      let old := wordsBytes [s.reg (I2C c + 0x10), s.reg (I2C c + 0x14)]
      let ws := bytesWords 2 (l ++ old.drop r.rcnt)
      ((s.setReg (I2C c + 0x10) (wordAt ws 0)).setReg (I2C c + 0x14) (wordAt ws 1)).i2cEnd c 0 r.wcnt

/-- ABORT: how many bytes had been acknowledged is a free value. -/
def i2cAbort (s : State) (c : Nat) : State :=
  if (s.i2cRun c).isSome then let (n, s) := s.i2cCut c true; s.i2cEnd c 4 n else s

/-- RECOVER while no transfer runs: nine SCL pulses with SDA released, then a STOP. -/
def i2cRecover (s : State) (c : Nat) : State :=
  if (s.i2cRun c).isNone ∧ s.i2cHas c then s.setI2cOut c [.pulses 9, .stop] else s

/-- A write of LK_I2C_CTRL. -/
def writeI2cCtrl (s : State) (c : Nat) (v : Word) : State :=
  let idle := (s.i2cRun c).isNone
  let s := if bit v 0 then s.i2cAbort c else s
  if bit v 1 && idle then s.i2cRecover c else s

/-- LK_I2C_STAT as read: the lines' levels, which a target may hold low at any time, are free values. -/
def i2cStat (s : State) (c : Nat) : Word × State :=
  let (x, s) := s.draw 2
  (putFld (s.reg (I2C c + 0x18)) 12 2 x.toNat, s)

end State

/-! ### Meanings -/

/-- CSI_FRAME_START on a VC, with its WC (17 R731). -/
def execCsiFrameStart (vc fnum : Nat) (s : State) : Out := .next (s.csiStart vc fnum)
/-- CSI_FRAME_END (17 R731). -/
def execCsiFrameEnd (vc : Nat) (s : State) : Out := .next (s.csiFinish vc)
/-- CSI_LONG_PACKET (17 R732). -/
def execCsiLongPacket (vc dt : Nat) (payload : List Byte) (crcOk : Bool) (s : State) : Out :=
  .next (s.csiLine vc dt payload crcOk)
/-- CSI_PACKET_DISCARD (17 R731). -/
def execCsiPacketDiscard (kind : Nat) (s : State) : Out := .next (s.csiDiscard kind)
/-- CSI_EN_WRITE: a write of LK_CSI_CTRL (17 R734). -/
def execCsiEnWrite (v : Word) (s : State) : Out := .next (if s.part.iob && s.capRuns then s.writeCsiCtrl v else s)
/-- CSI_COMMIT: a write of LK_CSI_CTRL with COMMIT (17 R734). -/
def execCsiCommit (v : Word) (s : State) : Out :=
  .next (if s.part.iob && s.capRuns && bit v 31 then s.writeCsiCtrl v else s)
/-- CSI_COMMIT_APPLY (17 R734). -/
def execCsiCommitApply (s : State) : Out := .next s.csiApply
/-- CSI_COMMIT_STALE (17 R734). -/
def execCsiCommitStale (s : State) : Out := .next s.csiStale
/-- I2C_GO: a write of LK_I2C_XFER with GO (17 R735). -/
def execI2cGo (c : Nat) (v : Word) (s : State) : Out :=
  .next (if s.i2cSeen c && bit v 31 then s.writeXfer c v else s)
/-- I2C_XFER_END (17 R735). -/
def execI2cXferEnd (c : Nat) (free addr : Bool) (acks : Nat) (again : Bool) (rd : List Byte) (s : State) : Out :=
  .next (s.i2cMeet c free addr acks again rd)
/-- I2C_ABORT (17 R737). -/
def execI2cAbort (c : Nat) (s : State) : Out := .next (s.i2cAbort c)
/-- I2C_RECOVER: nine pulses and a STOP (17 R737). -/
def execI2cRecover (c : Nat) (s : State) : Out := .next (s.writeI2cCtrl c 2)

end Sys2Proof.Machine
end

