-- ==== Sys2Proof/Machine/Lookout.lean ====
section
/-! DEFINITION. The Lookout imager: frames, the pixel pipeline, ETRIM, the decimated stream and commits
(17.1–17.7). -/

namespace Sys2Proof.Machine

namespace State

/-! ### Settings in force -/

def lkOn (s : State) (i : Nat) : Bool := s.fbit LK_CTRL i
def lkHdr (s : State) : Bool := s.lkOn 3
/-- K = KSEL + 1 (17 LK_CTRL). -/
def lkK (s : State) : Nat := s.ff LK_CTRL 6 2 + 1
/-- log2 of the bin factor. -/
def lkBin (s : State) : Nat := s.ff LK_CTRL 4 2
def lkX0 (s : State) : Nat := s.ff LK_WIN_X 0 9
def lkW (s : State) : Nat := s.ff LK_WIN_X 16 9
def lkY0 (s : State) : Nat := s.ff LK_WIN_Y 0 8
def lkH (s : State) : Nat := s.ff LK_WIN_Y 16 8

/-- T_read of a height (17 R714). -/
def tRead (h : Nat) (hdr : Bool) : Nat := h * (if hdr then 16 else 8)

/-- E_max with the settings in force (17 R716). -/
def lkEmax (s : State) : Nat :=
  let b := min 16383 (s.ff LK_PERIOD 0 20 - tRead s.lkH s.lkHdr - 42)
  if s.lkHdr then b * 2 ^ s.lkK / (2 ^ s.lkK + 1) else b

/-- EXP and GAIN in force, held in LK_EXP_STAT (17 R724). -/
def lkExp (s : State) : Nat := s.rf LK_EXP_STAT 0 14
def lkGain (s : State) : Nat := s.rf LK_EXP_STAT 14 2
def setExp (s : State) (e g : Nat) : State := (s.setRf LK_EXP_STAT 0 14 e).setRf LK_EXP_STAT 14 2 g

/-- Es of a long exposure (17 R714). -/
def shortOf (s : State) (e : Nat) : Nat := if s.lkHdr then max 1 (e / 2 ^ s.lkK) else 0

/-! ### ETRIM (17 R723) -/

/-- The exposure and gain after a measurement. -/
def etrimNext (s : State) (x : Etrim) : Nat × Nat :=
  let tgt := s.ff LK_ETRIM 0 10
  let emax := min (s.ff LK_ETRIM 16 14) s.lkEmax
  if (max x.mu tgt - min x.mu tgt) * 8 ≤ tgt then (x.e, x.g)
  else
    let new := x.e * tgt / max x.mu 1
    let new := max (x.e / 2) (min (2 * x.e) new)
    let (g, new) :=
      if emax < new ∧ x.g < s.ff LK_ETRIM 10 2 then (x.g + 1, new / 2)
      else if 0 < x.g ∧ new < x.e ∧ 2 * new ≤ emax then (x.g - 1, 2 * new)
      else (x.g, new)
    (max 1 (min new emax), g)

/-- A measurement's result comes into force. -/
def etrimApply (s : State) (x : Etrim) : State :=
  let (e, g) := s.etrimNext x
  let s := s.setExp e g
  { s with lk := { s.lk with waiting := none, fresh := some x, byEtrim := true } }

/-! ### Frames -/

/-- Frames start in this state (17 R726). -/
def lkStarts (s : State) : Bool :=
  match s.dev.mode with
  | .moored => false
  | .muster => false
  | .reefed => s.lkOn 2
  | _ => true

/-- The frame is forwarded to the Crowsnest (17 R725). -/
def lkForward (s : State) (n : Nat) (t0 : Word) : Bool :=
  s.lkOn 2 && s.lkX0 == 0 && s.lkY0 == 0 && s.lkW == 320 && s.lkH == 240 &&
    (match s.lk.fwd with
     | none => true
     | some (m, t) => decide (s.ff LK_DEC 0 4 + 1 ≤ (Word.nat n - Word.nat m).toNat) && decide (100000 ≤ (t0 - t).toNat))

/-- A frame starts at a frame boundary (17 R715). -/
def frameStart (s : State) (t0 : Word) : State :=
  if s.lkOn 0 && s.lkStarts && s.lk.frame.isNone then
    let s := s.setReg LK_FRAME (s.reg LK_FRAME + 1)
    let n := (s.reg LK_FRAME).toNat
    let e := min s.lkExp s.lkEmax
    let dec := s.lkForward n t0
    { s with lk := { s.lk with
      fresh := none
      fwd := if dec then some (n, t0) else s.lk.fwd
      frame := some {
        t0 := t0, e := e, es := s.shortOf e, gain := s.lkGain, etrim := s.lk.byEtrim, dec := dec
        strobe := s.lkOn 10 && decide (s.dev.mode ≠ .becalmed), live := some s.dieUp
        pair := s.sw.paired } } }
  else s

/-- The defect set: valid factory and user entries, as (x, y) (17 R717). -/
def defects (s : State) : List (Nat × Nat) :=
  let one (w : Word) : List (Nat × Nat) := if bit w 31 then [(fld w 0 9, fld w 16 8)] else []
  (s.part.defects.take 64).flatMap one ++ (List.range 64).flatMap fun n => one (s.force (LK_DEF n))

end State

/-! ### The pixel pipeline (17 R717) -/

/-- A node's raw codes, its black level and the defect set. -/
structure PixelNode where
  raw : Array Nat
  black : Nat
  bad : List (Nat × Nat)

namespace PixelNode

def level (p : PixelNode) (x y : Nat) : Nat := p.raw.getD (y * 320 + x) 0 % 1024 - p.black

/-- Defects take the mean of their row neighbours. -/
def corrected (p : PixelNode) (x y : Nat) : Nat :=
  if p.bad.contains (x, y) then
    if x = 0 then p.level 1 y
    else if x = 319 then p.level 318 y
    else (p.level (x - 1) y + p.level (x + 1) y + 1) / 2
  else p.level x y

end PixelNode

/-- The sum of `f` over a box. -/
def boxSum (x y w h : Nat) (f : Nat → Nat → Nat) : Nat :=
  (List.range h).foldl (fun a j => (List.range w).foldl (fun a i => a + f (x + i) (y + j)) a) 0

namespace State

/-- The merged code of a pixel. -/
def merged (s : State) (lo sh : PixelNode) (x y : Nat) : Nat :=
  let v := lo.corrected x y
  if s.lkHdr && decide (s.ff LK_BLACK 16 10 < v) then sh.corrected x y * 2 ^ s.lkK else v

/-- The unit of SID 1: pixels, padding and trailer (17 R719). -/
def frameUnit (s : State) (f : Frame) (lo sh : PixelNode) (mu : Nat) : List Byte :=
  let b := 2 ^ s.lkBin
  let (wo, ho) := (s.lkW / b, s.lkH / b)
  let px := (List.range ho).flatMap fun y => (List.range wo).flatMap fun x =>
    leBytes 2 ((boxSum (s.lkX0 + b * x) (s.lkY0 + b * y) b b (s.merged lo sh) + b * b / 2) / (b * b))
  let sat := boxSum s.lkX0 s.lkY0 s.lkW s.lkH fun x y => b2n (lo.raw.getD (y * 320 + x) 0 % 1024 == 1023)
  let inWin (p : Nat × Nat) : Bool :=
    decide (s.lkX0 ≤ p.1) && decide (p.1 < s.lkX0 + s.lkW) && decide (s.lkY0 ≤ p.2) && decide (p.2 < s.lkY0 + s.lkH)
  let defs := (lo.bad.eraseDups.filter inWin).length
  px ++ List.replicate ((32 - px.length % 32) % 32) (0 : Byte) ++ wordsBytes [
    s.reg LK_FRAME, f.t0, Word.nat (f.e + 65536 * f.es),
    Word.nat (f.gain + 4 * s.lkBin + 16 * b2n s.lkHdr + 32 * s.ff LK_CTRL 6 2 + 128 * b2n f.etrim + 256 * b2n f.dec +
      512 * b2n f.strobe),
    Word.nat (s.lkX0 + 65536 * s.lkY0), Word.nat (wo + 65536 * ho), Word.nat (mu + 65536 * min sat 65535), Word.nat defs]

/-- A frame ends, with the raw codes of its long and short nodes in row order (17 R719–R725; log 4). Its unit is sent if the device was
HOVE_TO or UNDERWAY when its readout began: a free choice where that changed during the frame, as is the pairing then, and LK_TIME
as its first byte arrived (17 R720; 20 R829, R830; log 1). -/
def frameEnd (s : State) (long short : List Nat) : State :=
  match s.lk.frame with
  | none => s
  | some f =>
    let black := s.ff LK_BLACK 0 10
    let lo : PixelNode := { raw := long.toArray, black := black, bad := s.defects }
    let sh : PixelNode := { lo with raw := short.toArray }
    let mu := boxSum s.lkX0 s.lkY0 s.lkW s.lkH lo.corrected / (s.lkW * s.lkH)
    let unit := s.frameUnit f lo sh mu
    let s := { s with lk := { s.lk with frame := none } }
    let (x, s) : BitVec 1 × State := if f.live.isSome then (0, s) else s.draw 1
    let s := if s.lkOn 1 && f.live.getD (x == 1) then
      let (y, s) : BitVec 1 × State := if f.pair = s.sw.paired then (BitVec.ofNat 1 (b2n f.pair), s) else s.draw 1
      let (time, s) := s.draw 32
      ({ s with units := s.units ++ [(1, unit)] }).forward 1 (y == 1) time unit else s
    let s := if f.dec then
      s.gestureFrame ((List.range 30).flatMap fun y => (List.range 40).map fun x =>
        min 255 ((boxSum (8 * x) (8 * y) 8 8 lo.corrected + 128) / 256))
      else s
    if s.lkOn 9 then
      match s.lk.waiting with
      | some x => s.etrimApply x
      | none => { s with lk := { s.lk with waiting := some ⟨mu, s.lkExp, s.lkGain⟩ } }
    else s

/-! ### Commits (17.6) -/

def lkGroup : List Nat :=
  [LK_CTRL, LK_WIN_X, LK_WIN_Y, LK_PERIOD, LK_EXP, LK_ETRIM, LK_BLACK, LK_DEC] ++ (List.range 64).map LK_DEF

/-- A write of LK_CTRL (17 R727). -/
def writeLkCtrl (s : State) (v : Word) : State :=
  let s := s.setReg LK_CTRL (storeFields (lkFields 0) (s.reg LK_CTRL) v)
  if bit v 31 then s.setRf LK_STAT 0 1 1 else s

/-- The first check of R728 that the staged group fails. -/
def lkReject (s : State) : Option Nat :=
  let x0 := s.rf LK_WIN_X 0 9
  let w := s.rf LK_WIN_X 16 9
  let y0 := s.rf LK_WIN_Y 0 8
  let h := s.rf LK_WIN_Y 16 8
  let p := s.rf LK_PERIOD 0 20
  if x0 % 4 ≠ 0 ∨ y0 % 4 ≠ 0 ∨ w % 4 ≠ 0 ∨ h % 4 ≠ 0 ∨ w < 16 ∨ h < 4 ∨ 320 < x0 + w ∨ 240 < y0 + h then some 0
  else if p < 4167 ∨ 1000000 < p then some 1
  else if p < tRead h (s.rbit LK_CTRL 3) + 42 + 2 then some 2
  else if (List.range 64).any fun n =>
      s.rbit (LK_DEF n) 31 && (decide (319 < s.rf (LK_DEF n) 0 9) || decide (239 < s.rf (LK_DEF n) 16 8)) then some 3
  else none

/-- A pending commit meets a frame boundary (17 R727, R728, R724). -/
def lkApply (s : State) : State :=
  if s.rbit LK_STAT 0 && s.lk.frame.isNone then
    let s := s.setRf LK_STAT 0 1 0
    match s.lkReject with
    | some why => (s.setRf LK_STAT 2 1 1).setRf LK_STAT 4 2 why
    | none =>
      let dec := s.rbit LK_CTRL 2 && !s.lkOn 2
      let s := s.commit lkGroup
      let s := if dec then { s with lk := { s.lk with fwd := none } } else s
      let s :=
        if s.lkOn 11 then
          { s.setExp (s.rf LK_EXP 0 14) (s.rf LK_EXP 16 2) with
            lk := { s.lk with waiting := none, fresh := none, byEtrim := false } }
        else match s.lk.fresh with
          | some x => if s.lkOn 9 then s.etrimApply x else s
          | none => s
      let s := if s.lkOn 9 then s else { s with lk := { s.lk with waiting := none } }
      if s.lkOn 0 && s.lkOn 1 then s else s.stopStream 1
  else s

/-- A commit pending past its limit (17 R729). -/
def lkStale (s : State) : State :=
  if s.rbit LK_STAT 0 then (s.setRf LK_STAT 1 1 1).raise irqSTALE else s

/-- A Lookout register that is computed; none where it is held. -/
def lkComputed (s : State) (o : Nat) : Option (Word × State) :=
  if o = 0x20 then some (Word.nat ((s.reg LK_STAT).toNat + 64 * b2n s.lk.frame.isSome), s)
  else if o = 0x24 then some (putFld (s.reg LK_EXP_STAT) 16 14 (s.shortOf s.lkExp), s)
  else if o = 0x30 then some s.lkTime
  else if 0x200 ≤ o ∧ o < 0x300 then some (s.part.defects.getD ((o - 0x200) / 4) 0 &&& 0x80FF01FF, s)
  else none

end State

/-! ### Meanings -/

/-- FRAME_START at an LK_TIME (17 R715; log 4). -/
def execFrameStart (time : Word) (s : State) : Out := .next (s.frameStart time)
/-- FRAME_END with the raw codes of both nodes (17 R715, R717). -/
def execFrameEnd (long short : List Nat) (s : State) : Out := .next (s.frameEnd long short)
/-- LK_COMMIT: a write of LK_CTRL with COMMIT (17 R727). -/
def execLkCommit (v : Word) (s : State) : Out := .next (if bit v 31 then s.writeLkCtrl v else s)
/-- LK_COMMIT_APPLY (17 R727, R728). -/
def execLkCommitApply (s : State) : Out := .next s.lkApply
/-- LK_COMMIT_STALE (17 R729). -/
def execLkCommitStale (s : State) : Out := .next s.lkStale

end Sys2Proof.Machine
end

