-- ==== Sys2Proof/Machine/Reader.lean ====
section
/-! DEFINITION. The QSPI reader (21 R863–R865). -/

namespace Sys2Proof.Machine.State

/-- The reader ends with a result. -/
def qrdDone (s : State) (result : Nat) : State :=
  let v := s.reg MU_QRD_STAT
  s.setReg MU_QRD_STAT (putFld (putFld (putFld v 0 1 0) 1 1 1) 2 3 result)

/-- GO (21 R864): 0 OK, 1 REGION, 2 FLASH, 3 STATE. A transfer of no reads checks the state alone (log 28). -/
def qrdGo (s : State) : State :=
  let n := s.rf MU_QRD_CTRL 0 16
  let dst := (s.reg MU_QRD_DST).toNat
  if s.rbit MU_QRD_STAT 0 then s
  else if !s.dieUp then s.qrdDone 3
  else if n = 0 then s.qrdDone 0
  else match s.findRegion dst ((dst + 4096 * n : Nat) - 1 : Int) [2, 12] with
    | none => s.qrdDone 1
    | some e =>
      if s.rbit MU_QRD_CTRL 21 = false ∧ 0x1000000 < (s.reg MU_QRD_FOFF).toNat + 4096 * n then s.qrdDone 2
      else { s.setRf MU_QRD_STAT 0 1 1 with dev := { s.dev with reader := some ⟨e, dst, n⟩ } }

/-- A write of MU_QRD_CTRL. -/
def writeQrdCtrl (s : State) (v : Word) : State :=
  let s := s.setReg MU_QRD_CTRL (storeFields (muFields 0x108) (s.reg MU_QRD_CTRL) v)
  if bit v 31 then s.qrdGo else s

/-- The transfer ends: the bytes the flash gave are written, in ascending order (21 R864). -/
def qrdEnd (s : State) (data : List Byte) : State :=
  match s.dev.reader with
  | none => s
  | some r =>
    let l := (data ++ List.replicate (4096 * r.n) (0 : Byte)).take (4096 * r.n)
    let s := { s with dev := { s.dev with reader := none } }
    let s := if spaceOf s.part r.dst = .remote then s.issueRun .reader true r.dst l l.length
      else (s.eccWrite srcHalyard r.dst l).1
    s.qrdDone 0

end Sys2Proof.Machine.State

namespace Sys2Proof.Machine

/-- QRD_GO: a write of MU_QRD_CTRL with GO (21 R864). -/
def execQrdGo (v : Word) (s : State) : Out := .next (if bit v 31 then s.writeQrdCtrl v else s)
/-- QRD_END: the transfer has read `data` (21 R864; log 4). -/
def execQrdEnd (data : List Byte) (s : State) : Out := .next (s.qrdEnd data)

end Sys2Proof.Machine
end

