-- ==== Sys2Proof/Machine/Csr.lean ====
section
/-! DEFINITION. Reads and writes of the CSR space: the computed registers of each block, and the writes that do more
than store their fields (00 R16–R22; the register sections of chapters 4, 6 to 8, 10 to 14 and 17 to 21). -/

namespace Sys2Proof.Machine.State

/-! ### Computed registers -/

/-- The instance that a ring's entries run on, where its MASK names one. -/
def ringInst (r : Ring) : Nat := ((List.range 4).find? r.mask.testBit).getD 0

/-- CAP_STAT (07.10). -/
def capStat (s : State) : Word :=
  Word.nat (s.cap.flights.length + 512 * b2n (s.cap.rings.any fun (_, r) => r.st == .halted) +
    1024 * b2n (s.dkbit DK_CTRL 1) + 2048 * b2n (!s.working))

/-- CAP_HALTEDk. -/
def haltedWord (s : State) (k : Nat) : Word :=
  Word.nat ((s.cap.rings.filter fun (n, r) => n / 32 == k && r.st == .halted).foldl (fun a e => a + 2 ^ (e.1 % 32)) 0)

/-- HY_STAT and HY_BINDn of a Halyard instance (08.10). -/
def hyRead (s : State) (i o : Nat) : Word :=
  let bound (sid : Nat) : Option Nat :=
    match Store.get 0 s.cap.binds sid with
    | 0 => none
    | n + 1 => if ringInst (s.ring n) = i then some n else none
  if o = 0 then
    Word.nat (s.windowUsed 4 i + ((List.range 8).foldl (fun a k => a + b2n (bound (k + 1)).isSome * 2 ^ (k + 8)) 0))
  else if 0x10 ≤ o ∧ o < 0x30 then
    match bound ((o - 0x10) / 4 + 1) with
    | some n => Word.nat (n + 2 ^ 31)
    | none => 0
  else 0

/-- The descriptor an instance runs. -/
def runs (s : State) (cls inst : Nat) : Option Flight :=
  (s.current cls inst).filter fun f => match f.st with | .running _ => true | _ => false

/-- LM_STAT (10.12). -/
def lmStat (s : State) (i : Nat) : Word :=
  let l := s.loom i
  let depth := (l.out.filter fun b => b.bank.isNone).length
  let (feed, out) := match s.runs 0 i with
    | some f =>
      let x := loomD f.desc
      let bank := if x.chain then (match l.kept with | some (k, _) => k | none => l.nextBank) else l.nextBank
      let o := l.held.contains bank || (x.out == 2 && decide (8 ≤ depth))
      (x.feed && !o && (match l.feed with | some g => g.fault.isNone && g.windows.isEmpty | none => true), o)
    | none => (false, false)
  Word.nat (s.windowUsed 0 i + 32 * b2n (s.runs 0 i).isSome + 64 * b2n l.kept.isSome + 128 * b2n feed + 256 * depth +
    4096 * (b2n (l.held.contains 0) + 2 * b2n (l.held.contains 1)) + 16384 * b2n out + 65536 * (l.prec % 256))

/-- HW_STAT (11.11). -/
def hwStat (s : State) (i : Nat) : Word :=
  let f := s.runs 1 i
  let (wait, halo, feeding, tile) := match f with
    | some f =>
      let x := harrowD f.desc
      let paired := match (s.loom x.tile).feed with
        | some g => g.inst == i && g.ring == f.ring && g.idx == f.idx
        | none => false
      match f.st with
      | .running (.harrow 0) => (false, true, false, x.tile)
      | .running (.harrow k) => (!paired, k == 2 && x.role != 0, paired && k == 3, x.tile)
      | _ => (false, false, false, 0)
    | none => (false, false, false, 0)
  Word.nat (s.windowUsed 1 i + 32 * b2n f.isSome + 64 * b2n (s.harrow i).kept.isSome + 128 * b2n wait +
    256 * b2n halo + 512 * b2n feeding + 1024 * (tile % 4))

/-- ML_STAT (12.10). -/
def mlStat (s : State) (i : Nat) : Word :=
  let (w, t) := match s.accWaiting i with
    | some (f, k) => (true, (strm f.desc k).tile)
    | none => (false, 0)
  Word.nat (s.windowUsed 2 i + 32 * b2n (s.runs 2 i).isSome + 64 * b2n w + 128 * t +
    512 * b2n ((s.mill i).hold.any fun h => h.2.2.bank.isSome))

/-- SH_STAT (13.11). -/
def shStat (s : State) (i : Nat) : Word :=
  let n := (s.fifo i).length
  let w := match (s.runs 3 i).map (·.st) with
    | some (.running (.sheaf _ _)) => decide (16 ≤ n)
    | _ => false
  Word.nat (s.windowUsed 3 i + 16 * b2n (s.runs 3 i).isSome + 32 * n + 1024 * b2n w)

/-- A Mill's slot: ML_STAT, and the windows onto its mask and tile registers, which a running descriptor makes
undefined to read and closes to writes (12 R544). -/
def mlRead (s : State) (i o : Nat) : Word × State :=
  if o = 0 then (s.mlStat i, s)
  else if o < 0x4000 ∨ (0x5000 ≤ o ∧ o < 0x8000) then
    let a := ML i + o
    (s.reg a, s.setReg a (clearRc (csrFields a) (s.reg a)))
  else if (s.runs 2 i).isSome then s.draw 32
  else if o < 0x5000 then (Store.get 0 (s.mill i).masks ((o - 0x4000) / 4), s)
  else (Store.get 0 (s.mill i).tregs ((o - 0x8000) / 4), s)

def mlWrite (s : State) (i o : Nat) (v : Word) : State :=
  let m := s.mill i
  if o < 0x4000 ∨ (0x5000 ≤ o ∧ o < 0x8000) then
    let a := ML i + o
    s.setReg a (storeFields (csrFields a) (s.reg a) v)
  else if (s.runs 2 i).isSome then s
  else if o < 0x5000 then s.setMill i { m with masks := Store.set 0 m.masks ((o - 0x4000) / 4) v }
  else s.setMill i { m with tregs := Store.set 0 m.tregs ((o - 0x8000) / 4) v }

/-- The BS_ block: the CSRs by number, and BS_PC (14 R612). -/
def bsSlot (s : State) (o : Nat) : Word × State :=
  if o = 0x8000 then (if s.dev.image.isSome then s.core.pc else 0, s)
  else if o < 0x240 ∧ bsKnown (o / 4) then s.bsRead (o / 4)
  else (0, s)

/-! ### Reads and writes -/

/-- A register that is held: its value, and its RC fields cleared (00 R17, R22). -/
def plainRead (s : State) (a : Nat) : Word × State := (s.reg a, s.setReg a (clearRc (csrFields a) (s.reg a)))
def plainWrite (s : State) (a : Nat) (v : Word) : State := s.setReg a (storeFields (csrFields a) (s.reg a) v)

/-- A read of the CSR at a word address: its value, and the state its read side effects leave. -/
def csrRead (s : State) (a : Nat) : Word × State :=
  let o := a % 0x10000
  match a / 0x10000 with
  | 0x4000 =>
    if o = 0 then (s.capStat, s)
    else if 0x1000 ≤ o ∧ o < 0x1400 then (s.bell ((o - 0x1000) / 4), s)
    else if 0x2000 ≤ o ∧ o < 0x2800 then (s.haltedWord ((o - 0x2000) / 4), s)
    else s.plainRead a
  | 0x4001 =>
    if o < 0x400 ∧ o % 16 = 0xC then
      (Word.nat (Store.get 0 s.rgRef (o / 16) % 512 + 65536 * b2n (s.rgPend.contains (o / 16))), s)
    else s.plainRead a
  | 0x4003 => s.bsSlot o
  | 0x4004 => (s.hyRead 0 o, s)
  | 0x4005 => (s.hyRead 1 o, s)
  | 0x4006 => (s.hyRead 2 o, s)
  | 0x4007 => (s.hyRead 3 o, s)
  | 0x4008 => if o = 0 then (s.lmStat 0, s) else s.plainRead a
  | 0x4009 => if o = 0 then (s.lmStat 1, s) else s.plainRead a
  | 0x400A => if o = 0 then (s.lmStat 2, s) else s.plainRead a
  | 0x400B => if o = 0 then (s.lmStat 3, s) else s.plainRead a
  | 0x400C => if o = 0 then (s.hwStat 0, s) else s.plainRead a
  | 0x400D => if o = 0 then (s.hwStat 1, s) else s.plainRead a
  | 0x400E => s.mlRead 0 o
  | 0x400F => s.mlRead 1 o
  | 0x4010 => if o = 0 then (s.shStat 0, s) else s.plainRead a
  | 0x4011 => if o = 0 then (s.shStat 1, s) else s.plainRead a
  | 0x4020 => if o = 0 then (s.ckStat, s) else s.plainRead a
  | 0x4021 => if o = 0xC then (s.trStat, s) else s.plainRead a
  | 0x4081 =>
    if o = 4 then (s.cnStat, s) else if o = 0x100 then s.readCnEvent else s.plainRead a
  | 0x4082 => match s.lkComputed o with | some r => r | none => s.plainRead a
  | 0x4083 =>
    if o = 0x24 then (s.auStat, s) else if o = 0x28 then (s.audio.tick, s) else s.plainRead a
  | 0x4084 => if o = 0x18 then s.i2cStat 0 else s.plainRead a
  | 0x40C0 => match s.swComputed o with | some v => (v, s) | none => s.plainRead a
  | 0x40C1 => if o = 0xC then (s.csiStat, s) else s.plainRead a
  | 0x40C2 => if o = 0x18 then s.i2cStat 1 else s.plainRead a
  | _ => s.plainRead a

/-- A write of the CSR at a word address. -/
def csrWrite (s : State) (a : Nat) (v : Word) : State :=
  let o := a % 0x10000
  match a / 0x10000 with
  | 0x4000 =>
    if o = 4 then s.ringStart (fld v 0 14) (fld v 16 3) (fld v 20 3)
    else if o = 0x14 then
      let s := s.plainWrite a v
      if bit v 31 then s.tackRelease else s
    else if 0x1000 ≤ o ∧ o < 0x1400 then s.bellOp ((o - 0x1000) / 4) true v
    else if 0x1400 ≤ o ∧ o < 0x1800 then s.bellOp ((o - 0x1400) / 4) false v
    else if 0x1800 ≤ o ∧ o < 0x2000 ∧ o % 8 = 4 then s.writeBtcfg ((o - 0x1800) / 8) v
    else s.plainWrite a v
  | 0x4001 =>
    if o < 0x400 ∧ o % 16 = 0xC then (if bit v 31 then rgCommit (o / 16) s else s)
    else if o = 0x410 then injectMode (fld v 0 2) s
    else s.plainWrite a v
  | 0x400E => s.mlWrite 0 o v
  | 0x400F => s.mlWrite 1 o v
  | 0x4010 => if o = 8 then (if bit v 0 then s.setFifo 0 [] else s) else s.plainWrite a v
  | 0x4011 => if o = 8 then (if bit v 0 then s.setFifo 1 [] else s) else s.plainWrite a v
  | 0x4021 => if o = 0 then s.writeTrCtrl v else s.plainWrite a v
  | 0x4080 => if o = 0x108 then s.writeQrdCtrl v else s.plainWrite a v
  | 0x4081 => if o = 0 then s.writeCnCtrl v else s.plainWrite a v
  | 0x4082 => if o = 0 then s.writeLkCtrl v else s.plainWrite a v
  | 0x4083 => if o = 0 then s.writeAuCtrl v else if o = 0xC then s.writeCap6 v else s.plainWrite a v
  | 0x4084 => if o = 4 then s.writeXfer 0 v else if o = 0x1C then s.writeI2cCtrl 0 v else s.plainWrite a v
  | 0x40C0 => if o = 0 then s.writeSwCtrl v else if o = 0x84 then s.writeRbell v else s.plainWrite a v
  | 0x40C1 => if o = 0 then s.writeCsiCtrl v else s.plainWrite a v
  | 0x40C2 => if o = 4 then s.writeXfer 1 v else if o = 0x1C then s.writeI2cCtrl 1 v else s.plainWrite a v
  | _ => s.plainWrite a v

end Sys2Proof.Machine.State
end

