-- ==== Sys2Proof/Machine/BosunCore.lean ====
section
/-! DEFINITION. How Bosun executes: fetches, data accesses, the store queue, exception entry and return, loops, the
end of an instruction, and the comparison of the two copies (14.2–14.8, 15.3–15.7, 16.1). -/

namespace Sys2Proof.Machine

/-- How an instruction ends: completed; a branch or jump with its target when taken; completed with a next PC of its own;
an exception with code, sub-cause and bad address; blocked; or stopped by a class F fault. -/
inductive BRes where
  | done (s : State)
  | jump (s : State) (target : Option Word)
  | goto (s : State) (pc : Word)
  | exc (s : State) (code sub : Nat) (bad : Word)
  | block (s : State) (w : BosunWait)
  | stop (s : State)

/-- A wait is one of a slot-barred instruction: all but those of loads and stores (14 R606). -/
def WaitKind.barred : WaitKind → Bool
  | .load _ _ => false
  | .store => false
  | _ => true

namespace State

/-! ### The store queue (14 R596) -/

/-- An uncorrectable word met by Bosun (06 Table 6.4, 16 Table 16.5). -/
def bosunEcc (s : State) (a : Nat) : State :=
  let (mem, s) := if inCn a then let (x, s) := s.draw 3; (x.toNat, s) else (memNumber s.part a, s)
  s.becalm 0x25 false (Word.nat (mem + srcBosun * 16)) a

/-- A Bosun store is performed at a local target. -/
def performAt (s : State) (a : Nat) (l : List Byte) : State :=
  match spaceOf s.part a with
  | .csr => s.csrWrite a (leWord l)
  | _ =>
    let (s, ue) := s.eccWrite srcBosun a l
    match ue with
    | some w => s.bosunEcc w
    | none => s

/-- The oldest queued store is performed. -/
def performStore (s : State) : State :=
  match s.bosun.stores with
  | [] => s
  | (a, l) :: t => { s with bosun := { s.bosun with stores := t } }.performAt a l

/-- The queue is emptied. -/
def drainStores (s : State) : State := s.bosun.stores.foldl (fun s _ => s.performStore) s

/-- A class F fault of the pair: outputs compared before it stay in effect (16 R704). -/
def pairFault (s : State) (code : Nat) (detail : Word) : State := s.drainStores.becalm code false detail

/-! ### Fetches (14 Table 14.1) -/

/-- The exception a fetch raises: code and sub-cause. -/
def fetchBars (s : State) (pc : Word) : Option (Nat × Nat) :=
  match spaceOf s.part pc.toNat with
  | .itcm =>
    if s.crew && decide (pc.toNat < 0x60000000 + (s.bsv BS_CREW_IBASE).toNat) then some (1, 0) else none
  | .rom => if s.crew then some (1, 0) else none
  | .hole => some (7, 1)
  | _ => some (1, 0)

/-- An instruction word is read: the word, or none where it is uncorrectable and the fault is taken. -/
def fetchWord (s : State) (pc : Word) : State × Option Word :=
  let (s, ue) := s.eccRead srcBosun pc.toNat 4
  match ue with
  | some a => (s.bosunEcc a, none)
  | none => (s, some (s.peekWord pc.toNat))

/-! ### Data accesses (14 Table 14.1, R594–R596; 06 R251, R258) -/

/-- The slots and registers that only Keeper code stores to. -/
def keeperSlot (a : Nat) : Bool :=
  let i := (a - 0x40000000) / 0x10000
  decide (i ≤ 3) || i == 0x20 || i == 0x21 || i == 0x80 || a == SH 0 + 8 || a == SH 1 + 8

/-- The exception a data access of `size` bytes raises: code and sub-cause (15 R642). -/
def dataBars (s : State) (a size : Nat) (st : Bool) : Option (Nat × Nat) :=
  let region : Option (Nat × Nat) :=
    if s.crew && (s.findRegion (a : Nat) ((a + size - 1 : Nat) : Int) [4, if st then 2 else 1]).isNone then some (6, 2) else none
  if a % size ≠ 0 then some (5, 0)
  else match spaceOf s.part a with
    | .hole => some (7, 0)
    | .rom => if st then some (7, 0) else region
    | .itcm => if s.crew then some (6, 1) else none
    | .dtcm =>
      if s.crew && decide (a < 0x61000000 + (s.bsv BS_CREW_DBASE).toNat) then some (6, 1) else none
    | .csr =>
      if size ≠ 4 then some (7, 0)
      else if st && decide ((a - 0x40000000) / 0x10000 = 3) then some (6, 1)
      else if st && s.crew && keeperSlot a then some (6, 1)
      else region
    | _ => region

/-- A loaded value of `size` bytes, extended. -/
def extend (size : Nat) (sg : Bool) (v : Nat) : Word :=
  if sg then Word.nat (wrap 32 (sgn (8 * size) v)) else Word.nat v

/-- A load into `rd`. -/
def bload (s : State) (size : Nat) (sg : Bool) (rd : Reg) (a : Nat) : BRes :=
  match s.dataBars a size false with
  | some (c, sub) => .exc s c sub (Word.nat a)
  | none =>
    let s := s.emitData size a none
    match spaceOf s.part a with
    | .remote =>
      let s := s.drainStores
      if s.dev.mode = .becalmed then .stop s
      else
        let s := s.issueRun .bosun false a [] size
        match s.runOutcome .bosun with
        | some (0, l) => .done ((s.dropOps .bosun).setBw rd (extend size sg (leNat l)))
        | some _ => .exc (s.dropOps .bosun) 6 3 (Word.nat a)
        | none => .block s { kind := .load size sg, sel := a, rd := rd.toNat }
    | .csr =>
      let s := s.drainStores
      if s.dev.mode = .becalmed then .stop s
      else let (v, s) := s.csrRead a; .done (s.setBw rd v)
    | sp =>
      let s := if sp = .itcm ∨ sp = .dtcm then s else s.drainStores
      if s.dev.mode = .becalmed then .stop s
      else
        let (s, ue) := s.eccRead srcBosun a size
        match ue with
        | some w => .stop (s.bosunEcc w)
        | none =>
          let (l, s) := s.readBytes a size
          .done (s.setBw rd (extend size sg (leNat l)))

/-- A store of the low `size` bytes of a word. -/
def bstore (s : State) (size : Nat) (v : Word) (a : Nat) : BRes :=
  let l := leBytes size v.toNat
  match s.dataBars a size true with
  | some (c, sub) => .exc s c sub (Word.nat a)
  | none =>
    let s := s.emitData size a (some (leNat l))
    match spaceOf s.part a with
    | .remote =>
      let s := s.drainStores
      if s.dev.mode = .becalmed then .stop s
      else
        let s := s.issueRun .bosun true a l size
        match s.runOutcome .bosun with
        | some (0, _) => .done (s.dropOps .bosun)
        | some _ => .exc (s.dropOps .bosun) 6 3 (Word.nat a)
        | none => .block s { kind := .store, sel := a }
    | sp =>
      if sp = .itcm ∨ sp = .dtcm then
        let s := s.performAt a l
        if s.dev.mode = .becalmed then .stop s else .done s
      else
        let s := if s.bosun.stores.length < 4 then s else s.performStore
        if s.dev.mode = .becalmed then .stop s
        else .done { s with bosun := { s.bosun with stores := s.bosun.stores ++ [(a, l)] } }

/-! ### Exception entry (15.3) -/

/-- The frame check (15 R648). -/
def frameOk (s : State) (sp : Nat) : Bool :=
  sp % 8 == 0 && decide ((s.bsv BS_SPLIM_LO).toNat + 16 ≤ sp) && decide (sp ≤ (s.bsv BS_SPLIM_HI).toNat) &&
    decide (0x61000010 ≤ sp) && decide (sp ≤ 0x61010000)

/-- A double fault: Bosun halts in both copies (15 R650). -/
def doubleFault (s : State) (detail : Nat) : State := s.emitHalt.pairFault 0x23 (Word.nat detail)

/-- A frame word is pushed. -/
def pushWord (s : State) (a v : Nat) : State := (s.emitData 4 a (some v)).performAt a (leBytes 4 v)

/-- STATUS as entry leaves it: PMODE, PIE, BD and MCP of the frame image, Keeper, IE = 0. -/
def entryStatus (v : Word) (image : Nat) (esv : Bool) : Word :=
  putFld (putFld (putFld v 0 2 0) 2 5 (image / 4)) 7 1 (b2n esv)

/-- Control passes to a vector, which must be fetchable. -/
def vectorTo (s : State) (vec : Nat) : State :=
  let pc := s.bsv BS_EVEC + Word.nat vec
  let s := s.setCore { s.core with pc := pc, delay := none, shadow := 0, entered := true }
  match s.fetchBars pc with
  | some _ => s.doubleFault (s.bsf BS_CAUSE 0 8 + 256)
  | none => s

/-- A frame that cannot be pushed goes to the ESAVE bank and STACK_FAULT is entered (15 R649, 15.4). -/
def stackFault (s : State) (image : Nat) (epc : Word) (cause : Nat) (bad sp : Word) (code src : Nat) : State :=
  let s := ((((s.setBs (BS_ESAVE 0) (Word.nat image)).setBs (BS_ESAVE 1) epc).setBs (BS_ESAVE 2) (Word.nat cause)).setBs
    (BS_ESAVE 3) bad).setBs (BS_ESAVE 4) sp
  let s := s.setBw 30 (s.bsv BS_ESP)
  let s := ((s.setBs BS_CAUSE (Word.nat (0x0A + code * 256 + src * 65536))).setBs BS_BADADDR sp).setBs BS_EPC epc
  (s.setBs BS_STATUS (entryStatus (s.bsv BS_STATUS) image true)).vectorTo 0

/-- MODE, IE, BD and MCP as the frame's word 0 gives them (15 Table 15.2). -/
def frameImage (s : State) (bd : Bool) (mcp : Nat) : Nat :=
  s.bsf BS_STATUS 0 1 * 4 + s.bsf BS_STATUS 1 1 * 8 + b2n bd * 16 + mcp * 32

/-- Exception entry (15 R649). -/
def enterExc (s : State) (code sub src : Nat) (epc : Word) (bd : Bool) (mcp : Nat) (bad : Word) (vec : Nat) : State :=
  let image := s.frameImage bd mcp
  let cause := code + sub * 256 + src * 65536
  let sp := s.bw 30
  if s.esv then s.doubleFault code
  else if s.frameOk sp.toNat then
    let b := sp.toNat - 16
    let s := (((s.pushWord b image).pushWord (b + 4) epc.toNat).pushWord (b + 8) cause).pushWord (b + 12) bad.toNat
    let s := s.setBw 30 (Word.nat b)
    let s := ((s.setBs BS_CAUSE (Word.nat cause)).setBs BS_BADADDR bad).setBs BS_EPC epc
    (s.setBs BS_STATUS (entryStatus (s.bsv BS_STATUS) image false)).vectorTo vec
  else s.stackFault image epc cause bad sp code src

/-- A synchronous exception of the instruction at PC (15 R654, R655). -/
def trap (s : State) (code sub : Nat) (bad : Word) : State :=
  let c := s.core
  match c.delay with
  | some (br, _) => s.enterExc code sub 0 br true c.shadow bad 0x080
  | none => s.enterExc code sub 0 c.pc false c.shadow bad 0x080

/-! ### The end of an instruction (14 R593, R609, R610) -/

/-- The loop action: the next PC after the instruction at `pc`. -/
def loopNext (s : State) (pc : Word) : Word × State :=
  let one (s : State) (n : Nat) : Option Word × State :=
    let lc := s.bsv (BS_LC n)
    if lc ≠ 0 ∧ pc = s.bsv (BS_LE n) then
      if lc ≠ 1 then (some (s.bsv (BS_LS n)), s.setBs (BS_LC n) (lc - 1))
      else (none, s.setBs (BS_LC n) 0)
    else (none, s)
  match one s 1 with
  | (some t, s) => (t, s)
  | (none, s) =>
    match one s 0 with
    | (some t, s) => (t, s)
    | (none, s) => (pc + 4, s)

/-- One shadow instruction fewer remains; Crew mode follows the last. -/
def shadowStep (s : State) : State :=
  match s.core.shadow with
  | 0 => s
  | 1 => (s.setCore { s.core with shadow := 0 }).setBsf BS_STATUS 0 1 1
  | k + 1 => s.setCore { s.core with shadow := k }

def retire (s : State) : State := { s with bosun := { s.bosun with instret := s.bosun.instret + 1, wait := none } }

/-- An instruction that is, or is not, slot-barred ends with `r`. -/
def endIns (barred : Bool) : BRes → State
  | .done s =>
    let c := s.core
    let s := s.retire
    let (next, s) := if barred then (c.pc + 4, s) else s.loopNext c.pc
    let next := match c.delay with
      | some (_, some t) => t
      | _ => next
    (s.setCore { s.core with pc := next, delay := none, entered := false }).shadowStep
  | .jump s t =>
    let pc := s.core.pc
    s.retire.setCore { s.core with pc := pc + 4, delay := some (pc, t), entered := false }
  | .goto s pc => s.retire.setCore { s.core with pc := pc, entered := false }
  | .exc s code sub bad => { s with bosun := { s.bosun with wait := none } }.trap code sub bad
  | .block s w => { s with bosun := { s.bosun with wait := some w } }
  | .stop s => s

/-! ### The two copies (16 R680, R681) -/

/-- A DIVERGE write takes effect in the trailing copy (16 R692). -/
def divergeTrail (s : State) : State :=
  match s.bosun.diverge with
  | some r =>
    let t := s.bosun.trail.getD s.core
    { s with bosun := { s.bosun with diverge := none, trail := some (t.setReg r (t.reg r ^^^ 1)) } }
  | none => s

/-- The frame words among some compared bundles are in memory (16 R704). -/
def keepPrefix (s : State) (bs : List Nat) : State :=
  bs.foldl (fun s b =>
    let a := b / 2 ^ 35 % 2 ^ 32
    if b.testBit 31 && b.testBit 32 && decide (spaceOf s.part a = .dtcm) then s.performAt a (leBytes 4 (b / 2 ^ 67 % 2 ^ 32))
    else s) s

/-- A copy that goes on while the other blocks presents its next fetch (16 R680). -/
def goesOn (a b : State) : State := if a.bosun.wait.isNone && b.bosun.wait.isSome then a.emitFetch a.core.pc else a

/-- Both copies do `f`; where a bundle differs, LOCK_MISMATCH. -/
def lockstep (f : State → State) (s : State) : State :=
  let out (x : State) : State := { x with bosun := { x.bosun with bundle := [] } }
  let a := f s
  match s.bosun.trail with
  | none => (out a).divergeTrail
  | some t =>
    let b := f (s.setCore t)
    let (a, b) := (goesOn a b, goesOn b a)
    match bundlesDiffer a.bosun.bundle b.bosun.bundle with
    | none =>
      (out { a with bosun := { a.bosun with
        trail := if b.core = a.core then none else some b.core } }).divergeTrail
    | some (kept, diff) =>
      (s.keepPrefix kept).pairFault 0x20 (Word.nat (diff.headD 0 + min diff.length 255 * 256))

/-- The boundary Bosun stands at can be interrupted: no delay slot or shadow is next, and no load or store waits
(15 R660). -/
def interruptible (s : State) : Bool :=
  s.core.delay.isNone && decide (s.core.shadow = 0) &&
    (match s.bosun.wait with | some w => WaitKind.barred w.kind | none => true)

/-- The conditions of R660 for the copy that `core` holds. -/
def interrupts (s : State) : Bool :=
  s.bsf BS_STATUS 1 1 == 1 && s.ienabled != 0 && !s.esv && s.interruptible

/-- One of the copies would take an INTERRUPT now. -/
def interruptDue (s : State) : Bool :=
  s.interrupts || (match s.bosun.trail with | some t => (s.setCore t).interrupts | none => false)

/-- A resync, with the CHECKPOINT that follows it, is due at a boundary that allows it (15 R662; 16 R688, R707). -/
def resyncDue (s : State) : Bool := s.rbit (bsAddr BS_LS_STAT) 8 && !s.esv && s.interruptible

/-- Bosun may stop here for REEF or BIND: the boundary is interruptible, and not between an exception's entry and its
handler's first instruction (03 R138; 15 R676). -/
def atBoundary (s : State) : Bool := s.interruptible && !s.core.entered

/-- Bosun is clocked and would issue its next instruction: no stop, CHECKPOINT or INTERRUPT comes first (14 R591; 03 R138,
R145; 15 R644, R660, R663; 16 R688; log 130). The boot flow's own instructions are BOOT_FLOW_END's (03 R127). -/
def bosunReady (s : State) : Bool :=
  s.bosun.run && !s.dev.booting && s.bosun.wait.isNone && !s.bosun.ckpt && s.capRuns &&
    !(s.dev.stopping && s.atBoundary) && !s.resyncDue && !s.interruptDue

/-- The instruction at PC, where it can be fetched. -/
def nextIns (s : State) : Option BIns :=
  let pc := s.core.pc
  if (s.fetchBars pc).isSome || s.ecc.any (fun e => decide (e = (pc.toNat, Ecc.double))) then none
  else decodeB (s.peekWord pc.toNat)

end State

end Sys2Proof.Machine
end

