-- ==== Sys2Proof/Machine/BosunIsa.lean ====
section
/-! DEFINITION. What each of Bosun's instructions does (14.5–14.11, 15.7). -/

namespace Sys2Proof.Machine

/-! ### Arithmetic (14 R600–R602) -/

def boolWord (b : Bool) : Word := if b then 1 else 0

/-- R-format arithmetic. -/
def ROp.eval (op : ROp) (a b : Word) : Word :=
  match op with
  | .add => a + b
  | .sub => a - b
  | .and => a &&& b
  | .or => a ||| b
  | .xor => a ^^^ b
  | .nor => ~~~(a ||| b)
  | .lts => boolWord (a.slt b)
  | .ltu => boolWord (a.ult b)
  | .min => if a.slt b then a else b
  | .max => if a.slt b then b else a
  | .minu => if a.ult b then a else b
  | .maxu => if a.ult b then b else a
  | .shl => a <<< (b.toNat % 32)
  | .shr => a >>> (b.toNat % 32)
  | .sar => a.sshiftRight (b.toNat % 32)
  | .mul => a * b
  | .mulhs => BitVec.ofInt 32 (a.toInt * b.toInt / 2 ^ 32)
  | .mulhu => Word.nat (a.toNat * b.toNat / 2 ^ 32)
  | .div => if b = 0 then 0xFFFFFFFF else BitVec.ofInt 32 (a.toInt.tdiv b.toInt)
  | .divu => if b = 0 then 0xFFFFFFFF else Word.nat (a.toNat / b.toNat)
  | .rem => if b = 0 then a else BitVec.ofInt 32 (a.toInt.tmod b.toInt)
  | .remu => if b = 0 then a else Word.nat (a.toNat % b.toNat)

def ShOp.eval (op : ShOp) (a : Word) (sh : Nat) : Word :=
  match op with
  | .shli => a <<< sh
  | .shri => a >>> sh
  | .sari => a.sshiftRight sh

/-- Sign extension to a word. -/
def sext {n : Nat} (v : BitVec n) : Word := v.signExtend 32

def IOp.eval (op : IOp) (a : Word) (imm : BitVec 16) : Word :=
  match op with
  | .addi => a + sext imm
  | .ltsi => boolWord (a.slt (sext imm))
  | .ltui => boolWord (a.ult (sext imm))
  | .andi => a &&& imm.zeroExtend 32
  | .ori => a ||| imm.zeroExtend 32
  | .xori => a ^^^ imm.zeroExtend 32

def LdOp.size : LdOp → Nat
  | .ldb => 1 | .ldbu => 1 | .ldh => 2 | .ldhu => 2 | .ldw => 4
def LdOp.signed : LdOp → Bool
  | .ldb => true | .ldbu => false | .ldh => true | .ldhu => false | .ldw => false
def StOp.size : StOp → Nat
  | .stb => 1 | .sth => 2 | .stw => 4

def BOp.holds (op : BOp) (a b : Word) : Bool :=
  match op with
  | .beq => a == b
  | .bne => a != b
  | .blt => a.slt b
  | .bge => !a.slt b
  | .bltu => a.ult b
  | .bgeu => !a.ult b

namespace State

/-! ### Jumps and loops (14.7, 14.8) -/

/-- JR and JALR: the target must be aligned (14 R605). -/
def jumpReg (s : State) (target : Word) (link : Option Reg) : BRes :=
  if target.toNat % 4 ≠ 0 then .exc s 5 0 target
  else
    let s' := match link with
      | some rd => s.setBw rd (s.core.pc + 8)
      | none => s
    .jump s' (some target)

/-- LP and LPI set up level `l` with count `c` (14 R607, R608). -/
def loopSetup (s : State) (l : Bool) (c : Word) (off : BitVec 16) : BRes :=
  let n := b2n l
  let pc := s.core.pc
  let ls := pc + 4
  let le := ls + Word.nat (4 * off.toNat)
  let fail (k : Nat) : BRes := .exc s 4 k le
  if s.bsv (BS_LC n) ≠ 0 then fail 1
  else if !l && s.bsv (BS_LC 1) != 0 then fail 2
  else if spaceOf s.part le.toNat ≠ spaceOf s.part pc.toNat then fail 3
  else if l && s.bsv (BS_LC 0) != 0 && !((s.bsv (BS_LS 0)).ule ls && le.ule (s.bsv (BS_LE 0))) then fail 4
  else
    match s.fetchWord le with
    | (s, none) => .stop s
    | (s, some w) =>
      match s.fetchWord (le - 4) with
      | (s, none) => .stop s
      | (s, some v) =>
        let barred := match decodeB w with | some i => i.barred | none => false
        let jumps := match decodeB v with | some i => i.jumps | none => false
        if barred || jumps then .exc s 4 5 le
        else
          let s := ((s.setBs (BS_LS n) ls).setBs (BS_LE n) le).setBs (BS_LC n) c
          .goto s (if c = 0 then le + 4 else ls)

/-! ### CSR instructions (14 R611, R612) -/

/-- A CSR instruction's write. A lockstep CSR is written as a store from the pair (16 Table 16.1, R692). -/
def bsWrite (s : State) (n : Nat) (v : Word) : State :=
  if n = BS_LS_TEST then
    let s := s.emitData 4 (bsAddr n) (some v.toNat)
    let s := s.setReg (bsAddr n) (storeFields (bsFields n) (s.reg (bsAddr n)) v)
    if bit v 31 ∧ fld v 0 5 ≠ 0 then { s with bosun := { s.bosun with diverge := some (fld v 0 5) } } else s
  else s.setBs n (storeFields (bsFields n) (s.bsv n) v)

def csrIns (s : State) (word : Word) (op : COp) (rd ra : Reg) (n : Nat) : BRes :=
  let writes := decide (op = .csrrw) || ra != 0
  if !bsKnown n || (writes && bsRo n) then .exc s 2 0 word
  else if s.crew && (!bsCrewRead n || (writes && !bsCrewWrite n)) then .exc s 3 0 word
  else
    let a := s.bw ra
    let (old, s) := s.bsRead n
    let new := match op with
      | .csrrw => a
      | .csrrs => old ||| a
      | .csrrc => old &&& ~~~a
    let s := if writes then s.bsWrite n new else s
    .done (s.setBw rd old)

/-! ### Engine-facing instructions (14.10) -/

/-- The store queue is emptied, then `f` takes effect. -/
def afterStores (s : State) (f : State → BRes) : BRes :=
  let s := s.drainStores
  if s.dev.mode = .becalmed then .stop s else f s

/-- WAITGE and WAITEQ (14 R617). -/
def bellWait (s : State) (fn : Nat) (eq : Bool) (rd ra rb : Reg) : BRes :=
  let v := s.bw rb
  let n := (s.bw ra).toNat % 256
  let s := s.emitItem fn (s.bw ra) v
  if bellHolds (s.bell n) v eq then .done (s.setBw rd 0)
  else .block s {
    kind := if eq then .eq else .ge, sel := n, operand := v, rd := rd.toNat }

/-- SUMRD removes an entry (14 R618). -/
def sumPop (s : State) (sh : Nat) (rd rb : Reg) : Option State :=
  match s.fifo sh with
  | [] => none
  | (a, b) :: t => some (({ s with fifos := Store.set [] s.fifos sh t }.setBw rd a).setBw rb b)

def sumEmpty (s : State) (rd rb : Reg) : State := (s.setBw rd 0).setBw rb 0x80000000

def sumrd (s : State) (rd rb : Reg) (sh nb : Bool) : BRes :=
  let s := s.emitSum sh nb
  match s.sumPop (b2n sh) rd rb with
  | some s => .done s
  | none =>
    if nb then .done (s.sumEmpty rd rb)
    else .block s { kind := .sum, sel := b2n sh, rd := rd.toNat, rd2 := rb.toNat }

def hsig (s : State) (v : Word) : State := (s.setBs BS_HOSTMSG v).raise irqSIG

/-! ### ERET (15 R664) -/

/-- The status, shadow and PC that ERET restores from a frame's word 0 and a target. -/
def eretTo (s : State) (image target : Word) : BRes :=
  let pm := fld image 2 1
  let k := if pm = 0 then min (fld image 5 2) 2 else 0
  let s := s.setBs BS_STATUS (putFld (putFld (putFld (s.bsv BS_STATUS) 0 1 pm) 1 1 (fld image 3 1)) 7 1 0)
  .goto (s.setCore { s.core with shadow := k }) (putFld target 0 2 0)

def eret (s : State) : BRes :=
  if s.esv then s.eretTo (s.bsv (BS_ESAVE 0)) (s.bsv BS_EPC)
  else
    let sp := s.bw 30
    if s.frameOk (sp.toNat + 16) then
      let s := (s.emitData 4 sp.toNat none).emitData 4 (sp.toNat + 4) none
      let (s, ue) := s.eccRead srcBosun sp.toNat 8
      match ue with
      | some w => .stop (s.bosunEcc w)
      | none => (s.setBw 30 (sp + 16)).eretTo (s.peekWord sp.toNat) (s.peekWord (sp.toNat + 4))
    else .stop (s.stackFault (s.frameImage false 0) s.core.pc 0x0A sp sp 0 0)

/-! ### Execution -/

/-- Crew may not execute it (14 R592). -/
def keeperOnly (s : State) (word : Word) (r : BRes) : BRes := if s.crew then .exc s 3 0 word else r

/-- The effect of an instruction that may stand where it is. -/
def execIns (s : State) (word : Word) (i : BIns) : BRes :=
  match i with
  | .r op rd ra rb => .done (s.setBw rd (op.eval (s.bw ra) (s.bw rb)))
  | .sh op rd ra n => .done (s.setBw rd (op.eval (s.bw ra) n.toNat))
  | .jr ra => s.jumpReg (s.bw ra) none
  | .jalr rd ra => s.jumpReg (s.bw ra) (some rd)
  | .i op rd ra imm => .done (s.setBw rd (op.eval (s.bw ra) imm))
  | .movh rd imm => .done (s.setBw rd (imm.zeroExtend 32 <<< 16))
  | .ld op rd ra imm => s.bload op.size op.signed rd (s.bw ra + sext imm).toNat
  | .st op rs ra imm => s.bstore op.size (s.bw rs) (s.bw ra + sext imm).toNat
  | .br op ra rb off =>
    .jump s (if op.holds (s.bw ra) (s.bw rb) then some (s.core.pc + (sext off <<< 2)) else none)
  | .j off => .jump s (some (s.core.pc + (sext off <<< 2)))
  | .jal off => .jump (s.setBw 31 (s.core.pc + 8)) (some (s.core.pc + (sext off <<< 2)))
  | .lp l ra off => s.loopSetup l (s.bw ra) off
  | .lpi l cnt off => s.loopSetup l (cnt.zeroExtend 32) off
  | .csr op rd ra n => s.csrIns word op rd ra n.toNat
  | .post rd ra rb =>
    (s.emitItem 1 (s.bw ra) (s.bw rb)).afterStores fun s =>
      let (s', code) := s.offerTail ((s.bw ra).toNat % 16384) ((s.bw rb).toNat % 65536)
      .done (s'.setBw rd (Word.nat code))
  | .belladd ra rb =>
    (s.emitItem 2 (s.bw ra) (s.bw rb)).afterStores fun s =>
      .done (s.bellOp ((s.bw ra).toNat % 256) false (s.bw rb))
  | .bellset ra rb =>
    (s.emitItem 3 (s.bw ra) (s.bw rb)).afterStores fun s =>
      .done (s.bellOp ((s.bw ra).toNat % 256) true (s.bw rb))
  | .waitge rd ra rb => s.bellWait 4 false rd ra rb
  | .waiteq rd ra rb => s.bellWait 5 true rd ra rb
  | .bellrd rd ra => .done ((s.emitItem 6 (s.bw ra) 0).setBw rd (s.bell ((s.bw ra).toNat % 256)))
  | .sumrd rd rb sh nb => s.sumrd rd rb sh nb
  | .tack rd =>
    s.keeperOnly word ((s.emitItem 9 0 0).afterStores fun s =>
      let (s', ok) := s.tack
      .done (s'.setBw rd (if ok then 0 else 1)))
  | .hsig ra => (s.emitItem 10 (s.bw ra) 0).afterStores fun s => .done (s.hsig (s.bw ra))
  | .fence => s.afterStores .done
  | .wfi => if s.ienabled ≠ 0 then .done s else .block s { kind := .wfi, sel := 0 }
  | .nop => .done s
  | .eret => s.keeperOnly word s.eret
  | .syscall code => .exc s 8 0 (code.zeroExtend 32)
  | .brk code => .exc s 9 0 (code.zeroExtend 32)
  | .mcrew => s.keeperOnly word (.goto (s.setCore { s.core with shadow := 2 }) (s.core.pc + 4))

/-- A copy fetches, decodes and executes the instruction at its PC (14 R599, R606; 15 R642). -/
def stepCopy (s : State) : State :=
  let pc := s.core.pc
  let s := s.emitFetch pc
  match s.fetchBars pc with
  | some (c, sub) => s.trap c sub pc
  | none =>
    match s.fetchWord pc with
    | (s, none) => s
    | (s, some w) =>
      match decodeB w with
      | none => s.trap 2 0 w
      | some i =>
        if i.barred && (s.core.delay.isSome || decide (s.core.shadow ≠ 0)) then s.trap 2 0 w
        else endIns i.barred (s.execIns w i)

/-- Both copies execute the instruction at PC, where it is one that `want` names. -/
def bosunRun (want : BIns → Bool) (s : State) : State :=
  if s.bosunReady && (match s.nextIns with | some i => want i | none => false) then lockstep stepCopy s else s

/-- Both copies meet a word that decodes to no instruction (14 R599). -/
def bosunIllegal (s : State) : State :=
  if s.bosunReady && (s.fetchBars s.core.pc).isNone && s.nextIns.isNone &&
      !s.ecc.any (fun e => decide (e = (s.core.pc.toNat, Ecc.double)))
  then lockstep stepCopy s else s

/-- Both copies meet a fetch that gives no word (14 R594; 06 Table 6.4). -/
def bosunNoFetch (s : State) : State :=
  if s.bosunReady && ((s.fetchBars s.core.pc).isSome ||
      s.ecc.any (fun e => decide (e = (s.core.pc.toNat, Ecc.double))))
  then lockstep stepCopy s else s

end State

end Sys2Proof.Machine
end

