-- ==== Sys2Proof/Machine/BosunExec.lean ====
section
/-! DEFINITION. The commands of Bosun: its instructions, the ends of its waits, interrupts, and the lockstep pair's
events (14, 15, 16). An instruction command executes the instruction at PC where it is one of its operation; otherwise
it leaves the machine as it is (log 26). -/

namespace Sys2Proof.Machine

/-- ADD (14 R600). -/
def execAdd (s : State) : Out :=
  .next (s.bosunRun fun i => match i with | .r .add _ _ _ => true | _ => false)
/-- SUB (14 R600). -/
def execSub (s : State) : Out :=
  .next (s.bosunRun fun i => match i with | .r .sub _ _ _ => true | _ => false)
/-- AND (14 R600). -/
def execAnd (s : State) : Out :=
  .next (s.bosunRun fun i => match i with | .r .and _ _ _ => true | _ => false)
/-- OR (14 R600). -/
def execOr (s : State) : Out :=
  .next (s.bosunRun fun i => match i with | .r .or _ _ _ => true | _ => false)
/-- XOR (14 R600). -/
def execXor (s : State) : Out :=
  .next (s.bosunRun fun i => match i with | .r .xor _ _ _ => true | _ => false)
/-- NOR (14 R600). -/
def execNor (s : State) : Out :=
  .next (s.bosunRun fun i => match i with | .r .nor _ _ _ => true | _ => false)
/-- LTS (14 R600). -/
def execLts (s : State) : Out :=
  .next (s.bosunRun fun i => match i with | .r .lts _ _ _ => true | _ => false)
/-- LTU (14 R600). -/
def execLtu (s : State) : Out :=
  .next (s.bosunRun fun i => match i with | .r .ltu _ _ _ => true | _ => false)
/-- MIN (14 R600). -/
def execMin (s : State) : Out :=
  .next (s.bosunRun fun i => match i with | .r .min _ _ _ => true | _ => false)
/-- MAX (14 R600). -/
def execMax (s : State) : Out :=
  .next (s.bosunRun fun i => match i with | .r .max _ _ _ => true | _ => false)
/-- MINU (14 R600). -/
def execMinu (s : State) : Out :=
  .next (s.bosunRun fun i => match i with | .r .minu _ _ _ => true | _ => false)
/-- MAXU (14 R600). -/
def execMaxu (s : State) : Out :=
  .next (s.bosunRun fun i => match i with | .r .maxu _ _ _ => true | _ => false)
/-- SHL (14 R600). -/
def execShl (s : State) : Out :=
  .next (s.bosunRun fun i => match i with | .r .shl _ _ _ => true | _ => false)
/-- SHR (14 R600). -/
def execShr (s : State) : Out :=
  .next (s.bosunRun fun i => match i with | .r .shr _ _ _ => true | _ => false)
/-- SAR (14 R600). -/
def execSar (s : State) : Out :=
  .next (s.bosunRun fun i => match i with | .r .sar _ _ _ => true | _ => false)
/-- MUL (14 R600). -/
def execMul (s : State) : Out :=
  .next (s.bosunRun fun i => match i with | .r .mul _ _ _ => true | _ => false)
/-- MULHS (14 R600). -/
def execMulhs (s : State) : Out :=
  .next (s.bosunRun fun i => match i with | .r .mulhs _ _ _ => true | _ => false)
/-- MULHU (14 R600). -/
def execMulhu (s : State) : Out :=
  .next (s.bosunRun fun i => match i with | .r .mulhu _ _ _ => true | _ => false)
/-- DIV (14 R600, R601). -/
def execDiv (s : State) : Out :=
  .next (s.bosunRun fun i => match i with | .r .div _ _ _ => true | _ => false)
/-- DIVU (14 R600, R601). -/
def execDivu (s : State) : Out :=
  .next (s.bosunRun fun i => match i with | .r .divu _ _ _ => true | _ => false)
/-- REM (14 R600, R601). -/
def execRem (s : State) : Out :=
  .next (s.bosunRun fun i => match i with | .r .rem _ _ _ => true | _ => false)
/-- REMU (14 R600, R601). -/
def execRemu (s : State) : Out :=
  .next (s.bosunRun fun i => match i with | .r .remu _ _ _ => true | _ => false)
/-- SHLI (14 R600). -/
def execShli (s : State) : Out :=
  .next (s.bosunRun fun i => match i with | .sh .shli _ _ _ => true | _ => false)
/-- SHRI (14 R600). -/
def execShri (s : State) : Out :=
  .next (s.bosunRun fun i => match i with | .sh .shri _ _ _ => true | _ => false)
/-- SARI (14 R600). -/
def execSari (s : State) : Out :=
  .next (s.bosunRun fun i => match i with | .sh .sari _ _ _ => true | _ => false)
/-- JR (14 R604, R605). -/
def execJr (s : State) : Out :=
  .next (s.bosunRun fun i => match i with | .jr _ => true | _ => false)
/-- JALR (14 R604, R605). -/
def execJalr (s : State) : Out :=
  .next (s.bosunRun fun i => match i with | .jalr _ _ => true | _ => false)
/-- ADDI (14 R602). -/
def execAddi (s : State) : Out :=
  .next (s.bosunRun fun i => match i with | .i .addi _ _ _ => true | _ => false)
/-- LTSI (14 R602). -/
def execLtsi (s : State) : Out :=
  .next (s.bosunRun fun i => match i with | .i .ltsi _ _ _ => true | _ => false)
/-- LTUI (14 R602). -/
def execLtui (s : State) : Out :=
  .next (s.bosunRun fun i => match i with | .i .ltui _ _ _ => true | _ => false)
/-- ANDI (14 R602). -/
def execAndi (s : State) : Out :=
  .next (s.bosunRun fun i => match i with | .i .andi _ _ _ => true | _ => false)
/-- ORI (14 R602). -/
def execOri (s : State) : Out :=
  .next (s.bosunRun fun i => match i with | .i .ori _ _ _ => true | _ => false)
/-- XORI (14 R602). -/
def execXori (s : State) : Out :=
  .next (s.bosunRun fun i => match i with | .i .xori _ _ _ => true | _ => false)
/-- MOVH (14 R602). -/
def execMovh (s : State) : Out :=
  .next (s.bosunRun fun i => match i with | .movh _ _ => true | _ => false)
/-- LDB (14 R603). -/
def execLdb (s : State) : Out :=
  .next (s.bosunRun fun i => match i with | .ld .ldb _ _ _ => true | _ => false)
/-- LDBU (14 R603). -/
def execLdbu (s : State) : Out :=
  .next (s.bosunRun fun i => match i with | .ld .ldbu _ _ _ => true | _ => false)
/-- LDH (14 R603). -/
def execLdh (s : State) : Out :=
  .next (s.bosunRun fun i => match i with | .ld .ldh _ _ _ => true | _ => false)
/-- LDHU (14 R603). -/
def execLdhu (s : State) : Out :=
  .next (s.bosunRun fun i => match i with | .ld .ldhu _ _ _ => true | _ => false)
/-- LDW (14 R603). -/
def execLdw (s : State) : Out :=
  .next (s.bosunRun fun i => match i with | .ld .ldw _ _ _ => true | _ => false)
/-- STB (14 R603). -/
def execStb (s : State) : Out :=
  .next (s.bosunRun fun i => match i with | .st .stb _ _ _ => true | _ => false)
/-- STH (14 R603). -/
def execSth (s : State) : Out :=
  .next (s.bosunRun fun i => match i with | .st .sth _ _ _ => true | _ => false)
/-- STW (14 R603). -/
def execStw (s : State) : Out :=
  .next (s.bosunRun fun i => match i with | .st .stw _ _ _ => true | _ => false)
/-- BEQ (14 R604). -/
def execBeq (s : State) : Out :=
  .next (s.bosunRun fun i => match i with | .br .beq _ _ _ => true | _ => false)
/-- BNE (14 R604). -/
def execBne (s : State) : Out :=
  .next (s.bosunRun fun i => match i with | .br .bne _ _ _ => true | _ => false)
/-- BLT (14 R604). -/
def execBlt (s : State) : Out :=
  .next (s.bosunRun fun i => match i with | .br .blt _ _ _ => true | _ => false)
/-- BGE (14 R604). -/
def execBge (s : State) : Out :=
  .next (s.bosunRun fun i => match i with | .br .bge _ _ _ => true | _ => false)
/-- BLTU (14 R604). -/
def execBltu (s : State) : Out :=
  .next (s.bosunRun fun i => match i with | .br .bltu _ _ _ => true | _ => false)
/-- BGEU (14 R604). -/
def execBgeu (s : State) : Out :=
  .next (s.bosunRun fun i => match i with | .br .bgeu _ _ _ => true | _ => false)
/-- J (14 R604). -/
def execJ (s : State) : Out :=
  .next (s.bosunRun fun i => match i with | .j _ => true | _ => false)
/-- JAL (14 R604). -/
def execJal (s : State) : Out :=
  .next (s.bosunRun fun i => match i with | .jal _ => true | _ => false)
/-- LP (14 R607, R608). -/
def execLp (s : State) : Out :=
  .next (s.bosunRun fun i => match i with | .lp _ _ _ => true | _ => false)
/-- LPI (14 R607, R608). -/
def execLpi (s : State) : Out :=
  .next (s.bosunRun fun i => match i with | .lpi _ _ _ => true | _ => false)
/-- CSRRW (14 R611). -/
def execCsrrw (s : State) : Out :=
  .next (s.bosunRun fun i => match i with | .csr .csrrw _ _ _ => true | _ => false)
/-- CSRRS (14 R611). -/
def execCsrrs (s : State) : Out :=
  .next (s.bosunRun fun i => match i with | .csr .csrrs _ _ _ => true | _ => false)
/-- CSRRC (14 R611). -/
def execCsrrc (s : State) : Out :=
  .next (s.bosunRun fun i => match i with | .csr .csrrc _ _ _ => true | _ => false)
/-- POST (14 R616). -/
def execPost (s : State) : Out :=
  .next (s.bosunRun fun i => match i with | .post _ _ _ => true | _ => false)
/-- BELLADD (14 R615). -/
def execBelladd (s : State) : Out :=
  .next (s.bosunRun fun i => match i with | .belladd _ _ => true | _ => false)
/-- BELLSET (14 R615). -/
def execBellset (s : State) : Out :=
  .next (s.bosunRun fun i => match i with | .bellset _ _ => true | _ => false)
/-- WAITGE (14 R617). -/
def execWaitge (s : State) : Out :=
  .next (s.bosunRun fun i => match i with | .waitge _ _ _ => true | _ => false)
/-- WAITEQ (14 R617). -/
def execWaiteq (s : State) : Out :=
  .next (s.bosunRun fun i => match i with | .waiteq _ _ _ => true | _ => false)
/-- BELLRD (14 R615). -/
def execBellrd (s : State) : Out :=
  .next (s.bosunRun fun i => match i with | .bellrd _ _ => true | _ => false)
/-- SUMRD (14 R618). -/
def execSumrd (s : State) : Out :=
  .next (s.bosunRun fun i => match i with | .sumrd _ _ _ _ => true | _ => false)
/-- TACK (14 R619). -/
def execTack (s : State) : Out :=
  .next (s.bosunRun fun i => match i with | .tack _ => true | _ => false)
/-- HSIG (14 R620). -/
def execHsig (s : State) : Out :=
  .next (s.bosunRun fun i => match i with | .hsig _ => true | _ => false)
/-- FENCE (14 R596). -/
def execFence (s : State) : Out :=
  .next (s.bosunRun fun i => match i with | .fence => true | _ => false)
/-- WFI (14 R621). -/
def execWfi (s : State) : Out :=
  .next (s.bosunRun fun i => match i with | .wfi => true | _ => false)
/-- NOP (14 R623). -/
def execNop (s : State) : Out :=
  .next (s.bosunRun fun i => match i with | .nop => true | _ => false)
/-- ERET (15 R664). -/
def execEret (s : State) : Out :=
  .next (s.bosunRun fun i => match i with | .eret => true | _ => false)
/-- SYSCALL (14 R623). -/
def execSyscall (s : State) : Out :=
  .next (s.bosunRun fun i => match i with | .syscall _ => true | _ => false)
/-- BREAK (14 R623). -/
def execBreak (s : State) : Out :=
  .next (s.bosunRun fun i => match i with | .brk _ => true | _ => false)
/-- MCREW (14 R593). -/
def execMcrew (s : State) : Out :=
  .next (s.bosunRun fun i => match i with | .mcrew => true | _ => false)

/-- ILLEGAL: the word at PC decodes to no instruction (14 R599). -/
def execIllegal (s : State) : Out := .next s.bosunIllegal
/-- FETCH: the fetch at PC is forbidden or names unpopulated space (14 R594). -/
def execFetch (s : State) : Out := .next s.bosunNoFetch

namespace State

/-! ### Waits (14 R617, R618, R621) -/

/-- The end of a blocked instruction for one copy, where its condition is met. -/
def waitDone (s : State) (w : BosunWait) : Option BRes :=
  let rd : Reg := BitVec.ofNat 5 w.rd
  match w.kind with
  | .ge => if w.sat then some (.done (s.setBw rd 0)) else none
  | .eq => if w.sat then some (.done (s.setBw rd 0)) else none
  | .sum => (s.sumPop w.sel rd (BitVec.ofNat 5 w.rd2)).map .done
  | .wfi => if s.ienabled ≠ 0 then some (.done s) else none
  | .load size sg =>
    (s.runOutcome .bosun).map fun x =>
      if x.1 = 0 then .done ((s.dropOps .bosun).setBw rd (extend size sg (leNat x.2)))
      else .exc (s.dropOps .bosun) 6 3 (Word.nat w.sel)
  | .store =>
    (s.runOutcome .bosun).map fun x =>
      if x.1 = 0 then .done (s.dropOps .bosun) else .exc (s.dropOps .bosun) 6 3 (Word.nat w.sel)

def bosunWaitEnd (s : State) : State :=
  match s.bosun.wait with
  | none => s
  | some w =>
    let other := match s.bosun.trail with | some t => ((s.setCore t).waitDone w).isSome | none => false
    if s.bosun.run && s.capRuns && ((s.waitDone w).isSome || other) then
      lockstep (fun s => match s.waitDone w with | some r => endIns (WaitKind.barred w.kind) r | none => s) s
    else s

/-- A wait's timeout. Where the copies' BS_WAIT_TMO differ, the shorter ends first (14 R617, R618; 16 R680). -/
def bosunWaitTimeout (s : State) : State :=
  match s.bosun.wait with
  | none => s
  | some w =>
    let own (s : State) : Nat := s.bsf BS_WAIT_TMO 0 16
    let b := match s.bosun.trail with | some t => own (s.setCore t) | none => own s
    let first := if own s = 0 then b else if b = 0 then own s else min (own s) b
    if s.bosun.run && s.capRuns && decide (first ≠ 0) && (s.waitDone w).isNone then
      let rd : Reg := BitVec.ofNat 5 w.rd
      let late (g : State → State) (s : State) : State := if own s = first then endIns true (.done (g s)) else s
      match w.kind with
      | .sum => lockstep (late fun s => s.sumEmpty rd (BitVec.ofNat 5 w.rd2)) s
      | .ge => lockstep (late fun s => s.setBw rd 1) s
      | .eq => lockstep (late fun s => s.setBw rd 1) s
      | _ => s
    else s

/-! ### Asynchronous exceptions (15 R660–R662) -/

/-- The source an INTERRUPT names (15 R661). -/
def intSource (s : State) : Nat := ((List.range 7).find? fun i => s.ienabled.testBit i).getD 0

/-- An edge source's latch clears (15 R658). -/
def clearLatch (s : State) (i : Nat) : State :=
  match i with
  | 0 => { s with bosun := { s.bosun with latHalt := false } }
  | 1 => { s with bosun := { s.bosun with latStale := false } }
  | 6 => { s with bosun := { s.bosun with latDeck := false } }
  | _ => s

/-- A copy takes an INTERRUPT, or fetches on where its own state bars it. WFI continues first (15 R663). -/
def copyInterrupt (s : State) : State :=
  if s.interrupts then
    let i := s.intSource
    let s := match s.bosun.wait with
      | some w => if w.kind = WaitKind.wfi then endIns true (.done s) else { s with bosun := { s.bosun with wait := none } }
      | none => s
    let s := if s.frameOk (s.bw 30).toNat then s.clearLatch i else s
    s.enterExc 0x10 0 i s.core.pc false 0 0 0x100
  else s.emitFetch s.core.pc

/-- An INTERRUPT; a CHECKPOINT that is due comes first (15 R644). -/
def interrupt (s : State) : State :=
  if s.bosun.run && s.capRuns && !s.bosun.ckpt && !s.resyncDue && s.interruptDue then lockstep copyInterrupt s else s

/-- CHECKPOINT follows a resync (16 R688). -/
def checkpoint (s : State) : State :=
  if s.bosun.run && s.capRuns && s.bosun.ckpt then
    lockstep (fun s => s.enterExc 0x18 0 0 s.core.pc false 0 0 0x180)
      { s with bosun := { s.bosun with ckpt := false, wait := none } }
  else s

/-! ### The lockstep pair (16) -/

/-- The lockstep counter runs (16 R684, R712). -/
def counterRuns (s : State) : Bool := s.pairRuns && decide (s.dev.mode ≠ .reefed)

/-- A fault of the pair can be detected: the pair is clocked, or was in the KF cycle of the class F fault just recorded
(16 R696). -/
def pairSeen (s : State) : Bool := s.pairRuns || s.dev.tie == some true

/-- A difference that no register of this model shows reaches the comparator: its lowest bit and the number of bits. -/
def lockMismatch (s : State) (low count : Nat) : State :=
  if s.pairSeen && decide (1 ≤ count) && decide (low + count ≤ 173) then
    s.pairFault 0x20 (Word.nat (low + count * 256))
  else s

def compFault (s : State) : State := if s.pairSeen then s.pairFault 0x21 4 else s

def delayParity (s : State) (out : Bool) (lane : Nat) : State :=
  if s.pairSeen && decide (lane < 32) then s.pairFault 0x22 (Word.nat (b2n out + lane * 2)) else s

/-- An injection, and which rails flagged it (16 R684). -/
def selfInject (s : State) (rail0 rail1 : Bool) : State :=
  if s.counterRuns then
    let n := s.bosun.inj
    let s := { s with bosun := { s.bosun with inj := n + 1 } }.setRf (bsAddr BS_LS_STAT) 0 8 ((n + 1) % 173)
    if rail0 && rail1 then s
    else s.pairFault 0x21 (Word.nat (b2n (!rail0) + 2 * b2n (!rail1) + n % 173 * 256))
  else s

/-- A sweep (16 R685–R688). -/
def sweep (s : State) : State :=
  let stat := bsAddr BS_LS_STAT
  if s.counterRuns && !s.rbit stat 8 then
    let a := s.core.signature
    let b := (s.bosun.trail.getD s.core).signature
    let s := ((s.setReg (bsAddr BS_LS_SIGL) a).setReg (bsAddr BS_LS_SIGT) b).setRf stat 16 16 (s.rf stat 16 16 + 1)
    if a = b then s
    else if s.dkbit DK_LATENT_POLICY 0 then s.pairFault 0x24 0
    else (s.recordFault 2 0x24 false 0 none 0).setRf stat 8 1 1
  else s

/-- The resync of 16 R688, R691 and R707: of a Bosun that is halted or stopped with no CHECKPOINT; one that executes abandons
its wait, and its WFI continues (15 R663; 16 R690). -/
def resync (s : State) : State :=
  if s.counterRuns && s.resyncDue then
    let s := { s with bosun := { s.bosun with trail := none, ckpt := s.bosun.run } }
    let s := match s.bosun.run, s.bosun.wait with
      | true, some w => if w.kind = WaitKind.wfi then endIns true (.done s) else { s with bosun := { s.bosun with wait := none } }
      | _, _ => s
    (s.setRf (bsAddr BS_LS_STAT) 8 1 0).raise irqLATENT
  else s

/-- The next instruction is a CSR instruction that writes DIVERGE (16 R692). -/
def divergeNext (s : State) : Bool :=
  match s.nextIns with
  | some (.csr _ _ ra n) => n == 0x083 && bit (s.bw ra) 31
  | _ => false

/-- A Backstay transfer fails `n` consecutive attempts (16 R694). -/
def backstay (s : State) (iob : Bool) (n : Nat) : State :=
  if decide (s.dev.mode = .moored) || (decide (s.dev.mode = .reefed) && !s.pairRuns) || (iob && !s.part.iob) then s
  else if n < 8 then s.bumpBy FT_CE_BSTAY 0 32 n
  else (s.bumpBy FT_CE_BSTAY 0 32 7).becalm 0x26 false (Word.nat (b2n iob))

end State

/-! ### Meanings -/

/-- STORE_PERFORM (14 R596). -/
def execStorePerform (s : State) : Out := .next s.performStore
/-- BOSUN_WAIT_END (14 R617, R618, R621). -/
def execBosunWaitEnd (s : State) : Out := .next s.bosunWaitEnd
/-- BOSUN_WAIT_TIMEOUT (14 R617, R618). -/
def execBosunWaitTimeout (s : State) : Out := .next s.bosunWaitTimeout
/-- INTERRUPT (15 R660, R661). -/
def execInterrupt (s : State) : Out := .next s.interrupt
/-- CHECKPOINT (15 R662, 16 R688). -/
def execCheckpoint (s : State) : Out := .next s.checkpoint
/-- LOCK_MISMATCH (16 R681). -/
def execLockMismatch (low count : Nat) (s : State) : Out := .next (s.lockMismatch low count)
/-- COMP_FAULT: the rails disagree (16 R683). -/
def execCompFault (s : State) : Out := .next s.compFault
/-- DELAY_PARITY (16 R682). -/
def execDelayParity (out : Bool) (lane : Nat) (s : State) : Out := .next (s.delayParity out lane)
/-- COMP_SELF_INJECT (16 R684). -/
def execCompSelfInject (rail0 rail1 : Bool) (s : State) : Out := .next (s.selfInject rail0 rail1)
/-- SWEEP (16 R685–R688). -/
def execSweep (s : State) : Out := .next s.sweep
/-- RESYNC (16 R688, R691). -/
def execResync (s : State) : Out := .next s.resync
/-- LS_DIVERGE: the CSR instruction at PC writes DIVERGE (16 R692). -/
def execLsDiverge (s : State) : Out :=
  .next (if s.divergeNext then s.bosunRun fun _ => true else s)
/-- BACKSTAY_RETRY (16 R694). -/
def execBackstayRetry (iob : Bool) (n : Nat) (s : State) : Out := .next (s.backstay iob n)

end Sys2Proof.Machine
end

