-- ==== Sys2Proof/Machine/Crypto.lean ====
section
/-! DEFINITION. SHA-256 and ECDSA over P-256, with which BIND verifies a signature (21 R860, FIPS 180-4, FIPS 186-4). -/

namespace Sys2Proof.Machine

/-! ### SHA-256 -/

/-- The first 64 primes: the numbers up to 311 that no smaller prime up to 17 divides. -/
def primes64 : List Nat :=
  (List.range 312).filter fun n => decide (2 ≤ n) && [2, 3, 5, 7, 11, 13, 17].all fun d => n == d || n % d != 0

/-- The floor of the `k`-th root of `x`, from its top bit down; `r` holds the bits found so far. -/
def rootBits (k x : Nat) : Nat → Nat → Nat
  | 0, r => r
  | n + 1, r => rootBits k x n (if (r + 2 ^ n) ^ k ≤ x then r + 2 ^ n else r)

/-- The first 32 bits of the fraction of the `k`-th root of `p`. -/
def rootFrac (k p : Nat) : Nat := rootBits k (p * 2 ^ (32 * k)) 36 0 % 2 ^ 32

/-- The round constants: cube roots of the first 64 primes (FIPS 180-4). -/
def shaK : List Nat := primes64.map (rootFrac 3)

/-- The hash before the first block: square roots of the first 8 primes (FIPS 180-4). -/
def shaStart : List Word := (primes64.take 8).map fun p => Word.nat (rootFrac 2 p)

/-- The number that bytes spell, most significant first. -/
def beNat (l : List Byte) : Nat := l.foldl (fun a b => a * 256 + b.toNat) 0
/-- `n` bytes of a number, most significant first. -/
def beBytes (n x : Nat) : List Byte := (leBytes n x).reverse

def rotr (x : Word) (k : Nat) : Word := x.rotateRight k

/-- The message schedule, newest word first. -/
def shaWords : Nat → List Word → List Word
  | 0, w => w
  | n + 1, w =>
    let a := wordAt w 14
    let b := wordAt w 1
    let s0 := rotr a 7 ^^^ rotr a 18 ^^^ (a >>> 3)
    let s1 := rotr b 17 ^^^ rotr b 19 ^^^ (b >>> 10)
    shaWords n ((wordAt w 15 + s0 + wordAt w 6 + s1) :: w)

/-- One round on the eight working words. -/
def shaRound (h : List Word) (kw : Word) : List Word :=
  match h with
  | [a, b, c, d, e, f, g, x] =>
    let t1 := x + (rotr e 6 ^^^ rotr e 11 ^^^ rotr e 25) + ((e &&& f) ^^^ (~~~e &&& g)) + kw
    let t2 := (rotr a 2 ^^^ rotr a 13 ^^^ rotr a 22) + ((a &&& b) ^^^ (a &&& c) ^^^ (b &&& c))
    [t1 + t2, a, b, c, d + t1, e, f, g]
  | _ => h

/-- One block of 64 bytes. -/
def shaBlock (h : List Word) (l : List Byte) : List Word :=
  let w := (List.range 16).map fun i => Word.nat (beNat ((l.drop (4 * i)).take 4))
  let ws := (shaWords 48 w.reverse).reverse
  let r := (ws.zip shaK).foldl (fun h (w, k) => shaRound h (w + Word.nat k)) h
  (h.zip r).map fun (x, y) => x + y

def shaBlocks : Nat → List Word → List Byte → List Word
  | 0, h, _ => h
  | n + 1, h, l => shaBlocks n (shaBlock h (l.take 64)) (l.drop 64)

/-- SHA-256, as a number. -/
def sha256 (l : List Byte) : Nat :=
  let pad := (119 - l.length % 64) % 64
  let m := l ++ [0x80] ++ List.replicate pad (0 : Byte) ++ beBytes 8 (8 * l.length)
  let h := shaBlocks (m.length / 64) shaStart m
  h.foldl (fun a w => a * 2 ^ 32 + w.toNat) 0

/-! ### P-256 -/

def p256p : Nat := 0xffffffff00000001000000000000000000000000ffffffffffffffffffffffff
def p256n : Nat := 0xffffffff00000000ffffffffffffffffbce6faada7179e84f3b9cac2fc632551
def p256b : Nat := 0x5ac635d8aa3a93e7b3ebbd55769886bc651d06b0cc53b0f63bce3c3e27d2604b
def p256x : Nat := 0x6b17d1f2e12c4247f8bce6e563a440f277037d812deb33a0f4a13945d898c296
def p256y : Nat := 0x4fe342e2fe1a7f9b8ee7eb4a7c0f9e162bce33576b315ececbb6406837bf51f5

/-- a^e mod m, over the low `k` bits of `e`. -/
def powMod (a m : Nat) : Nat → Nat → Nat
  | 0, _ => 1 % m
  | k + 1, e =>
    let r := powMod (a * a % m) m k (e / 2)
    if e % 2 = 1 then r * a % m else r

/-- The inverse modulo a prime of 256 bits. -/
def invMod (a m : Nat) : Nat := powMod (a % m) m 256 (m - 2)

/-- a - b modulo the field's prime. -/
def subP (a b : Nat) : Nat := (a + p256p - b % p256p) % p256p

/-- Point addition; `none` is the point at infinity. -/
def addPt : Option (Nat × Nat) → Option (Nat × Nat) → Option (Nat × Nat)
  | none, q => q
  | p, none => p
  | some (x1, y1), some (x2, y2) =>
    if x1 = x2 ∧ (y1 + y2) % p256p = 0 then none
    else
      let l := if x1 = x2 then (3 * x1 * x1 + p256p - 3) * invMod (2 * y1) p256p % p256p
        else subP y2 y1 * invMod (subP x2 x1) p256p % p256p
      let x := subP (l * l % p256p) (x1 + x2)
      some (x, subP (l * subP x1 x % p256p) y1)

/-- The multiple of a point by the low `n` bits of `k`. -/
def mulPt (p : Option (Nat × Nat)) : Nat → Nat → Option (Nat × Nat)
  | 0, _ => none
  | n + 1, k =>
    let r := mulPt (addPt p p) n (k / 2)
    if k % 2 = 1 then addPt r p else r

/-- A valid signature (r, s) of a digest under the public key (x, y). -/
def ecdsaOk (x y r s digest : Nat) : Bool :=
  let onCurve := decide (x < p256p) && decide (y < p256p) &&
    decide (y * y % p256p = (x * x * x + (p256p - 3) * x + p256b) % p256p)
  let w := invMod s p256n
  let q := addPt (mulPt (some (p256x, p256y)) 256 (digest * w % p256n)) (mulPt (some (x, y)) 256 (r * w % p256n))
  onCurve && decide (1 ≤ r) && decide (r < p256n) && decide (1 ≤ s) && decide (s < p256n) &&
    (match q with | some (a, _) => a % p256n == r | none => false)

end Sys2Proof.Machine
end

