-- ==== Sys2Proof/Machine/Bind.lean ====
section
/-! DEFINITION. The Fratitha image: the BIND checks and the commit phase, for an image in memory and for an image in
flash (21 R848–R860). -/

namespace Sys2Proof.Machine

/-! ### Causes (03 Table 3.11) -/

def causeFORMAT : Nat := 0x33
def causeCRC : Nat := 0x34
def causeSIGNATURE : Nat := 0x35
def causeFOOTPRINT : Nat := 0x36
def causeFEATURE : Nat := 0x37

/-! ### Reading the image -/

/-- Where the image lies: at an address, or in the bytes that the flash answers from its offset. -/
inductive ImgSrc where
  | mem (base : Nat)
  | flash (l : List Byte)

/-- A check's outcome: a cause, or what it found. -/
abbrev Chk (α : Type) := State × Except Nat α

/-- The next check, where the one before passed. -/
def Chk.next {α β : Type} (r : Chk α) (f : State → α → Chk β) : Chk β :=
  match r with
  | (s, .error c) => (s, .error c)
  | (s, .ok a) => f s a

/-- A condition that fails with a cause. -/
def must (s : State) (ok : Bool) (cause : Nat) : Chk Unit := (s, if ok then .ok () else .error cause)

/-- `n` bytes of the image; an uncorrectable word ends BIND with IMAGE_CRC (06 Table 6.4, 21 R855). -/
def readImage (src : ImgSrc) (s : State) (off n : Nat) : Chk (List Byte) :=
  match src with
  | .flash l => (s, .ok ((l.drop off ++ List.replicate n (0 : Byte)).take n))
  | .mem b =>
    let (s, ue) := s.eccRead srcBind (b + off) n
    match ue with
    | some a => (s.recordEcc srcBind a, .error causeCRC)
    | none => (s, .ok (s.peek (b + off) n))

/-- A section table entry (21 R849). -/
structure Sect where
  typ : Nat
  off : Nat
  len : Nat
  dest : Nat
  crc : Word
  /-- Its reserved bits are 0. -/
  clean : Bool
deriving DecidableEq, Repr

def sectOf (l : List Byte) : Sect :=
  let w := bytesWords 8 l
  { typ := fld (wordAt w 0) 0 8, off := (wordAt w 1).toNat, len := (wordAt w 2).toNat, dest := (wordAt w 3).toNat
    crc := wordAt w 4
    clean := fld (wordAt w 0) 8 24 == 0 && wordAt w 5 == 0 && wordAt w 6 == 0 && wordAt w 7 == 0 }

/-- A section with payload bytes in the image. -/
def Sect.payload (x : Sect) : Bool := x.typ != 7
/-- A section that commit writes to its destination. -/
def Sect.placed (x : Sect) : Bool := [2, 3, 6, 7, 8, 9].contains x.typ

/-- The footprint record (21 R853). -/
structure Footprint where
  w : List Word
deriving DecidableEq, Repr

namespace Footprint

def num (f : Footprint) (i lo n : Nat) : Nat := fld (wordAt f.w i) lo n
def pantry (f : Footprint) : Nat := f.num 0 0 32
def granary (f : Footprint) : Nat := f.num 1 0 32
def itcm (f : Footprint) : Nat := f.num 2 0 32
def dtcm (f : Footprint) : Nat := f.num 3 0 32
def rings (f : Footprint) : Nat := f.num 4 0 16
def bells (f : Footprint) : Nat := f.num 4 16 16
def regions (f : Footprint) : Nat := f.num 5 0 8
def cnw (f : Footprint) : Nat := f.num 6 0 32
def peer (f : Footprint) : Nat := f.num 7 0 32
def paired (f : Footprint) : Bool := f.num 8 4 1 == 1
def level (f : Footprint) : Nat := f.num 9 0 8
def key (f : Footprint) : Nat := f.num 10 0 32

/-- Step 3: reserved bits, LEVEL, PEER and PAIR_KEY. -/
def formOk (f : Footprint) : Bool :=
  f.num 5 8 24 == 0 && f.num 8 5 27 == 0 && f.num 9 8 24 == 0 && (f.w.drop 11).all (· == 0) &&
    f.level != 0 && (f.paired || f.peer == 0) && (f.paired == (f.key != 0))

/-- Step 5: the compatibility level and the features. -/
def featureOk (f : Footprint) (p : Part) : Bool := f.level == 1 && (p.iob || f.num 8 0 5 == 0)

/-- Step 6: the capacities of 06 Table 6.6. -/
def fits (f : Footprint) (p : Part) : Bool :=
  decide (f.pantry ≤ 3670016) && decide (f.granary ≤ p.granary) && decide (f.itcm ≤ 131072) &&
    decide (f.dtcm ≤ 65536) && decide (f.rings ≤ 16384) && decide (f.bells ≤ 256) && decide (f.regions ≤ 64) &&
    decide (f.cnw ≤ 65536) && decide (f.peer ≤ 67108864)

/-- The `n` bytes from `a` lie in the declared span of a memory (21 R854). -/
def holds (f : Footprint) (a n : Nat) : Bool :=
  n == 0 || decide (a + n ≤ f.pantry) || (decide (0x10000000 ≤ a) && decide (a + n ≤ 0x10000000 + f.granary)) ||
    (decide (0x60000000 ≤ a) && decide (a + n ≤ 0x60000000 + f.itcm)) ||
    (decide (0x61000000 ≤ a) && decide (a + n ≤ 0x61000000 + f.dtcm))

end Footprint

/-- Two byte runs meet. -/
def meets (a n b m : Nat) : Bool := decide (a < b + m) && decide (b < a + n) && n != 0 && m != 0

/-- The form of one entry by its type (21 Table 21.4, R854). `last` is whether it is the last of the table. -/
def Sect.formOk (x : Sect) (p : Part) (f : Footprint) (bytes : Nat) (last : Bool) : Bool :=
  let ram := inRam p x.dest x.len
  let itcm := decide (0x60000000 ≤ x.dest) && decide (x.dest + x.len ≤ 0x60020000)
  let dtcm := decide (0x61000000 ≤ x.dest) && decide (x.dest + x.len ≤ 0x61010000)
  match x.typ with
  | 0x02 => itcm && x.dest % 4 == 0 && x.len % 4 == 0 && f.holds x.dest x.len
  | 0x03 => dtcm && x.dest % 4 == 0 && x.len % 4 == 0 && f.holds x.dest x.len
  | 0x04 => x.dest == 0 && x.len % 16 == 0 && decide (1 ≤ x.len / 16) && decide (x.len / 16 ≤ min 64 f.regions)
  | 0x05 => x.dest == 0 && x.len % 32 == 0 && decide (1 ≤ x.len / 32) && decide (x.len / 32 ≤ 16384)
  | 0x06 => ram && x.dest % 32 == 0 && decide (1 ≤ x.len) && f.holds x.dest x.len
  | 0x07 => ((ram && x.dest % 32 == 0) || ((itcm || dtcm) && x.dest % 4 == 0)) && x.len % 4 == 0 && x.off == 0 &&
      x.crc == 0 && f.holds x.dest x.len
  | 0x08 => x.dest == 0x50000000 && decide (x.len ≤ 32768)
  | 0x09 => x.dest == 0x50008000 && decide (x.len ≤ 32768)
  | 0x0F => last && x.dest == 0 && x.len == 128 && x.off + 128 == bytes && x.crc == 0
  | _ => false

/-- The placement of an entry's payload (21 R849). -/
def Sect.payloadOk (x : Sect) (tableEnd bytes : Nat) : Bool :=
  x.clean && (!x.payload || (x.off % 32 == 0 && decide (tableEnd ≤ x.off) && decide (x.off + x.len ≤ bytes)))

/-- Whether an entry is in place: a BLOB at its own image bytes (21 R851). -/
def Sect.inPlace (src : ImgSrc) (x : Sect) : Bool :=
  match src with
  | .mem b => x.typ == 6 && x.dest == b + x.off
  | .flash _ => false

/-- An entry against the entries before it: counts, payloads and destinations (21 R849–R851). -/
def Sect.fitsAfter (src : ImgSrc) (bytes : Nat) (x : Sect) (before : List Sect) : Bool :=
  let once := [1, 4, 5, 8, 9, 0xF]
  !(once.contains x.typ && before.any fun y => y.typ == x.typ) &&
    before.all (fun y => !(x.payload && y.payload && meets x.off x.len y.off y.len) &&
      !(x.placed && y.placed && meets x.dest x.len y.dest y.len)) &&
    (match src with
     | .mem b => !(x.placed && !x.inPlace src && meets x.dest x.len b bytes)
     | .flash _ => true)

/-- What the checks found. -/
structure Fratitha where
  bytes : Nat
  entry : Nat
  foot : Footprint
  sects : List Sect
  regions : List (Nat × Word × Word × Word)
  rings : List (Nat × List Word)

/-- The records of a section, in order: its words, `k` to a record. -/
def records (k : Nat) (l : List Byte) : List (List Word) :=
  (List.range (l.length / (4 * k))).map fun i => bytesWords k (l.drop (4 * k * i))

/-- Steps 1 and 2: the header and its CRC; the image's size, entry point and section table. -/
def checkHeader (src : ImgSrc) (s : State) : Chk (Nat × Nat × List Sect) :=
  (readImage src s 0 32).next fun s h =>
    let w := bytesWords 8 h
    let n := fld (wordAt w 1) 8 8
    let bytes := (wordAt w 2).toNat
    let area := match src with
      | .mem b => inRam s.part b bytes && inRam s.part b (32 + 32 * n)
      | .flash _ => true
    let ok := wordAt w 0 == 0x31545246 && fld (wordAt w 1) 0 8 == 1 && decide (2 ≤ n) && decide (n ≤ 64) &&
      fld (wordAt w 1) 16 16 == 0 && wordAt w 4 == 0 && wordAt w 5 == 0 && wordAt w 6 == 0 && bytes % 32 == 0 && area
    (must s ok causeFORMAT).next fun s _ =>
      (readImage src s 32 (32 * n)).next fun s t =>
        (must s (crc32 (h.take 28 ++ t) == wordAt w 7) causeCRC).next fun s _ =>
          (s, .ok (bytes, (wordAt w 3).toNat, (List.range n).map fun i => sectOf (t.drop (32 * i))))

/-- Steps 3 to 6: the footprint. -/
def checkFootprint (src : ImgSrc) (s : State) (bytes : Nat) (sects : List Sect) : Chk Footprint :=
  let x := sects.getD 0 ⟨0, 0, 0, 0, 0, false⟩
  let tableEnd := 32 + 32 * sects.length
  (must s (x.typ == 1 && x.len == 64 && x.dest == 0 && x.payloadOk tableEnd bytes) causeFORMAT).next fun s _ =>
    (readImage src s x.off 64).next fun s l =>
      let f : Footprint := ⟨bytesWords 16 l⟩
      (must s f.formOk causeFORMAT).next fun s _ =>
        (must s (crc32 l == x.crc) causeCRC).next fun s _ =>
          (must s (f.featureOk s.part) causeFEATURE).next fun s _ =>
            (must s (f.fits s.part) causeFOOTPRINT).next fun s _ => (s, .ok f)

/-- Step 7: every other entry, in table order. -/
def checkSects (src : ImgSrc) (f : Footprint) (bytes tableEnd : Nat) : List Sect → List Sect → State → Chk Unit
  | _, [], s => (s, .ok ())
  | before, x :: rest, s =>
    let cnw := (before ++ [x]).foldl (fun a y => if y.typ = 8 ∨ y.typ = 9 then a + y.len else a) 0
    let ok := x.payloadOk tableEnd bytes && x.formOk s.part f bytes rest.isEmpty && x.fitsAfter src bytes before &&
      decide (cnw ≤ f.cnw)
    (must s ok causeFORMAT).next fun s _ =>
      let go (s : State) : Chk Unit := checkSects src f bytes tableEnd (before ++ [x]) rest s
      if x.typ = 5 then
        (readImage src s x.off x.len).next fun s l =>
          (must s ((records 8 l).all fun r => decide (fld (wordAt r 0) 0 14 < f.rings)) causeFORMAT).next fun s _ => go s
      else go s

/-- Step 8: the payload CRCs. -/
def checkCrcs (src : ImgSrc) : List Sect → State → Chk Unit
  | [], s => (s, .ok ())
  | x :: rest, s =>
    if x.typ = 7 ∨ x.typ = 0xF then checkCrcs src rest s
    else (readImage src s x.off x.len).next fun s l =>
      (must s (crc32 l == x.crc) causeCRC).next fun s _ => checkCrcs src rest s

/-- Step 9: the signature (21 R860). -/
def checkSignature (src : ImgSrc) (sects : List Sect) (s : State) : Chk Unit :=
  if s.part.sign then
    match sects.find? fun x => x.typ = 0xF with
    | none => (s, .error causeSIGNATURE)
    | some x =>
      (readImage src s 0 x.off).next fun s m =>
        (readImage src s x.off 128).next fun s l =>
          let num (i : Nat) : Nat := beNat ((l.drop (32 * i)).take 32)
          must s (sha256 (l.take 64) == s.part.keyHash && ecdsaOk (num 0) (num 1) (num 2) (num 3) (sha256 m)) causeSIGNATURE
  else (s, .ok ())

/-- The payload of the section of a type, empty where there is none. -/
def readSect (src : ImgSrc) (sects : List Sect) (typ : Nat) (s : State) : Chk (List Byte) :=
  match sects.find? fun x => x.typ = typ with
  | none => (s, .ok [])
  | some x => readImage src s x.off x.len

/-- No number appears twice. -/
def distinct : List Nat → Bool
  | [] => true
  | a :: t => !t.contains a && distinct t

/-- Step 10: the region and ring records (21 R852). -/
def checkRecords (src : ImgSrc) (sects : List Sect) (s : State) :
    Chk (List (Nat × Word × Word × Word) × List (Nat × List Word)) :=
  (readSect src sects 4 s).next fun s l =>
    (readSect src sects 5 s).next fun s m =>
      let rg := records 4 l
      let rn := records 8 m
      let rgOk (r : List Word) : Bool :=
        fld (wordAt r 0) 6 26 == 0 && fld (wordAt r 1) 0 6 == 0 && fld (wordAt r 3) 6 2 == 0 &&
          fld (wordAt r 3) 11 1 == 0 && fld (wordAt r 3) 13 19 == 0 &&
          (regionReject s.part ⟨(wordAt r 1).toNat, fld (wordAt r 2) 6 26 * 64 + 63, (wordAt r 3).toNat⟩).isNone
      let rnOk (r : List Word) : Bool :=
        fld (wordAt r 0) 14 18 == 0 && wordAt r 5 == 0 && wordAt r 6 == 0 && wordAt r 7 == 0 &&
          ringCfgOk s.part (r.drop 1)
      let rs := rg.map fun r => (fld (wordAt r 0) 0 6, wordAt r 1, Word.nat (fld (wordAt r 2) 6 26 * 64 + 63), wordAt r 3)
      let ns := rn.map fun r => (fld (wordAt r 0) 0 14, (r.drop 1).take 4)
      (must s (rg.all rgOk && rn.all rnOk && distinct (rs.map (·.1)) && distinct (ns.map (·.1))) causeFORMAT).next
        fun s _ => (s, .ok (rs, ns))

/-- The check phase (21 R855, Table 21.6). -/
def checkImage (src : ImgSrc) (s : State) : Chk Fratitha :=
  (checkHeader src s).next fun s (bytes, entry, sects) =>
    (checkFootprint src s bytes sects).next fun s f =>
      (checkSects src f bytes (32 + 32 * sects.length) (sects.take 1) (sects.drop 1) s).next fun s _ =>
        (checkCrcs src (sects.drop 1) s).next fun s _ =>
          (checkSignature src sects s).next fun s _ =>
            (checkRecords src sects s).next fun s (rs, ns) =>
              let inside := sects.any fun x => x.typ == 2 && decide (x.dest ≤ entry) && decide (entry < x.dest + x.len)
              (must s (entry % 4 == 0 && inside) causeFORMAT).next fun s _ =>
                (s, .ok ⟨bytes, entry, f, sects, rs, ns⟩)

/-! ### The commit phase (21 R856) -/

/-- Step 2 for one section: its destination is written; a word of it that cannot be merged ends BIND (06 R269). -/
def placeSect (src : ImgSrc) (x : Sect) (s : State) : Chk Unit :=
  let put (s : State) (l : List Byte) : Chk Unit :=
    let (s, ue) := s.eccWrite srcBind x.dest l
    match ue with
    | some a => (s.recordEcc srcBind a, .error causeCRC)
    | none => (s, .ok ())
  if x.typ = 7 then put s (List.replicate x.len (0 : Byte))
  else if (x.typ = 2 ∨ x.typ = 3 ∨ x.typ = 6) ∧ x.inPlace src = false then
    (readImage src s x.off x.len).next put
  else (s, .ok ())

def placeSects (src : ImgSrc) : List Sect → State → Chk Unit
  | [], s => (s, .ok ())
  | x :: t, s => (placeSect src x s).next fun s _ => placeSects src t s

/-- Step 3: a network's block (19 R792). -/
def placeNet (src : ImgSrc) (sects : List Sect) (gesture : Bool) (s : State) : Chk Unit :=
  match sects.find? fun x => x.typ = 8 + b2n gesture with
  | none => (s, .ok ())
  | some x =>
    (readImage src s x.off x.len).next fun s l =>
      let on := s.netOn gesture
      let (s, ue) := (s.netOff gesture).eccPut srcBind x.dest l
      match ue with
      | some a => (s.noteCnEcc a true, .error causeCRC)
      | none => (if on then s.netEnable gesture else s, .ok ())

namespace State

/-- Step 4: the region presets, with all 64 entries committed and every pending commit discarded (06 R265). -/
def loadRegions (s : State) (rs : List (Nat × Word × Word × Word)) : State :=
  let all := (List.range 64).flatMap fun n => [RG_BASE n, RG_LIMIT n, RG_ATTR n]
  let s := all.foldl (fun s a => s.setReg a (csrReset a)) s
  let s := rs.foldl (fun s (n, b, l, a) => ((s.setReg (RG_BASE n) b).setReg (RG_LIMIT n) l).setReg (RG_ATTR n) a) s
  ({ s with rgPend := [] }.syncPend).commit all

/-- Bells, thresholds, CAP_EPOCH and CAP_TACK_CFG take their reset values (07 R299). -/
def resetBells (s : State) : State :=
  { s with
    cap := { s.cap with bells := [] }
    regs := s.regs.filter fun e => !(decide (CAP_BTHR ≤ e.1) && decide (e.1 < CAP_BTHR + 0x800)) &&
      !(decide (CAP_BFIRED ≤ e.1) && decide (e.1 < CAP_BFIRED + 32)) && e.1 != CAP_EPOCH && e.1 != CAP_TACK_CFG
    bosun := { s.bosun with bellRec := [] } }

/-- Step 5: the ring presets, each read by the Capstan as an ENABLE reads it (06 R292; 07 R295, R299). -/
def loadRings (s : State) (ns : List (Nat × List Word)) : State :=
  let s := { s with cap := { s.cap with rings := [], lastAdm := [] } }
  let s := ns.foldl (fun s (n, ws) =>
    if s.dev.mode = .becalmed then s
    else
      let (s, ue) := ((s.eccWrite srcBind (ringAddr n) (wordsBytes ws)).1).eccRead srcCapstan (ringAddr n) 16
      match ue with
      | some a => s.becalm 0x25 false (Word.nat (memNumber s.part a + srcCapstan * 16)) a
      | none => s.enableWith n ws) s
  s.resetBells

/-- Engine state that BIND and every wake clear: chain and stripe state, kept blocks and rows, tile and mask registers,
and the summary FIFOs (10 R446, 11 R491, 12 R510, 13 R558). -/
def clearEngines (s : State) : State :=
  { s with
    looms := s.looms.map fun (i, l) => (i, { l with chain := none, kept := none, held := [], out := [] })
    harrows := s.harrows.map fun (i, h) => (i, { h with stripe := none, kept := none })
    mills := s.mills.map fun (i, m) => (i, { m with tregs := [], masks := [], hold := [] })
    fifos := [] }

/-- The ESAVE bank holds free values (14 Table 14.9, reset X). -/
def spoilEsave (s : State) : State :=
  (List.range 5).foldl (fun s k => let (x, s) := s.draw 32; s.setBs (BS_ESAVE k) x) s

/-- Bosun begins at an entry point in Keeper mode, with every CSR at its reset value but for INJ_BIT and SWEEPS, which count with
the lockstep counter that goes on (14 R591, 15 R675, 16 R684; log 118). -/
def startBosun (s : State) (entry : Nat) : State :=
  let stat := Nat.land (s.reg (bsAddr BS_LS_STAT)).toNat 0xFFFF00FF
  let s := { s with
    regs := s.regs.filter fun e => !(decide (bsAddr 0x080 ≤ e.1) && decide (e.1 < bsAddr 0x090))
    bosun := { s.bosun with
      core := { pc := Word.nat entry }, trail := none, run := true, wait := none, stores := [], instret := 0, cycle := 0
      cycleHi := 0, latHalt := false, latStale := false, latDeck := false, ckpt := false, diverge := none } }
  (s.setReg (bsAddr BS_LS_STAT) (Word.nat stat)).spoilEsave

/-- Every ring is disabled (step 1; 08 R367). -/
def disableAll (s : State) : State :=
  (s.cap.rings.map (·.1)).foldl (fun s n => if s.dev.mode = .becalmed then s else (s.ringDisable n).1) s

/-- Steps 6 and 7: the working state is reset, the image is bound and Bosun starts. -/
def finishBind (s : State) (x : Fratitha) : State :=
  let s := { s.clearEngines with cap := { s.cap with dice := [] } }
  { s with dev := { s.dev with image := some ⟨Word.nat x.foot.key, Word.nat x.foot.peer⟩ } }.startBosun x.entry

/-- The Crowsnest's SRAM, networks and enable bits as `s0` holds them (19 R792). -/
def keepCn (s s0 : State) : State :=
  let part {α : Type} (l l0 : List (Nat × α)) : List (Nat × α) :=
    l.filter (fun e => decide (e.1 < 0x50000000)) ++ l0.filter (fun e => inCn e.1) ++ l.filter fun e => decide (0x50040000 ≤ e.1)
  { s with mem := part s.mem s0.mem, ecc := part s.ecc s0.ecc, cn := s0.cn }.setReg CN_CTRL (s0.reg CN_CTRL)

/-- A commit that could not be finished: what it touched is undefined, and no image is bound; the Crowsnest's blocks and enable
bits are as they were before it, in `s0` (06 Table 6.4, 19 R792, 21 R858). -/
def voidBind (s s0 : State) (x : Fratitha) : State :=
  let s := (s.scramble ((x.sects.filter fun y => y.placed && !inCn y.dest).map fun y => (y.dest, y.len))).keepCn s0
  { s with dev := { s.dev with image := none }, bosun := { s.bosun with run := false } }

end State

/-- The commit phase; a boot image's sections and ring words go the same way. A class F fault met in it abandons it
(21 R856, R858, R859). -/
def commitImage (src : ImgSrc) (s : State) (x : Fratitha) : Chk Unit :=
  let s0 := s
  let s := s.disableAll
  if s.dev.mode = .becalmed then (s, .error 0)
  else match (placeSects src x.sects s).next (fun s _ =>
      (placeNet src x.sects false s).next fun s _ => placeNet src x.sects true s) with
  | (s, .error c) => (s.voidBind s0 x, .error c)
  | (s, .ok ()) =>
    let s := (s.loadRegions x.regions).loadRings x.rings
    if s.dev.mode = .becalmed then (s, .error 0) else (s.finishBind x, .ok ())

/-- What a boot whose image fails may have written by then: the destinations of the sections it places as it reads them, and
ring descriptor words (21 R859). -/
def bootPlaces (src : ImgSrc) (s : State) : List (Nat × Nat) :=
  match checkHeader src s with
  | (s, .ok (bytes, _, sects)) =>
    match (checkFootprint src s bytes sects).2 with
    | .ok f =>
      let ok (x : Sect) : Bool := x.payloadOk (32 + 32 * sects.length) bytes && x.formOk s.part f bytes false
      (sects.filter fun x => ok x && [2, 3, 6, 7].contains x.typ).map (fun x => (x.dest, x.len)) ++
        (sects.filter fun x => ok x && x.typ == 5).flatMap fun x =>
          match (readImage src s x.off x.len).2 with
          | .ok l => (records 8 l).map fun r => (State.ringAddr (fld (wordAt r 0) 0 14), 16)
          | .error _ => []
    | .error _ => []
  | (_, .error _) => []

/-- The destinations that a BIND of the image at `base` places, none where a check fails (21 R855, R856). -/
def bindPlaces (s : State) (base : Nat) : List (Nat × Nat) :=
  match (checkImage (.mem base) s).2 with
  | .ok x => (x.sects.filter Sect.placed).map fun y => (y.dest, y.len)
  | .error _ => []

/-- BIND of an image: its checks, then its commit (21 R855, R856). -/
def bindImage (src : ImgSrc) (s : State) : Chk Unit :=
  (checkImage src s).next fun s x => commitImage src s x

end Sys2Proof.Machine
end

