-- ==== Sys2Proof/Machine/Muster.lean ====
section
/-! DEFINITION. Resets, Muster, the boot flow, supplies and clocks, REEF, BIND and the wakes (03). -/

namespace Sys2Proof.Machine

/-- The Deck answers: every state but MOORED (03 R115, 05 R207). -/
def State.answers (s : State) : Bool := decide (s.dev.mode ≠ .moored)

/-! ### Contents that are lost (00 R7; 02 R105; 03 Table 3.3) -/

namespace State

/-- What the memories at the addresses of `q` hold becomes undefined: each byte written there turns into a free value; a byte
that nothing has written reads as before (log 5). -/
def spoilRam (s : State) (q : Nat → Bool) : State :=
  (s.mem.filter fun e => q e.1).foldl
    (fun s e => let (x, s) := s.draw 8; { s with mem := Store.set 0 s.mem e.1 x }) s

/-- Pantry, TCM and Granary contents are lost. -/
def loseRam (s : State) : State :=
  { s.spoilRam (fun a => !inCn a) with ecc := s.ecc.filter fun e => inCn e.1, inject := none }

/-- The fault block's contents are lost with VDD_GR: free values in its fields (16 R697). -/
def loseFt (s : State) : State :=
  ([(FT_REC 0, 0xFFFF0FFF), (FT_REC 1, 0xFFFFFFFF), (FT_REC 2, 0xFFFF7FFF), (FT_REC 3, 0xFFFFFFFF), (FT_REC 4, 0xFFFFFFFF)] ++
    (List.range 6).map fun k => (FT_CE_ECC + 4 * k, 0xFFFFFFFF)).foldl
    (fun s (a, m) => let (x, s) := s.draw 32; s.setReg a (x &&& Word.nat m)) s

end State

/-! ### Resets (03.3) -/

/-- A register of the fault block. -/
def isFt (a : Nat) : Bool := decide (0x40020000 ≤ a) && decide (a < 0x40030000)

namespace State

/-- Power-on (1), pin (2) or soft (3) reset is asserted: MOORED, with what 03 Table 3.3 keeps. A HAIL line that is being
sent is not cut short while the supplies stay (03 R162; log 32). -/
def resetTo (s : State) (hold : Hold) : State :=
  let cause := match hold with | .pin => 2 | .soft => 3 | _ => 1
  let por := decide (cause = 1)
  let kept (o : Nat) : Bool := o == DK_FAULT_LO || o == DK_FAULT_HI || o == DK_FAULT_SEQ ||
    (decide (DK_SCRATCH0 ≤ o) && decide (o < 0x58))
  let s0 : State := {
    part := s.part, pending := s.pending, free := s.free
    dev := { hold := hold, straps := s.dev.straps, vhsel := s.dev.vhsel, testen := s.dev.testen, vinOk := s.dev.vinOk
             grOk := s.dev.grOk, dap := if por then 0 else s.dev.dap
             hail := { sending := if por then [] else s.dev.hail.sending } }
    mem := s.mem
    deck := { regs := if por then [] else s.deck.regs.filter fun e => kept e.1 }
    regs := if por then [] else s.regs.filter fun e => isFt e.1 }
  (s0.spoilRam fun _ => true).setDkf DK_CAUSE 0 8 cause

/-- MOORED is left: Muster starts with its first stage, and the millisecond count with it (03 R118, R120; 05 R217). -/
def startMuster (s : State) : State := (s.setDk DK_STAGE 1).enter .muster

/-- A reset releases: TESTEN high keeps the device in MOORED (03 R116). -/
def release (s : State) : State :=
  if s.dev.testen then { s with dev := { s.dev with hold := .testen } }
  else { s with dev := { s.dev with hold := .none } }.startMuster

/-! ### Muster (03.4) -/

def stage (s : State) : Nat := s.dkf DK_STAGE 0 8
def setStage (s : State) (st unit : Nat) (fail : Bool) : State :=
  s.setDk DK_STAGE (BitVec.ofNat 16 (st + unit % 16 * 256 + b2n fail * 32768))

end State

/-- The cause of a stage's failure (03 Table 3.4). -/
def stageCause (st unit : Nat) : Nat :=
  match st with
  | 1 => 0x10
  | 2 => 0x11
  | 3 => if unit = 0 then 0x13 else if unit = 1 then 0x14 else 0x12
  | n => 0x11 + n

namespace State

/-- A stage fails: BECALMED (03 R121; 16 Table 16.5). -/
def failStage (s : State) (unit detail : Nat) : State :=
  let st := s.stage
  let d := if st = 4 ∨ st = 5 ∨ st = 7 then detail % 4096 else 0
  (s.setStage st unit true).becalm (stageCause st unit) false (Word.nat (unit % 16 * 4096 + d))

/-- HOVE_TO is reached from MUSTER or from REEFED: the Sweade port enters DETECT, and a WAKE that runs finishes (05 Table 5.2;
20 R807, R809). -/
def reachHoveTo (s : State) : State :=
  let s := { s with dev := { s.dev with booting := false, waking := false, cold := false } }.enter .hoveTo
  let s := { s with sw := { s.sw with txde := s.rf SW_LTRIM 6 2 } }
  match s.dev.command with
  | some c => if c.op = 2 then s.finishCmd 2 0 else s
  | none => s

/-- Every stage has passed: the boot flow, which Bosun executes from the boot ROM, or HOVE_TO, or BOOT_STRAP (03 R126, R127,
R143). -/
def mustered (s : State) : State :=
  let s := if s.dev.cold then s.setCause 0x38 else s
  match s.dev.straps.boot.toNat with
  | 0 => (s.setStage 0xFF 0 false).reachHoveTo
  | 3 => (s.setStage 0xFF 0 false).becalm 0x1D false 0
  | _ => { s.setStage 0x0B 0 false with dev := { s.dev with booting := true }, bosun := { s.bosun with run := true } }

/-- A stage ends. GRANARY_MBIST runs once per stack. REG_CHK waits for both supplies: it passes only with VIN_CORE in range, and a
pass says that VDD_GR, where it was absent, has come (03 R121, R123; log 33). -/
def stageEnd (s : State) (pass : Bool) (unit detail : Nat) : State :=
  if !s.mustering then s
  else
    let st := s.stage
    let u := s.dkf DK_STAGE 8 4
    if !pass then s.failStage (if st = 5 then u else unit) detail
    else if st = 3 then (if s.dev.vinOk then { s with dev := { s.dev with grOk := true } }.setStage 4 0 false else s)
    else if st = 5 ∧ u + 1 < s.part.stackCount then s.setStage 5 (u + 1) false
    else if st = 10 ∨ (s.dev.cold ∧ st = 8) then s.mustered
    else s.setStage (st + 1) 0 false

/-- A supply still absent 10 ms after REG_CHK started (03 R123). -/
def regChkTimeout (s : State) (gr : Bool) : State :=
  if s.mustering && s.stage == 3 && !(if gr then s.dev.grOk else s.dev.vinOk) then s.failStage (b2n gr) 0 else s

/-- The Muster controller's limit: the stage that was running has not passed (03 R120, R124; log 33). -/
def musterTime (s : State) : State :=
  if s.mustering then
    let s := s.testUnit
    let u := s.dkf DK_STAGE 8 4
    (s.setStage s.stage u true).becalm 0x1C false (Word.nat (u * 4096))
  else s

/-! ### The boot flow (03.5) -/

end State

/-- A boot block is valid (03 R128). -/
def blockValid (w : List Word) : Bool :=
  wordAt w 0 == 0x31424C46 && crc32 (wordsBytes [wordAt w 0, wordAt w 1, wordAt w 2]) == wordAt w 3 &&
    decide (fld (wordAt w 2) 0 3 ≤ 4) && fld (wordAt w 2) 5 11 == 0 && fld (wordAt w 1) 0 12 == 0

/-- Block B is newer than block A (03 R128). -/
def newer (a b : List Word) : Bool :=
  let d := (fld (wordAt b 2) 16 16 + 65536 - fld (wordAt a 2) 16 16) % 65536
  decide (1 ≤ d) && decide (d ≤ 32767)

namespace State

/-- DK_CAUSE follows a boot event of the first attempt alone (03 R153). -/
def bootCause (s : State) (first : Bool) (c : Nat) : State := if first then s.setCause c else s

/-- Steps 4 to 7 for one block: whether an image is bound; one that fails leaves what it has written undefined (03 R129, R131;
21 R859). -/
def bootTry (s : State) (fl : Flash) (first : Bool) (block : List Word) (image : List Byte) : State × Bool :=
  let q := fld (wordAt block 2) 3 2
  let quad := match fl.sfdp with
    | some (_, r114, r144) => if q = 2 then r114 else r144
    | none => false
  let s := if 2 ≤ q ∧ quad = false then s.bootCause first 0x31 else s
  let off := (wordAt block 1).toNat
  let w := bytesWords 3 image
  let reach := off + (if wordAt w 0 = 0x31545246 then (wordAt w 2).toNat else 32)
  let far : Bool := decide (s.dev.straps.boot = 1 ∧ 0x1000000 < reach) ||
    (match fl.sfdp with | some (n, _, _) => decide (n < reach) | none => false)
  if far then (s.bootCause first 0x32, false)
  else
    let dests := bootPlaces (.flash image) s
    match bindImage (.flash image) s with
    | (s, .ok ()) => (s, true)
    | (s, .error c) => if s.dev.mode = .becalmed then (s, false) else ((s.scramble dests).bootCause first c, false)

/-- The boot flow ends in HOVE_TO, bound or not (03 R129, R130). -/
def bootEnd (s : State) (fl : Flash) : State :=
  if !s.dev.booting then s
  else
    let s := { s with bosun := { s.bosun with run := false } }
    let a := blockValid fl.blockA
    let b := blockValid fl.blockB
    let done (s : State) (ok : Bool) : State :=
      if s.dev.mode = .becalmed then s else
      let s := (s.setStage 0xFF 0 false).reachHoveTo
      if ok then s else s.raise irqBOOT
    if !a && !b then done (s.setCause 0x30) false
    else
      let useB := b && (!a || newer fl.blockA fl.blockB)
      let go (s : State) (first second : Bool) : State × Bool :=
        if second then s.bootTry fl first fl.blockB fl.imageB else s.bootTry fl first fl.blockA fl.imageA
      let (s, ok) := go s true useB
      if ok then done s true
      else if a && b && decide (s.dev.mode ≠ .becalmed) then
        let (s, ok) := go s false (!useB)
        done s ok
      else done s false

/-! ### Supplies and clocks (03.1, 03.7, 04 R164) -/

/-- VIN_CORE or VDD_GR is lost: a class F fault but in MOORED and REEFED, where the loss of VIN_CORE is VIN_CORE_REMOVAL's.
VDD_GR takes the memories, the retention area and the fault block with it in every state (02 R105; 03 R111; 16 R697). -/
def supplyLoss (s : State) (gr : Bool) : State :=
  if s.dev.mode = .reefed ∧ gr = false then s
  else
    let had := if gr then s.dev.grOk else s.dev.vinOk
    let s := if had ∧ s.dev.mode ≠ .reefed then s.becalm 0x28 false (Word.nat (b2n gr)) else s
    if gr then ({ s with dev := { s.dev with grOk := false, retained := false } }.loseRam).loseFt
    else { s with dev := { s.dev with vinOk := false } }

/-- VDD_GR falls below 0.80 V in REEFED (03 R140; 16 R697). -/
def grDip (s : State) : State :=
  if s.dev.mode = .reefed then ({ s with dev := { s.dev with retained := false } }.loseRam).loseFt else s

/-- The board removes VIN_CORE in REEFED (03 R139). -/
def vinRemoved (s : State) : State :=
  if s.dev.mode = .reefed then
    let s := { s with dev := { s.dev with vinOk := false } }
    if s.dev.retained then s else s.loseRam
  else s

/-- VIN_CORE comes into range (03 R110, R123, R141). -/
def vinRise (s : State) : State := { s with dev := { s.dev with vinOk := true } }

/-- A clock source is in use: 1 the reference, always; 2 the sensor PLL and 3 the audio PLL, in REEFED only for a stream to
the Crowsnest that is enabled in force; 4 the compute PLL, never in REEFED but for a wake (04 Table 4.1; 17 R725;
18 R773). -/
def clockUsed (s : State) (unit : Nat) : Bool :=
  match unit with
  | 1 => true
  | 2 => decide (s.dev.mode ≠ .reefed) || (s.fbit LK_CTRL 0 && s.fbit LK_CTRL 2)
  | 3 => decide (s.dev.mode ≠ .reefed) || s.fbit AU_CN 0
  | 4 => s.dev.vinOk && (decide (s.dev.mode ≠ .reefed) || s.dev.waking)
  | _ => false

/-- The reference fails, or a PLL in use loses lock, at run time: after Muster, whose CLK_MON judges the clocks itself, in the
boot flow too (03 R149; 04 R164). -/
def clockLoss (s : State) (unit : Nat) : State :=
  if s.answers && !s.mustering && s.clockUsed unit then
    let s := s.setRf CK_STAT 16 4 unit
    let s := { s with dev := { s.dev with lost := NSet.insert s.dev.lost unit, backup := s.dev.backup || unit == 1 } }
    s.becalm 0x27 false (Word.nat unit)
  else s

/-! ### REEF and BIND (03 R138–R139, R882; 05 R219, R242) -/

/-- The idle condition as REEF and BIND judge it (03 R135; 05 R242; 21 R865). -/
def idleForCmd (s : State) : Bool := !s.working && !(s.deck.doors.any fun d => match d with | .door _ _ => true | _ => false) && s.dev.reader.isNone

/-- A CHECKPOINT that is still due is discarded (16 R691). -/
def dropCkpt (s : State) : State := s.setRf (bsAddr BS_LS_STAT) 8 1 0

/-- REEF is accepted: a drain that nothing holds has completed and pending commits apply before a retained save, and the die is
fenced; a CHECKPOINT that is due is discarded (03 R139, R882; 16 R691). -/
def reefAccept (s : State) (retain : Bool) : State :=
  let s := s.drainComplete
  let s := if retain then ((List.range 64).foldl (fun s n => rgApply n s) s).trApply
    else { s with dev := { s.dev with retained := false } }
  { (s.dropCkpt) with dev := { s.dev with reefing := true }, bosun := { s.bosun with run := false, ckpt := false } }

/-- Bosun stops at its boundary and the idle condition is checked, as one check (03 R138; 14 R622). -/
def tryStop (s : State) (c : Command) : State :=
  if !s.atBoundary then { s with dev := { s.dev with stopping := true } }
  else
    let s := if s.bosun.run then s.passCycles else s
    let s := { s with dev := { s.dev with stopping := false }, bosun := { s.bosun with wait := none } }.drainStores
    if s.dev.mode = .becalmed then s
    else if s.dev.mode ≠ .hoveTo ∨ s.idleForCmd = false then s.finishCmd c.op 2
    else if c.op = 3 then s.reefAccept c.retain
    else { s with dev := { s.dev with binding := true, bindDest := bindPlaces s c.arg.toNat }, bosun := { s.bosun with run := false } }

/-- BIND ends: the image is bound, or the previous one goes on. Where another agent has written its bytes, how it ends is a free
choice and its destinations hold free values (05 Table 5.2; 21 R855, R858, R869). -/
def bindEnd (s : State) : State :=
  match s.dev.command with
  | none => s
  | some c =>
    if c.op ≠ 1 then s
    else if s.dev.stopping then s.tryStop c
    else if !s.dev.binding then s
    else
      let stale := s.dev.bindStale
      let dests := s.dev.bindDest
      let idle (s : State) : State := { s with dev := { s.dev with binding := false, bindDest := [], bindStale := false } }
      let fail (s : State) (cause : Nat) : State :=
        let s := { s with bosun := { s.bosun with run := s.dev.image.isSome } }
        (s.setCause cause).finishCmd 1 5
      let (x, s) := if stale then s.draw 8 else (0, s)
      if stale ∧ x.toNat % 2 = 1 then
        let s := (idle s).scramble dests
        let s := if x.toNat / 2 % 2 = 1 then { s with dev := { s.dev with image := none } } else s
        fail s (0x33 + x.toNat / 4 % 5)
      else
        let (s, r) := bindImage (.mem c.arg.toNat) s
        if s.dev.mode = .becalmed then s
        else
          let s := if stale then (idle s).scramble dests else idle s
          match r with
          | .ok () => s.finishCmd 1 0
          | .error cause => fail s cause

/-! ### Wakes (03.7) -/

/-- A register that a wake keeps: those of I/O die A and the fault block, and on a retained wake the saved items:
Bosun's CSRs, the Bells' thresholds, CAP_EPOCH, the region table, RG_STAT, the VTRIM codes and TR_STAT. Every other
register of the dies that were off takes its reset value (03 R139, R883; 20.10; log 29). -/
def wakeKeeps (retained : Bool) (a : Nat) : Bool :=
  isFt a || (decide (0x40800000 ≤ a) && decide (a < 0x40C00000)) ||
    (retained && ((decide (0x40030000 ≤ a) && decide (a < 0x40040000)) || a == CAP_EPOCH ||
      (decide (0x40000040 ≤ a) && decide (a < 0x40000060)) || (decide (CAP_BTHR ≤ a) && decide (a < CAP_BTHR + 0x800)) ||
      (decide (0x40010000 ≤ a) && decide (a ≤ 0x40010400)) || a == TR_STAT ||
      (decide (0x40210040 ≤ a) && decide (a < 0x40210068))))

/-- The dies that REEF turned off start again, and on a retained wake the saved items are restored. -/
def restart (s : State) (retained : Bool) : State :=
  { s with
    regs := s.regs.filter fun e => wakeKeeps retained e.1 && e.1 != bsAddr BS_LS_STAT
    inForce := s.inForce.filter fun e => wakeKeeps retained e.1 || e.1 == CK_KA_CFG
    cap := if retained then { s.cap with flights := [], op := none, refused := none } else {}
    inject := none
    rgRef := [], rgPend := []
    looms := [], harrows := [], mills := [], fifos := []
    bosun := if retained then { s.bosun with trail := none, inj := 0 } else {}
    trim := if retained then s.trim else {}
    sw := { session := s.sw.session }
    csi := []
    i2c := Store.set none s.i2c 1 none }

/-- A cold wake starts (03 R143). -/
def coldStart (s : State) : State :=
  let s := (s.restart false).loseRam
  { s with dev := { s.dev with cold := true, image := none } }.setStage 1 0 false

/-- A wake trigger in REEFED (03 R141, R143, R144). -/
def startWake (s : State) : State :=
  if s.dev.mode = .reefed ∧ s.dev.waking = false then
    let s := { s with dev := { s.dev with waking := true, coreEn := true } }
    if s.dev.retained then s else s.coldStart
  else s

/-- The save ends: CORE_EN goes low and DK_STATE reads REEFED (03 R139, R144). -/
def reefDone (s : State) : State :=
  match s.dev.command with
  | none => s
  | some c =>
    if c.op ≠ 3 then s
    else if s.dev.stopping then s.tryStop c
    else if s.dev.reefing then
      let s := s.portStop.i2cStop 1
      let s := { s with audio := { s.audio with dac := (0, 0) } }
      let kept := s.dev.wakeKept
      let s := { s with dev := { s.dev with reefing := false, wakeKept := false, retained := c.retain, coreEn := false } }
      let s := (s.setDk DK_TRIM_STAT s.dkTrim).setDkf DK_BELL_SEL 15 1 0
      let s := (s.enter .reefed).finishCmd 3 0
      if kept then s.startWake else s
    else s

/-- The retention area is checked and its items restored; where it has become invalid, the wake is cold
(03 R141, R143). -/
def wakeDone (s : State) : State :=
  if s.dev.waking && !s.dev.cold && s.dev.vinOk && decide (s.dev.mode = .reefed) then
    if s.dev.retained then
      let s := s.restart true
      { s with bosun := { s.bosun with run := s.dev.image.isSome } }.reachHoveTo
    else s.coldStart
  else s

/-- VIN_CORE is not in range 5 ms after CORE_EN rose (03 R142). -/
def wakeTimeout (s : State) : State :=
  if s.dev.waking && !s.dev.vinOk && decide (s.dev.mode = .reefed) then
    let s := { s with dev := { s.dev with waking := false, cold := false, booting := false, coreEn := false }
                      bosun := { s.bosun with run := s.bosun.run && !s.dev.booting } }
    let s := (s.setCause 0x39).raise irqSTATE
    match s.dev.command with
    | some c => if c.op = 2 then s.finishCmd 2 5 else s
    | none => s
  else s

/-- DK_TEMP takes a measurement, SRC with it (05 R216; log 127). -/
def tempSample (s : State) (code : BitVec 12) : State :=
  if s.answers then
    let hot := decide (408 < code.toInt)
    let s := if hot && !s.dkbit DK_TEMP 13 then s.raise irqTEMP else s
    s.setDk DK_TEMP (BitVec.ofNat 16 (code.toNat + 4096 * b2n (!s.dev.vinOk) + 8192 * b2n hot + 16384))
  else s

end State

/-! ### Meanings -/

/-- POR_ASSERT (03 R112, R118). -/
def execPorAssert (s : State) : Out := .next (s.resetTo .powerOn)
/-- RESET_RELEASE, with the straps and levels that the board gives (03 R118; 02 R62). -/
def execResetRelease (straps : Straps) (vhsel vinOk grOk testen : Bool) (s : State) : Out :=
  .next (if s.dev.mode = .moored ∧ (s.dev.hold = .powerOn ∨ s.dev.hold = .pin) then
    let s := if grOk then s else s.supplyLoss true
    { s with dev := { s.dev with
        straps := straps, vhsel := vhsel, vinOk := vinOk, grOk := grOk, testen := testen } }.release
  else s)
/-- PIN_RESET (02 R70, 03 R118). -/
def execPinReset (s : State) : Out :=
  .next (if s.dev.mode = .moored ∧ s.dev.hold = .powerOn then s else s.resetTo .pin)
/-- SOFT_RESET_EFFECT (03 R117). -/
def execSoftResetEffect (s : State) : Out := .next (if s.dev.softPend then s.resetTo .soft else s)
/-- SOFT_RESET_RELEASE (03 R118, R155). -/
def execSoftResetRelease (s : State) : Out :=
  .next (if s.dev.mode = .moored ∧ s.dev.hold = .soft then s.release else s)
/-- TAP_RESET: the test access port alone (03 R117, Table 3.3). -/
def execTapReset (s : State) : Out := .next { s with dev := { s.dev with dap := 0 } }
/-- TESTEN_LOW (03 R116, R154). -/
def execTestenLow (s : State) : Out :=
  .next (
    let s' := { s with dev := { s.dev with testen := false } }
    if s.dev.mode = .moored ∧ s.dev.hold = .testen then s'.release else s')
/-- MUSTER_STAGE_END (03 R121). -/
def execMusterStageEnd (pass : Bool) (unit detail : Nat) (s : State) : Out := .next (s.stageEnd pass unit detail)
/-- REG_CHK_SUPPLY_TIMEOUT (03 R123). -/
def execRegChkSupplyTimeout (gr : Bool) (s : State) : Out := .next (s.regChkTimeout gr)
/-- MUSTER_TIME (03 R124). -/
def execMusterTime (s : State) : Out := .next s.musterTime
/-- BOOT_FLOW_END, with what the flash answers (03 R129–R131). -/
def execBootFlowEnd (flash : Flash) (s : State) : Out := .next (s.bootEnd flash)
/-- SUPPLY_LOSS (03 R111). -/
def execSupplyLoss (gr : Bool) (s : State) : Out := .next (s.supplyLoss gr)
/-- VDD_GR_DIP (03 R140). -/
def execVddGrDip (s : State) : Out := .next s.grDip
/-- CLOCK_LOSS (04 R164, 03 R149). -/
def execClockLoss (unit : Nat) (s : State) : Out := .next (s.clockLoss unit)
/-- VIN_CORE_RISE (03 R123, R141). -/
def execVinCoreRise (s : State) : Out := .next s.vinRise
/-- VIN_CORE_REMOVAL (03 R139). -/
def execVinCoreRemoval (s : State) : Out := .next s.vinRemoved
/-- REEF_SAVE_DONE (03 R139). -/
def execReefSaveDone (s : State) : Out := .next s.reefDone
/-- WAKE_SUPPLY_TIMEOUT (03 R142). -/
def execWakeSupplyTimeout (s : State) : Out := .next s.wakeTimeout
/-- WAKE_RESTORE_DONE (03 R141). -/
def execWakeRestoreDone (s : State) : Out := .next s.wakeDone
/-- BIND_END (21 R855, R856). -/
def execBindEnd (s : State) : Out := .next s.bindEnd
/-- HAIL_LINE_START: a line falls due in BECALMED (03 R151). -/
def execHailLineStart (s : State) : Out := .next (if s.dev.mode = .becalmed then s.closeTie.hailDue else s)
/-- HAIL_LINE_END (03 R152). -/
def execHailLineEnd (s : State) : Out := .next (if s.dev.hail.sending = [] then s else s.hailEnd)
/-- TEMP_SAMPLE (05 R216). -/
def execTempSample (code : BitVec 12) (s : State) : Out := .next (s.tempSample code)
/-- TIME_TICK (05 R217). -/
def execTimeTick (s : State) : Out :=
  .next (if s.answers then { s.closeTie with deck := { s.deck with ms := s.deck.ms + 1 } } else s)

end Sys2Proof.Machine
end

