-- ==== Sys2Proof/Machine/Deck.lean ====
section
/-! DEFINITION. The Deck: its registers as read and written, 8-bit mode, the memory window, doorbells, host Bell
operations, commands and interrupts (05), and the debug access port (21 R861). -/

namespace Sys2Proof.Machine

namespace State

/-! ### Register values (05.4) -/

/-- A Deck access can start: the bus answers, and no access holds it (05 R207, R208). -/
def deckFree (s : State) : Bool := s.answers && (match s.deck.win with | some w => w.late | none => true)

/-- DK_REV_AUX, DK_CFG and DK_STATE. BINDING is 1 once Bosun has stopped for a BIND (log 128). -/
def revAux (s : State) : Nat := (s.part.revAux).toNat / 32 % 32 * 32 + (if s.part.iob then s.part.revAux.toNat % 32 else 31)
def dkCfg (s : State) : Nat :=
  s.part.stackCount + 8 * b2n s.part.iob + 16 * b2n s.dev.straps.busw + 32 * s.dev.straps.boot.toNat +
    128 * (if s.part.iob then s.swRole else 0) + 512 * b2n s.dev.vhsel + 1024 * b2n s.part.sign + 2048 * b2n s.part.lock
def dkState (s : State) : Nat :=
  s.dev.mode.code + 8 * b2n s.dev.image.isSome + 16 * b2n s.bosun.run + 32 * b2n s.dev.waking +
    64 * b2n s.dev.retained + 128 * b2n s.dev.vinOk + 256 * b2n s.dev.binding

/-- The states in which VALID of DK_BELL_SEL reads 0 (05 R228). -/
def bellDark (s : State) : Bool := decide (s.dev.mode = .muster ∨ s.dev.mode = .reefed) || !s.dev.vinOk

/-- Doorbells written and not yet answered. -/
def doorDepth (s : State) : Nat := (s.deck.doors.filter fun d => match d with | .door _ _ => true | _ => false).length

/-- The event that DK_CN_EVENT shows (05 R233). -/
def dkCnEvent (s : State) : Nat :=
  (match s.deck.cnFifo with | e :: _ => e.cls % 32 + 32 * (e.net % 2) + 16384 | [] => 0) + 32768 * b2n s.deck.cnOvf

/-- The current value of the Deck register at an offset. -/
def deckValue (s : State) (o : Nat) : Half :=
  if o = 0 then BitVec.ofNat 16 s.dkId
  else if o = 2 then BitVec.ofNat 16 (s.part.rev.toNat % 32768)
  else if o = 4 then BitVec.ofNat 16 s.revAux
  else if o = 6 then BitVec.ofNat 16 s.dkCfg
  else if o = DK_STATE then BitVec.ofNat 16 s.dkState
  else if o = DK_DOOR_STAT then putFld (s.dk o) 4 4 s.doorDepth
  else if o = DK_IRQ_STAT then s.dk DK_IRQ_RAW &&& s.dk DK_IRQ_MASK
  else if o = DK_BELL_SEL then (if s.bellDark then putFld (s.dk o) 15 1 0 else s.dk o)
  else if o = DK_BELL_VAL then (if s.bellDark then 0 else BitVec.ofNat 16 s.deck.bellMirror.toNat)
  else if o = DK_CN_EVENT then BitVec.ofNat 16 s.dkCnEvent
  else if o = DK_TRIM_STAT then s.dkTrim
  else if o = DK_TIME_LO then BitVec.ofNat 16 s.deck.ms.toNat
  else s.dk o

/-- IRQ_N is asserted (05 R232; 03 R147). -/
def irqN (s : State) : Bool :=
  s.answers && (decide (s.dev.mode = .becalmed) || (s.dk DK_IRQ_RAW &&& s.dk DK_IRQ_MASK) != 0)

/-- Every access clears both holding tags (05 R212). -/
def clearTags (s : State) : State := { s.closeTie with deck := { s.deck with readHold := none, writeHold := none } }

/-! ### The memory window (05.6) -/

/-- The target of an access lies on I/O die A (06 Table 6.1, Table 6.2). -/
def onDieA (s : State) (a : Nat) : Bool :=
  match spaceOf s.part a with
  | .cnSram => true
  | .rom => true
  | .hole => true
  | .csr => decide (0x40800000 ≤ a) && decide (a < 0x40C00000)
  | _ => false

/-- The lock rule forbids an access (05 R223; 06 R290). -/
def lockForbids (s : State) (a : Nat) (write : Bool) : Bool :=
  s.part.lock && (match s.dev.image with
    | none => !decide (a < 0x400000) && !decide (spaceOf s.part a = .granary)
    | some _ =>
      let need := [3] ++ (if write then [2] else []) ++ (if spaceOf s.part a = .ringTable ∧ write = false then [1] else [])
      (s.findRegion a ((a + 3 : Nat) : Int) need).isNone)

/-- Rows 2 to 6 of 05 Table 5.3: the ERR of the first that applies. -/
def winCheck (s : State) (a : Nat) (write : Bool) : Option Nat :=
  let sp := spaceOf s.part a
  if s.dev.mode = .muster then some winUNAVAIL
  else if s.onDieA a = false ∧ (s.dev.mode = .reefed ∨ s.dev.vinOk = false) then some winUNAVAIL
  else if sp = .hole then some winHOLE
  else if s.lockForbids a write then some winLOCKED
  else if write ∧ (sp = .rom ∨ sp = .ringTable) then some winREADONLY
  else none

/-- A write while BIND checks and places an image: one to the image's bytes, or to a destination, makes its result undefined
(21 R858). -/
def bindTouch (s : State) (a : Nat) : State :=
  let base := match s.dev.command with | some c => c.arg.toNat | none => 0
  let hit := s.dev.bindDest.any (fun d => meets a 4 d.1 d.2) || meets a 4 base (max 32 (s.peekWord (base + 8)).toNat)
  if s.dev.binding && hit then { s with dev := { s.dev with bindStale := true } } else s

/-- Performs an access of the address map that is not refused and does not go to the peer: the value read, and whether an
ECC error stopped it (05 R224; 06 R268, R269). -/
def mapAccess (s : State) (a : Nat) (w : Option Word) : State × Word × Bool :=
  if spaceOf s.part a = .csr then
    match w with
    | none => let (v, s) := s.csrRead a; (s, v, false)
    | some v => (s.csrWrite a v, 0, false)
  else
    let s := if w.isSome then s.bindTouch a else s
    match w with
    | none =>
      let (s, ue) := s.eccRead srcWindow a 4
      match ue with
      | some x => (s.recordEcc srcWindow x, 0, true)
      | none => let (l, s) := s.readBytes a 4; (s, leWord l, false)
    | some v =>
      let (s, ue) := s.eccWrite srcWindow a (leBytes 4 v.toNat)
      match ue with
      | some x => (s.recordEcc srcWindow x, 0, true)
      | none => (s, 0, false)

/-- The outstanding access times out (05 R224). -/
def winExpire (s : State) : State :=
  match s.deck.win with
  | some w =>
    let s := { s with deck := { s.deck with win := some { w with late := true } } }
    let s := s.setDkf DK_WIN_CTRL 4 1 1
    ((if w.write.isSome then s else s.winReturn 0).winError winTIMEOUT).winInc
  | none => s

/-- A window access: a read, or a write of a word (05 R221–R224). A slow one is not complete within its limit. -/
def winAccess (s : State) (w : Option Word) (slow : Bool) : State :=
  let a := s.winAddr
  if s.dkbit DK_WIN_CTRL 4 then s.winRefuse w.isSome winBUSY
  else match s.winCheck a w.isSome with
    | some e => s.winRefuse w.isSome e
    | none =>
      let open' (s : State) (remote : Bool) : State :=
        { s with deck := { s.deck with win := some ⟨a, w, remote, false, s.deck.doors.length⟩ } }
      if spaceOf s.part a = .remote then
        let data := match w with | some v => leBytes 4 v.toNat | none => []
        let s := ((open' s true).issueRun .window w.isSome a data 4).winSettle
        if slow then s.winExpire else s
      else if slow then (open' s false).winExpire
      else
        let (s, v, ue) := s.mapAccess a w
        if ue then s.winRefuse w.isSome winECC
        else (if w.isSome then s else s.winReturn v).winInc

/-- The word that a DK_WIN_DATA write makes. -/
def winWord (s : State) (v : Half) : Word := Word.nat (v.toNat + (s.dk DK_WIN_DATA_HI).toNat * 65536)

/-- A timed-out access completes (05 R224). One to the peer completes with its responses. -/
def winComplete (s : State) : State :=
  match s.deck.win with
  | some w =>
    if !w.late then s
    else if w.remote then s.winSettle.drainHost
    else
      let (s, _, ue) := { s with deck := { s.deck with win := none } }.mapAccess w.addr w.write
      let s := s.setDkf DK_WIN_CTRL 4 1 0
      (if ue then s.winError winECC else s).drainHost
  | none => s

/-! ### Doorbells and host Bell operations (05.7) -/

/-- A write of DK_DOOR_TAIL (05 R226). -/
def doorWrite (s : State) (v : Half) : State :=
  let s := s.setDk DK_DOOR_TAIL v
  if 8 ≤ s.doorDepth then ((s.setDkf DK_DOOR_STAT 0 3 4).setDkf DK_DOOR_STAT 8 1 1).raise irqDOOR
  else { s with deck := { s.deck with doors := s.deck.doors ++ [.door (s.dkf DK_DOOR_RING 0 14) v.toNat] } }

/-- A BIND runs (05 Table 5.4). -/
def bindRuns (s : State) : Bool := match s.dev.command with | some c => c.op == 1 | none => false

/-- The oldest doorbell is answered (05 R226, R227; 15 R658). -/
def doorAnswer (s : State) : State :=
  match s.deck.doors with
  | .door n t :: _ =>
    if !s.answers || s.winHolds then s
    else
      let (s, code) := if !s.capRuns || s.bindRuns then (s.popHost, 3) else s.popHost.offerTail n t
      let s := s.setDkf DK_DOOR_STAT 0 3 code
      let s := if code = 0 then { s with bosun := { s.bosun with latDeck := true } }
        else (s.setDkf DK_DOOR_STAT 8 1 1).raise irqDOOR
      s.drainHost
  | _ => s

/-- A write of DK_BELL_VAL (05 R227, R229). -/
def bellValWrite (s : State) (v : Half) : State :=
  let op := s.dkf DK_BELL_SEL 8 2
  if s.bellDark || (op != 1 && op != 2) then s
  else
    let n := s.dkf DK_BELL_SEL 0 8
    let x := Word.nat (v.toNat + (s.dk DK_BELL_VAL_HI).toNat * 65536)
    if s.deck.doors.isEmpty && !s.winHolds then s.hostBell n (op == 2) x
    else { s with deck := { s.deck with doors := s.deck.doors ++ [.bell n (op == 2) x] } }

/-- The mirror takes the selected Bell's value (05 R228). -/
def bellLoad (s : State) : State :=
  if s.bellDark || !s.answers then s
  else
    let s := s.setDkf DK_BELL_SEL 15 1 1
    { s with deck := { s.deck with bellMirror := s.bell (s.dkf DK_BELL_SEL 0 8) } }

/-! ### Commands (05.5) -/

/-- A refused command finishes at once; a command that runs goes on (05 R218). -/
def cmdRefuse (s : State) (op result : Nat) : State :=
  let v := s.dk DK_CMDSTAT
  (s.setDk DK_CMDSTAT (putFld (putFld (putFld v 1 1 1) 4 4 result) 8 4 op)).raise irqCMD

/-- The state check of 03 R136. BIND and REEF pass it in UNDERWAY too, where the idle condition then refuses them with BUSY, as
R135, R242 and R330 have it (log 117). -/
def cmdState (s : State) (op : Nat) : Bool :=
  match op with
  | 2 => decide (s.dev.mode = .reefed)
  | _ => s.dieUp

def cmdArg (s : State) : Word := Word.nat ((s.dk DK_CMDARG_LO).toNat + (s.dk DK_CMDARG_HI).toNat * 65536)

/-- The argument checks of 05 Table 5.2. -/
def cmdArgOk (s : State) (op : Nat) : Bool :=
  let a := s.cmdArg.toNat
  match op with
  | 1 => a % 4096 == 0 && inRam s.part a 1
  | 5 => decide (a < 16384) && (s.ring a).st == .halted
  | _ => true

/-- An accepted command sets BUSY and starts; a TACK or RESUME takes its place behind the host operations written before it
(05 R219, R227, Table 5.2; 07 R302). -/
def cmdStart (s : State) (op : Nat) (retain skip : Bool) : State :=
  let c : Command := ⟨op, retain, s.cmdArg, skip⟩
  let s := { s.setDkf DK_CMDSTAT 0 1 1 with dev := { s.dev with command := some c } }
  match op with
  | 1 => s.tryStop c
  | 2 => s.startWake
  | 3 => s.tryStop c
  | _ => ({ s with deck := { s.deck with doors := s.deck.doors ++ [HostOp.cmd] } } : State).drainHost

/-- A write of DK_CMD, judged in the order of 05 R218. -/
def cmdWrite (s : State) (v : Half) : State :=
  let op := fld v 0 4
  let key := fld v 8 8
  if op = 6 ∧ key = 0x5A then { s with dev := { s.dev with softPend := true } }
  else if key ≠ 0x5A ∨ op = 0 ∨ 5 < op then s.cmdRefuse op 3
  else if !s.cmdState op then s.cmdRefuse op 1
  else if s.dkbit DK_CMDSTAT 0 then s.cmdRefuse op 2
  else if !s.cmdArgOk op then s.cmdRefuse op 4
  else s.cmdStart op (bit v 4) (bit v 5)

/-! ### Deck reads and writes (05.1–05.3) -/

/-- A 16-bit read of the register at an offset, with its side effects (05 R208, R214, R228, R230, R233). -/
def deckRead (s : State) (o : Nat) : State :=
  let s := s.clearTags
  let s := if o = DK_STAGE then s.testUnit else s
  if o = DK_WIN_DATA then s.winAccess none false
  else if o = DK_BELL_VAL then
    let (v, s) : Word × State :=
      if s.bellDark then (0, s) else if s.dkbit DK_BELL_SEL 15 then (s.deck.bellMirror, s) else s.draw 32
    (s.setDk DK_BELL_VAL_HI (BitVec.ofNat 16 (v.toNat / 65536))).deckReturn o (BitVec.ofNat 16 v.toNat)
  else if o = DK_CN_EVENT then
    let v := s.deckValue o
    let s := match s.deck.cnFifo with
      | e :: t =>
        let s := (s.setDk DK_CN_SCORE (BitVec.ofNat 16 e.score)).setDk DK_CN_TIME (BitVec.ofNat 16 e.time.toNat)
        { s with deck := { s.deck with cnFifo := t } }
      | [] => s
    { s with deck := { s.deck with cnOvf := false } }.deckReturn o v
  else if o = DK_TIME_LO then
    (s.setDk DK_TIME_HI (BitVec.ofNat 16 (s.deck.ms.toNat / 65536))).deckReturn o (s.deckValue o)
  else
    let v := s.deckValue o
    (s.setDk o (clearRc (deckFields o) (s.dk o))).deckReturn o v

/-- A 16-bit write of the register at an offset (05 R208, R221, R226–R231, R235). -/
def deckWrite (s : State) (o : Nat) (v : Half) : State :=
  let s := s.clearTags
  let plain := s.setDk o (storeFields (deckFields o) (s.dk o) v)
  if o = DK_CMD then s.cmdWrite v
  else if o = DK_CTRL then (s.latchWaits.setDk o (storeFields (deckFields o) (s.dk o) v)).latchWaits
  else if o = DK_WIN_DATA then s.winAccess (some (s.winWord v)) false
  else if o = DK_WIN_CTRL then (if bit v 15 then plain.setDkf o 8 4 0 else plain)
  else if o = DK_DOOR_TAIL then s.doorWrite v
  else if o = DK_IRQ_STAT then s.setDk DK_IRQ_RAW (s.dk DK_IRQ_RAW &&& ~~~v)
  else if o = DK_BELL_SEL then plain.setDkf o 15 1 0
  else if o = DK_BELL_VAL then s.bellValWrite v
  else if o = DK_HAIL_CFG then (if bit v 15 then plain.hailDue else plain)
  else plain

/-- A Deck read, or write, where an access can start. -/
def hostRead (s : State) (o : Nat) : State := if s.deckFree then s.deckRead o else s
def hostWrite (s : State) (o : Nat) (v : Half) : State := if s.deckFree then s.deckWrite o v else s

/-! ### 8-bit mode (05.2) -/

def byteRead (s : State) (k : Nat) (high : Bool) : State :=
  if !s.deckFree || !s.dev.straps.busw then s
  else if !high then s.deckRead (2 * k)
  else
    let b := match s.deck.readHold with
      | some (j, b) => if j = k then b.toNat else (s.deckValue (2 * k)).toNat / 256
      | none => (s.deckValue (2 * k)).toNat / 256
    let s := s.clearTags
    { s with deck := { s.deck with data := BitVec.ofNat 16 b } }

def byteWrite (s : State) (k : Nat) (high : Bool) (b : Byte) : State :=
  if !s.deckFree || !s.dev.straps.busw then s
  else if !high then
    let s := s.clearTags
    { s with deck := { s.deck with writeHold := some (k, b) } }
  else match s.deck.writeHold with
    | some (j, l) => if j = k then s.deckWrite (2 * k) (BitVec.ofNat 16 (l.toNat + 256 * b.toNat)) else s.clearTags
    | none => s.clearTags

/-! ### The debug access port (21 R861) -/

/-- An access of the debug access port: refused as a window access is, with no effect on the Deck; a read's value goes to
`dev.dap`, and reads 0 where it has none. -/
def dapAccess (s : State) (a : Nat) (w : Option Word) : State :=
  let s := s.closeTie
  if !s.answers || s.part.lock || s.sw.ops.any (fun p => decide (p.owner = RemOwner.dap)) then s
  else
    let put (s : State) (v : Word) : State := if w.isSome then s else { s with dev := { s.dev with dap := v } }
    let a := a / 4 * 4
    match s.winCheck a w.isSome with
    | some _ => put s 0
    | none =>
      if spaceOf s.part a = .remote then
        let data := match w with | some v => leBytes 4 v.toNat | none => []
        ((put s 0).issueRun .dap w.isSome a data 4).settleAll
      else
        let (s, v, _) := s.mapAccess a w
        put s v

/-- A write of a CSR by whichever agent reaches it (00 R17). -/
def csrReach (s : State) (a : Nat) (v : Word) : State :=
  if s.answers && a % 4 == 0 && decide (spaceOf s.part a = .csr) && decide (s.dev.mode ≠ .muster) &&
      (s.onDieA a || (decide (s.dev.mode ≠ .reefed) && s.dev.vinOk)) then s.csrWrite a v
  else s

end State

/-! ### Meanings -/

/-- DECK8_LOW_READ (05 R211). -/
def execDeck8LowRead (slot : Nat) (s : State) : Out := .next (if slot < 64 then s.byteRead slot false else s)
/-- DECK8_HIGH_READ (05 R211). -/
def execDeck8HighRead (slot : Nat) (s : State) : Out := .next (if slot < 64 then s.byteRead slot true else s)
/-- DECK8_LOW_WRITE (05 R212). -/
def execDeck8LowWrite (slot : Nat) (b : Byte) (s : State) : Out := .next (if slot < 64 then s.byteWrite slot false b else s)
/-- DECK8_HIGH_WRITE (05 R212). -/
def execDeck8HighWrite (slot : Nat) (b : Byte) (s : State) : Out := .next (if slot < 64 then s.byteWrite slot true b else s)
/-- PAIR_LOW_READ: a read of DK_TIME_LO, DK_BELL_VAL or DK_WIN_DATA (05 R214). -/
def execPairLowRead (slot : Nat) (s : State) : Out :=
  .next (if 2 * slot = DK_TIME_LO ∨ 2 * slot = DK_BELL_VAL ∨ 2 * slot = DK_WIN_DATA then s.hostRead (2 * slot) else s)
/-- RC_READ: a read of DK_TRIM_STAT, DK_HALT_RING or DK_CN_EVENT (00 R19, R22). -/
def execRcRead (slot : Nat) (s : State) : Out :=
  .next (if 2 * slot = DK_TRIM_STAT ∨ 2 * slot = DK_HALT_RING ∨ 2 * slot = DK_CN_EVENT then s.hostRead (2 * slot) else s)
/-- DK_CN_EVENT_READ (05 R233). -/
def execDkCnEventRead (s : State) : Out := .next (s.hostRead DK_CN_EVENT)
/-- WIN_READ (05 R221). -/
def execWinRead (s : State) : Out := .next (s.hostRead DK_WIN_DATA)
/-- WIN_WRITE (05 R221). -/
def execWinWrite (v : Half) (s : State) : Out := .next (s.hostWrite DK_WIN_DATA v)
/-- WIN_TIMEOUT: the outstanding access to the peer times out, or an access of a local target that does: a read, or a write
of `w` (05 R224; log 30). -/
def execWinTimeout (w : Option Half) (s : State) : Out :=
  .next (if s.deckFree then s.clearTags.winAccess (w.map s.winWord) true
    else match s.deck.win with
      | some x => if x.late then s else s.winExpire
      | none => s)
/-- WIN_LATE_COMPLETION (05 R224). -/
def execWinLateCompletion (s : State) : Out := .next s.winComplete
/-- DOORBELL_WRITE: a write of DK_DOOR_TAIL (05 R226). -/
def execDoorbellWrite (v : Half) (s : State) : Out := .next (s.hostWrite DK_DOOR_TAIL v)
/-- DOORBELL_ANSWER (05 R226; 07 R300). -/
def execDoorbellAnswer (s : State) : Out := .next s.doorAnswer
/-- BELL_SEL_WRITE (05 R228). -/
def execBellSelWrite (v : Half) (s : State) : Out := .next (s.hostWrite DK_BELL_SEL v)
/-- BELL_MIRROR_LOAD (05 R228). -/
def execBellMirrorLoad (s : State) : Out := .next s.bellLoad
/-- HOST_BELL_ADD: a write of DK_BELL_VAL with OP = 1 (05 R229). -/
def execHostBellAdd (v : Half) (s : State) : Out :=
  .next (if s.dkf DK_BELL_SEL 8 2 = 1 then s.hostWrite DK_BELL_VAL v else s)
/-- HOST_BELL_SET: a write of DK_BELL_VAL with OP = 2 (05 R229). -/
def execHostBellSet (v : Half) (s : State) : Out :=
  .next (if s.dkf DK_BELL_SEL 8 2 = 2 then s.hostWrite DK_BELL_VAL v else s)
/-- REGISTER_WRITE (00 R17). -/
def execRegisterWrite (t : RegTarget) (v : Word) (s : State) : Out :=
  .next (match t with
    | .deck o => if o < 128 ∧ o % 2 = 0 then s.hostWrite o (BitVec.ofNat 16 v.toNat) else s
    | .csr a => s.csrReach a v)
/-- DAP_ACCESS (21 R861). -/
def execDapAccess (addr : Word) (w : Option Word) (s : State) : Out := .next (s.dapAccess addr.toNat w)
/-- CMD_RESET_SOFT: DK_CMD with OP 6 (03 R117; 05 R218). -/
def execCmdResetSoft (s : State) : Out := .next (s.hostWrite DK_CMD 0x5A06)
/-- CMD_BIND (05 R219). -/
def execCmdBind (s : State) : Out := .next (s.hostWrite DK_CMD 0x5A01)
/-- CMD_WAKE (03 R141). -/
def execCmdWake (s : State) : Out := .next (s.hostWrite DK_CMD 0x5A02)
/-- CMD_REEF, with RETAIN (03 R138). -/
def execCmdReef (retain : Bool) (s : State) : Out :=
  .next (s.hostWrite DK_CMD (if retain then 0x5A13 else 0x5A03))
/-- CMD_TACK (07 R317). -/
def execCmdTack (s : State) : Out := .next (s.hostWrite DK_CMD 0x5A04)
/-- CMD_RESUME_RETRY (07 R326). -/
def execCmdResumeRetry (s : State) : Out := .next (s.hostWrite DK_CMD 0x5A05)
/-- CMD_RESUME_SKIP (07 R326). -/
def execCmdResumeSkip (s : State) : Out := .next (s.hostWrite DK_CMD 0x5A25)
/-- HAIL_SEND: a write of DK_HAIL_CFG.SEND (05 R235). -/
def execHailSend (s : State) : Out := .next (s.hostWrite DK_HAIL_CFG (putFld (s.dk DK_HAIL_CFG) 15 1 1))
/-- BADCMD: a write of DK_CMD with a wrong KEY or a reserved OP (05 R218). -/
def execBadcmd (v : Half) (s : State) : Out :=
  .next (if fld v 8 8 ≠ 0x5A ∨ fld v 0 4 = 0 ∨ 6 < fld v 0 4 then s.hostWrite DK_CMD v else s)

end Sys2Proof.Machine
end

