-- ==== Sys2Proof/Machine/Crowsnest.lean ====
section
/-! DEFINITION. The Crowsnest's events, their FIFOs and the wake they trigger (19.8, 19.9; 05 R233; 03 R144). -/

namespace Sys2Proof.Machine

namespace State

/-- An event of class `c` with score `v` is raised (19 R795; 03 R141, R144). -/
def raiseEvent (s : State) (gesture : Bool) (c v : Nat) : State :=
  let e : CnEvent := ⟨c, b2n gesture, v, s.deck.ms⟩
  let s := if s.deck.cnFifo.length < 8 then
      { s with deck := { s.deck with cnFifo := s.deck.cnFifo ++ [e] } }.raise irqCN
    else { s with deck := { s.deck with cnOvf := true } }
  let s := if s.cn.fifo.length < 8 then { s with cn := { s.cn with fifo := s.cn.fifo ++ [e] } }
    else { s with cn := { s.cn with ovf := true } }
  let wake := s.dkbit DK_CTRL 0 && (if gesture then s.rbit CN_GMASK (8 + c) else s.rbit CN_KWAKE c)
  if !wake then s
  else if s.dev.reefing then { s with dev := { s.dev with wakeKept := true } }
  else s.startWake

/-- The networks run in every state but MOORED and MUSTER (19 R797). -/
def cnRuns (s : State) : Bool := decide (s.dev.mode ≠ .moored) && decide (s.dev.mode ≠ .muster)

/-- The next inference that is due finishes (19 R793, R795). -/
def inferenceEnd (s : State) : State :=
  if s.cnRuns then
    match s.infer with
    | (s, some (g, c, v)) => s.raiseEvent g c v
    | (s, none) => s
  else s

end State

/-! ### Meanings -/

/-- One feed sample as AU_CN.SRC selects it, from the internal samples of PDM slots 0 and 1 and of MIC0 behind its PGA
(18 R773). -/
def feedSample (src : Nat) (x : Word × Word × Word) : Word :=
  match src with
  | 0 => x.1
  | 1 => BitVec.ofInt 32 ((x.1.toInt + x.2.1.toInt) / 2)
  | _ => x.2.2

/-- FEATURE_FRAME: the front end has decimated 160 samples of each source, and feeds the one selected (19 R786; 18 R773;
log 4). -/
def execFeatureFrame (samples : List (Word × Word × Word)) (s : State) : Out :=
  .next (if s.cnRuns && s.fbit AU_CN 0 then s.featureFrame (samples.map (feedSample (s.ff AU_CN 1 2))) else s)
/-- INFERENCE_END (19 R793). -/
def execInferenceEnd (s : State) : Out := .next s.inferenceEnd
/-- CN_NET_ENABLE: a write of 1 to KEN or GEN (19 R791). -/
def execCnNetEnable (gesture : Bool) (s : State) : Out :=
  .next (s.csrReach CN_CTRL (putFld (s.reg CN_CTRL) (b2n gesture) 1 1))
/-- CN_NET_DISABLE: a write of 0 to KEN or GEN (19 R791). -/
def execCnNetDisable (gesture : Bool) (s : State) : Out :=
  .next (s.csrReach CN_CTRL (putFld (s.reg CN_CTRL) (b2n gesture) 1 0))
/-- CN_EVENT_READ: what any read of CN_EVENT does; the value goes to its reader (19 R796). -/
def execCnEventRead (s : State) : Out :=
  .next (if s.cnRuns then s.readCnEvent.2 else s)

end Sys2Proof.Machine
end

