-- ==== Sys2Proof/Machine/Streams.lean ====
section
/-! DEFINITION. Stream descriptors start, and units reach the Halyard (08 R368–R371; 17 R720, R733; 18 R765). -/

namespace Sys2Proof.Machine

namespace State

/-- A stream is stopped (17 R721, R733; 18 R767; 20 R832). -/
def streamStopped (s : State) (sid : Nat) : Bool :=
  if sid = 1 then !(s.lkOn 0 && s.lkOn 1)
  else if sid = 3 ∨ sid = 4 then s.csiStopped sid
  else if sid = 8 then !s.sw.paired
  else s.auStopped sid

/-- A started descriptor of a stopped stream ends STOPPED (08 R371; 17 R747). -/
def stopIfStopped (s : State) (sid : Nat) : State := if s.streamStopped sid then s.stopStream sid else s

def streamIn (s : State) (inst : Nat) : State :=
  if !s.capRuns then s
  else
    let s := s.startStream inst 5
    [1, 3, 4, 5, 6, 8].foldl (fun s sid => s.stopIfStopped sid) s

/-- A unit found no waiting descriptor: its source counts it (17 R720, R733; 18 R765). -/
def countLost (s : State) (sid : Nat) : State :=
  match sid with
  | 1 => s.bump LK_LOST 0 16
  | 3 => s.bump CSI_LOST 0 16
  | 4 => s.bump CSI_LOST 16 16
  | 5 => s.bump AU_CNT 0 8
  | 6 => s.bump AU_CNT 8 8
  | _ => s

/-- The oldest unit of a SID reaches the Halyard (08 R368). -/
def streamUnit (s : State) (sid : Nat) : State :=
  match s.units.find? fun u => u.1 == sid with
  | none => s
  | some (_, l) =>
    let s := { s with units := s.units.eraseP fun u => u.1 == sid }
    let (s, taken) := s.deliver sid l
    (if taken then s else s.countLost sid).stopIfStopped sid

end State

/-! ### Meanings -/

/-- STREAM_IN: the descriptor starts and waits for its unit (08 R368, R369). -/
def execStreamIn (inst : Nat) (s : State) : Out := .next (s.streamIn inst)
/-- STREAM_OUT: the descriptor starts, and the oldest of its stream queues its block (08 R369, R371). -/
def execStreamOut (inst : Nat) (s : State) : Out :=
  .next (if s.capRuns then ((s.startStream inst 6).stopIfStopped 7).streamOut inst else s)
/-- STREAM_UNIT (08 R368). -/
def execStreamUnit (sid : Nat) (s : State) : Out := .next (s.streamUnit sid)

end Sys2Proof.Machine
end

