-- ==== Sys2Proof/Machine/Sweade.lean ====
section
/-! DEFINITION. The Sweade port: training, LTRIM, flits received and sent, the peer's requests, and Bells and messages
across the link (20). -/

namespace Sys2Proof.Machine

/-- The 256 bytes of a flit (20 R816, Table 20.2). -/
def SentFlit.bytes (t : SentFlit) : List Byte :=
  let w0 := Word.nat (t.flit.typ + t.flit.seq * 256 + t.ack * 2 ^ 20)
  let w1 := Word.nat (t.crq + t.crs * 256 + t.cms * 65536 + b2n t.nak * 2 ^ 24)
  let body := (wordsBytes (w0 :: w1 :: t.flit.hdr) ++ t.flit.data ++ List.replicate 252 0).take 252
  body ++ leBytes 4 (crc32 body).toNat

/-- A block of a lane: its sync header, of which bit 0 is sent first, and its payload before the scrambler (20 R808; log 131). -/
structure LaneBlock where
  sync : Nat
  payload : Nat
deriving DecidableEq, Repr

/-- The blocks that a slot puts on a lane: the alternate blocks of a flit, the first of them a control block, or a training
block (20 R808, R812, R815). -/
def Sent.blocks (t : Sent) (lane : Nat) : List LaneBlock :=
  match t with
  | .flit f => (List.range 16).map fun i =>
      ⟨if i = 0 then 2 else 1, leNat ((f.bytes.drop (16 * i + 8 * lane)).take 8)⟩
  | .train a b => [⟨2, leNat (if lane = 0 then a else b)⟩]

/-- The self-synchronising scrambler 1 + x^39 + x^58 on `w` ≤ 39 bits: the last 58 bits sent, the oldest at bit 0, and the
bits to send; the bits sent and the new state (20 R808). -/
def scrambleBits (w st x : Nat) : Nat × Nat :=
  let o := Nat.xor x (Nat.xor st (st / 2 ^ 19)) % 2 ^ w
  (o, st / 2 ^ w + o * 2 ^ (58 - w))

/-- A block on the lane as 66 bits, bit 0 sent first: the sync header as it is, then the scrambled payload; and the
scrambler's new state (20 R808). -/
def LaneBlock.line (b : LaneBlock) (st : Nat) : Nat × Nat :=
  let (x, st) := scrambleBits 39 st (b.payload % 2 ^ 39)
  let (y, st) := scrambleBits 25 st (b.payload / 2 ^ 39)
  (b.sync + 4 * (x + y * 2 ^ 39), st)

/-- Blocks on a lane, and the scrambler's state after them. -/
def laneLine : List LaneBlock → Nat → List Nat × Nat
  | [], st => ([], st)
  | b :: bs, st =>
    let (x, st) := b.line st
    let (l, st) := laneLine bs st
    (x :: l, st)

/-- The scramblers' state after what a slot sent. -/
def scrAfter (t : Option Sent) (scr : Nat × Nat) : Nat × Nat :=
  match t with
  | none => scr
  | some t => ((laneLine (t.blocks 0) scr.1).2, (laneLine (t.blocks 1) scr.2).2)

/-- The 66-bit blocks that the last slot put on a transmit lane; none in electrical idle (20 R807, R808). -/
def State.laneOut (s : State) (lane : Nat) : List Nat :=
  match s.sw.tx with
  | none => []
  | some t => (laneLine (t.blocks lane) (if lane = 0 then s.sw.scr.1 else s.sw.scr.2)).1

/-- The equaliser code with the largest eye margin, the lowest on a tie (20 R810). -/
def widestCode (m : List Nat) : Nat :=
  (List.range 16).foldl (fun best k => if m.getD best 0 < m.getD k 0 then k else best) 0

namespace State

/-! ### Training (20.3) -/

/-- The port is on and in a state of 20 Table 20.1. -/
def linkIn (s : State) (st : LinkSt) : Bool := !s.portOff && decide (s.sw.st = st)
def setLink (s : State) (st : LinkSt) : State := { s with sw := { s.sw with st := st } }

/-- The port goes back to DETECT from a training state; TXDE takes effect (20 R809, R811). -/
def retreat (s : State) : State := { s with sw := { s.sw with st := .detect, txde := s.rf SW_LTRIM 6 2 } }

/-- LTRIM acts (20 R810). -/
def ltrimOn (s : State) : Bool := s.rbit SW_LTRIM 0 && !s.rbit SW_LTRIM 1

/-- EQUALISE ends: where LTRIM acts, the sweep has chosen each lane's code from the margins that it measured (20 R810, R811;
log 4). -/
def equalised (s : State) (m0 m1 : List Nat) : State :=
  if s.linkIn .equalise then
    let s := if s.ltrimOn then (s.setRf SW_LTRIM 8 4 (widestCode m0)).setRf SW_LTRIM 12 4 (widestCode m1) else s
    s.setLink .align
  else s

/-- The role the port takes against a peer's role byte (0 A, 1 B, 2 automatic) and serial number: none in a conflict
(20 R806). -/
def resolveRole (s : State) (role : Nat) (sn : Word) : Option Bool :=
  match s.swRole, role with
  | 1, 0 => none
  | 1, _ => some false
  | 2, 1 => none
  | 2, _ => some true
  | _, 0 => some true
  | _, 1 => some false
  | _, _ => if s.part.serial = sn then none else some (decide (s.part.serial.toNat < sn.toNat))

/-- ALIGN ends; the port owes the peer a CONFIG (20 R805, R806, R811). -/
def aligned (s : State) (role : Nat) (sn : Word) (swap : Bool) (pol : Nat) : State :=
  if s.linkIn .align then
    match s.resolveRole role sn with
    | none => (s.setRf SW_STAT 12 1 1).retreat
    | some b => { s with sw := { s.sw with st := .config, roleB := b, lswap := swap, pol := pol % 4, slots := 4095 } }
  else s

/-- LTRIM compares the error counts of a lane's code and its neighbours (20 R810). Where both have strictly fewer errors,
the direction is a free value. -/
def ltrimAdapt (s : State) (lane lower here upper : Nat) : State :=
  if s.linkIn .active && s.ltrimOn && decide (lane < 2) then
    let c := s.rf SW_LTRIM (8 + 4 * lane) 4
    let dn := decide (0 < c) && decide (lower < here)
    let up := decide (c < 15) && decide (upper < here)
    let (x, s) : BitVec 1 × State := if dn && up then s.draw 1 else (0, s)
    s.setRf SW_LTRIM (8 + 4 * lane) 4
      (if dn && (!up || x == 0) then c - 1 else if up then c + 1 else c)
  else s

/-! ### Received flits (20.4) -/

/-- ACK, credits and NAK of a received flit (20 R817, R818). -/
def takeAck (s : State) (f : Flit) : State :=
  let sw := s.sw
  let k := match sw.replay.findIdx? fun t => t.seq == f.ack with
    | some i => i + 1
    | none => 0
  let again := f.nak && decide (k < sw.replay.length)
  let s := { s with sw := { sw with
    replay := sw.replay.drop k, next := if again then 0 else sw.next - k
    crq := { sw.crq with peer := f.crq % 256 }, crs := { sw.crs with peer := f.crs % 256 }
    cms := { sw.cms with peer := f.cms % 256 } } }
  if again then (s.bump SW_CNT0 0 16).bump FT_CE_SWEADE 0 32 else s

/-- A sequenced flit is accepted only as the next expected one; another sets NAK (20 R817). -/
def inOrder (s : State) (f : Flit) : State × Bool :=
  if f.seq = s.sw.rxSeq then ({ s with sw := { s.sw with rxSeq := (s.sw.rxSeq + 1) % 4096 } }, true)
  else ({ s with sw := { s.sw with nak := true } }, false)

/-- A sequenced flit arrives: `g` performs it if it is accepted. -/
def sequenced (s : State) (f : Flit) (g : State → State) : State :=
  if s.linkIn .active then
    let (s, ok) := (s.takeAck f).inOrder f
    if ok then g s else s
  else s

/-- A flit is discarded (20 R816, R817). -/
def discardFlit (s : State) : State :=
  if s.linkIn .active || s.linkIn .config then
    let s := s.bump SW_CNT0 16 16
    { s with sw := { s.sw with nak := true } }
  else s

def freeReq (s : State) : State := { s with sw := { s.sw with crq := { s.sw.crq with freed := (s.sw.crq.freed + 1) % 256 } } }
def freeRsp (s : State) : State := { s with sw := { s.sw with crs := { s.sw.crs with freed := (s.sw.crs.freed + 1) % 256 } } }
def freeMsg (s : State) : State := { s with sw := { s.sw with cms := { s.sw.cms with freed := (s.sw.cms.freed + 1) % 256 } } }

/-! ### CONFIG (20.5) -/

/-- The peer's expected SEQ lies within the replay buffer (20 R814). -/
def inReplay (s : State) (seq : Nat) : Bool :=
  seq == s.sw.txSeq || s.sw.replay.any fun t => t.seq == seq

/-- The port enters LINKED afresh (20 R813, R819). -/
def linkFresh (s : State) (hdr : List Word) : State :=
  { s.raise irqLINK with sw := { s.sw with
    st := .active, linked := true, peer := hdr, session := (s.sw.session + 1) % 256 } }.updatePair

/-- The port resumes at the peer's expected SEQ (20 R814). -/
def linkResume (s : State) (hdr : List Word) (seq : Nat) : State :=
  let rest := s.sw.replay.dropWhile fun t => t.seq != seq
  { s with sw := { s.sw with st := .active, peer := hdr, replay := rest, next := 0 } }.updatePair

/-- A CONFIG flit arrives (20 R811, R814, R819, R820, R837). -/
def configFlit (s : State) (f : Flit) : State :=
  if s.linkIn .active then
    let s := s.takeAck f
    { s with sw := { s.sw with peer := f.hdr } }.updatePair
  else if s.linkIn .config then
    if s.sw.linked then
      let seq := fld (wordAt f.hdr 4) 0 12
      let same := fld (wordAt f.hdr 1) 8 8 == fld (wordAt s.sw.peer 1) 8 8
      if same && s.inReplay seq then s.linkResume f.hdr seq else s.leaveLinked.linkFresh f.hdr
    else s.linkFresh f.hdr
  else s

/-! ### Peer requests (20.6) -/

def peerSTATE : Nat := 4
def peerHOLE : Nat := 5
def peerREGION : Nat := 6
def peerECC : Nat := 7

/-- Checks 1 to 3 of 20 R824. -/
def peerCheck (s : State) (k n : Nat) (write : Bool) : Option Nat :=
  if !s.capRuns || s.bindRuns then some peerSTATE
  else if s.part.granary < k + n then some peerHOLE
  else if (s.findRegion (0x10000000 + k : Nat) (((0x10000000 + k + n : Nat) : Int) - 1) [5, if write then 2 else 1]).isNone then
    some peerREGION
  else none

/-- A response waits to be sent (20 R823). -/
def respond (s : State) (f : Flit) (typ status : Nat) (data : List Byte) : State :=
  let w := wordAt f.hdr 0
  let s := if status = 0 then s else s.bump SW_CNT2 16 16
  { s with sw := { s.sw with
    rspQ := s.sw.rspQ ++ [{ typ := typ, hdr := [Word.nat (fld w 0 20 + status * 2 ^ 20), 0, 0, 0], data := data }] } }

/-- A WR request (20 R824; 06 R269). -/
def peerWrite (s : State) (f : Flit) : State :=
  let n := fld (wordAt f.hdr 0) 0 8
  let k := (wordAt f.hdr 1).toNat
  let s := s.freeReq
  match s.peerCheck k n true with
  | some r => s.respond f 8 r []
  | none =>
    let a := 0x10000000 + k
    let bad := (s.damaged a n).filter fun (w, e) => decide (e = Ecc.double) && !(decide (a ≤ w) && decide (w + 8 ≤ a + n))
    match bad with
    | (w, _) :: _ => ((bad.foldl (fun s (w, _) => s.noteEcc srcPeer w true) s).recordEcc srcPeer w).respond f 8 peerECC []
    | [] => (s.eccWrite srcPeer a (f.data.take n)).1.respond f 8 0 []

/-- A RD request (20 R824; 06 R268). -/
def peerRead (s : State) (f : Flit) : State :=
  let n := fld (wordAt f.hdr 0) 0 8
  let k := (wordAt f.hdr 1).toNat
  let s := s.freeReq
  match s.peerCheck k n false with
  | some r => s.respond f 9 r []
  | none =>
    let (s, ue) := s.eccRead srcPeer (0x10000000 + k) n
    match ue with
    | some w => (s.recordEcc srcPeer w).respond f 9 peerECC []
    | none => s.respond f 9 0 (s.peek (0x10000000 + k) n)

/-- A BELL flit (20 R828). -/
def peerBell (s : State) (f : Flit) : State :=
  let op := fld (wordAt f.hdr 0) 24 2
  let s := s.freeReq
  if !s.capRuns || s.bindRuns then s.bump SW_CNT1 24 8
  else if op = 1 ∨ op = 2 then s.bellOp (fld (wordAt f.hdr 1) 0 8) (op == 2) (wordAt f.hdr 2)
  else s

/-! ### Messages (20 R830, R831) -/

/-- The FIRST segment of a message: the oldest waiting descriptor takes it, or it is lost whole. -/
def startMsg (s : State) (m : Inbound) : State :=
  match s.waiting 8 with
  | none =>
    let s := (s.markGap 8).bump SW_CNT1 16 8
    { s with sw := { s.sw with inbox := s.sw.inbox ++ [m] } }
  | some f =>
    let (gap, s) := s.takeGap 8
    let s := s.mapFlight f.ring f.idx fun f => { f with st := .running (.streamRecv 0 false) }
    { s with sw := { s.sw with inbox := s.sw.inbox ++ [{ m with dest := some (f.ring, f.idx, gap) }] } }

/-- A message segment (20 R830, R831). -/
def msgFlit (s : State) (f : Flit) : State :=
  let w := wordAt f.hdr 0
  let sid := fld w 8 4
  let no := (wordAt f.hdr 1).toNat
  let mine (m : Inbound) : Bool := m.sid == sid && m.msgno == no
  let s := s.freeMsg
  let s := if bit w 12 then s.startMsg { sid := sid, msgno := no, time := wordAt f.hdr 3, dest := none } else s
  let s := { s with sw := { s.sw with
    inbox := s.sw.inbox.map fun m => if mine m then { m with bytes := m.bytes ++ f.data.take (fld w 0 8) } else m } }
  if bit w 13 then
    let m := s.sw.inbox.find? mine
    let s := { s with sw := { s.sw with inbox := s.sw.inbox.filter fun m => !mine m } }
    match m with
    | some m => s.deliverMsg m (bit w 14) false
    | none => s
  else s

/-! ### Responses (20 R823, R825) -/

/-- The operation with a TAG that has no answer takes one. -/
def answerOp (s : State) (tag : Nat) (sentOnly : Bool) (a : Nat × List Byte) : State :=
  match s.sw.ops.find? fun o => o.num % 4096 == tag && o.answer.isNone && (o.sent || !sentOnly) with
  | none => s
  | some op =>
    { s with sw := { s.sw with
      ops := s.sw.ops.map fun (o : RemOp) => if o.num = op.num then { o with answer := some a } else o } }.settleAll

/-- A response arrives; one that is late is discarded. -/
def response (s : State) (f : Flit) : State :=
  let w := wordAt f.hdr 0
  s.freeRsp.answerOp (fld w 8 12) true (fld w 20 4, f.data.take (fld w 0 8))

/-- An operation gets no response within RSP_TMO (20 R825). -/
def remoteTimeout (s : State) (tag : Nat) : State :=
  if s.rf SW_CFG 8 16 = 0 then s else s.answerOp tag false (3, [])

/-! ### Flit slots (20 R815–R819) -/

def creditLeft (c : Credit) (size : Nat) : Bool := decide ((c.sent + 256 - c.peer) % 256 < size)
def creditUse (c : Credit) : Credit := { c with sent := (c.sent + 1) % 256 }

/-- The flit leaves in this slot, with the port's ACK, credits and NAK. -/
def sendFlit (s : State) (t : TxFlit) : State :=
  let sw := s.sw
  { s with sw := { sw with
    nak := false, slots := if t.typ = 0xF then 0 else sw.slots + 1
    scr := scrAfter sw.tx sw.scr
    tx := some (.flit { flit := t, ack := (sw.rxSeq + 4095) % 4096, crq := sw.crq.freed, crs := sw.crs.freed
                        cms := sw.cms.freed, nak := sw.nak }) } }

/-- A CONFIG flit leaves in this slot (20 R819). -/
def sendConfig (s : State) : State :=
  ({ s with sw := { s.sw with own := s.ownConfig } }.sendFlit { typ := 0xF, hdr := s.ownConfig }).updatePair

/-- A training block leaves on each lane: TS1, with EQ_DONE once the own sweep has ended, or TS2. When the sweep ends, the
bits that R812 does not give and the scramblers' state are free values (20 R811, R812; log 120). -/
def trainSlot (s : State) : State :=
  let ts1 := decide (s.sw.st = .detect ∨ s.sw.st = .equalise)
  let (x, s) := s.draw 1
  let done := decide (s.sw.st = .equalise) && (s.sw.eqDone || x == 1)
  let (r, s) := s.draw 40
  let (a, s) := s.draw 58
  let (b, s) := s.draw 58
  let role : Nat := if s.swRole = 1 then 0 else if s.swRole = 2 then 1 else 2
  let rest : List Byte :=
    if ts1 then BitVec.ofNat 8 (r.toNat % 128 * 2 + b2n done) :: leBytes 4 s.part.serial.toNat else leBytes 5 r.toNat
  let block (lane : Nat) : List Byte := [if ts1 then 0x4B else 0x45, BitVec.ofNat 8 lane, BitVec.ofNat 8 role] ++ rest
  { s with sw := { s.sw with eqDone := done, scr := (a.toNat, b.toNat), tx := some (.train (block 0) (block 1)) } }

/-- A sequenced flit is numbered, kept and sent. -/
def sendNew (s : State) (t : TxFlit) : State :=
  let t := { t with seq := s.sw.txSeq, sends := 1 }
  { s with sw := { s.sw with
    txSeq := (s.sw.txSeq + 1) % 4096, replay := s.sw.replay ++ [t], next := s.sw.replay.length + 1 } }.sendFlit t

/-- The next request: operations and Bell operations in the order they were issued (20 R826, R827). -/
def nextReq (s : State) : Option (State × TxFlit) :=
  let op := s.sw.ops.find? fun o => !o.sent && o.answer.isNone
  let bell := s.sw.bellQ.head?
  let goBell (b : Nat × Nat × Bool × Word) : State × TxFlit :=
    ({ s with sw := { s.sw with bellQ := s.sw.bellQ.drop 1 } },
     { typ := 3, hdr := [Word.nat ((if b.2.2.1 then 2 else 1) * 2 ^ 24), Word.nat b.2.1, b.2.2.2, 0] })
  let goOp (o : RemOp) : State × TxFlit :=
    ({ s with sw := { s.sw with ops := s.sw.ops.map fun (p : RemOp) => if p.num = o.num then { p with sent := true } else p } },
     { typ := if o.write then 1 else 2, hdr := [Word.nat (o.len + o.num % 4096 * 256), Word.nat (o.addr - 0x70000000), 0, 0]
       data := o.data })
  match op, bell with
  | none, none => none
  | none, some b => some (goBell b)
  | some o, none => some (goOp o)
  | some o, some b => if b.1 ≤ o.num then some (goBell b) else some (goOp o)

/-- A CONFIG is due: words 2 to 5 or 7 differ from the last one sent, or 4,096 slots have nearly passed (20 R819). -/
def configDue (s : State) : Bool :=
  let c := s.ownConfig
  decide (4095 ≤ s.sw.slots) || [0, 1, 2, 3, 5].any fun i => wordAt c i != wordAt s.sw.own i

/-- A slot: in ACTIVE the port sends its next flit; in CONFIG role A sends its CONFIG first, and role B still trains until it
has arrived (20 R806, R811, R815–R819; log 120). Which class goes first where several are ready is a free value. -/
def flitSlot (s : State) : State :=
  if s.portOff then s
  else if s.sw.st = .config ∧ s.sw.roleB = false then s.sendConfig
  else if s.sw.st ≠ .active then s.trainSlot
  else if s.configDue then s.sendConfig
  else match s.sw.replay[s.sw.next]? with
    | some t =>
      if 16 ≤ t.sends then s.enterDetect
      else
        let t := { t with sends := t.sends + 1 }
        { s with sw := { s.sw with replay := s.sw.replay.set s.sw.next t, next := s.sw.next + 1 } }.sendFlit t
    | none =>
      let room := decide (s.sw.replay.length < 64)
      let req : List (State × TxFlit) := if room && s.sw.paired && creditLeft s.sw.crq 32 then
          s.nextReq.toList.map fun x => ({ x.1 with sw := { x.1.sw with crq := creditUse x.1.sw.crq } }, x.2) else []
      let rsp : List (State × TxFlit) := if room && creditLeft s.sw.crs 32 then
          s.sw.rspQ.head?.toList.map fun t => ({ s with sw := { s.sw with rspQ := s.sw.rspQ.drop 1, crs := creditUse s.sw.crs } }, t) else []
      let msg : List (State × TxFlit) := if room && s.sw.paired && creditLeft s.sw.cms 64 then
          s.sw.msgQ.head?.toList.map fun t => ({ s with sw := { s.sw with msgQ := s.sw.msgQ.drop 1, cms := creditUse s.sw.cms } }, t) else []
      match req ++ rsp ++ msg with
      | [] => s.sendFlit { typ := 0 }
      | [x] => x.1.sendNew x.2
      | x :: xs =>
        let (r, s') := s.draw 8
        let y := (x :: xs).getD (r.toNat % (xs.length + 1)) x
        { y.1 with free := s'.free }.sendNew y.2

end State

/-! ### Meanings -/

/-- LINK_BLOCK_LOCK (20 R811, R812). -/
def execLinkBlockLock (s : State) : Out :=
  .next (if s.linkIn .detect then { s with sw := { s.sw with st := .equalise, eqDone := false } } else s)
/-- LINK_EQUALISE_DONE (20 R811). -/
def execLinkEqualiseDone (m0 m1 : List Nat) (s : State) : Out := .next (s.equalised m0 m1)
/-- LINK_ALIGN_DONE (20 R811). -/
def execLinkAlignDone (role : Nat) (sn : Word) (swap : Bool) (pol : Nat) (s : State) : Out := .next (s.aligned role sn swap pol)
/-- LINK_TRAIN_TIMEOUT (20 R811). -/
def execLinkTrainTimeout (s : State) : Out :=
  .next (if s.linkIn .equalise || s.linkIn .align || s.linkIn .config then s.retreat else s)
/-- LINK_LOCK_LOSS (20 R813). -/
def execLinkLockLoss (s : State) : Out := .next (if s.linkIn .active then s.enterDetect else s)
/-- SW_RETRAIN: a write of SW_CTRL.RETRAIN (20 R813). -/
def execSwRetrain (s : State) : Out := .next (s.csrReach SW_CTRL (putFld (s.reg SW_CTRL) 1 1 1))
/-- SW_DROP: a write of SW_CTRL.DROP (20 R814). -/
def execSwDrop (s : State) : Out := .next (s.csrReach SW_CTRL (putFld (s.reg SW_CTRL) 2 1 1))
/-- LINK_HOLD_EXPIRY (20 R814). -/
def execLinkHoldExpiry (s : State) : Out := .next (if s.sw.linked && decide (s.sw.st ≠ .active) then s.leaveLinked else s)
/-- LTRIM_ADAPT: the error counts at code − 1, code and code + 1 of a lane (20 R810; log 4). -/
def execLtrimAdapt (lane lower here upper : Nat) (s : State) : Out := .next (s.ltrimAdapt lane lower here upper)
/-- FLIT_NULL (20 R817, R818). -/
def execFlitNull (f : Flit) (s : State) : Out := .next (if s.linkIn .active then s.takeAck f else s)
/-- FLIT_CONFIG (20 R819). -/
def execFlitConfig (f : Flit) (s : State) : Out := .next (s.configFlit f)
/-- FLIT_WR (20 R824). -/
def execFlitWr (f : Flit) (s : State) : Out := .next (s.sequenced f fun s => s.peerWrite f)
/-- FLIT_RD (20 R824). -/
def execFlitRd (f : Flit) (s : State) : Out := .next (s.sequenced f fun s => s.peerRead f)
/-- FLIT_BELL (20 R828). -/
def execFlitBell (f : Flit) (s : State) : Out := .next (s.sequenced f fun s => s.peerBell f)
/-- FLIT_MSG (20 R831). -/
def execFlitMsg (f : Flit) (s : State) : Out := .next (s.sequenced f fun s => s.msgFlit f)
/-- FLIT_WRRSP (20 R823). -/
def execFlitWrrsp (f : Flit) (s : State) : Out := .next (s.sequenced f fun s => s.response f)
/-- FLIT_RDRSP (20 R823). -/
def execFlitRdrsp (f : Flit) (s : State) : Out := .next (s.sequenced f fun s => s.response f)
/-- FLIT_DISCARD (20 R816). -/
def execFlitDiscard (s : State) : Out := .next s.discardFlit
/-- FLIT_SLOT (20 R815). -/
def execFlitSlot (s : State) : Out := .next s.flitSlot
/-- REMOTE_TIMEOUT (20 R825). -/
def execRemoteTimeout (tag : Nat) (s : State) : Out := .next (s.remoteTimeout tag)
/-- SW_RBELL_SEND: a write of SW_RBELL with GO (20 R827). -/
def execSwRbellSend (v : Word) (s : State) : Out := .next (if bit v 31 then s.csrReach SW_RBELL v else s)

end Sys2Proof.Machine
end

