-- ==== Sys2Proof/Machine/Dispatch.lean ====
section
/-! DEFINITION. One arm per command: a direct call of its meaning, or a refusal by name. -/

namespace Sys2Proof.Machine

/-- The effect of a command on everything but the queue. -/
def exec (i : Instr) (s : State) : Host.Outcome State Fault Refusal :=
  match i with
  | .porAssert => Sys2Proof.Machine.execPorAssert s
  | .resetRelease straps vhsel vinOk grOk testen => Sys2Proof.Machine.execResetRelease straps vhsel vinOk grOk testen s
  | .pinReset => Sys2Proof.Machine.execPinReset s
  | .cmdResetSoft => Sys2Proof.Machine.execCmdResetSoft s
  | .softResetEffect => Sys2Proof.Machine.execSoftResetEffect s
  | .softResetRelease => Sys2Proof.Machine.execSoftResetRelease s
  | .tapReset => Sys2Proof.Machine.execTapReset s
  | .musterStageEnd pass unit detail => Sys2Proof.Machine.execMusterStageEnd pass unit detail s
  | .regChkSupplyTimeout gr => Sys2Proof.Machine.execRegChkSupplyTimeout gr s
  | .musterTime => Sys2Proof.Machine.execMusterTime s
  | .bootFlowEnd flash => Sys2Proof.Machine.execBootFlowEnd flash s
  | .supplyLoss gr => Sys2Proof.Machine.execSupplyLoss gr s
  | .vddGrDip => Sys2Proof.Machine.execVddGrDip s
  | .clockLoss unit => Sys2Proof.Machine.execClockLoss unit s
  | .cmdReef retain => Sys2Proof.Machine.execCmdReef retain s
  | .reefSaveDone => Sys2Proof.Machine.execReefSaveDone s
  | .cmdWake => Sys2Proof.Machine.execCmdWake s
  | .vinCoreRise => Sys2Proof.Machine.execVinCoreRise s
  | .wakeSupplyTimeout => Sys2Proof.Machine.execWakeSupplyTimeout s
  | .wakeRestoreDone => Sys2Proof.Machine.execWakeRestoreDone s
  | .hailLineStart => Sys2Proof.Machine.execHailLineStart s
  | .hailLineEnd => Sys2Proof.Machine.execHailLineEnd s
  | .hailSend => Sys2Proof.Machine.execHailSend s
  | .tempSample code => Sys2Proof.Machine.execTempSample code s
  | .timeTick => Sys2Proof.Machine.execTimeTick s
  | .vtrimEval island pass margin => Sys2Proof.Machine.execVtrimEval island pass margin s
  | .vtrimStepDown island => Sys2Proof.Machine.execVtrimStepDown island s
  | .vtrimStepUp island => Sys2Proof.Machine.execVtrimStepUp island s
  | .replay island => Sys2Proof.Machine.execReplay island s
  | .ftrimStepSlower => Sys2Proof.Machine.execFtrimStepSlower s
  | .ftrimStepFaster => Sys2Proof.Machine.execFtrimStepFaster s
  | .trCommit v => Sys2Proof.Machine.execTrCommit v s
  | .trCommitApply => Sys2Proof.Machine.execTrCommitApply s
  | .trCommitStale => Sys2Proof.Machine.execTrCommitStale s
  | .deck8LowRead slot => Sys2Proof.Machine.execDeck8LowRead slot s
  | .deck8HighRead slot => Sys2Proof.Machine.execDeck8HighRead slot s
  | .deck8LowWrite slot b => Sys2Proof.Machine.execDeck8LowWrite slot b s
  | .deck8HighWrite slot b => Sys2Proof.Machine.execDeck8HighWrite slot b s
  | .pairLowRead slot => Sys2Proof.Machine.execPairLowRead slot s
  | .cmdBind => Sys2Proof.Machine.execCmdBind s
  | .bindEnd => Sys2Proof.Machine.execBindEnd s
  | .cmdTack => Sys2Proof.Machine.execCmdTack s
  | .cmdResumeRetry => Sys2Proof.Machine.execCmdResumeRetry s
  | .cmdResumeSkip => Sys2Proof.Machine.execCmdResumeSkip s
  | .winRead => Sys2Proof.Machine.execWinRead s
  | .winWrite v => Sys2Proof.Machine.execWinWrite v s
  | .winTimeout w => Sys2Proof.Machine.execWinTimeout w s
  | .winLateCompletion => Sys2Proof.Machine.execWinLateCompletion s
  | .doorbellWrite v => Sys2Proof.Machine.execDoorbellWrite v s
  | .doorbellAnswer => Sys2Proof.Machine.execDoorbellAnswer s
  | .bellSelWrite v => Sys2Proof.Machine.execBellSelWrite v s
  | .bellMirrorLoad => Sys2Proof.Machine.execBellMirrorLoad s
  | .hostBellAdd v => Sys2Proof.Machine.execHostBellAdd v s
  | .hostBellSet v => Sys2Proof.Machine.execHostBellSet v s
  | .dkCnEventRead => Sys2Proof.Machine.execDkCnEventRead s
  | .registerWrite t v => Sys2Proof.Machine.execRegisterWrite t v s
  | .dapAccess addr w => Sys2Proof.Machine.execDapAccess addr w s
  | .rgCommit n => Sys2Proof.Machine.execRgCommit n s
  | .rgCommitApply n => Sys2Proof.Machine.execRgCommitApply n s
  | .rgCommitStale n => Sys2Proof.Machine.execRgCommitStale n s
  | .scrubBlock => Sys2Proof.Machine.execScrubBlock s
  | .eccInjectArm mode => Sys2Proof.Machine.execEccInjectArm mode s
  | .eccInjectWithdraw => Sys2Proof.Machine.execEccInjectWithdraw s
  | .enable ring => Sys2Proof.Machine.execEnable ring s
  | .disable ring => Sys2Proof.Machine.execDisable ring s
  | .resumeRetry ring => Sys2Proof.Machine.execResumeRetry ring s
  | .resumeSkip ring => Sys2Proof.Machine.execResumeSkip ring s
  | .prio ring arg => Sys2Proof.Machine.execPrio ring arg s
  | .admission => Sys2Proof.Machine.execAdmission s
  | .bellTimeout ring => Sys2Proof.Machine.execBellTimeout ring s
  | .engineFinish ring idx => Sys2Proof.Machine.execEngineFinish ring idx s
  | .completionRecord ring => Sys2Proof.Machine.execCompletionRecord ring s
  | .capBellWrite n v => Sys2Proof.Machine.execCapBellWrite n v s
  | .capBellAddWrite n v => Sys2Proof.Machine.execCapBellAddWrite n v s
  | .thresholdArm n v => Sys2Proof.Machine.execThresholdArm n v s
  | .tackDrainComplete => Sys2Proof.Machine.execTackDrainComplete s
  | .tackDrainStale => Sys2Proof.Machine.execTackDrainStale s
  | .tackRelease => Sys2Proof.Machine.execTackRelease s
  | .copy inst => Sys2Proof.Machine.execCopy inst s
  | .fill inst => Sys2Proof.Machine.execFill inst s
  | .gather inst => Sys2Proof.Machine.execGather inst s
  | .relayout inst => Sys2Proof.Machine.execRelayout inst s
  | .streamIn inst => Sys2Proof.Machine.execStreamIn inst s
  | .streamOut inst => Sys2Proof.Machine.execStreamOut inst s
  | .streamUnit sid => Sys2Proof.Machine.execStreamUnit sid s
  | .product inst => Sys2Proof.Machine.execProduct inst s
  | .feedPair inst => Sys2Proof.Machine.execFeedPair inst s
  | .feedTimeout inst => Sys2Proof.Machine.execFeedTimeout inst s
  | .conv inst => Sys2Proof.Machine.execConv inst s
  | .tconv inst => Sys2Proof.Machine.execTconv inst s
  | .poolMax inst => Sys2Proof.Machine.execPoolMax inst s
  | .poolAvg inst => Sys2Proof.Machine.execPoolAvg inst s
  | .upNearest inst => Sys2Proof.Machine.execUpNearest inst s
  | .upBilinear inst => Sys2Proof.Machine.execUpBilinear inst s
  | .s2d inst => Sys2Proof.Machine.execS2d inst s
  | .haloPair => Sys2Proof.Machine.execHaloPair s
  | .haloTimeout inst => Sys2Proof.Machine.execHaloTimeout inst s
  | .run inst => Sys2Proof.Machine.execRun inst s
  | .accBlockTake inst => Sys2Proof.Machine.execAccBlockTake inst s
  | .accTimeout inst => Sys2Proof.Machine.execAccTimeout inst s
  | .reduce inst => Sys2Proof.Machine.execReduce inst s
  | .softmax inst => Sys2Proof.Machine.execSoftmax inst s
  | .lse inst => Sys2Proof.Machine.execLse inst s
  | .norm inst => Sys2Proof.Machine.execNorm inst s
  | .summaryPush inst => Sys2Proof.Machine.execSummaryPush inst s
  | .summaryTimeout inst => Sys2Proof.Machine.execSummaryTimeout inst s
  | .summaryFlush inst => Sys2Proof.Machine.execSummaryFlush inst s
  | .addR => Sys2Proof.Machine.execAdd s
  | .subR => Sys2Proof.Machine.execSub s
  | .andR => Sys2Proof.Machine.execAnd s
  | .orR => Sys2Proof.Machine.execOr s
  | .xorR => Sys2Proof.Machine.execXor s
  | .nor => Sys2Proof.Machine.execNor s
  | .lts => Sys2Proof.Machine.execLts s
  | .ltu => Sys2Proof.Machine.execLtu s
  | .minR => Sys2Proof.Machine.execMin s
  | .maxR => Sys2Proof.Machine.execMax s
  | .minu => Sys2Proof.Machine.execMinu s
  | .maxu => Sys2Proof.Machine.execMaxu s
  | .shl => Sys2Proof.Machine.execShl s
  | .shr => Sys2Proof.Machine.execShr s
  | .sar => Sys2Proof.Machine.execSar s
  | .shli => Sys2Proof.Machine.execShli s
  | .shri => Sys2Proof.Machine.execShri s
  | .sari => Sys2Proof.Machine.execSari s
  | .mul => Sys2Proof.Machine.execMul s
  | .mulhs => Sys2Proof.Machine.execMulhs s
  | .mulhu => Sys2Proof.Machine.execMulhu s
  | .div => Sys2Proof.Machine.execDiv s
  | .divu => Sys2Proof.Machine.execDivu s
  | .rem => Sys2Proof.Machine.execRem s
  | .remu => Sys2Proof.Machine.execRemu s
  | .jr => Sys2Proof.Machine.execJr s
  | .jalr => Sys2Proof.Machine.execJalr s
  | .addi => Sys2Proof.Machine.execAddi s
  | .ltsi => Sys2Proof.Machine.execLtsi s
  | .ltui => Sys2Proof.Machine.execLtui s
  | .andi => Sys2Proof.Machine.execAndi s
  | .ori => Sys2Proof.Machine.execOri s
  | .xori => Sys2Proof.Machine.execXori s
  | .movh => Sys2Proof.Machine.execMovh s
  | .ldb => Sys2Proof.Machine.execLdb s
  | .ldbu => Sys2Proof.Machine.execLdbu s
  | .ldh => Sys2Proof.Machine.execLdh s
  | .ldhu => Sys2Proof.Machine.execLdhu s
  | .ldw => Sys2Proof.Machine.execLdw s
  | .stb => Sys2Proof.Machine.execStb s
  | .sth => Sys2Proof.Machine.execSth s
  | .stw => Sys2Proof.Machine.execStw s
  | .storePerform => Sys2Proof.Machine.execStorePerform s
  | .beq => Sys2Proof.Machine.execBeq s
  | .bne => Sys2Proof.Machine.execBne s
  | .blt => Sys2Proof.Machine.execBlt s
  | .bge => Sys2Proof.Machine.execBge s
  | .bltu => Sys2Proof.Machine.execBltu s
  | .bgeu => Sys2Proof.Machine.execBgeu s
  | .j => Sys2Proof.Machine.execJ s
  | .jal => Sys2Proof.Machine.execJal s
  | .lp => Sys2Proof.Machine.execLp s
  | .lpi => Sys2Proof.Machine.execLpi s
  | .csrrw => Sys2Proof.Machine.execCsrrw s
  | .csrrs => Sys2Proof.Machine.execCsrrs s
  | .csrrc => Sys2Proof.Machine.execCsrrc s
  | .post => Sys2Proof.Machine.execPost s
  | .belladd => Sys2Proof.Machine.execBelladd s
  | .bellset => Sys2Proof.Machine.execBellset s
  | .waitge => Sys2Proof.Machine.execWaitge s
  | .waiteq => Sys2Proof.Machine.execWaiteq s
  | .bellrd => Sys2Proof.Machine.execBellrd s
  | .sumrd => Sys2Proof.Machine.execSumrd s
  | .tack => Sys2Proof.Machine.execTack s
  | .hsig => Sys2Proof.Machine.execHsig s
  | .fence => Sys2Proof.Machine.execFence s
  | .wfi => Sys2Proof.Machine.execWfi s
  | .bosunWaitEnd => Sys2Proof.Machine.execBosunWaitEnd s
  | .bosunWaitTimeout => Sys2Proof.Machine.execBosunWaitTimeout s
  | .nop => Sys2Proof.Machine.execNop s
  | .eret => Sys2Proof.Machine.execEret s
  | .syscall => Sys2Proof.Machine.execSyscall s
  | .breakI => Sys2Proof.Machine.execBreak s
  | .mcrew => Sys2Proof.Machine.execMcrew s
  | .interrupt => Sys2Proof.Machine.execInterrupt s
  | .checkpoint => Sys2Proof.Machine.execCheckpoint s
  | .lockMismatch low count => Sys2Proof.Machine.execLockMismatch low count s
  | .compFault => Sys2Proof.Machine.execCompFault s
  | .delayParity out lane => Sys2Proof.Machine.execDelayParity out lane s
  | .compSelfInject rail0 rail1 => Sys2Proof.Machine.execCompSelfInject rail0 rail1 s
  | .sweep => Sys2Proof.Machine.execSweep s
  | .resync => Sys2Proof.Machine.execResync s
  | .lsDiverge => Sys2Proof.Machine.execLsDiverge s
  | .backstayRetry iob n => Sys2Proof.Machine.execBackstayRetry iob n s
  | .frameStart time => Sys2Proof.Machine.execFrameStart time s
  | .frameEnd long short => Sys2Proof.Machine.execFrameEnd long short s
  | .lkCommit v => Sys2Proof.Machine.execLkCommit v s
  | .lkCommitApply => Sys2Proof.Machine.execLkCommitApply s
  | .lkCommitStale => Sys2Proof.Machine.execLkCommitStale s
  | .csiFrameStart vc fnum => Sys2Proof.Machine.execCsiFrameStart vc fnum s
  | .csiFrameEnd vc => Sys2Proof.Machine.execCsiFrameEnd vc s
  | .csiLongPacket vc dt payload crcOk => Sys2Proof.Machine.execCsiLongPacket vc dt payload crcOk s
  | .csiPacketDiscard kind => Sys2Proof.Machine.execCsiPacketDiscard kind s
  | .csiEnWrite v => Sys2Proof.Machine.execCsiEnWrite v s
  | .csiCommit v => Sys2Proof.Machine.execCsiCommit v s
  | .csiCommitApply => Sys2Proof.Machine.execCsiCommitApply s
  | .csiCommitStale => Sys2Proof.Machine.execCsiCommitStale s
  | .i2cGo c v => Sys2Proof.Machine.execI2cGo c v s
  | .i2cXferEnd c free addr acks again rd => Sys2Proof.Machine.execI2cXferEnd c free addr acks again rd s
  | .i2cAbort c => Sys2Proof.Machine.execI2cAbort c s
  | .i2cRecover c => Sys2Proof.Machine.execI2cRecover c s
  | .blockBoundary pdm adc => Sys2Proof.Machine.execBlockBoundary pdm adc s
  | .playbackTick => Sys2Proof.Machine.execPlaybackTick s
  | .i2sFrame slots => Sys2Proof.Machine.execI2sFrame slots s
  | .auCommit v => Sys2Proof.Machine.execAuCommit v s
  | .auCommitNow pdm adc => Sys2Proof.Machine.execAuCommitNow pdm adc s
  | .auCommitApply => Sys2Proof.Machine.execAuCommitApply s
  | .audioRelockDone => Sys2Proof.Machine.execAudioRelockDone s
  | .auCommitStale => Sys2Proof.Machine.execAuCommitStale s
  | .featureFrame samples => Sys2Proof.Machine.execFeatureFrame samples s
  | .inferenceEnd => Sys2Proof.Machine.execInferenceEnd s
  | .cnNetEnable gesture => Sys2Proof.Machine.execCnNetEnable gesture s
  | .cnNetDisable gesture => Sys2Proof.Machine.execCnNetDisable gesture s
  | .cnEventRead => Sys2Proof.Machine.execCnEventRead s
  | .linkBlockLock => Sys2Proof.Machine.execLinkBlockLock s
  | .linkEqualiseDone m0 m1 => Sys2Proof.Machine.execLinkEqualiseDone m0 m1 s
  | .linkAlignDone role sn swap pol => Sys2Proof.Machine.execLinkAlignDone role sn swap pol s
  | .linkTrainTimeout => Sys2Proof.Machine.execLinkTrainTimeout s
  | .linkLockLoss => Sys2Proof.Machine.execLinkLockLoss s
  | .swRetrain => Sys2Proof.Machine.execSwRetrain s
  | .swDrop => Sys2Proof.Machine.execSwDrop s
  | .linkHoldExpiry => Sys2Proof.Machine.execLinkHoldExpiry s
  | .ltrimAdapt lane lower here upper => Sys2Proof.Machine.execLtrimAdapt lane lower here upper s
  | .flitNull f => Sys2Proof.Machine.execFlitNull f s
  | .flitConfig f => Sys2Proof.Machine.execFlitConfig f s
  | .flitWr f => Sys2Proof.Machine.execFlitWr f s
  | .flitRd f => Sys2Proof.Machine.execFlitRd f s
  | .flitBell f => Sys2Proof.Machine.execFlitBell f s
  | .flitMsg f => Sys2Proof.Machine.execFlitMsg f s
  | .flitWrrsp f => Sys2Proof.Machine.execFlitWrrsp f s
  | .flitRdrsp f => Sys2Proof.Machine.execFlitRdrsp f s
  | .remoteTimeout tag => Sys2Proof.Machine.execRemoteTimeout tag s
  | .swRbellSend v => Sys2Proof.Machine.execSwRbellSend v s
  | .qrdGo v => Sys2Proof.Machine.execQrdGo v s
  | .qrdEnd data => Sys2Proof.Machine.execQrdEnd data s
  | .testenLow => Sys2Proof.Machine.execTestenLow s
  | .vinCoreRemoval => Sys2Proof.Machine.execVinCoreRemoval s
  | .flitSlot => Sys2Proof.Machine.execFlitSlot s
  | .flitDiscard => Sys2Proof.Machine.execFlitDiscard s
  | .rcRead slot => Sys2Proof.Machine.execRcRead slot s
  | .illegal => Sys2Proof.Machine.execIllegal s
  | .fetch => Sys2Proof.Machine.execFetch s
  | .badcmd v => Sys2Proof.Machine.execBadcmd v s
  | .ringOpBadarg ring op => Sys2Proof.Machine.execRingOpBadarg ring op s

end Sys2Proof.Machine
end

