-- ==== Sys2Proof/Safety.lean ====
section
/-! DEFINITION. What counts as a safe run of the block, in the terms that claims use. -/

namespace Sys2Proof

open Sys2Proof.Machine

/-- A step answers a next state: neither a fault nor a refusal. -/
def Runs (o : Host.Outcome State Fault Refusal) : Prop := ∃ t, o = .next t

/-- The device is not in BECALMED: no class F fault has been recorded since its last reset (03 R145). -/
def Afloat (s : State) : Prop := s.dev.mode ≠ .becalmed

/-- Memory is in its canonical form. -/
def MemWf (s : State) : Prop := Memory.wf s.mem = true

end Sys2Proof
end

