-- ==== Sys2Proof/Certificates/Slice0/Obligations.lean ====
section
/-! DEFINITION. The statements for the provers: what the commands do, and what they leave as it is.

A frame is written `t = { s with a := t.a, b := t.b }`: `t` is `s` but for the fields named. Within a register file the
registers that may change are listed (`csrKept`, `forceKept`, `deckKept`, `deckRegs`, `deckAccess`), and memory is compared byte by byte
(`memKept`). -/

open Sys2Proof Sys2Proof.Machine

namespace Sys2Proof.Spec

/-- Every byte of memory reads in `t` as in `s`. -/
def memKept (s t : State) : Prop := ∀ a, t.byteAt a = s.byteAt a
/-- Every byte of memory outside the `n` bytes from `a` reads in `t` as in `s`. -/
def memKeptBut (s t : State) (a n : Nat) : Prop := ∀ b, b < a ∨ a + n ≤ b → t.byteAt b = s.byteAt b
/-- Every CSR but those listed holds in `t` what it holds in `s`. -/
def csrKept (s t : State) (l : List Nat) : Prop := ∀ a, a ∉ l → t.reg a = s.reg a
/-- Every copy in force of a CSR but those listed is in `t` as in `s`. -/
def forceKept (s t : State) (l : List Nat) : Prop := ∀ a, a ∉ l → t.force a = s.force a
/-- Every Deck register but those listed holds in `t` what it holds in `s`. -/
def deckKept (s t : State) (l : List Nat) : Prop := ∀ o, o ∉ l → t.dk o = s.dk o

/-- The Deck of `t` is that of `s` but for the registers listed. -/
def deckRegs (s t : State) (l : List Nat) : Prop := t.deck = { s.deck with regs := t.deck.regs } ∧ deckKept s t l
/-- The same after a Deck access, which clears both holding tags (05 R211, R212). -/
def deckAccess (s t : State) (l : List Nat) : Prop :=
  t.deck = { s.deck with regs := t.deck.regs, readHold := none, writeHold := none } ∧ deckKept s t l
/-- Every Deck interrupt latch is in `t` as in `s`, but those listed, which are set. -/
def raised (s t : State) (l : List Nat) : Prop :=
  ∀ i, i < 16 → t.dkbit DK_IRQ_RAW i = (decide (i ∈ l) || s.dkbit DK_IRQ_RAW i)
/-- What stood in memory at the addresses of `q` may have been lost: every other byte, and every byte that nothing had
written, reads in `t` as in `s` (log 5). -/
def memLost (s t : State) (q : Nat → Bool) : Prop :=
  ∀ a, (q a = false ∨ ∀ e ∈ s.mem, e.1 ≠ a) → t.byteAt a = s.byteAt a
/-- HAIL as a state is entered with `h` before it: the line counter restarts, and where `on` holds a line starts, its fields
those of `t`, or waits behind the one being sent (03 R151, R152; 05 R235). -/
def hailEnters (t : State) (h : Hail) (on : Bool) : Prop :=
  (on = false → t.dev.hail = { h with count := 0 }) ∧
  (on = true → h.sending = [] → t.dev.hail = { h with
    sending := State.hailLine { t with dev := { t.dev with hail := { h with count := 0 } } }, count := 1 }) ∧
  (on = true → h.sending ≠ [] → t.dev.hail = { h with count := 0, waiting := some (decide (h.waiting = some true)) })

/-- No descriptor of the streams listed waits for its unit. -/
def noneWaits (s : State) (sids : List Nat) : Prop :=
  ∀ f ∈ s.cap.flights, f.cls = 4 → flightSid f ∈ sids → f.st ≠ .running .streamWait
/-- In the Capstan, only the waiting descriptors of the streams listed may have ended (08 R371). -/
def stopsOnly (s t : State) (sids : List Nat) : Prop :=
  t.cap = { s.cap with flights := t.cap.flights, gaps := t.cap.gaps } ∧ (noneWaits s sids → t.cap = s.cap)

/-- The ring table as held: ring numbers rise, each names one of 16,384 rings, and none is listed as at reset. -/
def ringsWf (s : State) : Prop := Store.wf {} s.cap.rings = true ∧ ∀ e, e ∈ s.cap.rings → e.1 < 16384

/-! ### Accesses of the Deck -/

/-- A Deck access has started: both holding tags are clear (05 R211, R212), and the KF cycle of a fault recorded before it is
over (log 116). -/
def accessed (s : State) : State :=
  { s with dev := { s.dev with tie := none }, deck := { s.deck with readHold := none, writeHold := none } }
/-- A read of the register at `o` gives `v`, in 8-bit mode its low byte with its high byte held for the slot; the Deck is that
of `u` but for this and the registers listed (05 R208, R211). -/
def deckGives (u t : State) (o : Nat) (v : Half) (l : List Nat) : Prop :=
  t.deck = { u.deck with
    regs := t.deck.regs
    data := (if u.dev.straps.busw then BitVec.ofNat 16 (v.toNat % 256) else v)
    readHold := (if u.dev.straps.busw then some (o / 2, BitVec.ofNat 8 (v.toNat / 256)) else u.deck.readHold) } ∧
  deckKept u t l
/-- A window read gives `v` in both halves (05 R214, R221). -/
def winGives (u t : State) (v : Word) (l : List Nat) : Prop :=
  deckGives u t DK_WIN_DATA (BitVec.ofNat 16 v.toNat) (DK_WIN_DATA :: DK_WIN_DATA_HI :: l) ∧
  t.dk DK_WIN_DATA = BitVec.ofNat 16 v.toNat ∧ t.dk DK_WIN_DATA_HI = BitVec.ofNat 16 (v.toNat / 65536)
/-- The window address advances by 4 where INC is 1 (05 R224). -/
def incDone (u t : State) : Prop :=
  t.winAddr = (if u.dkbit DK_WIN_CTRL 0 then (u.winAddr + 4) % 2 ^ 32 else u.winAddr)
/-- The host operation at the front has left the queue, and a window access has one fewer before it. -/
def popped (d : Deck) : Deck :=
  { d with doors := d.doors.drop 1, win := d.win.map fun w => { w with ahead := w.ahead - 1 } }
/-- A word at this address touches the Crowsnest's working area. -/
def inWork (a : Nat) : Prop := 0x50010000 < a + 4 ∧ a < 0x50030000
/-- A network of the Crowsnest is enabled. -/
def netOn (s : State) : Bool := s.rbit CN_CTRL 0 || s.rbit CN_CTRL 1

/-- The class E record of an uncorrectable word at `a` that a reader met outside a ring, over the fault block of `u`; none in
BECALMED (16 R698, R699, Table 16.5). RG_ECC_INFO gives the Crowsnest SRAM no number: MEM is a free value there. -/
def eccRecord (u t : State) (src a : Nat) : Prop :=
  let l := FT_ECNT :: (List.range 5).map FT_REC
  csrKept u t l ∧
  (u.dev.mode = .becalmed → (∀ x, x ∈ l → t.reg x = u.reg x) ∧
    ∀ o, o ∈ [DK_FAULT_LO, DK_FAULT_HI, DK_FAULT_SEQ] → t.dk o = u.dk o) ∧
  (u.dev.mode ≠ .becalmed →
    t.reg FT_ECNT = putFld (u.reg FT_ECNT) 0 32 (min (u.rf FT_ECNT 0 32 + 1) 0xFFFFFFFF) ∧
    t.reg (FT_REC 0) = Word.nat (0x330 + (u.dkf DK_FAULT_SEQ 0 16 + 1) % 65536 * 65536) ∧
    (∃ m, m < 8 ∧ (State.inCn a = false → m = memNumber u.part a % 8) ∧ t.reg (FT_REC 1) = Word.nat (m + src * 16)) ∧
    t.reg (FT_REC 2) = 0 ∧ t.reg (FT_REC 3) = Word.nat a ∧ t.reg (FT_REC 4) = u.deck.ms ∧
    t.dk DK_FAULT_LO = BitVec.ofNat 16 (t.reg (FT_REC 1)).toNat ∧ t.dk DK_FAULT_HI = 0x330 ∧
    t.dk DK_FAULT_SEQ = BitVec.ofNat 16 ((u.dkf DK_FAULT_SEQ 0 16 + 1) % 65536))

/-! ### Rings -/

/-- Every damaged code word that the `n` bytes from `a` touch lies within them. -/
def wholeWords (s : State) (a n : Nat) : Prop := ∀ e ∈ s.damaged a n, a ≤ e.1 ∧ e.1 + wordSize e.1 ≤ a + n

/-- Ring `n` has become `r`, and its state words in memory follow; nothing else changes but what the ECC of those words and an
injection armed on them do (06 R269, R275; 07 R295). -/
def ringSet (s v : State) (n : Nat) (r : Ring) : Prop :=
  v = { s with cap := { s.cap with rings := v.cap.rings }
               mem := v.mem, ecc := v.ecc, inject := v.inject, regs := v.regs, free := v.free } ∧
  v = s.setRing n r ∧ v.ring n = r ∧ (∀ m, m ≠ n → v.ring m = s.ring m) ∧
  memKeptBut s v (State.ringAddr n + 16) 16 ∧
  (n < 16384 → wholeWords s (State.ringAddr n + 16) 16 → v.free = s.free ∧ csrKept s v [RG_ECC_INJ] ∧
    v.peek (State.ringAddr n + 16) 16 = wordsBytes (State.ringWords r))
/-- No damaged code word lies across the border of a ring descriptor's state words. -/
def tableWhole (s : State) : Prop := ∀ n, n < 16384 → wholeWords s (State.ringAddr n + 16) 16
/-- The device state follows the condition of 03 R135, with the HAIL line that DK_HAIL_CFG enables and no STATE source. -/
def workFollows (v t : State) : Prop :=
  let goes (m : Mode) (on : Bool) : Prop :=
    t = { v with dev := { v.dev with mode := m, hail := t.dev.hail }
                 lk := { v.lk with frame := v.lk.frame.map fun f => State.frameEnters f m } } ∧
    hailEnters t v.dev.hail on
  match v.dev.mode, v.working with
  | .hoveTo, true => goes .underway (v.dkbit DK_HAIL_CFG 3)
  | .underway, false => goes .hoveTo (v.dkbit DK_HAIL_CFG 4)
  | _, _ => t = v
/-- HOLDER names the lowest ring that still holds a drain marked STALE (07 R320). -/
def holderFollows (v w : State) : Prop :=
  (v.draining = true ∧ v.rbit CAP_EPOCH 30 = true → ∀ m l, v.holders = m :: l →
    w = { v with regs := w.regs } ∧ csrKept v w [CAP_EPOCH] ∧ w.reg CAP_EPOCH = putFld (v.reg CAP_EPOCH) 16 14 m) ∧
  (v.draining = false ∨ v.rbit CAP_EPOCH 30 = false ∨ v.holders = [] → w = v)
/-- Both follow a change of a ring. -/
def ringFollows (v t : State) : Prop := ∃ w, holderFollows v w ∧ workFollows w t
/-- A ring but for what its head has reached of its admission stages (07 R304). -/
def sameRing (r x : Ring) : Prop := x = { r with reached := x.reached, waitOk := x.waitOk }

/-! ### Bells -/

/-- Threshold `n`, whose entry holds `cfg`, fires: ARM clears, BFIRED is set, and BELL and Bosun's record follow the entry
(07 R316; 15 R658). -/
def fires (u t : State) (n : Nat) (cfg : Word) : Prop :=
  t = { u with regs := t.regs, deck := t.deck, bosun := { u.bosun with bellRec := t.bosun.bellRec } } ∧
  csrKept u t [CAP_BTHR + 8 * n + 4, CAP_BFIRED + 4 * (n / 32)] ∧ t.reg (CAP_BTHR + 8 * n + 4) = putFld cfg 0 1 0 ∧
  t.reg (CAP_BFIRED + 4 * (n / 32)) = putFld (u.reg (CAP_BFIRED + 4 * (n / 32))) (n % 32) 1 1 ∧
  deckRegs u t [DK_IRQ_RAW] ∧ raised u t (if bit cfg 2 then [irqBELL] else []) ∧
  (n ∈ t.bosun.bellRec ↔ bit cfg 3 = true) ∧ ∀ m, m ≠ n → (m ∈ t.bosun.bellRec ↔ m ∈ u.bosun.bellRec)
/-- An armed threshold fires where its comparison holds of the Bell. -/
def judged (u t : State) (n : Nat) : Prop :=
  let cfg := u.reg (CAP_BTHR + 8 * n + 4)
  (bit cfg 0 = true ∧ State.bellHolds (u.bell n) (u.reg (CAP_BTHR + 8 * n)) (bit cfg 1) = true → fires u t n cfg) ∧
  (bit cfg 0 = false ∨ State.bellHolds (u.bell n) (u.reg (CAP_BTHR + 8 * n)) (bit cfg 1) = false → t = u)
/-- The Bell wait of a ring's head (07 R304, R312): its mode, Bell and value. -/
def headWait (s : State) (r : Ring) : Nat × Nat × Word :=
  let w0 := s.peekWord (r.entry r.head)
  (fld w0 16 2, fld w0 24 8, s.peekWord (r.entry r.head + 4))
/-- Bell `n` holds `x`, and the waits on it that `x` satisfies are satisfied for good (07 R313; 14 R617). -/
def bellHas (u w : State) (n : Nat) (x : Word) : Prop :=
  w = { u with cap := { u.cap with bells := w.cap.bells, rings := w.cap.rings }
               bosun := { u.bosun with wait := w.bosun.wait } } ∧
  w.bell n = x ∧ (∀ m, m ≠ n → w.bell m = u.bell m) ∧
  (∀ m, let r := u.ring m
    sameRing r (w.ring m) ∧ (r.waitOk = true → (w.ring m).waitOk = true) ∧
    (r.st = .enabled → r.head ≠ r.tail → r.admFault = none → r.reached = true → ∀ mode v, mode = 1 ∨ mode = 2 →
      headWait u r = (mode, n, v) → State.bellHolds x v (decide (mode = 2)) = true → (w.ring m).waitOk = true)) ∧
  w.bosun.wait = u.bosun.wait.map fun b =>
    if b.sel = n ∧ (b.kind = .ge ∨ b.kind = .eq) ∧ State.bellHolds x b.operand (decide (b.kind = .eq)) = true
    then { b with sat := true } else b
/-- The exports of a Bell operation go to the peer, or are dropped and counted (20 R827, R828). -/
def exported (u t : State) (n : Nat) (set : Bool) (v : Word) : Prop :=
  let l := if u.part.iob then
    ((List.range 16).map fun i => u.reg (SW_BEXP i)).filter fun e => bit e 31 && fld e 0 8 == n else []
  t = { u with regs := t.regs, sw := { u.sw with
    bellQ := if u.sw.paired then u.sw.bellQ ++ l.map fun e => (u.sw.issued, fld e 8 8, set, v) else u.sw.bellQ } } ∧
  csrKept u t [SW_CNT1] ∧
  t.reg SW_CNT1 = (if u.sw.paired ∨ l = [] then u.reg SW_CNT1
    else putFld (u.reg SW_CNT1) 24 8 (min (u.rf SW_CNT1 24 8 + l.length) 255))
/-- ADD or SET of `v` on Bell `n`, with what it sets off; a host operation latches Bosun's DECK source
(05 R229; 07 R312–R316; 15 R658). -/
def bellTook (u t : State) (n : Nat) (set : Bool) (v : Word) (host : Bool) : Prop := ∃ w x y,
  bellHas u w n (if set then v else u.bell n + v) ∧ judged w x n ∧ exported x y n set v ∧
  t = { y with bosun := { y.bosun with latDeck := y.bosun.latDeck || host } }

end Sys2Proof.Spec

open Sys2Proof.Spec

/-- For every command c, queue rest and state s, a step of s with c at the front of its queue is exec of c on s with the
queue's rest; with no command waiting the step answers the state unchanged (the model's choice, log 2). -/
def Obligations.StepRunsTheFrontCommand : Prop :=
  (∀ (c : Instr) (rest : List Instr) (s : State),
    step { s with pending := c :: rest } = exec c { s with pending := rest }) ∧
  ∀ s : State, s.pending = [] → step s = .next s

/-- For every command and every state, exec answers a next state: no command faults and none is refused, since every fault
of the device is a state of the device (log 3). -/
def Obligations.NoCommandStopsTheMachine : Prop :=
  ∀ (c : Instr) (s : State), ∃ t, exec c s = .next t

/-- State.reset is the device in MOORED with DK_CAUSE RESET_POR, every CSR and Deck register at its reset value, Bells 0,
every ring disabled, no descriptor in flight, Bosun halted, no image bound, the summary FIFOs and queues empty, the
port unlinked and memory in its canonical form. Sample values of the tables are spelled out. -/
def Obligations.ResetState : Prop :=
  let r := State.reset
  r.dev.mode = .moored ∧ r.dkf DK_CAUSE 0 8 = 1 ∧
  (∀ a, r.reg a = csrReset a) ∧ (∀ a, r.force a = csrReset a) ∧ (∀ o, r.dk o = deckReset o) ∧
  (∀ n, r.bell n = 0) ∧ (∀ n, (r.ring n).st = .disabled) ∧ r.cap.flights = [] ∧
  r.bosun.run = false ∧ r.bosun.stores = [] ∧ (∀ w, r.core.reg w = 0) ∧ (∀ n, r.bsv n = bsReset n) ∧
  r.dev.image = none ∧ (∀ i, r.fifo i = []) ∧ r.units = [] ∧ r.sw.linked = false ∧ r.pending = [] ∧
  Memory.wf r.mem = true ∧
  r.dkf DK_HAIL_CFG 0 2 = 3 ∧ r.bsv BS_EVEC = 0x60000000 ∧ r.rf LK_PERIOD 0 20 = 33333 ∧ r.rf LK_EXP 0 14 = 4000

/-- For every state whose memory is in canonical form (addresses strictly rising, no entry equal to what an unlisted
address reads as), the next state's memory is in canonical form, whatever the command. That it holds at State.reset is
part of ResetState. -/
def Obligations.EveryStepKeepsMemoryCanonical : Prop :=
  ∀ s t : State, MemWf s → step s = .next t → MemWf t

/-- For every state whose listed rings have rising numbers below 16,384 and differ from a ring at reset, so do those of
the next state, whatever the command; State.reset lists none. -/
def Obligations.EveryStepKeepsTheRingTable : Prop :=
  ringsWf State.reset ∧ ∀ s t : State, ringsWf s → step s = .next t → ringsWf t

/-- For every state, a step leaves what is fixed in the part (variant, revision, fuses, serial number, factory defect
list) as it is, and the queue after it is the queue without its front command. -/
def Obligations.EveryStepKeepsThePartAndTakesOneCommand : Prop :=
  ∀ s t : State, step s = .next t → t.part = s.part ∧ t.pending = s.pending.tail

/-- For every Bosun instruction whose operands R605 and R618 do not make illegal, with every operand at every value its
field admits, decoding its word gives the instruction. For every word that decodes to an instruction, that instruction
is legal and its word is the word decoded: no field is ignored, so a word with a reserved field that is not 0 decodes
to no instruction. -/
def Obligations.BosunDecodeAndEncodeAgree : Prop :=
  (∀ i : BIns, i.ok = true → decodeB (encodeB i) = some i) ∧
  ∀ (w : Word) (i : BIns), decodeB w = some i → i.ok = true ∧ encodeB i = w

/-- A reset of 03 Table 3.3 that `hold` names has been asserted: everything but what is named is at its reset value. -/
def Sys2Proof.Spec.wiped (s t : State) (hold : Hold) : Prop :=
  t = { part := s.part, pending := s.pending, free := t.free, mem := t.mem, regs := t.regs
        deck := { regs := t.deck.regs }
        dev := { hold := hold, straps := s.dev.straps, vhsel := s.dev.vhsel, testen := s.dev.testen, vinOk := s.dev.vinOk
                 grOk := s.dev.grOk, dap := if hold = .powerOn then 0 else s.dev.dap
                 hail := { sending := if hold = .powerOn then [] else s.dev.hail.sending } } } ∧
  memLost s t fun _ => true

/-- The registers after a pin or soft reset with a cause. -/
def Sys2Proof.Spec.warm (s t : State) (cause : Nat) : Prop :=
  t.dkf DK_CAUSE 0 8 = cause ∧
  (∀ a, t.reg a = if 0x40020000 ≤ a ∧ a < 0x40030000 then s.reg a else csrReset a) ∧
  ∀ o, o ≠ DK_CAUSE → t.dk o =
    if o ∈ [DK_FAULT_LO, DK_FAULT_HI, DK_FAULT_SEQ] ∨ (DK_SCRATCH0 ≤ o ∧ o < DK_SCRATCH0 + 8) then s.dk o else deckReset o

/-- POR_ASSERT in every state, PIN_RESET unless power-on reset is already asserted, and SOFT_RESET_EFFECT after a
RESET_SOFT put the device in MOORED with every unit at its reset value, no image and no retention area, the part, the
straps and the supplies as they were, and DK_CAUSE naming the reset; power-on resets every register and the debug
access port, the other two keep the fault block, DK_FAULT_LO, DK_FAULT_HI, DK_FAULT_SEQ, DK_SCRATCH0-3, the debug
access port and a HAIL line being sent (log 32). Memory is lost: its listed bytes are free values and every other byte
reads as before (log 5). TAP_RESET resets the debug access port alone. -/
def Obligations.ResetsPutTheDeviceInMoored : Prop := ∀ s : State,
  (∃ t, exec .porAssert s = .next t ∧ wiped s t .powerOn ∧ t.dkf DK_CAUSE 0 8 = 1 ∧
    (∀ a, t.reg a = csrReset a) ∧ ∀ o, o ≠ DK_CAUSE → t.dk o = deckReset o) ∧
  (s.dev.mode ≠ .moored ∨ s.dev.hold ≠ .powerOn →
    ∃ t, exec .pinReset s = .next t ∧ wiped s t .pin ∧ warm s t 2) ∧
  (s.dev.mode = .moored → s.dev.hold = .powerOn → exec .pinReset s = .next s) ∧
  (s.dev.softPend = true → ∃ t, exec .softResetEffect s = .next t ∧ wiped s t .soft ∧ warm s t 3) ∧
  (s.dev.softPend = false → exec .softResetEffect s = .next s) ∧
  exec .tapReset s = .next { s with dev := { s.dev with dap := 0 } }

/-- Muster has just started from `u`, whose device state is now `d` (03 R118, R120). -/
def Sys2Proof.Spec.mustersFrom (u t : State) (d : Device) : Prop :=
  t = { u with dev := { d with mode := .muster, hold := .none, hail := t.dev.hail }, deck := t.deck
               lk := { u.lk with frame := u.lk.frame.map fun f => State.frameEnters f .muster } } ∧
  deckRegs u t [DK_STAGE, DK_IRQ_RAW] ∧ t.dk DK_STAGE = 1 ∧ raised u t [irqSTATE] ∧
  hailEnters t d.hail (u.dkbit DK_HAIL_CFG 0)

/-- The fault block's registers. -/
def Sys2Proof.Spec.ftRegs : List Nat := (List.range 5).map FT_REC ++ (List.range 6).map fun k => FT_CE_ECC + 4 * k

/-- VDD_GR has gone, with Pantry, Granary and TCM, the retention area and the fault block (02 R105; 16 R697). -/
def Sys2Proof.Spec.grLost (s t : State) (grOk : Bool) : Prop :=
  t = { s with dev := { s.dev with grOk := grOk, retained := false }, mem := t.mem, regs := t.regs, free := t.free
               ecc := s.ecc.filter fun e => State.inCn e.1, inject := none } ∧
  memLost s t (fun a => !State.inCn a) ∧ csrKept s t ftRegs

/-- With TESTEN low, RESET_RELEASE after power-on or pin reset (which samples the straps and levels, and where VDD_GR is
out of range loses what that supply keeps), SOFT_RESET_RELEASE after soft reset, and TESTEN_LOW while TESTEN held the
device, start Muster: state MUSTER, DK_STAGE at stage 1, the STATE source raised, the HAIL line that DK_HAIL_CFG
enables due, a Lookout frame marked as crossing the transition, and nothing else changed. With TESTEN high the device
stays in MOORED, and outside MOORED the releases do nothing. -/
def Obligations.ReleaseStartsMuster : Prop :=
  ∀ (s : State) (straps : Straps) (vhsel vinOk grOk : Bool),
  (s.dev.mode = .moored → s.dev.hold = .powerOn ∨ s.dev.hold = .pin → ∃ u,
    (if grOk then u = s else grLost s u false) ∧
    (∃ t, exec (.resetRelease straps vhsel vinOk grOk false) s = .next t ∧ mustersFrom u t
      { u.dev with straps := straps, vhsel := vhsel, vinOk := vinOk, grOk := grOk, testen := false }) ∧
    exec (.resetRelease straps vhsel vinOk grOk true) s = .next { u with dev := { u.dev with
      straps := straps, vhsel := vhsel, vinOk := vinOk, grOk := grOk, testen := true, hold := .testen } }) ∧
  (s.dev.mode = .moored → s.dev.hold = .soft →
    (s.dev.testen = false → ∃ t, exec .softResetRelease s = .next t ∧ mustersFrom s t s.dev) ∧
    (s.dev.testen = true → exec .softResetRelease s = .next { s with dev := { s.dev with hold := .testen } })) ∧
  (s.dev.mode = .moored → s.dev.hold = .testen →
    ∃ t, exec .testenLow s = .next t ∧ mustersFrom s t { s.dev with testen := false }) ∧
  (s.dev.mode ≠ .moored ∨ s.dev.hold ≠ .testen →
    exec .testenLow s = .next { s with dev := { s.dev with testen := false } }) ∧
  (s.dev.mode ≠ .moored → exec .softResetRelease s = .next s ∧
    ∀ testen : Bool, exec (.resetRelease straps vhsel vinOk grOk testen) s = .next s)

/-- HOVE_TO has been reached from `u`, in MUSTER or REEFED: the STATE source raised, the HAIL line that DK_HAIL_CFG enables
due, the Sweade port's TXDE in force, and a WAKE that runs finished with OK (05 Table 5.2; 20 R809). -/
def Sys2Proof.Spec.reachesHoveTo (u t : State) : Prop :=
  t = { u with dev := { u.dev with mode := .hoveTo, booting := false, waking := false, cold := false
                                   hail := t.dev.hail, command := t.dev.command }
               deck := t.deck, lk := { u.lk with frame := u.lk.frame.map fun f => State.frameEnters f .hoveTo }
               sw := { u.sw with txde := u.rf SW_LTRIM 6 2 } } ∧
  deckRegs u t [DK_CMDSTAT, DK_IRQ_RAW] ∧ hailEnters t u.dev.hail (u.dkbit DK_HAIL_CFG 1) ∧
  (if (u.dev.command.map Command.op) = some 2 then
    t.dev.command = none ∧ t.dk DK_CMDSTAT = 0x0202 ∧ raised u t [irqSTATE, irqCMD]
  else t.dev.command = u.dev.command ∧ t.dk DK_CMDSTAT = u.dk DK_CMDSTAT ∧ raised u t [irqSTATE])

/-- While a stage runs, its passing starts the next stage of Table 3.4 (GRANARY_MBIST once per populated stack) and
changes nothing but DK_STAGE; REG_CHK waits for VIN_CORE, and its pass says that VDD_GR is in range (log 33). The
passing of the last stage of Muster ends with DK_STAGE.STAGE 0xFF in HOVE_TO for the host boot strap, starts the boot
flow (stage 0x0B, executed by Bosun) for the QSPI straps, and ends in BECALMED with BOOT_STRAP for the reserved strap;
a cold wake, which ends after COMP_INJECT, sets DK_CAUSE to RETAIN_LOST first. -/
def Obligations.MusterRunsItsStagesInOrder : Prop :=
  ∀ (s : State) (unit detail : Nat), s.mustering = true →
  (s.stage ≠ 3 → s.stage ≠ 5 → s.stage ≠ 10 → (s.dev.cold = false ∨ s.stage ≠ 8) →
    ∃ t, exec (.musterStageEnd true unit detail) s = .next t ∧ t = { s with deck := t.deck } ∧
      deckRegs s t [DK_STAGE] ∧ t.dk DK_STAGE = BitVec.ofNat 16 (s.stage + 1)) ∧
  (s.stage = 3 → s.dev.vinOk = true →
    ∃ t, exec (.musterStageEnd true unit detail) s = .next t ∧
      t = { s with dev := { s.dev with grOk := true }, deck := t.deck } ∧ deckRegs s t [DK_STAGE] ∧ t.dk DK_STAGE = 4) ∧
  (s.stage = 3 → s.dev.vinOk = false → exec (.musterStageEnd true unit detail) s = .next s) ∧
  (s.stage = 5 →
    ∃ t, exec (.musterStageEnd true unit detail) s = .next t ∧ t = { s with deck := t.deck } ∧
      deckRegs s t [DK_STAGE] ∧ t.dk DK_STAGE =
        (if s.dkf DK_STAGE 8 4 + 1 < s.part.stackCount then BitVec.ofNat 16 (5 + (s.dkf DK_STAGE 8 4 + 1) * 256) else 6)) ∧
  (s.stage = 10 ∨ (s.dev.cold = true ∧ s.stage = 8) → ∃ u,
    u = { s with deck := u.deck } ∧ deckRegs s u [DK_STAGE, DK_CAUSE] ∧ u.dk DK_STAGE = 0xFF ∧
    u.dkf DK_CAUSE 0 8 = (if s.dev.cold then 0x38 else s.dkf DK_CAUSE 0 8) ∧
    u.dkf DK_CAUSE 8 8 = s.dkf DK_CAUSE 8 8 ∧
    (s.dev.straps.boot = 0 → ∃ t, exec (.musterStageEnd true unit detail) s = .next t ∧ reachesHoveTo u t) ∧
    (s.dev.straps.boot = 1 ∨ s.dev.straps.boot = 2 → ∃ t, exec (.musterStageEnd true unit detail) s = .next t ∧
      t = { u with dev := { s.dev with booting := true }, bosun := { s.bosun with run := true }, deck := t.deck } ∧
      deckRegs u t [DK_STAGE] ∧ t.dk DK_STAGE = 0x0B) ∧
    (s.dev.straps.boot = 3 → exec (.musterStageEnd true unit detail) s = .next (u.becalm 0x1D false 0)))

/-- Where the device can enter BECALMED: outside MOORED and BECALMED itself. -/
def Sys2Proof.Spec.canBecalm (s : State) : Prop := s.dev.mode ≠ .moored ∧ s.dev.mode ≠ .becalmed

/-- The registers that entering BECALMED writes: the fault record, the islands, the I²C status and the session count. -/
def Sys2Proof.Spec.becalmRegs : List Nat :=
  (List.range 5).map FT_REC ++ (List.range 8).map TR_ISL ++ [SW_CNT1, I2C 0 + 0x18, I2C 1 + 0x18]

/-- The Sweade port as the device becomes BECALMED: unlinked, with nothing kept for the peer (20 R814, R836). -/
def Sys2Proof.Spec.portDropped (x : Sweade) : Sweade :=
  if x.linked then { x with
    st := .detect, tx := none, ops := [], inbox := [], linked := false, paired := false, peer := [], own := []
    slots := 0, rxSeq := 0, txSeq := 0, nak := false, replay := [], next := 0, crq := {}, crs := {}, cms := {}
    bellQ := [], rspQ := [], msgQ := [] }
  else { x with st := .detect, tx := none, ops := [], inbox := [] }

/-- The device has entered BECALMED from `s` with a cause, whose fault record is class F with that CODE and a DETAIL. Where
the QSPI reader and a BIND ran, what they were placing is undefined. -/
def Sys2Proof.Spec.becalmedBy (s t : State) (cause : Nat) (detail : Word) : Prop :=
  t = { s with
    regs := t.regs, deck := t.deck, mem := t.mem, ecc := t.ecc, inject := t.inject, free := t.free
    cap := { s.cap with flights := [] }, bosun := { s.bosun with cycle := t.bosun.cycle, wait := none, run := false }
    dev := { s.dev with
      mode := .becalmed, hail := { s.dev.hail with count := 0 }, stopping := false, binding := false, bindDest := []
      bindStale := false, waking := false, cold := false, booting := false, wakeKept := false, coreEn := true
      tie := some s.pairRuns, retained := s.dev.retained && !s.dev.reefing, reefing := false, reader := none
      command := none }
    sw := portDropped s.sw
    trim := { s.trim with islands := t.trim.islands }, i2c := t.i2c, i2cOut := t.i2cOut, csi := []
    lk := { s.lk with frame := s.lk.frame.map fun f => State.frameEnters { f with strobe := false } .becalmed }
    audio := { s.audio with dac := (0, 0), tx := [] } } ∧
  (t.deck = { s.deck with regs := t.deck.regs, win := t.deck.win, doors := t.deck.doors
                          data := t.deck.data, readHold := t.deck.readHold } ∧
    t.deck.doors = s.deck.doors.filter fun d => match d with | .door _ _ => true | _ => false) ∧
  (s.deck.win = none → t.deck.win = none ∧ t.deck.data = s.deck.data ∧ t.deck.readHold = s.deck.readHold ∧
    deckKept s t [DK_CAUSE, DK_FAULT_LO, DK_FAULT_HI, DK_FAULT_SEQ, DK_CMDSTAT, DK_IRQ_RAW]) ∧
  (s.bosun.run = false → t.bosun.cycle = s.bosun.cycle) ∧
  t.dkf DK_CAUSE 0 8 = cause ∧ t.dk DK_FAULT_LO = BitVec.ofNat 16 detail.toNat ∧
  t.dk DK_FAULT_HI = BitVec.ofNat 16 (cause + 4 * 256) ∧
  t.dk DK_FAULT_SEQ = BitVec.ofNat 16 ((s.dkf DK_FAULT_SEQ 0 16 + 1) % 65536) ∧
  t.dkbit DK_IRQ_RAW irqSTATE = true ∧
  (match s.dev.command with
    | some c => t.dk DK_CMDSTAT = BitVec.ofNat 16 (0x52 + c.op * 256) ∧ t.dkbit DK_IRQ_RAW irqCMD = true
    | none => t.dk DK_CMDSTAT = s.dk DK_CMDSTAT) ∧
  t.reg (FT_REC 0) = Word.nat (cause + 4 * 256 + (s.dkf DK_FAULT_SEQ 0 16 + 1) % 65536 * 65536) ∧
  t.reg (FT_REC 1) = detail ∧
  (∀ i, i < 8 → t.reg (TR_ISL i) = putFld (putFld (s.reg (TR_ISL i)) 0 6 40) 8 2 0) ∧
  (∀ c, c < 2 → t.i2cRun c = none ∧ t.rbit (I2C c + 0x18) 0 = false ∧
    (s.i2cRun c = none → Store.get [] t.i2cOut c = Store.get [] s.i2cOut c)) ∧
  (s.dev.reader = none → s.dev.bindDest = [] →
    t.mem = s.mem ∧ t.ecc = s.ecc ∧ t.inject = s.inject ∧ csrKept s t becalmRegs)

/-- The same with a stage and unit left in DK_STAGE and FAIL set. -/
def Sys2Proof.Spec.stageFails (s t : State) (unit cause detail : Nat) : Prop := ∃ u : State,
  u = { s with deck := u.deck, free := u.free } ∧ deckRegs s u [DK_STAGE] ∧
  u.dk DK_STAGE = BitVec.ofNat 16 (s.stage + unit * 256 + 32768) ∧ becalmedBy u t cause (Word.nat (unit * 4096 + detail)) ∧
  t.dk DK_STAGE = u.dk DK_STAGE

/-- The first stage that fails ends Muster in BECALMED: DK_STAGE names the stage and unit with FAIL set, DK_CAUSE and the
fault record's CODE (class F) are the stage's cause of Table 3.4, and DK_FAULT_SEQ advances. REG_CHK fails so when a
supply is absent at its limit, with cause CORE_SUPPLY or GR_SUPPLY, and the Muster controller's limit gives cause
MUSTER_TIME with the stage that was running (that FAIL is set then is the model's reading, log 33; its unit is a free
choice among the stage's, log 20). BECALMED is entered with the descriptors in flight gone, Bosun halted, the islands
at code 40, the outputs in their safe states, the link down, and nothing else changed. -/
def Obligations.MusterFailuresBecalm : Prop :=
  (∀ (u : State), canBecalm u → ∀ (code : Nat) (detail : Word), code < 256 →
    becalmedBy u (u.becalm code false detail) code detail) ∧
  ∀ (s : State) (unit detail : Nat), s.mustering = true → unit < 16 →
  (s.stage ≠ 5 → ∃ t, exec (.musterStageEnd false unit detail) s = .next t ∧
    stageFails s t unit (stageCause s.stage unit) (if s.stage = 4 ∨ s.stage = 7 then detail % 4096 else 0)) ∧
  (s.stage = 5 → ∃ t, exec (.musterStageEnd false unit detail) s = .next t ∧
    stageFails s t (s.dkf DK_STAGE 8 4) 0x16 (detail % 4096)) ∧
  (s.stage = 3 → s.dev.vinOk = false →
    ∃ t, exec (.regChkSupplyTimeout false) s = .next t ∧ stageFails s t 0 0x13 0) ∧
  (s.stage = 3 → s.dev.grOk = false →
    ∃ t, exec (.regChkSupplyTimeout true) s = .next t ∧ stageFails s t 1 0x14 0) ∧
  ∃ (t : State) (n : Nat), n < 16 ∧ exec .musterTime s = .next t ∧ stageFails s t n 0x1C 0 ∧
    (State.stageUnits s.stage ≤ 1 → n = s.dkf DK_STAGE 8 4)

/-- A self-injection has been made from `s`: the lockstep counter and INJ_BIT advance (16 R684). -/
def Sys2Proof.Spec.injected (s u : State) : Prop :=
  u = { s with regs := u.regs, bosun := { s.bosun with inj := s.bosun.inj + 1 } } ∧ csrKept s u [bsAddr BS_LS_STAT] ∧
  u.rf (bsAddr BS_LS_STAT) 0 8 = (s.bosun.inj + 1) % 173 ∧
  u.rf (bsAddr BS_LS_STAT) 8 24 = s.rf (bsAddr BS_LS_STAT) 8 24

/-- FT_CE_BSTAY has counted `n` attempts more (16 R694). -/
def Sys2Proof.Spec.backstayCounts (s u : State) (n : Nat) : Prop :=
  u = { s with regs := u.regs } ∧ csrKept s u [FT_CE_BSTAY] ∧
  (u.reg FT_CE_BSTAY).toNat = min ((s.reg FT_CE_BSTAY).toNat + n) (2 ^ 32 - 1)

/-- While the pair is clocked and no store is queued, LOCK_MISMATCH, COMP_FAULT, DELAY_PARITY and a self-injection that a
rail misses enter BECALMED with their CODE and DETAIL; with stores queued these are performed first. A self-injection
advances the lockstep counter, and where both rails flag it changes nothing else. A Backstay transfer that fails fewer
than 8 attempts counts them in FT_CE_BSTAY and changes nothing else; 8 attempts count 7 and enter BECALMED. The loss
of a clock in use after Muster sets CK_STAT.UNIT, for the reference moves KN to the backup oscillator, and enters
BECALMED. In BECALMED, once the Deck has been reached since the fault (log 116), these record nothing more. -/
def Obligations.ClassFFaultsBecalm : Prop := ∀ s : State,
  (s.pairRuns = true → s.bosun.stores = [] →
    (∀ low count : Nat, 1 ≤ count → low + count ≤ 173 →
      ∃ t, exec (.lockMismatch low count) s = .next t ∧ becalmedBy s t 0x20 (Word.nat (low + count * 256))) ∧
    (∃ t, exec .compFault s = .next t ∧ becalmedBy s t 0x21 4) ∧
    (∀ (out : Bool) (lane : Nat), lane < 32 →
      ∃ t, exec (.delayParity out lane) s = .next t ∧ becalmedBy s t 0x22 (Word.nat (b2n out + lane * 2)))) ∧
  (s.pairRuns = true → exec .compFault s = .next (s.drainStores.becalm 0x21 false 4)) ∧
  (s.pairRuns = true → s.dev.mode ≠ .reefed → ∃ u, injected s u ∧
    exec (.compSelfInject true true) s = .next u ∧
    ∀ r0 r1 : Bool, (r0 && r1) = false → s.bosun.stores = [] →
      ∃ t, exec (.compSelfInject r0 r1) s = .next t ∧
        becalmedBy u t 0x21 (Word.nat (b2n (!r0) + 2 * b2n (!r1) + s.bosun.inj % 173 * 256))) ∧
  (s.dev.mode ≠ .moored → (s.dev.mode = .reefed → s.pairRuns = true) →
    ∀ (iob : Bool) (n : Nat), (iob = true → s.part.iob = true) →
    (n < 8 → ∃ t, exec (.backstayRetry iob n) s = .next t ∧ backstayCounts s t n) ∧
    (8 ≤ n → ∃ u, backstayCounts s u 7 ∧
      (s.dev.mode ≠ .becalmed →
        ∃ t, exec (.backstayRetry iob n) s = .next t ∧ becalmedBy u t 0x26 (Word.nat (b2n iob))) ∧
      (s.dev.mode = .becalmed → s.dev.tie = none → exec (.backstayRetry iob n) s = .next u))) ∧
  (s.dev.mode ≠ .moored → s.mustering = false → ∀ unit : Nat, s.clockUsed unit = true → ∃ u,
    u = { s with regs := u.regs, dev := { s.dev with
      lost := NSet.insert s.dev.lost unit, backup := s.dev.backup || decide (unit = 1) } } ∧
    csrKept s u [CK_STAT] ∧ u.reg CK_STAT = putFld (s.reg CK_STAT) 16 4 unit ∧
    (s.dev.mode ≠ .becalmed → ∃ t, exec (.clockLoss unit) s = .next t ∧ becalmedBy u t 0x27 (Word.nat unit)) ∧
    (s.dev.mode = .becalmed → s.dev.tie = none → exec (.clockLoss unit) s = .next u)) ∧
  (∀ unit : Nat, s.clockUsed unit = false → exec (.clockLoss unit) s = .next s) ∧
  (s.dev.mode = .becalmed → s.dev.tie = none → exec .compFault s = .next s ∧
    (∀ low count : Nat, exec (.lockMismatch low count) s = .next s) ∧
    ∀ (out : Bool) (lane : Nat), exec (.delayParity out lane) s = .next s)

/-- Outside MOORED and REEFED, the loss of a supply that was in range enters BECALMED with cause SUPPLY_LOSS. The loss of
VDD_GR, in every state, also ends the retention area, the fault block and what Pantry, Granary and TCM held (bytes
that had been written become free values, log 5), and its dip in REEFED does so with DK_STATE staying REEFED. The
removal of VIN_CORE in REEFED keeps the memories exactly where the retention area is valid. VIN_CORE coming into range
changes VIN_OK alone. -/
def Obligations.SuppliesAndTheRetentionArea : Prop := ∀ s : State,
  (s.dev.mode ≠ .moored → s.dev.mode ≠ .reefed → s.dev.mode ≠ .becalmed →
    (s.dev.vinOk = true → ∃ u, becalmedBy s u 0x28 0 ∧
      exec (.supplyLoss false) s = .next { u with dev := { u.dev with vinOk := false } }) ∧
    (s.dev.grOk = true → ∃ u t, becalmedBy s u 0x28 1 ∧ exec (.supplyLoss true) s = .next t ∧ grLost u t false)) ∧
  (s.dev.mode ≠ .reefed → s.dev.vinOk = false ∨ s.dev.mode = .moored →
    exec (.supplyLoss false) s = .next { s with dev := { s.dev with vinOk := false } }) ∧
  (s.dev.mode = .reefed ∨ s.dev.grOk = false ∨ s.dev.mode = .moored →
    ∃ t, exec (.supplyLoss true) s = .next t ∧ grLost s t false) ∧
  (s.dev.mode = .reefed → exec (.supplyLoss false) s = .next s ∧
    (∃ t, exec .vddGrDip s = .next t ∧ grLost s t s.dev.grOk) ∧
    (s.dev.retained = true → exec .vinCoreRemoval s = .next { s with dev := { s.dev with vinOk := false } }) ∧
    (s.dev.retained = false → ∃ t, exec .vinCoreRemoval s = .next t ∧
      t = { s with dev := { s.dev with vinOk := false }, mem := t.mem, free := t.free
                   ecc := s.ecc.filter fun e => State.inCn e.1, inject := none } ∧
      memLost s t fun a => !State.inCn a)) ∧
  (s.dev.mode ≠ .reefed → exec .vddGrDip s = .next s ∧ exec .vinCoreRemoval s = .next s) ∧
  exec .vinCoreRise s = .next { s with dev := { s.dev with vinOk := true } }

/-- The device can take a command for its compute die: HOVE_TO or UNDERWAY, the Deck free, none running. -/
def Sys2Proof.Spec.canReef (s : State) : Prop :=
  s.deckFree = true ∧ (s.dev.mode = .hoveTo ∨ s.dev.mode = .underway) ∧ s.dkbit DK_CMDSTAT 0 = false

/-- A REEF or BIND waits for Bosun's boundary (03 R138). -/
def Sys2Proof.Spec.waitsToStop (s t : State) (op : Nat) (retain : Bool) : Prop :=
  t = { s with deck := t.deck, dev := { s.dev with
    tie := none, stopping := true, command := some ⟨op, retain, s.cmdArg, false⟩ } } ∧
  deckAccess s t [DK_CMDSTAT] ∧ t.dk DK_CMDSTAT = putFld (s.dk DK_CMDSTAT) 0 1 1

/-- A REEF or BIND has found the device not idle: Bosun goes on (05 R218, R242). -/
def Sys2Proof.Spec.foundBusy (s t : State) (op : Nat) : Prop :=
  t = { s with deck := t.deck, dev := { s.dev with tie := none, stopping := false, command := none }
               bosun := { s.bosun with wait := none, cycle := t.bosun.cycle }, free := t.free } ∧
  (s.bosun.run = false → t.bosun.cycle = s.bosun.cycle ∧ t.free = s.free) ∧
  deckAccess s t [DK_CMDSTAT, DK_IRQ_RAW] ∧ t.dk DK_CMDSTAT = BitVec.ofNat 16 (0x22 + op * 256) ∧ raised s t [irqCMD]

/-- Nothing is under way that the Sweade port's stop would end. -/
def Sys2Proof.Spec.quiet (s : State) : Prop :=
  s.cap.flights = [] ∧ s.sw.inbox = [] ∧ s.sw.ops = [] ∧ s.deck.win = none ∧ s.deck.doors = []

/-- With no command running, CMD_REEF waits while Bosun does not stand at a boundary, finishes with BUSY where the device
is not idle (in UNDERWAY too, log 117), and is accepted otherwise: Bosun stops, a CHECKPOINT that is due is discarded,
a drain that nothing holds completes, and with RETAIN pending region and trim commits apply first. When the save ends
the device is REEFED with CORE_EN low, the retention area valid exactly when RETAIN was given, DK_TRIM_STAT frozen,
the Bell mirror invalid, the Sweade port off and the command finished with OK; memory, Bells and rings stay; a kept
auto-wake trigger wakes it. -/
def Obligations.ReefStopsSavesAndTurnsOff : Prop := ∀ (s : State) (retain : Bool),
  (canReef s → s.atBoundary = false → ∃ t, exec (.cmdReef retain) s = .next t ∧ waitsToStop s t 3 retain) ∧
  (canReef s → s.atBoundary = true → s.bosun.stores = [] → s.dev.mode = .underway ∨ s.idleForCmd = false →
    ∃ t, exec (.cmdReef retain) s = .next t ∧ foundBusy s t 3) ∧
  (canReef s → s.atBoundary = true → s.bosun.stores = [] → s.dev.mode = .hoveTo → s.idleForCmd = true →
    ∃ t, exec (.cmdReef retain) s = .next t ∧
    t.dev = { s.dev with tie := none, stopping := false, reefing := true, retained := s.dev.retained && retain
                         command := some ⟨3, retain, s.cmdArg, false⟩ } ∧
    t.bosun.run = false ∧ t.bosun.wait = none ∧ t.bosun.ckpt = false ∧ t.rbit (bsAddr BS_LS_STAT) 8 = false ∧
    t.core = s.core ∧ t.dkbit DK_CMDSTAT 0 = true ∧ t.mem = s.mem ∧
    (s.draining = true → s.holders = [] → t.rbit CAP_EPOCH 8 = false) ∧
    (s.draining = false → t.cap = s.cap) ∧
    (s.draining = false → retain = false →
      t = { s with dev := t.dev, deck := t.deck, regs := t.regs, free := t.free, bosun := { s.bosun with
        wait := none, run := false, ckpt := false, cycle := t.bosun.cycle } } ∧
      deckAccess s t [DK_CMDSTAT] ∧ csrKept s t [bsAddr BS_LS_STAT]) ∧
    (retain = true → t.rbit TR_STAT 4 = false ∧ ∀ n, n < 64 → Store.get 0 s.rgRef n = 0 → n ∉ t.rgPend)) ∧
  (∀ c : Command, s.dev.command = some c → c.op = 3 → s.dev.stopping = false → s.dev.reefing = true →
    s.dev.mode = .hoveTo → s.dev.waking = false → quiet s →
    (s.dev.wakeKept = false → ∃ t, exec .reefSaveDone s = .next t ∧
      t = { s with
        regs := t.regs, deck := t.deck, sw := portDropped s.sw, i2c := t.i2c, i2cOut := t.i2cOut, free := t.free
        audio := { s.audio with dac := (0, 0) }
        lk := { s.lk with frame := s.lk.frame.map fun f => State.frameEnters f .reefed }
        dev := { s.dev with mode := .reefed, reefing := false, retained := c.retain, coreEn := false
                            command := none, hail := t.dev.hail } } ∧
      deckRegs s t [DK_TRIM_STAT, DK_BELL_SEL, DK_CMDSTAT, DK_IRQ_RAW] ∧ csrKept s t [SW_CNT1, I2C 1 + 0x18] ∧
      t.dk DK_CMDSTAT = 0x0302 ∧ t.dk DK_TRIM_STAT = s.dkTrim ∧ t.dk DK_BELL_SEL = putFld (s.dk DK_BELL_SEL) 15 1 0 ∧
      raised s t ([irqSTATE, irqCMD] ++ if s.sw.linked then [irqLINK] else []) ∧
      hailEnters t s.dev.hail (s.dkbit DK_HAIL_CFG 2) ∧ t.i2cRun 1 = none ∧ t.i2cRun 0 = s.i2cRun 0) ∧
    (s.dev.wakeKept = true → ∃ t, exec .reefSaveDone s = .next t ∧ t.dev.mode = .reefed ∧ t.dev.waking = true ∧
      t.dev.coreEn = true ∧ t.dev.command = none ∧ t.dev.retained = c.retain ∧ t.dk DK_CMDSTAT = 0x0302 ∧
      t.dev.cold = (!c.retain || s.dev.cold)))

/-- A cold wake has started from `u` (03 R143): the dies that were off are at their reset values, and the memories lost. -/
def Sys2Proof.Spec.coldFrom (u t : State) : Prop :=
  t = { u with
    dev := { u.dev with cold := true, image := none }, deck := t.deck, regs := t.regs, inForce := t.inForce, mem := t.mem
    free := t.free, ecc := u.ecc.filter fun e => State.inCn e.1, inject := none, cap := {}, rgRef := [], rgPend := []
    looms := [], harrows := [], mills := [], fifos := [], bosun := {}, trim := {}, sw := { session := u.sw.session }
    csi := [], i2c := Store.set none u.i2c 1 none } ∧
  deckRegs u t [DK_STAGE] ∧ t.dk DK_STAGE = 1 ∧ memLost u t (fun a => !State.inCn a) ∧
  (∀ a, t.reg a = if State.wakeKeeps false a then u.reg a else csrReset a) ∧
  ∀ a, t.force a = if State.wakeKeeps false a || a == CK_KA_CFG then u.force a else csrReset a

/-- The dies that were off have started from `u`, with the saved items restored (03 R139, R141). -/
def Sys2Proof.Spec.restoredFrom (u t : State) : Prop :=
  t = { u with
    regs := t.regs, inForce := t.inForce, inject := none, rgRef := [], rgPend := [], looms := [], harrows := []
    mills := [], fifos := [], sw := { session := u.sw.session }, csi := [], i2c := Store.set none u.i2c 1 none
    cap := { u.cap with flights := [], op := none, refused := none }
    bosun := { u.bosun with trail := none, inj := 0, run := u.dev.image.isSome } } ∧
  (∀ a, t.reg a = if State.wakeKeeps true a && a != bsAddr BS_LS_STAT then u.reg a else csrReset a) ∧
  ∀ a, t.force a = if State.wakeKeeps true a || a == CK_KA_CFG then u.force a else csrReset a

/-- In REEFED, CMD_WAKE raises CORE_EN and starts a retained wake, or with no valid retention area a cold one at Muster
stage 1 with the memories lost. A retained wake ends in HOVE_TO with memory, Bells, rings and the saved registers as
they were, every other register of the dies that were off at its reset value (the model's reading, log 29), Bosun
executing where an image is bound, and its WAKE finished with OK; one whose retention area has become invalid turns
cold. A wake without VIN_CORE stays in REEFED with CORE_EN low, cause WAKE_SUPPLY and the STATE source raised, and its
WAKE finishes with FAILED. -/
def Obligations.WakesLeaveReefed : Prop := ∀ s : State, s.dev.mode = .reefed →
  (s.deckFree = true → s.dkbit DK_CMDSTAT 0 = false → s.dev.waking = false → ∃ u t, exec .cmdWake s = .next t ∧
    u = { s with deck := u.deck, dev := { s.dev with
      tie := none, waking := true, coreEn := true, command := some ⟨2, false, s.cmdArg, false⟩ } } ∧
    deckAccess s u [DK_CMDSTAT] ∧ u.dk DK_CMDSTAT = putFld (s.dk DK_CMDSTAT) 0 1 1 ∧
    (if s.dev.retained then t = u else coldFrom u t)) ∧
  (s.dev.waking = true → s.dev.cold = false → s.dev.vinOk = true →
    (s.dev.retained = true → ∃ u t, exec .wakeRestoreDone s = .next t ∧ restoredFrom s u ∧ reachesHoveTo u t) ∧
    (s.dev.retained = false → ∃ t, exec .wakeRestoreDone s = .next t ∧ coldFrom s t)) ∧
  (s.dev.waking = true → s.dev.vinOk = false →
    ∃ t, exec .wakeSupplyTimeout s = .next t ∧
      t = { s with deck := t.deck, bosun := { s.bosun with run := s.bosun.run && !s.dev.booting }, dev := { s.dev with
        waking := false, cold := false, booting := false, coreEn := false, command := t.dev.command } } ∧
      deckRegs s t [DK_CAUSE, DK_CMDSTAT, DK_IRQ_RAW] ∧ t.dk DK_CAUSE = putFld (s.dk DK_CAUSE) 0 8 0x39 ∧
      (if (s.dev.command.map Command.op) = some 2 then
        t.dev.command = none ∧ t.dk DK_CMDSTAT = 0x0252 ∧ raised s t [irqSTATE, irqCMD]
      else t.dev.command = s.dev.command ∧ t.dk DK_CMDSTAT = s.dk DK_CMDSTAT ∧ raised s t [irqSTATE]))

/-- DK_STAGE has been sampled (03 R120; log 20). -/
def Sys2Proof.Spec.stageSampled (s u : State) : Prop :=
  (s.mustering = false → u = s) ∧ u = { s with deck := u.deck, free := u.free } ∧ deckRegs s u [DK_STAGE] ∧
  u.stage = s.stage ∧ u.dkbit DK_STAGE 15 = s.dkbit DK_STAGE 15 ∧
  (u = s ∨ u.dkf DK_STAGE 8 4 < State.stageUnits s.stage)

/-- A line has started after `s`, whose HAIL was `h`: its fields are those of `s` as sampled. -/
def Sys2Proof.Spec.lineStarts (s t : State) (h : Hail) : Prop := ∃ u, stageSampled s u ∧
  t = { u with dev := { u.dev with hail := { h with sending := u.hailLine, count := (h.count + 1) % 100000 } } }

/-- A line that falls due samples its fields and starts, numbered by the lines sent since the state was entered, or waits
while one is being sent; the end of a line starts the waiting one; SEND makes a line due. Every line is # then its
body, * and the exclusive OR of the body in two digits, CR and LF. While a Muster stage with several units runs, a
sample finds DK_STAGE.UNIT at a free choice of them (log 20). A measurement sets DK_TEMP's code, NOCORE, HOT and
VALID, and raises TEMP when HOT becomes 1. A tick advances the count by 1. Nothing else changes, but that a Deck
access, a tick and a BECALMED line say that the cycle of a recorded fault is past (log 116). -/
def Obligations.HailTemperatureAndTime : Prop := ∀ s : State,
  (∃ body, s.hailLine = [35] ++ body ++ [42] ++
    hexDigits 2 (body.foldl (fun (a : Nat) (b : Byte) => Nat.xor a b.toNat) 0) ++ [13, 10]) ∧
  (s.dev.mode = .becalmed →
    (s.dev.hail.sending = [] → exec .hailLineStart s = .next { s with dev := { s.dev with
      tie := none, hail := { s.dev.hail with sending := s.hailLine, count := (s.dev.hail.count + 1) % 100000 } } }) ∧
    (s.dev.hail.sending ≠ [] → exec .hailLineStart s = .next { s with dev := { s.dev with
      tie := none, hail := { s.dev.hail with waiting := some true } } })) ∧
  (s.dev.mode ≠ .becalmed → exec .hailLineStart s = .next s) ∧
  (s.dev.hail.sending ≠ [] → s.dev.hail.waiting = none → exec .hailLineEnd s = .next
    { s with dev := { s.dev with hail := { s.dev.hail with sending := [] } } }) ∧
  (s.dev.hail.sending ≠ [] → s.dev.hail.waiting ≠ none → ∃ t, exec .hailLineEnd s = .next t ∧
    lineStarts s t { s.dev.hail with waiting := none }) ∧
  (s.dev.hail.sending = [] → exec .hailLineEnd s = .next s) ∧
  (s.deckFree = true → ∃ u t, exec .hailSend s = .next t ∧
    u = { s with deck := u.deck, dev := { s.dev with tie := none } } ∧ deckAccess s u [] ∧
    (s.dev.hail.sending = [] → lineStarts u t s.dev.hail) ∧
    (s.dev.hail.sending ≠ [] → t = { u with dev := { u.dev with hail := { s.dev.hail with
      waiting := some (decide (s.dev.hail.waiting = some true ∨ s.dev.mode = .becalmed)) } } })) ∧
  (s.dev.mode ≠ .moored → ∀ code : BitVec 12, ∃ t, exec (.tempSample code) s = .next t ∧
    t = { s with deck := t.deck } ∧ deckRegs s t [DK_TEMP, DK_IRQ_RAW] ∧
    t.dk DK_TEMP = BitVec.ofNat 16
      (code.toNat + 4096 * b2n (!s.dev.vinOk) + 8192 * b2n (decide (408 < code.toInt)) + 16384) ∧
    raised s t (if decide (408 < code.toInt) && !s.dkbit DK_TEMP 13 then [irqTEMP] else [])) ∧
  (s.dev.mode ≠ .moored → exec .timeTick s = .next
    { s with dev := { s.dev with tie := none }, deck := { s.deck with ms := s.deck.ms + 1 } }) ∧
  (s.dev.mode = .moored → exec .timeTick s = .next s ∧ ∀ code : BitVec 12, exec (.tempSample code) s = .next s)

/-- A valid block that names a read by the serial lines, within the flash and the address range. -/
def Sys2Proof.Spec.bootReads (s : State) (fl : Flash) (second : Bool) : Prop :=
  let block := if second then fl.blockB else fl.blockA
  let w := bytesWords 3 (if second then fl.imageB else fl.imageA)
  let reach := (wordAt block 1).toNat + (if wordAt w 0 = 0x31545246 then (wordAt w 2).toNat else 32)
  blockValid block = true ∧ fld (wordAt block 2) 3 2 < 2 ∧ (s.dev.straps.boot = 1 → reach ≤ 0x1000000) ∧
  ∀ x, fl.sfdp = some x → reach ≤ x.1

/-- The boot flow ends from a state, in MUSTER or REEFED, with or without an image bound by it. -/
def Sys2Proof.Spec.bootEnds (u t : State) (ok : Bool) : Prop := ∃ v w : State,
  v = { u with deck := v.deck } ∧ deckRegs u v [DK_STAGE] ∧ v.dk DK_STAGE = 0xFF ∧ reachesHoveTo v w ∧
  (if ok then t = w else t = { w with deck := t.deck } ∧ deckRegs w t [DK_IRQ_RAW] ∧ raised w t [irqBOOT])

/-- A boot attempt has failed: what its image would have placed is undefined, and the first attempt's cause is kept. -/
def Sys2Proof.Spec.bootFailed (s u : State) (image : List Byte) (first : Bool) (cause : Nat) : State :=
  let v := u.scramble (bootPlaces (.flash image) s)
  if first then v.setCause cause else v

/-- The states in which the boot flow runs. -/
def Sys2Proof.Spec.bootMode (s : State) : Prop := s.dev.mode = .muster ∨ s.dev.mode = .reefed

/-- While the boot flow runs, its end leaves the device in HOVE_TO with DK_STAGE.STAGE 0xFF. With no valid block it sets
DK_CAUSE to BOOT_NONE, raises BOOT and binds nothing. With one valid block whose reads the part and the flash allow,
it binds the block's image where its checks pass, and otherwise leaves what the image would have placed undefined,
sets DK_CAUSE to the cause of the check that failed and raises BOOT; with two, the newer block is tried first and its
failure is followed by the other, whose failure changes DK_CAUSE no more. -/
def Obligations.TheBootFlowEndsInHoveTo : Prop := ∀ (s : State) (fl : Flash), s.dev.booting = true → bootMode s →
  let s0 : State := { s with bosun := { s.bosun with run := false } }
  let image (second : Bool) : List Byte := if second then fl.imageB else fl.imageA
  let valid (second : Bool) : Bool := blockValid (if second then fl.blockB else fl.blockA)
  (valid false = false → valid true = false → ∃ u t, exec (.bootFlowEnd fl) s = .next t ∧
    u = { s0 with deck := u.deck } ∧ deckRegs s u [DK_CAUSE] ∧ u.dk DK_CAUSE = putFld (s.dk DK_CAUSE) 0 8 0x30 ∧
    bootEnds u t false) ∧
  (∀ (b : Bool) (u : State), bootReads s fl b → (valid (!b) = true → newer fl.blockA fl.blockB = b) →
    (bindImage (.flash (image b)) s0 = (u, .ok ()) → bootMode u →
      ∃ t, exec (.bootFlowEnd fl) s = .next t ∧ bootEnds u t true) ∧
    (∀ c : Nat, bindImage (.flash (image b)) s0 = (u, .error c) → bootMode u →
      let v := bootFailed s0 u (image b) true c
      (valid (!b) = false → ∃ t, exec (.bootFlowEnd fl) s = .next t ∧ bootEnds v t false) ∧
      (bootReads v fl (!b) → ∀ w : State,
        (bindImage (.flash (image (!b))) v = (w, .ok ()) → bootMode w →
          ∃ t, exec (.bootFlowEnd fl) s = .next t ∧ bootEnds w t true) ∧
        ∀ c' : Nat, bindImage (.flash (image (!b))) v = (w, .error c') → bootMode w →
          ∃ t, exec (.bootFlowEnd fl) s = .next t ∧ bootEnds (bootFailed v w (image (!b)) false c') t false)))

/-- BIND is over in `t`, from a state whose device was `d`. -/
def Sys2Proof.Spec.bindOver (d : Device) : Device :=
  { d with binding := false, bindDest := [], bindStale := false, command := none }

/-- BIND has failed after `v` with a cause. -/
def Sys2Proof.Spec.bindFailed (v t : State) (cause : Nat) : Prop :=
  t = { v with deck := t.deck, dev := bindOver v.dev, bosun := { v.bosun with run := v.dev.image.isSome } } ∧
  deckRegs v t [DK_CAUSE, DK_CMDSTAT, DK_IRQ_RAW] ∧ t.dk DK_CAUSE = putFld (v.dk DK_CAUSE) 0 8 cause ∧
  t.dk DK_CMDSTAT = 0x0152 ∧ raised v t [irqCMD]

/-- With a 4 KiB-aligned address in memory, CMD_BIND waits for Bosun's boundary, finishes with BUSY where the device is
not idle (in UNDERWAY too, log 117), and otherwise stops Bosun, sets BUSY and BINDING, and notes the destinations that
the image would place, which a class F fault before the end leaves undefined. At its end an image that fails a check
leaves the Bells, rings and the bound image as they were, sets DK_CAUSE to the check's cause and finishes with FAILED;
one that fails as it is committed leaves no image bound; one that passes and commits is bound: every Bell 0, every
region of the table in force as staged with no commit pending, every kept block and FIFO empty, Bosun executing at its
entry point in Keeper mode with w1 to w31 0, and the command finished with OK. Where another agent has written the
image or a destination the command finishes all the same. -/
def Obligations.BindChecksAndBindsAnImage : Prop := ∀ s : State,
  (canReef s → s.cmdArg.toNat % 4096 = 0 → inRam s.part s.cmdArg.toNat 1 = true →
    (s.atBoundary = false → ∃ t, exec .cmdBind s = .next t ∧ waitsToStop s t 1 false) ∧
    (s.atBoundary = true → s.bosun.stores = [] → s.dev.mode = .underway ∨ s.idleForCmd = false →
      ∃ t, exec .cmdBind s = .next t ∧ foundBusy s t 1) ∧
    (s.atBoundary = true → s.bosun.stores = [] → s.dev.mode = .hoveTo → s.idleForCmd = true →
      ∃ t, exec .cmdBind s = .next t ∧
      t = { s with deck := t.deck, free := t.free
                   bosun := { s.bosun with wait := none, run := false, cycle := t.bosun.cycle }
                   dev := { s.dev with tie := none, stopping := false, binding := true
                                       bindDest := t.dev.bindDest, command := some ⟨1, false, s.cmdArg, false⟩ } } ∧
      t.dev.bindDest = bindPlaces { t with dev := { t.dev with binding := s.dev.binding, bindDest := s.dev.bindDest }
                                           bosun := { t.bosun with run := s.bosun.run } } s.cmdArg.toNat ∧
      deckAccess s t [DK_CMDSTAT] ∧ t.dk DK_CMDSTAT = putFld (s.dk DK_CMDSTAT) 0 1 1)) ∧
  ∀ c : Command, s.dev.command = some c → c.op = 1 → s.dev.stopping = false → s.dev.binding = true →
    s.dev.mode = .hoveTo →
    (∃ t, exec .bindEnd s = .next t ∧ t.dev.binding = false ∧ t.dev.bindStale = false ∧ t.dev.command = none) ∧
    (s.dev.bindStale = false → ∀ (v w : State) (cause : Nat) (x : Fratitha),
      (checkImage (.mem c.arg.toNat) s = (v, .error cause) →
        v.dev = s.dev ∧ v.cap = s.cap ∧ v.mem = s.mem ∧ v.bosun = s.bosun ∧
        ∃ t, exec .bindEnd s = .next t ∧ bindFailed v t cause) ∧
      (checkImage (.mem c.arg.toNat) s = (v, .ok x) →
        commitImage (.mem c.arg.toNat) v x = (w, .error cause) → w.dev.mode ≠ .becalmed →
        w.dev.image = none ∧ ∃ t, exec .bindEnd s = .next t ∧ bindFailed w t cause) ∧
      (checkImage (.mem c.arg.toNat) s = (v, .ok x) →
        commitImage (.mem c.arg.toNat) v x = (w, .ok ()) → w.dev.mode ≠ .becalmed →
        ∃ t, exec .bindEnd s = .next t ∧ t = { w with dev := bindOver w.dev, deck := t.deck } ∧
          deckRegs w t [DK_CMDSTAT, DK_IRQ_RAW] ∧ t.dk DK_CMDSTAT = 0x0102 ∧ raised w t [irqCMD] ∧
          t.dev.image = some ⟨Word.nat x.foot.key, Word.nat x.foot.peer⟩ ∧
          t.bosun.run = true ∧ t.core.pc = Word.nat x.entry ∧ (∀ r, t.core.reg r = 0) ∧ t.crew = false ∧
          t.bosun.stores = [] ∧ t.bosun.instret = 0 ∧ t.bosun.cycle = 0 ∧ (∀ n, t.bell n = 0) ∧ t.rgPend = [] ∧
          (∀ n, n < 64 → t.regionForce n = t.regionStaged n) ∧ (∀ i, t.fifo i = []) ∧
          ∀ i, (t.loom i).kept = none ∧ (t.harrow i).kept = none))

/-- An evaluation has changed island `i`'s LAST and counts and no code (04 R172, R180). -/
def Sys2Proof.Spec.evaluated (s t : State) (i last streak : Nat) : Prop :=
  t = { s with regs := t.regs, trim := { s.trim with slow := t.trim.slow, islands := t.trim.islands } } ∧
  csrKept s t [TR_ISL i] ∧ t.rf (TR_ISL i) 10 2 = last ∧
  t.islCode i = s.islCode i ∧ (∀ j, j ≠ i → t.island j = s.island j) ∧
  t.island i = { streak := streak, low := (if s.islCode i ≤ 30 then min ((s.island i).low + 1) 1024 else 0)
                 since := min ((s.island i).since + 1) 16384 }

/-- A late capture has been counted in a descriptor: 3 cycles at its end, or in the count it has ended with (04 R177). -/
def Sys2Proof.Spec.replayed (f : Flight) : Flight :=
  { f with replays := f.replays + 1, st := match f.st with
    | .running (.remoteWrite st d c) => .running (.remoteWrite st d (c + 3))
    | .ended st d c => .ended st d (c + 3)
    | st => st }

/-- While the die runs, an evaluation of islands 0 to 7 records LAST and moves no code: 32 consecutive evaluations with
margin, while VTRIM acts, the code is above MIN_CODE and no request waits (log 56), request a step down, one without
margin starts the count again, a failing one below code 40 requests a step up and withdraws a step down, and at code
40 one requires FTRIM to step slower or, where it cannot, enters BECALMED; a failing evaluation of island 8 or 9
enters BECALMED. A requested step down or up moves that island's code by one, not below MIN_CODE nor above 40. A
replay counts itself and its 3 cycles in the descriptor it falls in (the one that runs, or else the last whose end
stands, log 58) and requests a step up. Nothing else changes. -/
def Obligations.VtrimMovesOneIslandOneCode : Prop := ∀ (s : State) (i : Nat), s.capRuns = true →
  (i < 8 →
    (s.vtEn = true → s.minCode < s.islCode i → s.rf (TR_ISL i) 8 2 = 0 →
      ∃ t, exec (.vtrimEval i true true) s = .next t ∧
        evaluated s t i 1 (if 31 ≤ (s.island i).streak then 0 else (s.island i).streak + 1) ∧
        t.rf (TR_ISL i) 8 2 = (if 31 ≤ (s.island i).streak then 2 else 0) ∧ t.trim.slow = s.trim.slow) ∧
    (s.vtEn = false ∨ s.islCode i ≤ s.minCode ∨ s.rf (TR_ISL i) 8 2 ≠ 0 →
      ∃ t, exec (.vtrimEval i true true) s = .next t ∧ evaluated s t i 1 0 ∧
        t.rf (TR_ISL i) 8 2 = s.rf (TR_ISL i) 8 2 ∧ t.trim.slow = s.trim.slow) ∧
    (∃ t, exec (.vtrimEval i true false) s = .next t ∧ evaluated s t i 2 0 ∧
      t.rf (TR_ISL i) 8 2 = s.rf (TR_ISL i) 8 2 ∧ t.trim.slow = s.trim.slow) ∧
    (∀ margin : Bool,
      (s.islCode i < 40 →
        ∃ t, exec (.vtrimEval i false margin) s = .next t ∧ evaluated s t i 3 0 ∧ t.trim.slow = s.trim.slow ∧
          t.rf (TR_ISL i) 8 2 = (if s.vtEn then 1 else s.rf (TR_ISL i) 8 2)) ∧
      (40 ≤ s.islCode i → s.ftEn = true → s.trim.step < s.ftFloor →
        ∃ t, exec (.vtrimEval i false margin) s = .next t ∧ evaluated s t i 3 0 ∧ t.trim.slow = true ∧
          t.rf (TR_ISL i) 8 2 = s.rf (TR_ISL i) 8 2 ∧ t.slowDue = true) ∧
      (40 ≤ s.islCode i → s.ftEn = false ∨ s.ftFloor ≤ s.trim.step →
        ∃ u t, exec (.vtrimEval i false margin) s = .next t ∧ evaluated s u i 3 0 ∧
          u.rf (TR_ISL i) 8 2 = s.rf (TR_ISL i) 8 2 ∧ u.trim.slow = s.trim.slow ∧
          becalmedBy u t 0x29 (Word.nat i))) ∧
    (s.rbit (TR_ISL i) 9 = true → s.islandBusy i = false →
      ∃ t, exec (.vtrimStepDown i) s = .next t ∧ t = { s with regs := t.regs } ∧ csrKept s t [TR_ISL i] ∧
        t.islCode i = max s.minCode (s.islCode i - 1) ∧ t.rbit (TR_ISL i) 9 = false ∧
        t.rbit (TR_ISL i) 8 = s.rbit (TR_ISL i) 8 ∧ t.rf (TR_ISL i) 10 2 = s.rf (TR_ISL i) 10 2) ∧
    (s.rbit (TR_ISL i) 8 = true → s.islandRuns i = false →
      ∃ t, exec (.vtrimStepUp i) s = .next t ∧ t = { s with regs := t.regs } ∧ csrKept s t [TR_ISL i] ∧
        t.islCode i = min 40 (s.islCode i + 1) ∧
        t.rbit (TR_ISL i) 8 = decide (min 40 (s.islCode i + 1) < s.minCode) ∧
        t.rbit (TR_ISL i) 9 = s.rbit (TR_ISL i) 9 ∧ t.rf (TR_ISL i) 10 2 = s.rf (TR_ISL i) 10 2)) ∧
  (i = 8 ∨ i = 9 → ∀ margin : Bool,
    (∃ t, exec (.vtrimEval i true margin) s = .next t ∧ t = { s with regs := t.regs } ∧ csrKept s t [TR_ISL i] ∧
      t.reg (TR_ISL i) = putFld (s.reg (TR_ISL i)) 10 2 (if margin then 1 else 2)) ∧
    ∃ u t, exec (.vtrimEval i false margin) s = .next t ∧ u = { s with regs := u.regs } ∧ csrKept s u [TR_ISL i] ∧
      u.reg (TR_ISL i) = putFld (s.reg (TR_ISL i)) 10 2 3 ∧ becalmedBy u t 0x29 (Word.nat i)) ∧
  (i < 4 ∨ i = 6 ∨ i = 7 →
    let here (f : Flight) : Bool := f.cls == (if i < 4 then 0 else 2) && f.inst == (if i < 4 then i else i - 6) && !f.null
    let met := (s.cap.flights.find? fun f => here f && (match f.st with | .running _ => true | _ => false)).or
      (s.cap.flights.filter fun f => here f && (match f.st with | .ended _ _ _ => true | _ => false)).getLast?
    (met = none → exec (.replay i) s = .next s) ∧
    ∀ f : Flight, met = some f → ∃ t, exec (.replay i) s = .next t ∧
      t = { s with regs := t.regs, deck := t.deck, cap := { s.cap with flights := s.cap.flights.map fun g =>
        if g.ring == f.ring && g.idx == f.idx then (replayed g) else g } } ∧
      csrKept s t [TR_REPLAY i, FT_CE_REPLAY, TR_ISL i] ∧ deckRegs s t [DK_TRIM_STAT] ∧
      (t.reg (TR_REPLAY i)).toNat = min ((s.reg (TR_REPLAY i)).toNat + 1) (2 ^ 32 - 1) ∧
      (t.reg FT_CE_REPLAY).toNat = min ((s.reg FT_CE_REPLAY).toNat + 1) (2 ^ 32 - 1) ∧
      t.dk DK_TRIM_STAT = putFld (s.dk DK_TRIM_STAT) 4 1 1 ∧
      t.reg (TR_ISL i) = (if s.vtEn && decide (s.islCode i < 40) then
        putFld (putFld (s.reg (TR_ISL i)) 8 1 1) 9 1 0 else s.reg (TR_ISL i)))

/-- Islands 0 to 7 stand at code 40 with no request, LAST kept and their counts started again. -/
def Sys2Proof.Spec.parkedIslands (s t : State) (since : Nat → Nat) : Prop :=
  csrKept s t (TR_STEPS :: (List.range 8).map TR_ISL) ∧
  (∀ i, i < 8 → t.reg (TR_ISL i) = putFld (putFld (s.reg (TR_ISL i)) 0 6 40) 8 2 0 ∧
    t.island i = { streak := 0, low := 0, since := since i }) ∧
  ∀ i, 8 ≤ i → t.island i = s.island i

/-- With no descriptor in flight on a KC engine, a due step slower below step 4 and a due step faster above step 0 move
the KC step by one, count it in its half of TR_STEPS and leave islands 0 to 7 at code 40 with no request and their
counts started again; a step slower also restarts the time since it. A commit that is pending then applies first.
Nothing else changes, and nothing at all where no step is due. -/
def Obligations.FtrimStepsOneStep : Prop := ∀ s : State, s.capRuns = true → s.kcBusy = false →
  (s.rbit TR_STAT 4 = false → s.slowDue = true → s.trim.step < 4 →
    ∃ t, exec .ftrimStepSlower s = .next t ∧ t = { s with regs := t.regs, trim := t.trim } ∧
      t.trim.step = s.trim.step + 1 ∧ t.trim.slow = false ∧ parkedIslands s t (fun _ => 0) ∧
      t.reg TR_STEPS = putFld (s.reg TR_STEPS) 0 16 (min (s.rf TR_STEPS 0 16 + 1) 65535)) ∧
  (s.rbit TR_STAT 4 = false → s.fastDue = true → 0 < s.trim.step →
    ∃ t, exec .ftrimStepFaster s = .next t ∧ t = { s with regs := t.regs, trim := t.trim } ∧
      t.trim.step = s.trim.step - 1 ∧ t.trim.slow = s.trim.slow ∧ parkedIslands s t (fun i => (s.island i).since) ∧
      t.reg TR_STEPS = putFld (s.reg TR_STEPS) 16 16 (min (s.rf TR_STEPS 16 16 + 1) 65535)) ∧
  (s.rbit TR_STAT 4 = false → s.slowDue = false → exec .ftrimStepSlower s = .next s) ∧
  (s.rbit TR_STAT 4 = false → s.fastDue = false → exec .ftrimStepFaster s = .next s) ∧
  (s.rbit TR_STAT 4 = true → ∃ u, exec .trCommitApply s = .next u ∧ u.rbit TR_STAT 4 = false ∧
    exec .ftrimStepSlower s = exec .ftrimStepSlower u ∧ exec .ftrimStepFaster s = exec .ftrimStepFaster u)

/-- A write of a control register with COMMIT: its fields as stored, PEND of its status register, and nothing else. -/
def Sys2Proof.Spec.pends (s t : State) (ctrl : Nat) (fields : List Field) (v : Word) (stat bit : Nat) : Prop :=
  csrKept s t [ctrl, stat] ∧ t.reg ctrl = storeFields fields (s.reg ctrl) v ∧
  t.reg stat = putFld (s.reg stat) bit 1 1

/-- A write with COMMIT stores the control register's fields and sets the group's PEND: every copy in force stays, and so
does every other register, memory, Bell and ring. With NOW an audio commit is also marked to end the block. A CSI-2
commit that leaves EN at 1 does the same; a region entry's commit joins the pending entries. -/
def Obligations.CommitsOnlySetPend : Prop := ∀ (s : State) (v : Word), bit v 31 = true →
  (∃ t, exec (.trCommit v) s = .next t ∧ t = { s with regs := t.regs } ∧ pends s t TR_CTRL (trFields 0) v TR_STAT 4 ∧
    t.rf TR_CTRL 0 2 = fld v 0 2) ∧
  (∃ t, exec (.lkCommit v) s = .next t ∧ t = { s with regs := t.regs } ∧ pends s t LK_CTRL (lkFields 0) v LK_STAT 0 ∧
    t.rf LK_CTRL 0 4 = fld v 0 4) ∧
  (∃ t, exec (.auCommit v) s = .next t ∧ t = { s with regs := t.regs, audio := { s.audio with now := t.audio.now } } ∧
    pends s t AU_CTRL (auFields 0) v AU_STAT 0 ∧ t.rf AU_CTRL 0 2 = fld v 0 2 ∧
    t.audio.now = (bit v 30 || s.audio.now)) ∧
  (s.part.iob = true → s.capRuns = true → bit v 0 = true →
    ∃ t, exec (.csiCommit v) s = .next t ∧ t = { s with regs := t.regs } ∧
      pends s t CSI_CTRL (csiFields 0) v CSI_STAT 0 ∧ t.rbit CSI_CTRL 0 = true) ∧
  ∀ n, n < 64 → ∃ t, exec (.rgCommit n) s = .next t ∧ t = { s with regs := t.regs, rgPend := t.rgPend } ∧
    csrKept s t [RG_STAT] ∧ t.reg RG_STAT = putFld (s.reg RG_STAT) 0 1 1 ∧
    ∀ m, m ∈ t.rgPend ↔ m = n ∨ m ∈ s.rgPend

/-- STALE is set in a status register and the STALE source raised, with Bosun's source latched where `latch`. -/
def Sys2Proof.Spec.stales (s t : State) (stat bit : Nat) (latch : Bool) : Prop :=
  t = { s with regs := t.regs, deck := t.deck, bosun := { s.bosun with latStale := s.bosun.latStale || latch } } ∧
  csrKept s t [stat] ∧ t.reg stat = putFld (s.reg stat) bit 1 1 ∧ deckRegs s t [DK_IRQ_RAW] ∧ raised s t [irqSTALE]

/-- A commit still pending at its limit sets its group's STALE and raises the STALE source, and stays pending: PEND, the
staged copies and the copies in force are as before. The region and trim commits and a Tack drain also latch Bosun's
STALE source; a region's names its entry and a drain its lowest holder. With nothing pending nothing changes. -/
def Obligations.StaleMarksAPendingCommit : Prop := ∀ s : State,
  (s.rbit TR_STAT 4 = true → ∃ t, exec .trCommitStale s = .next t ∧ stales s t TR_STAT 5 true) ∧
  (s.rbit LK_STAT 0 = true → ∃ t, exec .lkCommitStale s = .next t ∧ stales s t LK_STAT 1 false) ∧
  (s.rbit CSI_STAT 0 = true → ∃ t, exec .csiCommitStale s = .next t ∧ stales s t CSI_STAT 1 false) ∧
  (s.rbit AU_STAT 0 = true → ∃ t, exec .auCommitStale s = .next t ∧ stales s t AU_STAT 1 false) ∧
  (∀ n, n < 64 → n ∈ s.rgPend → ∃ t, exec (.rgCommitStale n) s = .next t ∧
    t = { s with regs := t.regs, deck := t.deck, bosun := { s.bosun with latStale := true } } ∧
    csrKept s t [RG_STAT] ∧ t.reg RG_STAT = putFld (putFld (s.reg RG_STAT) 1 1 1) 16 6 n ∧
    deckRegs s t [DK_IRQ_RAW] ∧ raised s t [irqSTALE]) ∧
  (∀ (n : Nat) (l : List Nat), s.draining = true → s.holders = n :: l → n < 16384 →
    ∃ t, exec .tackDrainStale s = .next t ∧ t = { s with regs := t.regs, bosun := { s.bosun with latStale := true } } ∧
      csrKept s t [CAP_EPOCH] ∧ t.rbit CAP_EPOCH 10 = true ∧ t.rbit CAP_EPOCH 30 = true ∧
      t.rf CAP_EPOCH 16 14 = n ∧ t.rf CAP_EPOCH 0 10 = s.rf CAP_EPOCH 0 10) ∧
  (s.rbit TR_STAT 4 = false → exec .trCommitStale s = .next s) ∧
  (s.rbit LK_STAT 0 = false → exec .lkCommitStale s = .next s) ∧
  (s.rbit CSI_STAT 0 = false → exec .csiCommitStale s = .next s) ∧
  (s.rbit AU_STAT 0 = false → exec .auCommitStale s = .next s) ∧
  (∀ n, n ∉ s.rgPend → exec (.rgCommitStale n) s = .next s) ∧ (s.draining = false → exec .tackDrainStale s = .next s)

/-- The group comes into force as staged in `s`, and no other copy in force changes. -/
def Sys2Proof.Spec.inForceNow (s t : State) (group : List Nat) : Prop :=
  (∀ a, a ∈ group → t.force a = s.reg a) ∧ forceKept s t group

/-- A pending commit that reaches its boundary clears PEND and, where the staged values pass the group's checks, brings
every staged copy of its group into force together and leaves every other copy in force; where a check fails it sets
REJ with the check's number and no copy in force changes. A trim commit is never rejected; it returns the islands to
code 40 where VTRIM is disabled. A commit with GAIN_LD loads the gains; one that moves KA starts the PLL's relock,
which AUDIO_RELOCK_DONE ends. -/
def Obligations.CommitsApplyOrAreRejected : Prop := ∀ s : State,
  (s.rbit TR_STAT 4 = true → s.kcBusy = false → ∃ t, exec .trCommitApply s = .next t ∧
    t = { s with regs := t.regs, inForce := t.inForce, trim := t.trim } ∧
    inForceNow s t [TR_CTRL, TR_FT_CFG, TR_VT_CFG] ∧ t.rbit TR_STAT 4 = false ∧
    csrKept s t (TR_STAT :: (List.range 8).map TR_ISL) ∧ t.trim.step = s.trim.step ∧
    (s.rbit TR_CTRL 0 = false → ∀ i, i < 8 → t.islCode i = 40) ∧
    (s.rbit TR_CTRL 0 = true → ∀ i, i < 8 → t.islCode i = s.islCode i ∧
      (s.islCode i < s.rf TR_VT_CFG 8 6 → s.islCode i < 40 → t.rbit (TR_ISL i) 8 = true))) ∧
  (s.rbit LK_STAT 0 = true → s.lk.frame = none →
    (s.lkReject = none → ∃ t, exec .lkCommitApply s = .next t ∧
      t = { s with regs := t.regs, inForce := t.inForce, cap := t.cap, lk := { s.lk with
        fwd := t.lk.fwd, waiting := t.lk.waiting, fresh := t.lk.fresh, byEtrim := t.lk.byEtrim } } ∧
      stopsOnly s t [1] ∧ inForceNow s t State.lkGroup ∧
      t.reg LK_STAT = putFld (s.reg LK_STAT) 0 1 0 ∧ csrKept s t [LK_STAT, LK_EXP_STAT] ∧
      (s.rbit LK_CTRL 11 = true → t.lkExp = s.rf LK_EXP 0 14 ∧ t.lkGain = s.rf LK_EXP 16 2)) ∧
    (∀ why, s.lkReject = some why → ∃ t, exec .lkCommitApply s = .next t ∧ t = { s with regs := t.regs } ∧
      csrKept s t [LK_STAT] ∧ t.rbit LK_STAT 0 = false ∧ t.rbit LK_STAT 2 = true ∧ t.rf LK_STAT 4 2 = why)) ∧
  (s.rbit CSI_STAT 0 = true → s.csiOpen 0 = none → s.csiOpen 1 = none →
    (s.vcOk 0 = true → s.vcOk 1 = true → ∃ t, exec .csiCommitApply s = .next t ∧
      t = { s with regs := t.regs, inForce := t.inForce, cap := t.cap } ∧ stopsOnly s t [3, 4] ∧
      inForceNow s t [CSI_CTRL, CSI_VC 0, CSI_VC 1] ∧ t.reg CSI_STAT = putFld (s.reg CSI_STAT) 0 1 0 ∧
      csrKept s t [CSI_STAT]) ∧
    (s.vcOk 0 = false ∨ s.vcOk 1 = false → ∃ t, exec .csiCommitApply s = .next t ∧ t = { s with regs := t.regs } ∧
      csrKept s t [CSI_STAT] ∧ t.rbit CSI_STAT 0 = false ∧ t.rbit CSI_STAT 2 = true ∧
      t.rbit CSI_STAT 3 = s.vcOk 0)) ∧
  (s.rbit AU_STAT 0 = true → s.auRun = false ∨ s.audio.ticks = 0 →
    ∀ (pdm adc : List (List Word)) (c : Instr),
      c = (if s.audio.now then .auCommitNow pdm adc else .auCommitApply) →
    (s.auReject = none → ∃ t, exec c s = .next t ∧
      t = { s with regs := t.regs, inForce := t.inForce, audio := t.audio, cap := t.cap } ∧
      stopsOnly s t [5, 6, 7] ∧ inForceNow s t State.auGroup ∧ t.reg AU_STAT = putFld (s.reg AU_STAT) 0 1 0 ∧
      csrKept s t [AU_STAT, AU_GAIN_STAT, AU_CNT] ∧ t.audio.now = false ∧
      t.audio.rxLast = s.audio.rxLast ∧ t.audio.rxNew = s.audio.rxNew ∧ t.audio.time = s.audio.time ∧
      t.audio.dac = (if s.rbit AU_PLAY 0 then s.audio.dac else (0, 0)) ∧
      t.audio.tx = (if s.rbit AU_PLAY 3 then s.audio.tx else []) ∧
      t.reg AU_GAIN_STAT = (if s.rbit AU_CTRL 1 then s.reg AU_PGA else s.reg AU_GAIN_STAT) ∧
      t.audio.relock = (s.audio.relock || s.rbit CK_KA_CFG 0 != s.fbit CK_KA_CFG 0) ∧
      (if s.rf AU_RATE 0 6 ≠ s.ff AU_RATE 0 6 ∨ s.rbit CK_KA_CFG 0 ≠ s.fbit CK_KA_CFG 0 ∨
          (s.rbit AU_CTRL 0 = true ∧ s.auRun = false) then
        t.audio.tick = 0 ∧ t.audio.start = 0 ∧ t.audio.ticks = 0 ∧ t.audio.block = 0 ∧ t.audio.queue = [] ∧
        t.audio.playing = [] ∧ t.audio.past = [] ∧ t.audio.rxBlock = [] ∧ t.audio.slips = 0 ∧
        t.reg AU_CNT = putFld (s.reg AU_CNT) 24 8
          (min (s.rf AU_CNT 24 8 + (s.audio.queue.length + if s.audio.playing = [] then 0 else 1)) 255)
      else
        t.audio = { s.audio with
          now := false, dac := t.audio.dac, tx := t.audio.tx, byGtrim := t.audio.byGtrim, quiet0 := t.audio.quiet0
          quiet1 := t.audio.quiet1, played := t.audio.played, inUnder := t.audio.inUnder } ∧
        t.reg AU_CNT = s.reg AU_CNT)) ∧
    (∀ why, s.auReject = some why → ∃ t, exec c s = .next t ∧
      t = { s with regs := t.regs, audio := { s.audio with now := false } } ∧ csrKept s t [AU_STAT] ∧
      t.rbit AU_STAT 0 = false ∧ t.rbit AU_STAT 2 = true ∧ t.rf AU_STAT 4 3 = why)) ∧
  (∀ n, n < 64 → n ∈ s.rgPend → Store.get 0 s.rgRef n = 0 → s.dev.reader = none →
    (regionReject s.part (s.regionStaged n) = none → ∃ t, exec (.rgCommitApply n) s = .next t ∧
      t = { s with regs := t.regs, inForce := t.inForce, rgPend := t.rgPend } ∧
      inForceNow s t [RG_BASE n, RG_LIMIT n, RG_ATTR n] ∧ csrKept s t [RG_STAT] ∧
      ∀ m, m ∈ t.rgPend ↔ m ∈ s.rgPend ∧ m ≠ n) ∧
    (∀ why, regionReject s.part (s.regionStaged n) = some why → ∃ t, exec (.rgCommitApply n) s = .next t ∧
      t = { s with regs := t.regs, rgPend := t.rgPend } ∧ csrKept s t [RG_STAT] ∧ t.rbit RG_STAT 2 = true ∧
      t.rf RG_STAT 8 6 = n ∧ t.rf RG_STAT 14 2 = why ∧ ∀ m, m ∈ t.rgPend ↔ m ∈ s.rgPend ∧ m ≠ n)) ∧
  exec .audioRelockDone s = .next { s with audio := { s.audio with relock := false } }

/-- What a write of `new` over `old` leaves, field by field (00 Table 0.4, R20). -/
def Sys2Proof.Spec.codesHold {n : Nat} (fs : List Field) (old new res : BitVec n) : Prop :=
  (∀ f, f ∈ fs → fld res f.lo f.w = match f.acc with
    | .rw => if f.bad.contains (fld new f.lo f.w) then fld old f.lo f.w else fld new f.lo f.w
    | .w1c => fld old f.lo f.w - Nat.land (fld old f.lo f.w) (fld new f.lo f.w)
    | _ => fld old f.lo f.w) ∧
  ∀ i, i < n → (∀ f, f ∈ fs → i < f.lo ∨ f.lo + f.w ≤ i) → res.getLsbD i = old.getLsbD i

/-- Deck registers whose write does more than store. -/
def Sys2Proof.Spec.deckActs : List Nat :=
  [DK_CMD, DK_CTRL, DK_WIN_DATA, DK_WIN_CTRL, DK_DOOR_TAIL, DK_IRQ_STAT, DK_BELL_SEL, DK_BELL_VAL, DK_HAIL_CFG]

/-- CSRs of staged groups whose write only stores. -/
def Sys2Proof.Spec.plainCsr (a : Nat) : Prop :=
  a % 4 = 0 ∧ ((a / 0x10000 = 0x4001 ∧ a % 0x10000 < 0x400 ∧ a % 16 ≠ 0xC) ∨ a / 0x10000 = 0x4020 ∨
    (a / 0x10000 = 0x4021 ∧ a % 0x10000 ≠ 0) ∨ (a / 0x10000 = 0x4082 ∧ a % 0x10000 ≠ 0) ∨
    (a / 0x10000 = 0x4083 ∧ a % 0x10000 ≠ 0 ∧ a % 0x10000 ≠ 0xC))

/-- An agent reaches the CSR at an address (05 R222, R243). -/
def Sys2Proof.Spec.csrInReach (s : State) (a : Nat) : Prop :=
  s.answers = true ∧ s.dev.mode ≠ .muster ∧ (s.onDieA a = true ∨ (s.dev.mode ≠ .reefed ∧ s.dev.vinOk = true))

/-- A write stores each RW field unless it carries a reserved encoding, clears each W1C field where it writes 1, and
leaves every other field and bit. A write of a Deck register without an action, or of DK_HAIL_CFG without SEND,
changes that register and the two holding tags alone; DK_IRQ_STAT clears the latches written as 1, DK_WIN_CTRL bit 15
clears ERR, and DK_CTRL also judges the Bell waits of the heads that stage 1 no longer or newly holds. A write of a
CSR without an action, by an agent that reaches it, changes that CSR alone; one of a CSR that cannot be reached
changes nothing. -/
def Obligations.RegisterWritesFollowTheAccessCodes : Prop :=
  (∀ (n : Nat) (fs : List Field) (old new : BitVec n), (∀ f, f ∈ fs → f.lo + f.w ≤ n) →
    fs.Pairwise (fun f g => f.lo + f.w ≤ g.lo ∨ g.lo + g.w ≤ f.lo) → codesHold fs old new (storeFields fs old new)) ∧
  ∀ (s : State) (v : Word),
    (∀ o, o < 128 → o % 2 = 0 → s.deckFree = true → o ∉ deckActs ∨ (o = DK_HAIL_CFG ∧ bit v 15 = false) →
      ∃ t, exec (.registerWrite (.deck o) v) s = .next t ∧ t = { accessed s with deck := t.deck } ∧
        deckRegs (accessed s) t [o] ∧ t.dk o = storeFields (deckFields o) (s.dk o) (BitVec.ofNat 16 v.toNat)) ∧
    (s.deckFree = true →
      (∃ t, exec (.registerWrite (.deck DK_IRQ_STAT) v) s = .next t ∧ t = { accessed s with deck := t.deck } ∧
        deckRegs (accessed s) t [DK_IRQ_RAW] ∧ t.dk DK_IRQ_RAW = s.dk DK_IRQ_RAW &&& ~~~(BitVec.ofNat 16 v.toNat)) ∧
      (∃ t, exec (.registerWrite (.deck DK_WIN_CTRL) v) s = .next t ∧ t = { accessed s with deck := t.deck } ∧
        deckRegs (accessed s) t [DK_WIN_CTRL] ∧
        t.dk DK_WIN_CTRL = (if bit v 15 then putFld (putFld (s.dk DK_WIN_CTRL) 0 1 (fld v 0 1)) 8 4 0
          else putFld (s.dk DK_WIN_CTRL) 0 1 (fld v 0 1))) ∧
      ∃ t, exec (.registerWrite (.deck DK_CTRL) v) s = .next t ∧
        t = { accessed s with deck := t.deck, cap := { s.cap with rings := t.cap.rings } } ∧
        deckRegs (accessed s) t [DK_CTRL] ∧ t.dk DK_CTRL = putFld (putFld (s.dk DK_CTRL) 0 1 (fld v 0 1)) 1 1 (fld v 1 1) ∧
        ∀ n, sameRing (s.ring n) (t.ring n)) ∧
    (∀ a, plainCsr a → csrInReach s a →
      ∃ t, exec (.registerWrite (.csr a) v) s = .next t ∧ t = { s with regs := t.regs } ∧ csrKept s t [a] ∧
        t.reg a = storeFields (csrFields a) (s.reg a) v) ∧
    (∀ a, ¬ csrInReach s a → exec (.registerWrite (.csr a) v) s = .next s)

/-- A low-byte read of a register without an action, from `u`. -/
def Sys2Proof.Spec.plainGives (u t : State) (o : Nat) : Prop :=
  deckGives u t o (u.deckValue o) [o] ∧ t.dk o = clearRc (deckFields o) (u.dk o)

/-- With BUSW low-wide, a low-byte read of a register without an action returns its low byte and holds its high byte for
the slot (one of DK_STAGE while a stage of several units runs first samples UNIT, a free choice, log 20); a high-byte
read returns the held byte of its slot, or the register's high byte where none is held; a low-byte write is held and
writes nothing; a high-byte write with the low byte of its slot held is the 16-bit write of both, and otherwise writes
nothing. Every access clears the tag it does not set. -/
def Obligations.EightBitAccessesPairTheirBytes : Prop :=
  ∀ (s : State) (k : Nat) (b : Byte), k < 64 → s.deckFree = true → s.dev.straps.busw = true →
  (2 * k ∉ [DK_WIN_DATA, DK_BELL_VAL, DK_CN_EVENT, DK_TIME_LO] →
    (2 * k = DK_STAGE → s.mustering = false ∨ State.stageUnits (s.dkf DK_STAGE 0 8) ≤ 1) →
    ∃ t, exec (.deck8LowRead k) s = .next t ∧ t = { accessed s with deck := t.deck } ∧ plainGives (accessed s) t (2 * k)) ∧
  (2 * k = DK_STAGE → s.mustering = true → 1 < State.stageUnits (s.dkf DK_STAGE 0 8) →
    ∃ u t, u = { accessed s with deck := u.deck, free := u.free } ∧ deckRegs (accessed s) u [DK_STAGE] ∧
      (∃ unit, unit < State.stageUnits (s.dkf DK_STAGE 0 8) ∧ u.dk DK_STAGE = putFld (s.dk DK_STAGE) 8 4 unit) ∧
      exec (.deck8LowRead k) s = .next t ∧ t = { u with deck := t.deck } ∧ plainGives u t (2 * k)) ∧
  (∃ t, exec (.deck8HighRead k) s = .next t ∧
    t = { accessed s with deck := { (accessed s).deck with data := t.deck.data } } ∧
    (∀ x, s.deck.readHold = some (k, x) → t.deck.data = BitVec.ofNat 16 x.toNat) ∧
    ((∀ x, s.deck.readHold ≠ some (k, x)) → t.deck.data = BitVec.ofNat 16 ((s.deckValue (2 * k)).toNat / 256))) ∧
  exec (.deck8LowWrite k b) s =
    .next { accessed s with deck := { (accessed s).deck with writeHold := some (k, b) } } ∧
  (∀ l, s.deck.writeHold = some (k, l) → exec (.deck8HighWrite k b) s =
    exec (.registerWrite (.deck (2 * k)) (Word.nat (l.toNat + 256 * b.toNat))) s) ∧
  ((∀ l, s.deck.writeHold ≠ some (k, l)) → exec (.deck8HighWrite k b) s = .next (accessed s))

/-- A read of DK_TIME_LO latches DK_TIME_HI; one of DK_BELL_VAL latches DK_BELL_VAL_HI and gives the mirror where VALID is
1, 0 where the device state hides the Bells, and otherwise a free value; a read of DK_TRIM_STAT or DK_HALT_RING
returns the register and clears its RC fields; a read of DK_CN_EVENT returns the oldest host event with OVF, moves its
score and time to DK_CN_SCORE and DK_CN_TIME, removes it and clears OVF. Nothing else changes. PAIR_LOW_READ of
DK_WIN_DATA is WIN_READ. -/
def Obligations.DeckReadsWithEffects : Prop := ∀ s : State, s.deckFree = true →
  exec (.pairLowRead 15) s = exec .winRead s ∧
  (∃ t, exec (.pairLowRead 38) s = .next t ∧ t = { accessed s with deck := t.deck } ∧
    deckGives (accessed s) t DK_TIME_LO (BitVec.ofNat 16 s.deck.ms.toNat) [DK_TIME_HI] ∧
    t.dk DK_TIME_HI = BitVec.ofNat 16 (s.deck.ms.toNat / 65536)) ∧
  (∃ (v : Word) (t : State), exec (.pairLowRead 25) s = .next t ∧
    t = { accessed s with deck := t.deck, free := t.free } ∧
    deckGives (accessed s) t DK_BELL_VAL (BitVec.ofNat 16 v.toNat) [DK_BELL_VAL_HI] ∧
    t.dk DK_BELL_VAL_HI = BitVec.ofNat 16 (v.toNat / 65536) ∧
    (s.bellDark = true → v = 0 ∧ t.free = s.free) ∧
    (s.bellDark = false → s.dkbit DK_BELL_SEL 15 = true → v = s.deck.bellMirror ∧ t.free = s.free)) ∧
  (∀ k, k = 30 ∨ k = 35 → ∃ t, exec (.rcRead k) s = .next t ∧ t = { accessed s with deck := t.deck } ∧
    plainGives (accessed s) t (2 * k) ∧
    (k = 30 → t.dkbit DK_TRIM_STAT 4 = false) ∧
    (k = 35 → t.dkbit DK_HALT_RING 14 = false ∧ t.dkbit DK_HALT_RING 15 = false ∧
      t.dkf DK_HALT_RING 0 14 = s.dkf DK_HALT_RING 0 14)) ∧
  (∀ c, c = .dkCnEventRead ∨ c = .rcRead 27 →
    (∀ (e : CnEvent) (l : List CnEvent) (u : State), s.deck.cnFifo = e :: l →
      u = { accessed s with deck := { (accessed s).deck with cnFifo := l, cnOvf := false } } →
      ∃ t, exec c s = .next t ∧ t = { u with deck := t.deck } ∧
        deckGives u t DK_CN_EVENT (BitVec.ofNat 16 (e.cls % 32 + 32 * (e.net % 2) + 16384 + 32768 * b2n s.deck.cnOvf))
          [DK_CN_SCORE, DK_CN_TIME] ∧
        t.dk DK_CN_SCORE = BitVec.ofNat 16 e.score ∧ t.dk DK_CN_TIME = BitVec.ofNat 16 e.time.toNat) ∧
    (s.deck.cnFifo = [] → ∀ u : State, u = { accessed s with deck := { (accessed s).deck with cnOvf := false } } →
      ∃ t, exec c s = .next t ∧ t = { u with deck := t.deck } ∧
        deckGives u t DK_CN_EVENT (BitVec.ofNat 16 (32768 * b2n s.deck.cnOvf)) []))

/-- A window access is refused, or has no data, with an ERR (05 R222, Table 5.5). -/
def Sys2Proof.Spec.winErred (u t : State) (write : Bool) (e : Nat) (l : List Nat) : Prop :=
  (if write then deckRegs u t (DK_WIN_CTRL :: DK_IRQ_RAW :: l) else winGives u t 0 (DK_WIN_CTRL :: DK_IRQ_RAW :: l)) ∧
  t.dk DK_WIN_CTRL = putFld (u.dk DK_WIN_CTRL) 8 4 e ∧ raised u t [irqWIN]

/-- A write has met a running BIND: `bindStale` tells whether a byte that the BIND reads or places was written (21 R858). -/
def Sys2Proof.Spec.bindMet (u : State) (d : Device) (a : Nat) : Prop :=
  d = { u.dev with bindStale := d.bindStale } ∧ (u.dev.binding = false → d.bindStale = u.dev.bindStale) ∧
  (u.dev.binding = true → (∃ p ∈ u.dev.bindDest, a < p.1 + p.2 ∧ p.1 < a + 4 ∧ p.2 ≠ 0) → d.bindStale = true) ∧
  (u.dev.bindStale = true → d.bindStale = true)

/-- The four bytes from `a` have been read from `u` with value `v`, whose ECC left `x`. -/
def Sys2Proof.Spec.wordRead (u x t : State) (a : Nat) (v : Word) : Prop :=
  t = { u with deck := t.deck, regs := x.regs, ecc := x.ecc, free := t.free, dev := t.dev } ∧
  (netOn u = false ∨ ¬ inWork a → v = u.peekWord a ∧ t.free = x.free)

/-- The four bytes `l` have been written from `a` on in `u`, whose ECC left `x`. -/
def Sys2Proof.Spec.wordWritten (u x t : State) (a : Nat) (l : List Byte) : Prop :=
  t = { u with
    deck := t.deck, regs := x.regs, ecc := x.ecc, free := x.free, mem := x.mem, inject := x.inject, dev := t.dev } ∧
  bindMet u t.dev a ∧ memKeptBut u t a 4 ∧
  ((∀ i, i < 4 → u.cnShut (a + i) = false) → a + 4 ≤ 0xF0000000 → ∀ i, i < 4 → t.byteAt (a + i) = l.getD i 0)

/-- With BUSY 0, an access that a row of Table 5.3 refuses sets its ERR, raises WIN, leaves the address and everything
outside the Deck, and a read gives 0; while BUSY is 1 an access is refused with BUSY. One of a memory reads the word
at the address, or writes the word of DK_WIN_DATA_HI and the written half and changes those four bytes alone, and
advances the address by 4 where INC is 1; a word of the Crowsnest's working area reads as a free value while a network
is enabled. An uncorrectable word sets ERR ECC, records class E and a read gives 0. A write of a byte that a running
BIND places is remembered. A CSR is read and written as by any agent. -/
def Obligations.WindowAccessesAndRefusals : Prop := ∀ (s : State) (h : Half) (u : State),
  s.deckFree = true → u = accessed s →
  (∀ e, (s.dkbit DK_WIN_CTRL 4 = true ∧ e = 5) ∨ (s.dkbit DK_WIN_CTRL 4 = false ∧ s.winCheck s.winAddr false = some e) →
    ∃ t, exec .winRead s = .next t ∧ t = { u with deck := t.deck } ∧ winErred u t false e []) ∧
  (∀ e, (s.dkbit DK_WIN_CTRL 4 = true ∧ e = 5) ∨ (s.dkbit DK_WIN_CTRL 4 = false ∧ s.winCheck s.winAddr true = some e) →
    ∃ t, exec (.winWrite h) s = .next t ∧ t = { u with deck := t.deck } ∧ winErred u t true e []) ∧
  (∀ x : State, s.dkbit DK_WIN_CTRL 4 = false → s.winCheck s.winAddr false = none →
    spaceOf s.part s.winAddr ≠ .remote → spaceOf s.part s.winAddr ≠ .csr →
    (u.eccRead srcWindow s.winAddr 4 = (x, none) → ∃ v t, exec .winRead s = .next t ∧
      wordRead u x t s.winAddr v ∧ t.dev = u.dev ∧ winGives u t v [DK_WIN_ADDR_LO, DK_WIN_ADDR_HI] ∧ incDone u t) ∧
    (∀ w, u.eccRead srcWindow s.winAddr 4 = (x, some w) → ∃ t, exec .winRead s = .next t ∧
      t = { u with deck := t.deck, regs := t.regs, ecc := x.ecc, free := t.free } ∧ eccRecord x t srcWindow w ∧
      winErred u t false 6 [DK_FAULT_LO, DK_FAULT_HI, DK_FAULT_SEQ])) ∧
  (∀ x : State, s.dkbit DK_WIN_CTRL 4 = false → s.winCheck s.winAddr true = none →
    spaceOf s.part s.winAddr ≠ .remote → spaceOf s.part s.winAddr ≠ .csr →
    (u.eccWrite srcWindow s.winAddr (leBytes 4 (s.winWord h).toNat) = (x, none) → ∃ t, exec (.winWrite h) s = .next t ∧
      wordWritten u x t s.winAddr (leBytes 4 (s.winWord h).toNat) ∧ incDone u t ∧
      deckRegs u t [DK_WIN_ADDR_LO, DK_WIN_ADDR_HI]) ∧
    (∀ w, u.eccWrite srcWindow s.winAddr (leBytes 4 (s.winWord h).toNat) = (x, some w) →
      ∃ t, exec (.winWrite h) s = .next t ∧ memKeptBut s t s.winAddr 4 ∧ bindMet u t.dev s.winAddr ∧
      t = { u with deck := t.deck, regs := t.regs, ecc := x.ecc, free := t.free, mem := x.mem, inject := x.inject
                   dev := t.dev } ∧
      eccRecord x t srcWindow w ∧ winErred u t true 6 [DK_FAULT_LO, DK_FAULT_HI, DK_FAULT_SEQ])) ∧
  (s.dkbit DK_WIN_CTRL 4 = false → spaceOf s.part s.winAddr = .csr →
    (s.winCheck s.winAddr false = none → ∃ x t, x = (u.csrRead s.winAddr).2 ∧ exec .winRead s = .next t ∧
      t = { x with deck := t.deck } ∧ winGives x t (u.csrRead s.winAddr).1 [DK_WIN_ADDR_LO, DK_WIN_ADDR_HI] ∧
      incDone x t) ∧
    (s.winCheck s.winAddr true = none → ∃ x t, x = u.csrWrite s.winAddr (s.winWord h) ∧ exec (.winWrite h) s = .next t ∧
      t = { x with deck := t.deck } ∧ deckRegs x t [DK_WIN_ADDR_LO, DK_WIN_ADDR_HI] ∧ incDone x t))

/-- The operation that an access of the peer's word at `a` issues (20 R821). -/
def Sys2Proof.Spec.winOp (s : State) (write : Bool) (data : List Byte) : RemOp :=
  { owner := .window, write := write, addr := s.winAddr, data := data, len := 4, runAddr := s.winAddr, runLen := 4
    num := s.sw.issued }

/-- An access outstanding in `u` has timed out. -/
def Sys2Proof.Spec.timedOut (u t : State) (write : Bool) : Prop :=
  let l := [DK_WIN_CTRL, DK_IRQ_RAW, DK_WIN_ADDR_LO, DK_WIN_ADDR_HI]
  t = { u with deck := t.deck } ∧ (if write then deckRegs u t l else winGives u t 0 l) ∧
  t.dk DK_WIN_CTRL = putFld (putFld (u.dk DK_WIN_CTRL) 4 1 1) 8 4 4 ∧ raised u t [irqWIN] ∧ incDone u t

/-- The Deck with an access outstanding, or with none. -/
def Sys2Proof.Spec.withWin (u : State) (w : Option WinAccess) : State := { u with deck := { u.deck with win := w } }

/-- An access to the peer that is not refused is issued and holds the Deck until it is answered; one refused here ends at
once with ERR REMOTE. An outstanding access, or a local one that does not end in time (log 30), times out: ERR
TIMEOUT, BUSY and WIN are set, a read gives 0 and the Deck answers again. A timed-out access that completes late has
its effect, gives no data and clears BUSY; one whose responses have not come leaves all as it is. -/
def Obligations.WindowTimeoutsAndLateCompletions : Prop := ∀ (s : State) (h : Half) (u : State), u = accessed s →
  (∀ (write : Bool) (c z : Instr) (w : Option Word) (data : List Byte), (write, c, z, w, data) ∈
      [(false, .winRead, .winTimeout none, none, []),
       (true, .winWrite h, .winTimeout (some h), some (s.winWord h), leBytes 4 (s.winWord h).toNat)] →
    s.deckFree = true →
    (s.dkbit DK_WIN_CTRL 4 = true ∨ s.winCheck s.winAddr write ≠ none → exec z s = exec c s) ∧
    (s.dkbit DK_WIN_CTRL 4 = false → s.winCheck s.winAddr write = none →
      (spaceOf s.part s.winAddr ≠ .remote → ∃ t, exec z s = .next t ∧
        timedOut (withWin u (some ⟨s.winAddr, w, false, true, s.deck.doors.length⟩)) t write) ∧
      (spaceOf s.part s.winAddr = .remote → (∀ p, p ∈ s.sw.ops → p.owner ≠ .window) →
        (s.remoteRefusal s.winAddr 4 = none → ∃ t, exec c s = .next t ∧
          t = { withWin u (some ⟨s.winAddr, w, true, false, s.deck.doors.length⟩) with
            sw := { s.sw with ops := s.sw.ops ++ [winOp s write data], issued := s.sw.issued + 1 } } ∧
          t.deckFree = false ∧ exec z s = exec z t) ∧
        (∀ r, s.remoteRefusal s.winAddr 4 = some r → ∃ t, exec c s = .next t ∧
          t = { u with deck := t.deck, sw := { s.sw with issued := s.sw.issued + 1 } } ∧
          winErred (withWin u none) t write 8 [] ∧ exec z s = exec c s)))) ∧
  (∀ (x : WinAccess) (w : Option Half), s.deck.win = some x → x.late = false → ∃ t, exec (.winTimeout w) s = .next t ∧
    timedOut (withWin s (some { x with late := true })) t x.write.isSome) ∧
  (∀ x : WinAccess, s.deck.win = some x → x.late = true → s.deck.doors = [] → ∀ v : State, v = withWin s none →
    let ended (y t : State) : Prop := deckRegs y t [DK_WIN_CTRL] ∧ t.dk DK_WIN_CTRL = putFld (y.dk DK_WIN_CTRL) 4 1 0
    (∀ y : State, x.remote = false → spaceOf s.part x.addr ≠ .csr →
      (x.write = none → v.eccRead srcWindow x.addr 4 = (y, none) → ∃ t, exec .winLateCompletion s = .next t ∧
        t = { v with deck := t.deck, regs := y.regs, ecc := y.ecc, free := t.free } ∧ ended v t) ∧
      (∀ w, x.write = some w → v.eccWrite srcWindow x.addr (leBytes 4 w.toNat) = (y, none) →
        ∃ t, exec .winLateCompletion s = .next t ∧ wordWritten v y t x.addr (leBytes 4 w.toNat) ∧ ended v t)) ∧
    (x.remote = false → spaceOf s.part x.addr = .csr →
      (x.write = none → ∃ t, exec .winLateCompletion s = .next t ∧ t = { (v.csrRead x.addr).2 with deck := t.deck } ∧
        ended (v.csrRead x.addr).2 t) ∧
      (∀ w, x.write = some w → (v.csrWrite x.addr w).deck.doors = [] → ∃ t, exec .winLateCompletion s = .next t ∧
        t = { v.csrWrite x.addr w with deck := t.deck } ∧ ended (v.csrWrite x.addr w) t)) ∧
    (x.remote = true → s.runOutcome .window = none → exec .winLateCompletion s = .next s) ∧
    (∀ (reason : Nat) (l : List Byte), x.remote = true → s.runOutcome .window = some (reason, l) →
      ∃ t, exec .winLateCompletion s = .next t ∧
        t = { v with deck := t.deck
                     sw := { s.sw with ops := s.sw.ops.filter fun p => !decide (p.owner = .window) } } ∧
        deckRegs v t [DK_WIN_CTRL, DK_IRQ_RAW] ∧
        t.dk DK_WIN_CTRL = (if reason = 0 then putFld (s.dk DK_WIN_CTRL) 4 1 0
          else putFld (putFld (s.dk DK_WIN_CTRL) 4 1 0) 8 4 8) ∧
        raised s t (if reason = 0 then [] else [irqWIN]))) ∧
  ((∀ x, s.deck.win = some x → x.late = false) → exec .winLateCompletion s = .next s)

/-- The answer that a ring gives to a tail offered to it (07 R302). -/
def Sys2Proof.Spec.offerCode (s : State) (n tail : Nat) : Nat :=
  let r := s.ring n
  if r.size = 0 then 1
  else if r.slots ≤ tail then 2
  else if r.dist tail r.done < r.dist r.tail r.done then 5
  else 0

/-- The code that an offered tail gets (05 Table 5.4; 07 R300, R301). -/
def Sys2Proof.Spec.tailCode (s : State) (n tail : Nat) : Nat :=
  if s.capRuns = false ∨ s.bindRuns = true then 3 else offerCode s n tail

/-- A write of DK_DOOR_TAIL queues a doorbell for the ring DK_DOOR_RING names, or with eight unanswered sets CODE FULL,
the sticky bit and DOOR and queues nothing. The oldest doorbell is answered in order, unless an outstanding window
write holds it: CODE STATE while the Capstan does not run or a BIND runs, NOT_ENABLED for a ring of SIZE 0, RANGE for
a tail outside the ring, BEHIND for one behind TAIL, and otherwise OK: the ring's TAIL becomes the offered one, its
new entries take the current epoch, the device state follows, and Bosun's DECK source latches. A code other than OK
changes no ring and raises DOOR. Then the Bell operations and the command that waited behind it alone reach the
Capstan. -/
def Obligations.DoorbellsAreQueuedAndAnswered : Prop := ∀ (s : State) (v : Half),
  (s.deckFree = true → s.doorDepth < 8 → ∃ t, exec (.doorbellWrite v) s = .next t ∧ t = { accessed s with deck := t.deck } ∧
    t.deck = { (accessed s).deck with
      regs := t.deck.regs, doors := s.deck.doors ++ [.door (s.dkf DK_DOOR_RING 0 14) v.toNat] } ∧
    t.dk DK_DOOR_TAIL = v ∧ deckKept s t [DK_DOOR_TAIL]) ∧
  (s.deckFree = true → 8 ≤ s.doorDepth → ∃ t, exec (.doorbellWrite v) s = .next t ∧ t = { accessed s with deck := t.deck } ∧
    deckRegs (accessed s) t [DK_DOOR_TAIL, DK_DOOR_STAT, DK_IRQ_RAW] ∧ t.dk DK_DOOR_TAIL = v ∧
    t.dk DK_DOOR_STAT = putFld (putFld (s.dk DK_DOOR_STAT) 0 3 4) 8 1 1 ∧ raised s t [irqDOOR]) ∧
  (∀ (n tail : Nat) (l : List HostOp), s.deck.doors = .door n tail :: l → s.answers = true → s.winHolds = false →
    ∃ u t, exec .doorbellAnswer s = .next t ∧ t = u.drainHost ∧
    (l = [] ∨ (∃ m k l', l = .door m k :: l') → t = u) ∧
    (tailCode s n tail = 0 → ∃ x y, ringSet { s with deck := popped s.deck } x n { s.ring n with
        tail := tail, epochs := (s.ring n).epochs ++ List.replicate ((s.ring n).dist tail (s.ring n).tail) s.epochCur } ∧
      workFollows x y ∧ u = { y with deck := u.deck, bosun := { s.bosun with latDeck := true } } ∧
      deckRegs y u [DK_DOOR_STAT] ∧ u.dk DK_DOOR_STAT = putFld (s.dk DK_DOOR_STAT) 0 3 0) ∧
    (tailCode s n tail ≠ 0 → u = { s with deck := u.deck } ∧
      u.deck = { popped s.deck with regs := u.deck.regs } ∧ deckKept s u [DK_DOOR_STAT, DK_IRQ_RAW] ∧
      u.dk DK_DOOR_STAT = putFld (putFld (s.dk DK_DOOR_STAT) 0 3 (tailCode s n tail)) 8 1 1 ∧ raised s u [irqDOOR])) ∧
  ((∀ n tail l, s.deck.doors ≠ .door n tail :: l) ∨ s.answers = false ∨ s.winHolds = true →
    exec .doorbellAnswer s = .next s)

/-- A write of DK_BELL_SEL stores the Bell and the operation, but not the reserved one, and clears VALID; the load sets
VALID and takes the selected Bell's value. With the Capstan running, a write of DK_BELL_VAL with OP ADD or SET adds or
sets the selected Bell and no other, sets off the waits, the threshold and the exports of that Bell, latches Bosun's
DECK source, and leaves memory, descriptors in flight and the device state; behind a queued doorbell or window write
it waits in the queue; where the Bells are hidden or the Capstan does not run it does nothing. -/
def Obligations.HostBellOperations : Prop := ∀ (s : State) (v : Half),
  (s.deckFree = true → ∃ t, exec (.bellSelWrite v) s = .next t ∧ t = { accessed s with deck := t.deck } ∧
    deckRegs (accessed s) t [DK_BELL_SEL] ∧ t.dkf DK_BELL_SEL 0 8 = fld v 0 8 ∧ t.dkbit DK_BELL_SEL 15 = false ∧
    t.dkf DK_BELL_SEL 8 2 = (if fld v 8 2 = 3 then s.dkf DK_BELL_SEL 8 2 else fld v 8 2)) ∧
  (s.answers = true → s.bellDark = false → ∃ t, exec .bellMirrorLoad s = .next t ∧ t = { s with deck := t.deck } ∧
    t.deck = { s.deck with regs := t.deck.regs, bellMirror := s.bell (s.dkf DK_BELL_SEL 0 8) } ∧
    deckKept s t [DK_BELL_SEL] ∧ t.dk DK_BELL_SEL = putFld (s.dk DK_BELL_SEL) 15 1 1) ∧
  (s.answers = false ∨ s.bellDark = true → exec .bellMirrorLoad s = .next s) ∧
  ∀ (n op : Nat) (x : Word) (c : Instr), (c, op) ∈ [(Instr.hostBellAdd v, 1), (.hostBellSet v, 2)] →
    n = s.dkf DK_BELL_SEL 0 8 → x = Word.nat (v.toNat + (s.dk DK_BELL_VAL_HI).toNat * 65536) → s.deckFree = true →
    (s.dkf DK_BELL_SEL 8 2 ≠ op → exec c s = .next s) ∧
    (s.dkf DK_BELL_SEL 8 2 = op →
      (s.bellDark = true → exec c s = .next (accessed s)) ∧
      (s.bellDark = false → s.deck.doors = [] → s.winHolds = false →
        (s.capRuns = true → ∃ t, exec c s = .next t ∧ bellTook (accessed s) t n (decide (op = 2)) x true) ∧
        (s.capRuns = false → exec c s = .next (accessed s))) ∧
      (s.bellDark = false → s.deck.doors ≠ [] ∨ s.winHolds = true → exec c s = .next { accessed s with
        deck := { (accessed s).deck with doors := s.deck.doors ++ [.bell n (decide (op = 2)) x] } }))

/-- A command is refused: DONE, RESULT and OP of DK_CMDSTAT and the CMD source, and nothing else. -/
def Sys2Proof.Spec.cmdRefused (s t : State) (op result : Nat) : Prop :=
  t = { accessed s with deck := t.deck } ∧ deckRegs (accessed s) t [DK_CMDSTAT, DK_IRQ_RAW] ∧
  t.dk DK_CMDSTAT = putFld (putFld (putFld (s.dk DK_CMDSTAT) 1 1 1) 4 4 result) 8 4 op ∧ raised s t [irqCMD]

/-- The states and the arguments that a command passes (03 R136; 05 Table 5.2). -/
def Sys2Proof.Spec.cmdPasses (s : State) (op : Nat) : Prop :=
  if op = 2 then s.dev.mode = .reefed else s.dev.mode = .hoveTo ∨ s.dev.mode = .underway
def Sys2Proof.Spec.argPasses (s : State) (op : Nat) : Prop :=
  let a := s.cmdArg.toNat
  (op = 1 → a % 4096 = 0 ∧ (a < 0x380000 ∨ (0x10000000 ≤ a ∧ a < 0x10000000 + s.part.granary))) ∧
  (op = 5 → a < 16384 ∧ (s.ring a).st = .halted)

/-- A command has finished in `t` from `u` with a result (05 R219). -/
def Sys2Proof.Spec.cmdDone (u t : State) (op result : Nat) : Prop :=
  t = { u with deck := t.deck, dev := { u.dev with command := none } } ∧ deckRegs u t [DK_CMDSTAT, DK_IRQ_RAW] ∧
  t.dk DK_CMDSTAT = BitVec.ofNat 16 (2 + result * 16 + op * 256) ∧ raised u t [irqCMD]

/-- A Tack has been taken in `u` (07 R317, R318): the epoch advances, and the rings with an entry of the old one keep its
place; one of the host's latches Bosun's DECK source. -/
def Sys2Proof.Spec.tacked (u t : State) (host : Bool) : Prop :=
  t = { u with
    regs := t.regs, mem := t.mem, ecc := t.ecc, inject := t.inject, free := t.free
    cap := { u.cap with
      rings := t.cap.rings, dice := u.cap.dice.filter fun k => k / 256 != (u.epochCur + 1) % 2 }
    bosun := { u.bosun with latDeck := u.bosun.latDeck || host } } ∧
  t.reg CAP_EPOCH = putFld (putFld (putFld (u.reg CAP_EPOCH) 0 8 (u.epochCur + 1)) 8 1 1) 30 1 0 ∧
  (tableWhole u → csrKept u t [CAP_EPOCH, RG_ECC_INJ] ∧ t.free = u.free) ∧
  (∀ a, a < 0x380000 ∨ 0x400000 ≤ a → t.byteAt a = u.byteAt a) ∧
  ∀ n, let r := u.ring n
    sameRing (if r.st ≠ .disabled ∧ r.efree = false ∧ u.epochCur ∈ r.epochs then { r with cut := r.tail, cutV := true }
      else r) (t.ring n)

/-- The ring operation that runs has ended, and CAP_RING_OPSTAT shows OP `op` of ring `n` with RESULT OK (07 R328). -/
def Sys2Proof.Spec.opShown (u t : State) (op n : Nat) : Prop :=
  t = { u with regs := t.regs, bosun := { u.bosun with latDeck := true } } ∧ csrKept u t [CAP_OPSTAT] ∧
  t.reg CAP_OPSTAT = Word.nat (2 + op * 256 + n * 65536)

/-- A wrong KEY or a reserved OP is refused with BADCMD, then a wrong state with STATE, a running command with BUSY and a
bad argument with BADARG (BIND and REEF pass the state check in UNDERWAY, where the idle condition refuses them with
BUSY: the model's choice, log 117); a refusal sets DONE, RESULT and OP, raises CMD, keeps BUSY and changes nothing
else. RESET_SOFT is accepted in every state. A TACK or RESUME behind host operations waits for them; else a Tack
advances the epoch and starts a drain, or finishes with BUSY while one is pending or held, and RESUME of a HALTED ring
ends a ring operation that runs and enables the ring again at FIDX, or with SKIP behind it, with FIDX's record as the
last one done. Both latch Bosun's DECK source. -/
def Obligations.CommandsAreJudgedInOrder : Prop := ∀ s : State, s.deckFree = true →
  (∀ v : Half, fld v 8 8 ≠ 0x5A ∨ fld v 0 4 = 0 ∨ 6 < fld v 0 4 →
    ∃ t, exec (.badcmd v) s = .next t ∧ cmdRefused s t (fld v 0 4) 3) ∧
  (∀ (c : Instr) (op : Nat), (c, op) ∈ [(Instr.cmdBind, 1), (.cmdWake, 2), (.cmdReef true, 3), (.cmdReef false, 3),
      (.cmdTack, 4), (.cmdResumeRetry, 5), (.cmdResumeSkip, 5)] →
    (¬ cmdPasses s op → ∃ t, exec c s = .next t ∧ cmdRefused s t op 1) ∧
    (cmdPasses s op → s.dkbit DK_CMDSTAT 0 = true → ∃ t, exec c s = .next t ∧ cmdRefused s t op 2) ∧
    (cmdPasses s op → s.dkbit DK_CMDSTAT 0 = false → ¬ argPasses s op →
      ∃ t, exec c s = .next t ∧ cmdRefused s t op 4)) ∧
  exec .cmdResetSoft s = .next { accessed s with dev := { (accessed s).dev with softPend := true } } ∧
  (∀ (c : Instr) (op : Nat), (c, op) ∈ [(Instr.cmdTack, 4), (.cmdResumeRetry, 5), (.cmdResumeSkip, 5)] →
    cmdPasses s op → s.dkbit DK_CMDSTAT 0 = false → argPasses s op →
    s.winHolds = true ∨ (∃ m k l, s.deck.doors = .door m k :: l) → ∃ t, exec c s = .next t ∧
    t = { accessed s with
      deck := t.deck
      dev := { (accessed s).dev with command := some ⟨op, false, s.cmdArg, decide (c = .cmdResumeSkip)⟩ } } ∧
    t.deck = { (accessed s).deck with regs := t.deck.regs, doors := s.deck.doors ++ [.cmd] } ∧
    deckKept s t [DK_CMDSTAT] ∧ t.dk DK_CMDSTAT = putFld (s.dk DK_CMDSTAT) 0 1 1) ∧
  (s.dieUp = true → s.dkbit DK_CMDSTAT 0 = false → s.deck.doors = [] → s.winHolds = false → ∀ u : State,
    u = { accessed s with deck := popped (accessed s).deck } →
    (s.draining = false → s.held = false → ringsWf s →
      ∃ x t, tacked u x true ∧ exec .cmdTack s = .next t ∧ cmdDone x t 4 0) ∧
    (s.draining = true ∨ s.held = true → ∃ t, exec .cmdTack s = .next t ∧ cmdDone u t 4 2) ∧
    ∀ (n : Nat) (r : Ring), n = s.cmdArg.toNat → n < 16384 → r = s.ring n → r.st = .halted →
      ∃ v, v = { u with regs := v.regs, cap := { u.cap with op := none, refused := v.cap.refused } } ∧
        csrKept u v [CAP_OPSTAT] ∧ (u.cap.op = none → v = u) ∧ (u.cap.op ≠ none → v.cap.refused = none) ∧
      (∃ x y t, ringSet v x n { r with head := r.fidx, st := .enabled, reached := false, waitOk := false } ∧
        opShown x y 3 n ∧ exec .cmdResumeRetry s = .next t ∧ cmdDone y t 5 0) ∧
      ∃ w x y t, ringSet v w n { r with
          head := r.succ r.fidx, done := r.succ r.fidx, phase := (if r.succ r.fidx = 0 then !r.phase else r.phase)
          st := .enabled, epochs := r.epochs.drop 1, reached := false, waitOk := false } ∧
        ringFollows w x ∧ opShown x y 4 n ∧ exec .cmdResumeSkip s = .next t ∧ cmdDone y t 5 0)

/-- With the lock open and no access of the port under way, an access that the window would not refuse reads the word into
the port, or writes it and changes those four bytes alone, or is issued to the peer; one that would be refused, and
one of an uncorrectable word, reads 0; the Deck's registers but the fault mirrors, the Bells and the rings are as
before. With the lock set nothing happens. -/
def Obligations.TheDebugPortReachesWhatTheWindowDoes : Prop := ∀ (s : State) (d : Word) (a : Nat) (u : State),
  a = d.toNat / 4 * 4 → u = { s with dev := { s.dev with tie := none } } →
  (s.part.lock = true ∨ s.answers = false ∨ (∃ p, p ∈ s.sw.ops ∧ p.owner = .dap) →
    ∀ w, exec (.dapAccess d w) s = .next u) ∧
  (s.part.lock = false → s.answers = true → (∀ p, p ∈ s.sw.ops → p.owner ≠ .dap) →
    let got (x : State) (v : Word) : State := { x with dev := { x.dev with dap := v } }
    (s.winCheck a false ≠ none → exec (.dapAccess d none) s = .next (got u 0)) ∧
    (s.winCheck a true ≠ none → ∀ w, exec (.dapAccess d (some w)) s = .next u) ∧
    (spaceOf s.part a ≠ .remote → spaceOf s.part a ≠ .csr → ∀ x : State,
      (s.winCheck a false = none → u.eccRead srcWindow a 4 = (x, none) → ∃ v t, exec (.dapAccess d none) s = .next t ∧
        wordRead u x t a v ∧ t.deck = s.deck ∧ t.dev = (got u v).dev) ∧
      (∀ w, s.winCheck a false = none → u.eccRead srcWindow a 4 = (x, some w) →
        ∃ t, exec (.dapAccess d none) s = .next t ∧
        t = { got u 0 with deck := t.deck, regs := t.regs, ecc := x.ecc, free := t.free } ∧ eccRecord x t srcWindow w ∧
        deckRegs s t [DK_FAULT_LO, DK_FAULT_HI, DK_FAULT_SEQ]) ∧
      (∀ v, s.winCheck a true = none → u.eccWrite srcWindow a (leBytes 4 v.toNat) = (x, none) →
        ∃ t, exec (.dapAccess d (some v)) s = .next t ∧ wordWritten u x t a (leBytes 4 v.toNat) ∧ t.deck = s.deck) ∧
      (∀ v w, s.winCheck a true = none → u.eccWrite srcWindow a (leBytes 4 v.toNat) = (x, some w) →
        ∃ t, exec (.dapAccess d (some v)) s = .next t ∧ bindMet u t.dev a ∧ memKeptBut s t a 4 ∧
        t = { u with deck := t.deck, regs := t.regs, ecc := x.ecc, free := t.free, mem := x.mem, inject := x.inject
                     dev := t.dev } ∧
        eccRecord x t srcWindow w ∧ deckRegs s t [DK_FAULT_LO, DK_FAULT_HI, DK_FAULT_SEQ])) ∧
    (spaceOf s.part a = .csr →
      (s.winCheck a false = none → exec (.dapAccess d none) s = .next (got (u.csrRead a).2 (u.csrRead a).1)) ∧
      (s.winCheck a true = none → ∀ v, exec (.dapAccess d (some v)) s = .next (u.csrWrite a v))) ∧
    (spaceOf s.part a = .remote → s.remoteRefusal a 4 = none → (∀ p, p ∈ s.sw.ops → p.answer = none) →
      s.deck.win = none → s.deck.doors = [] →
      let sent (write : Bool) (l : List Byte) : Sweade := { s.sw with
        issued := s.sw.issued + 1
        ops := s.sw.ops ++ [{ owner := .dap, write := write, addr := a, data := l, len := 4, runAddr := a, runLen := 4
                              num := s.sw.issued }] }
      (s.winCheck a false = none → exec (.dapAccess d none) s = .next { got u 0 with sw := sent false [] }) ∧
      (s.winCheck a true = none → ∀ v,
        exec (.dapAccess d (some v)) s = .next { u with sw := sent true (leBytes 4 v.toNat) })))

/-- CAP_RING_OPSTAT with DONE, a RESULT, an OP and a ring. -/
def Sys2Proof.Spec.opWord (op n result : Nat) : Word := Word.nat (2 + result * 16 + op % 8 * 256 + n % 16384 * 65536)

/-- The operation OP on ring `n`, whose effect is `u`, has ended: CAP_RING_OPSTAT shows its result, or after it that of a write
refused while it ran (07 R328). -/
def Sys2Proof.Spec.opEnds (u t : State) (op n result : Nat) : Prop :=
  t = { u with regs := t.regs, cap := { u.cap with op := none, refused := none } } ∧ csrKept u t [CAP_OPSTAT] ∧
  t.reg CAP_OPSTAT = (match u.cap.refused with
    | none => opWord op n result
    | some (op', n') => opWord op' n' 2)

/-- A write of CAP_RING_OP that names OP, ring `n` and ARG. -/
def Sys2Proof.Spec.opWrite (s : State) (op n arg : Nat) (v : Word) : Prop :=
  fld v 0 14 = n ∧ fld v 16 3 = op ∧ fld v 20 3 = arg % 8 ∧ csrInReach s 0x40000004

/-- The ring operation OP on ring `n`, whose effect on `s` is `u`: its write leaves it running with BUSY, and its row shows the
result. -/
def Sys2Proof.Spec.opGoes (c : Instr) (s u : State) (op n arg result : Nat) : Prop :=
  (∃ t, exec c s = .next t ∧ opEnds u t op n result) ∧
  ∀ v, opWrite s op n arg v → ∃ t, exec (.registerWrite (.csr 0x40000004) v) s = .next t ∧
    t = { u with regs := t.regs, cap := { u.cap with op := some ⟨op, n, result⟩ } } ∧ csrKept u t [CAP_OPSTAT] ∧
    t.reg CAP_OPSTAT = putFld (u.reg CAP_OPSTAT) 0 1 1

/-- One that reports at once, by its row and by its write. -/
def Sys2Proof.Spec.opReports (c : Instr) (s u : State) (op n result : Nat) : Prop := ∃ t, exec c s = .next t ∧
  t = { u with regs := t.regs } ∧ csrKept u t [CAP_OPSTAT] ∧ t.reg CAP_OPSTAT = opWord op n result ∧
  ∀ v, opWrite s op n (fld v 20 3) v → exec (.registerWrite (.csr 0x40000004) v) s = .next t

/-- SIZE of ring `n`'s preset in memory has become 0 (07 R298, Table 7.2). -/
def Sys2Proof.Spec.sizeCleared (s v : State) (n : Nat) : Prop :=
  v = { s with mem := v.mem, ecc := v.ecc, inject := v.inject, regs := v.regs } ∧ csrKept s v [RG_ECC_INJ] ∧
  memKeptBut s v (State.ringAddr n) 4 ∧
  v.peekWord (State.ringAddr n) = putFld (s.peekWord (State.ringAddr n)) 0 5 0

/-- Ring `n` behind a halt at FIDX, as SKIP leaves it (07 Table 7.2). -/
def Sys2Proof.Spec.skipped (r : Ring) : Ring := { r with
  head := r.succ r.fidx, done := r.succ r.fidx, phase := (if r.succ r.fidx = 0 then !r.phase else r.phase)
  st := .enabled, epochs := r.epochs.drop 1, reached := false, waitOk := false }

/-- A ring operation takes effect at its write of CAP_RING_OP, with BUSY set until its row, which leaves DONE with its
RESULT, OP and ring in CAP_RING_OPSTAT (log 11); one written while another runs performs nothing and is reported after
it with RESULT BUSY. One that is refused (STATE in the wrong ring state, BUSY for a DISABLE with entries in flight,
BADARG for a reserved operation) changes nothing else. ENABLE of a DISABLED ring whose preset passes takes the preset,
empty and with phase 1; a preset that fails is refused with BADARG and its SIZE in memory becomes 0. DISABLE empties
the ring, releases its stream bindings and clears its SIZE; RESUME enables a HALTED ring at or behind FIDX; PRIO
changes the priority alone. Where the Capstan does not run nothing happens. -/
def Obligations.RingOperationsAndTheirResults : Prop := ∀ (s : State) (n arg o : Nat), n < 16384 →
  (o = 0 ∨ o = 6 ∨ o = 7) → ∀ cs : List (Instr × Nat), cs = [(.enable n, 1), (.disable n, 2), (.resumeRetry n, 3),
    (.resumeSkip n, 4), (.prio n arg, 5), (.ringOpBadarg n o, o)] →
  (s.capRuns = false → ∀ p, p ∈ cs → exec p.1 s = .next s) ∧
  (s.capRuns = true → ∀ x p, s.cap.op = some x → p ∈ cs →
    (x.op = p.2 → x.ring = n → ∃ t, exec p.1 s = .next t ∧ opEnds s t x.op x.ring x.result) ∧
    (x.op ≠ p.2 ∨ x.ring ≠ n → exec p.1 s = .next { s with cap := { s.cap with refused := some (p.2, n) } }) ∧
    ∀ v, opWrite s p.2 n (fld v 20 3) v → exec (.registerWrite (.csr 0x40000004) v) s =
      .next { s with cap := { s.cap with refused := some (p.2, n) } }) ∧
  (s.capRuns = true → s.cap.op = none → s.damaged (State.ringAddr n) 32 = [] →
    ∀ (r : Ring) (ws : List Word), r = s.ring n → ws = bytesWords 4 (s.peek (State.ringAddr n) 16) →
    (r.st = .disabled → ringCfgOk s.part ws = true → ∃ u, opGoes (.enable n) s u 1 n 0 0 ∧ ringSet s u n
      { ringCfg ws with st := .enabled, phase := true, fidx := r.fidx, fstat := r.fstat, cut := r.cut }) ∧
    (r.st = .disabled → ringCfgOk s.part ws = false → ∃ u, opGoes (.enable n) s u 1 n 0 3 ∧ sizeCleared s u n) ∧
    (r.st ≠ .disabled → opGoes (.enable n) s s 1 n 0 1) ∧
    (r.st = .disabled → ∃ u, opReports (.disable n) s u 2 n 0 ∧ sizeCleared s u n) ∧
    (r.st ≠ .disabled → (∃ f, f ∈ s.cap.flights ∧ f.ring = n) → opGoes (.disable n) s s 2 n 0 2) ∧
    (r.st ≠ .disabled → (∀ f, f ∈ s.cap.flights → f.ring ≠ n) → ∃ x y z u, opGoes (.disable n) s u 2 n 0 0 ∧
      ringSet s x n { r with
        size := 0, st := .disabled, head := r.done, tail := r.done, epochs := [], cutV := false, reached := false
        waitOk := false, admFault := none } ∧ sizeCleared x y n ∧
      z = { y with cap := { y.cap with binds := s.cap.binds.filter fun b => b.2 != n + 1
                                       gaps := s.cap.gaps.filter fun k => Store.get 0 s.cap.binds k != n + 1 } } ∧
      ringFollows z u) ∧
    (r.st = .halted →
      (∃ u, opGoes (.resumeRetry n) s u 3 n 0 0 ∧
        ringSet s u n { r with head := r.fidx, st := .enabled, reached := false, waitOk := false }) ∧
      ∃ x u, opGoes (.resumeSkip n) s u 4 n 0 0 ∧ ringSet s x n (skipped r) ∧ ringFollows x u) ∧
    (r.st ≠ .halted → opGoes (.resumeRetry n) s s 3 n 0 1 ∧ opGoes (.resumeSkip n) s s 4 n 0 1) ∧
    (r.st ≠ .disabled → ∃ u, opGoes (.prio n arg) s u 5 n arg 0 ∧ ringSet s u n { r with prio := arg % 8 }) ∧
    (r.st = .disabled → opGoes (.prio n arg) s s 5 n arg 1) ∧ opReports (.ringOpBadarg n o) s s o n 3)

/-- While the Capstan runs, a write of CAP_BELLn sets Bell n and one of CAP_BELL_ADDn adds to it, modulo 2^32, and no
other Bell changes; the waits that the new value satisfies are satisfied for good, an armed threshold whose comparison
holds of it fires, and the Bell's exports go to the peer; while it does not run nothing happens. Arming a threshold
whose comparison already holds fires it at once: ARM returns to 0, BFIRED is set, BELL is raised where the entry asks
for it, and Bosun's source records the Bell exactly where the entry asks for that; one whose comparison does not hold
stays armed. -/
def Obligations.BellsAddSetAndFire : Prop := ∀ (s : State) (n : Nat) (v : Word), n < 256 →
  (s.capRuns = true → (∃ t, exec (.capBellWrite n v) s = .next t ∧ bellTook s t n true v false) ∧
    ∃ t, exec (.capBellAddWrite n v) s = .next t ∧ bellTook s t n false v false) ∧
  (s.capRuns = false → exec (.capBellWrite n v) s = .next s ∧ exec (.capBellAddWrite n v) s = .next s) ∧
  (bit v 0 = true → ∃ u t, u = { s with regs := u.regs } ∧ csrKept s u [CAP_BTHR + 8 * n + 4] ∧
    u.reg (CAP_BTHR + 8 * n + 4) = putFld (s.reg (CAP_BTHR + 8 * n + 4)) 0 4 (fld v 0 4) ∧
    exec (.thresholdArm n v) s = .next t ∧ judged u t n)

/-- The ring and entry that win in `l`, and the descriptor they name. -/
def Sys2Proof.Spec.wins (s l : State) (n : Nat) (r : Ring) (d : List Word) : Prop :=
  s.capRuns = true ∧ s.dkbit DK_CTRL 1 = false ∧ l = s.latchWaits ∧ l.winner [] = some (n, r) ∧
  s.damaged (r.entry r.head) 64 = [] ∧ d = bytesWords 16 (s.peek (r.entry r.head) 64)

/-- The head of ring `n`, as `r`, is admitted to instance `i` with descriptor `d` and the regions `es` charged. -/
def Sys2Proof.Spec.admitted (l t : State) (n : Nat) (r : Ring) (d : List Word) (i : Nat) (null : Bool) (es : List Nat) :
    Prop := ∃ (f : Flight) (v x y : State),
  let dice := r.cls = 2 ∧ bit (wordAt d 0) 12 = true ∧ null = false
  let key := l.epochOf r r.head % 2 * 256 + df d 6 24 8
  let stream := r.cls = 4 ∧ (opcOf d = 5 ∨ opcOf d = 6) ∧ null = false
  let sid := df d 6 0 4
  v = { l with
    cap := { l.cap with
      flights := l.cap.flights ++ [f], lastAdm := Store.set 0 l.cap.lastAdm r.prio (n + 1)
      dice := v.cap.dice, binds := v.cap.binds, gaps := v.cap.gaps }
    looms := v.looms, harrows := v.harrows, rgRef := v.rgRef } ∧
  f = { ring := n, idx := r.head, epoch := l.epochOf r r.head, cls := r.cls, inst := i, desc := d, charged := es
        null := null, shared := f.shared, writes := f.writes, kept := f.kept, own := f.own, cont := f.cont } ∧
  (∀ m, Store.get 0 v.rgRef m = Store.get 0 l.rgRef m + es.count m) ∧
  (dice → f.shared = l.cap.dice.contains key ∧ ∀ k, k ∈ v.cap.dice ↔ k = key ∨ k ∈ l.cap.dice) ∧
  (¬ dice → f.shared = false ∧ v.cap.dice = l.cap.dice) ∧
  (stream → v.cap.binds = Store.set 0 l.cap.binds sid (n + 1) ∧
    v.cap.gaps = (if Store.get 0 l.cap.binds sid = n + 1 then l.cap.gaps else NSet.erase l.cap.gaps sid)) ∧
  (¬ stream → v.cap.binds = l.cap.binds ∧ v.cap.gaps = l.cap.gaps) ∧
  v.looms = (if r.cls = 0 ∧ null = false then (l.loomAdmit i d).looms else l.looms) ∧
  v.harrows = (if r.cls = 1 ∧ null = false then (l.harrowAdmit i d).harrows else l.harrows) ∧
  (null = true → f.writes = [] ∧ f.kept = 0) ∧
  (null = false → f.writes = ((l.classChecks n r d).ranges.filter fun g => g.writes && decide (g.lo ≤ g.hi)).map
    fun g => (g.lo.toNat, (g.hi - g.lo + 1).toNat)) ∧
  ringSet v x n { r with head := r.succ r.head, reached := false, waitOk := false } ∧
  y = { x with cap := { x.cap with rings := y.cap.rings } } ∧ (∀ m, sameRing (x.ring m) (y.ring m)) ∧ workFollows y t

/-- While the Capstan runs unpaused, the ring that wins arbitration has its head judged: a descriptor that fails a check
makes the ring's head fault at admission with that status and detail; one held by a pending commit leaves all as it
is; one that passes is admitted to the lowest instance with a free slot, its regions charged and HEAD advanced, its
stream bound, its chain or stripe noted, and the device state follows; a null one is admitted without charges. Nothing
else changes. A Bell wait that has lasted TMO faults with BELL_TIMEOUT and the Bell's number. With no ring that can
win, and while the Capstan does not run or is paused, nothing is admitted. -/
def Obligations.AdmissionTakesTheWinner : Prop := ∀ (s l : State) (n : Nat), ringsWf s →
  (∀ (r : Ring) (d : List Word) (c : ClassChecks), wins s l n r d → c = l.classChecks n r d →
    (∀ st x, fieldChecks r.cls d c = some (st, x) → ∃ t, exec .admission s = .next t ∧
      ringSet l t n { r with admFault := some ⟨r.head, st, x, 0⟩ }) ∧
    (fieldChecks r.cls d c = none → c.null = false → l.pendingHold c.ranges = true → l.winner [n] = none →
      exec .admission s = .next l) ∧
    (fieldChecks r.cls d c = none → c.null = false → l.pendingHold c.ranges = false →
      (∀ k, l.regionCheck r.cls c.ranges 0 [] = .error k → ∃ t, exec .admission s = .next t ∧
        ringSet l t n { r with admFault := some ⟨r.head, 0x14, Word.nat k, 0⟩ }) ∧
      (∀ es i, l.regionCheck r.cls c.ranges 0 [] = .ok es → l.freeInst r = some i →
        ∃ t, exec .admission s = .next t ∧ admitted l t n r d i false es)) ∧
    (fieldChecks r.cls d c = none → c.null = true → ∀ i, l.freeInst r = some i →
      ∃ t, exec .admission s = .next t ∧ admitted l t n r d i true [])) ∧
  (s.capRuns = true → s.dkbit DK_CTRL 1 = false → l = s.latchWaits → l.winner [] = none → exec .admission s = .next l) ∧
  (s.capRuns = true → s.dkbit DK_CTRL 1 = false → l = s.latchWaits → ∀ r, r = l.ring n →
    let late := r.st = .enabled ∧ r.reached = true ∧ r.waitOk = false ∧ r.tmo ≠ 0 ∧ r.admFault = none
    (late → ∃ t, exec (.bellTimeout n) s = .next t ∧ ringSet l t n
      { r with admFault := some ⟨r.head, 0x15, Word.nat (headWait l r).2.1, 0⟩ }) ∧
    (¬ late → exec (.bellTimeout n) s = .next l)) ∧
  (s.capRuns = false ∨ s.dkbit DK_CTRL 1 = true →
    exec .admission s = .next s ∧ exec (.bellTimeout n) s = .next s)

/-- A completion record of ring `r`'s entry `k` (07 Table 7.4). -/
def Sys2Proof.Spec.recordOf (r : Ring) (k status epoch : Nat) (detail : Word) (cycles inst : Nat) : List Byte :=
  wordsBytes [Word.nat (k + status * 65536 + epoch % 256 * 2 ^ 24), detail, Word.nat (min cycles 0xFFFFFFFF),
    Word.nat (b2n r.phase + inst * 2)]

/-- The bytes `l` have been written at `a` under ECC, and nothing else. -/
def Sys2Proof.Spec.bytesPut (s v : State) (a : Nat) (l : List Byte) : Prop :=
  v = { s with mem := v.mem, ecc := v.ecc, inject := v.inject, regs := v.regs } ∧ csrKept s v [RG_ECC_INJ] ∧
  memKeptBut s v a l.length ∧ ∀ i, i < l.length → v.byteAt (a + i) = l.getD i 0

/-- One Bell signal of a header: OP 1 adds, 2 sets (08 R346). -/
def Sys2Proof.Spec.signalled (u t : State) (op b v : Nat) : Prop :=
  (op = 1 → bellTook u t b false (Word.nat v) false) ∧ (op = 2 → bellTook u t b true (Word.nat v) false) ∧
  (op ≠ 1 → op ≠ 2 → t = u)

/-- Ring `n` of `c` is halted with status `status`, as `r`: the ring, the class E record and the HALT sources
(07 R323, R325; 05 R230; 16 R701). -/
def Sys2Proof.Spec.haltsAs (c t : State) (n k : Nat) (r : Ring) (head status : Nat) (detail : Word) (addr : Nat) : Prop :=
  ∃ x, ringSet c x n { r with
    st := .halted, fidx := k, fstat := status, head := head, admFault := none, reached := false, waitOk := false } ∧
  t = { x with regs := t.regs, deck := t.deck, bosun := { x.bosun with latHalt := true } } ∧
  csrKept x t (FT_ECNT :: (List.range 5).map FT_REC) ∧
  t.reg FT_ECNT = putFld (x.reg FT_ECNT) 0 32 (min (x.rf FT_ECNT 0 32 + 1) 0xFFFFFFFF) ∧
  t.reg (FT_REC 0) = Word.nat (status + 0x300 + (x.dkf DK_FAULT_SEQ 0 16 + 1) % 65536 * 65536) ∧
  t.reg (FT_REC 1) = detail ∧ t.reg (FT_REC 2) = Word.nat (n + 2 ^ 14 + k * 65536) ∧ t.reg (FT_REC 3) = Word.nat addr ∧
  t.reg (FT_REC 4) = x.deck.ms ∧
  deckRegs x t [DK_FAULT_LO, DK_FAULT_HI, DK_FAULT_SEQ, DK_HALT_RING, DK_IRQ_RAW] ∧
  t.dk DK_FAULT_LO = BitVec.ofNat 16 detail.toNat ∧ t.dk DK_FAULT_HI = BitVec.ofNat 16 (status + 0x300) ∧
  t.dk DK_FAULT_SEQ = BitVec.ofNat 16 ((x.dkf DK_FAULT_SEQ 0 16 + 1) % 65536) ∧ raised x t [irqHALT] ∧
  t.dk DK_HALT_RING = (if x.dkbit DK_HALT_RING 14 then putFld (x.dk DK_HALT_RING) 15 1 1
    else putFld (putFld (x.dk DK_HALT_RING) 0 14 n) 14 1 1)

/-- The place of ring `r`'s next record takes 16 bytes of RAM. -/
def Sys2Proof.Spec.cqOk (s : State) (r : Ring) : Prop :=
  inRam s.part (r.cqbase + 16 * r.done) 16 = true ∧ wholeWords s (r.cqbase + 16 * r.done) 16

/-- A flight whose engine has passed it: it has finished, or is a stream descriptor that waits for its unit or receives it. -/
def Sys2Proof.Spec.turnOver (g : Flight) : Prop :=
  match g.st with
  | .finished _ _ _ | .running .streamWait | .running (.streamRecv _ _) | .running .streamRead => True
  | _ => False

/-- An engine's finish turns its ended descriptor into a finished one, and a null one at its turn into one with status
NULL, and changes nothing else. The record of the oldest entry without one is written, 16 bytes with the entry,
status, epoch, DETAIL, CYCLES, phase and instance, at its place in the completion queue; the entry leaves flight and
its charges, DONE advances with the phase inverted at the wrap, and its two signals reach the Bells in order. A status
of 0x10 or more halts the ring at that entry: every later entry leaves flight, FIDX and FSTAT name the fault, its
class E record and the HALT sources follow, and no Bell is signalled; so does an entry that faulted at admission, once
it is the oldest. Where the oldest entry has no result yet nothing happens. -/
def Obligations.CompletionsWriteRecordsInOrder : Prop := ∀ s : State, s.capRuns = true →
  (∀ n k : Nat, ∃ t, exec (.engineFinish n k) s = .next t ∧
    t = { s with cap := { s.cap with flights := t.cap.flights } } ∧
    t.cap.flights.map (fun f => { f with st := .queued }) = s.cap.flights.map (fun f => { f with st := .queued }) ∧
    ∀ (i : Nat) (f : Flight), s.cap.flights[i]? = some f →
      (f.ring ≠ n ∨ f.idx ≠ k → t.cap.flights[i]? = some f) ∧
      (f.ring = n → f.idx = k →
        (∀ st d c, f.st = .ended st d c → t.cap.flights[i]? = some { f with st := .finished st d c }) ∧
        (f.st ≠ .queued ∨ f.null = false → (∀ st d c, f.st ≠ .ended st d c) → t.cap.flights[i]? = some f))) ∧
  (∀ (n k : Nat) (f : Flight) (a b : List Flight), s.cap.flights = a ++ f :: b → f.ring = n → f.idx = k →
    f.st = .queued → f.null = true → (∀ g, g ∈ a ++ b → g.ring ≠ n ∨ g.idx ≠ k) →
    (∀ g, g ∈ a → g.cls = f.cls → g.inst = f.inst → turnOver g) →
    exec (.engineFinish n k) s =
      .next { s with cap := { s.cap with flights := a ++ { f with st := .finished 1 0 0 } :: b } }) ∧
  ∀ (n : Nat) (r : Ring), ringsWf s → r = s.ring n →
  (r.st ≠ .enabled ∨ (∃ f, s.flightAt n r.done = some f ∧ ∀ st d c, f.st ≠ .finished st d c) ∨
    (s.flightAt n r.done = none ∧ ∀ a, r.admFault = some a → a.idx ≠ r.done) → exec (.completionRecord n) s = .next s) ∧
  (∀ (status : Nat) (f : Flight) (detail : Word) (cycles : Nat) (record : List Byte), r.st = .enabled →
    s.flightAt n r.done = some f → f.st = .finished status detail cycles → cqOk s r →
    record = recordOf r r.done status f.epoch (if f.shared && status == 0 then putFld detail 31 1 1 else detail) cycles
      f.inst → status < 256 →
    (status < 0x10 → ∃ a c d e g t, bytesPut s a (r.cqbase + 16 * r.done) record ∧
      c = { a with
        cap := { a.cap with flights := s.cap.flights.filter fun g => !(g.ring == n && g.idx == r.done) }
        rgRef := c.rgRef } ∧
      (∀ m, Store.get 0 c.rgRef m = Store.get 0 a.rgRef m - f.charged.count m) ∧
      ringSet c d n { r with
        done := r.succ r.done, phase := (if r.succ r.done = 0 then !r.phase else r.phase), epochs := r.epochs.drop 1 } ∧
      signalled d e (fld (wordAt f.desc 0) 18 2) (fld (wordAt f.desc 2) 0 8) (fld (wordAt f.desc 3) 0 16) ∧
      signalled e g (fld (wordAt f.desc 0) 20 2) (fld (wordAt f.desc 2) 8 8) (fld (wordAt f.desc 3) 16 16) ∧
      ringFollows g t ∧ exec (.completionRecord n) s = .next t) ∧
    (0x10 ≤ status → (∀ g, g ∈ s.cap.flights → g.ring = n → g.idx = r.done) → r.admFault = none →
      ∃ a c t, bytesPut s a (r.cqbase + 16 * r.done) record ∧
      c = { a with cap := { a.cap with flights := s.cap.flights.filter fun g => g.ring != n }, rgRef := c.rgRef } ∧
      (∀ m, Store.get 0 c.rgRef m = Store.get 0 a.rgRef m - f.charged.count m) ∧
      exec (.completionRecord n) s = .next t ∧
      haltsAs c t n r.done r (r.succ r.done) status
        (if f.shared && status == 0 then putFld detail 31 1 1 else detail) f.addr) ∧
    (0x10 ≤ status → ∃ t, exec (.completionRecord n) s = .next t ∧
      t.cap.flights = s.cap.flights.filter (fun g => g.ring != n) ∧ t.cap.bells = s.cap.bells ∧
      (t.ring n).st = .halted ∧ (t.ring n).fidx = r.done ∧ (t.ring n).fstat = status ∧ (t.ring n).done = r.done ∧
      (t.ring n).head = r.succ r.done ∧ (t.ring n).epochs = r.epochs ∧ (t.ring n).admFault = none ∧
      (∀ m, m ≠ n → t.ring m = s.ring m) ∧ t.dkbit DK_IRQ_RAW irqHALT = true ∧ t.bosun = { s.bosun with latHalt := true } ∧
      t.dk DK_FAULT_HI = BitVec.ofNat 16 (status + 0x300) ∧ t.dev = s.dev ∧ t.trim = s.trim)) ∧
  (∀ x : AdmFault, r.st = .enabled → s.flightAt n r.done = none → r.admFault = some x → x.idx = r.done → cqOk s r →
    (∀ g, g ∈ s.cap.flights → g.ring ≠ n) → ∃ a t,
    bytesPut s a (r.cqbase + 16 * r.done) (recordOf r r.done x.status (s.epochOf r r.done) x.detail 0 0) ∧
    exec (.completionRecord n) s = .next t ∧ haltsAs a t n r.done r r.done x.status x.detail x.addr)

/-- A drain that no ring holds completes: DRAIN and every CUT_V clear, HELD is set where HOLD asks for it, and where
BELL_EN asks for it the named Bell, and no other, takes ADD 1 while the Capstan runs. A drain that a ring still holds,
and no drain, change nothing. RELEASE clears HELD alone. -/
def Obligations.TackDrainsEndAndRelease : Prop := ∀ s : State,
  (ringsWf s → s.draining = true → s.holders = [] → ∃ u t, exec .tackDrainComplete s = .next t ∧
    u = { s with regs := u.regs, mem := u.mem, ecc := u.ecc, inject := u.inject, free := u.free
                 cap := { s.cap with rings := u.cap.rings } } ∧
    u.reg CAP_EPOCH = (if s.rbit CAP_TACK_CFG 9 then putFld (putFld (putFld (s.reg CAP_EPOCH) 8 1 0) 30 1 0) 9 1 1
      else putFld (putFld (s.reg CAP_EPOCH) 8 1 0) 30 1 0) ∧
    (tableWhole s → csrKept s u [CAP_EPOCH, RG_ECC_INJ] ∧ u.free = s.free) ∧
    (∀ a, a < 0x380000 ∨ 0x400000 ≤ a → u.byteAt a = s.byteAt a) ∧
    (∀ n, sameRing { s.ring n with cutV := false } (u.ring n)) ∧
    (s.rbit CAP_TACK_CFG 8 = true → s.capRuns = true → bellTook u t (s.rf CAP_TACK_CFG 0 8) false 1 false) ∧
    (s.rbit CAP_TACK_CFG 8 = false ∨ s.capRuns = false → t = u)) ∧
  (s.draining = false ∨ s.holders ≠ [] → exec .tackDrainComplete s = .next s) ∧
  ∃ t, exec .tackRelease s = .next t ∧ t = { s with regs := t.regs } ∧ csrKept s t [CAP_EPOCH] ∧
    t.reg CAP_EPOCH = putFld (s.reg CAP_EPOCH) 9 1 0

/-- The scrubber of `v` has moved on to its next block in `t` (06 R272). -/
def Sys2Proof.Spec.scrubbed (v t : State) : Prop :=
  (v.scrubAt + 1 < scrubBlocks v.part → t = { v with scrubAt := v.scrubAt + 1 }) ∧
  (scrubBlocks v.part ≤ v.scrubAt + 1 → t = { v with scrubAt := 0, regs := t.regs } ∧ csrKept v t [RG_SCRUB_CFG] ∧
    t.reg RG_SCRUB_CFG = putFld (v.reg RG_SCRUB_CFG) 16 16 (min (v.rf RG_SCRUB_CFG 16 16 + 1) 65535))

/-- While the scrubber runs it reads its next 64-byte block and moves on, counting a cycle at the end: a block without
errors changes nothing else, one with single errors has them corrected and keeps its bytes, and an uncorrectable word
is recorded in class E; while it does not run nothing happens. Arming on a RAM address marks its code word, and the
next write that touches the word leaves it damaged as asked and disarms; elsewhere arming disarms; a withdrawal
disarms. Bytes of memory change in none of these. -/
def Obligations.ScrubbingAndInjection : Prop := ∀ s : State,
  (s.rbit RG_SCRUB_CFG 4 = false ∨ s.dieUp = false → exec .scrubBlock s = .next s) ∧
  (s.rbit RG_SCRUB_CFG 4 = true → s.dieUp = true → ∀ b, b = scrubAddr s.scrubAt →
    (s.damaged b 64 = [] → ∃ t, exec .scrubBlock s = .next t ∧ scrubbed s t) ∧
    (∀ u, s.eccRead srcScrub b 64 = (u, none) → u = { s with regs := u.regs, ecc := u.ecc, free := u.free } ∧
      (∀ e, e ∈ s.damaged b 64 → Store.get .ok u.ecc e.1 = .ok) ∧ ∃ t, exec .scrubBlock s = .next t ∧ scrubbed u t) ∧
    (∀ u a, s.eccRead srcScrub b 64 = (u, some a) → ∃ v t, exec .scrubBlock s = .next t ∧
      v = { u with regs := v.regs, deck := v.deck, free := v.free } ∧ eccRecord u v srcScrub a ∧
      deckRegs s v [DK_FAULT_LO, DK_FAULT_HI, DK_FAULT_SEQ] ∧ scrubbed v t ∧ memKept s t)) ∧
  (∀ (mode a : Nat), mode = 1 ∨ mode = 2 → a = (s.reg RG_ECC_INJ_ADDR).toNat →
    (spaceOf s.part a ∈ [Space.pantry, .ringTable, .granary, .itcm, .dtcm] →
      ∃ t, exec (.eccInjectArm mode) s = .next t ∧ t = { s with regs := t.regs, inject := t.inject } ∧
        csrKept s t [RG_ECC_INJ] ∧ t.reg RG_ECC_INJ = Word.nat (mode + 4) ∧
        t.inject = some ⟨a / wordSize a * wordSize a, if mode = 1 then .single else .double⟩) ∧
    (spaceOf s.part a ∉ [Space.pantry, .ringTable, .granary, .itcm, .dtcm] →
      ∃ t, exec (.eccInjectArm mode) s = .next t ∧ t = { s with regs := t.regs, inject := none } ∧
        csrKept s t [RG_ECC_INJ] ∧ t.reg RG_ECC_INJ = 0)) ∧
  (∃ t, exec .eccInjectWithdraw s = .next t ∧ t = { s with regs := t.regs, inject := none } ∧
    csrKept s t [RG_ECC_INJ] ∧ t.reg RG_ECC_INJ = 0) ∧
  (∀ (i : Inject) (src a : Nat) (l : List Byte), s.inject = some i → a ≤ i.word → i.word + 8 ≤ a + l.length →
    i.word < 0x40000000 → i.word % 8 = 0 →
    (s.eccPut src a l).1.inject = none ∧ Store.get .ok (s.eccPut src a l).1.ecc i.word = i.kind ∧
    (s.eccPut src a l).1.reg RG_ECC_INJ = 0)

/-- Instance `inst` of class `cls` is on the descriptor `f` of operation `opc`: not a null one, and no run of the peer's
memory is outstanding for it. -/
def Sys2Proof.Spec.isOn (s : State) (cls inst opc : Nat) (f : Flight) : Prop :=
  s.capRuns = true ∧ s.current cls inst = some f ∧ s.flightAt f.ring f.idx = some f ∧ opcOf f.desc = opc ∧
  f.null = false ∧ s.sw.ops.any (State.ownedBy f.ring f.idx) = false

/-- Memory is canonical and undamaged, no ECC injection is armed, and `f` has no remote writes waiting. -/
def Sys2Proof.Spec.calm (s : State) (f : Flight) : Prop :=
  Memory.wf s.mem = true ∧ s.ecc = [] ∧ s.inject = none ∧ f.out = []

/-- Of all that is in flight `f` alone has changed: it has ended. -/
def Sys2Proof.Spec.endedAs (s t : State) (f : Flight) (status : Nat) (detail : Word) (cycles addr : Nat) : Prop :=
  t.cap = { s.cap with flights := s.cap.flights.map fun g =>
    if g.ring == f.ring && g.idx == f.idx then { g with st := .ended status detail cycles, addr := addr } else g }

/-- A mover has changed memory and its flight entry alone. -/
def Sys2Proof.Spec.moved (s t : State) : Prop :=
  t = { s with mem := t.mem, cap := t.cap, free := t.free, view := [], viewOut := [] }

/-- Rows of `n` bytes, source and destination of each, lie in memory, and no destination row meets another row. -/
def Sys2Proof.Spec.rowsFree (s : State) (n : Nat) (rows : List (Nat × Nat)) : Prop :=
  (∀ r, r ∈ rows → inRam s.part r.1 n = true ∧ inRam s.part r.2 n = true) ∧
  (rows.Pairwise fun q r => q.2 + n ≤ r.2 ∨ r.2 + n ≤ q.2) ∧
  ∀ q, q ∈ rows → ∀ r, r ∈ rows → q.1 + n ≤ r.2 ∨ r.2 + n ≤ q.1

/-- Each destination row holds in `t` what its source row held in `s`, and no other byte has changed. -/
def Sys2Proof.Spec.rowsMoved (s t : State) (n : Nat) (rows : List (Nat × Nat)) : Prop :=
  (∀ r, r ∈ rows → ∀ i, i < n → t.byteAt (r.2 + i) = s.byteAt (r.1 + i)) ∧
  ∀ b, (∀ r, r ∈ rows → b < r.2 ∨ r.2 + n ≤ b) → t.byteAt b = s.byteAt b

/-- DETAIL and status of a mover's end, where `l` are the source bytes it has moved, in order. -/
def Sys2Proof.Spec.crcOf (d : List Word) (l : List Byte) : Word :=
  if bit (wordAt d 0) 12 then Word.nat (Nat.xor (l.foldl crcByte 0xFFFFFFFF) 0xFFFFFFFF) else 0
def Sys2Proof.Spec.crcStatus (d : List Word) (l : List Byte) : Nat :=
  if bit (wordAt d 0) 12 && bit (wordAt d 0) 13 && crcOf d l != wordAt d 15 then 0x33 else 0

/-- CYCLES within the bound of 08 R374: `rows` are the beats read and written of each row, `ib` those of the index; a
descriptor that stops has counted a part (07 R343). -/
def Sys2Proof.Spec.cyclesOk (cycles ib : Nat) (check whole : Bool) (rows : List (Nat × Nat)) : Prop :=
  let t := 16 + ib + (rows.map fun r => max r.1 r.2 + 1).sum + (if check then 4 else 0)
  (whole = true → t ≤ cycles) ∧ cycles ≤ t + 8 + 16 * (ib + (rows.map fun r => r.1 + r.2).sum)

/-- The rows that a GATHER moves: those of the indexes before the first that is out of range. -/
def Sys2Proof.Spec.gatherRows (s : State) (d : List Word) : List (Nat × Nat) :=
  let iw := if df d 6 18 2 = 0 then 2 else 4
  let index (j : Nat) : Nat := leNat (s.peek ((wordAt d 8).toNat + j * iw) iw)
  ((List.range (df d 7 0 16)).takeWhile fun (j : Nat) => decide (index j < (wordAt d 10).toNat)).map fun (j : Nat) =>
    ((wordAt d 4).toNat + index j * (wordAt d 9).toNat, (((wordAt d 5).toNat : Int) + (j : Int) * ds d 11).toNat)

/-- Where element (image, pixel, channel) of a tensor stands in NHWC and in the blocked layout, from its base. -/
def Sys2Proof.Spec.nhwcAt (d : List Word) (i p c : Nat) : Nat :=
  ((i * (df d 7 16 16 * df d 7 0 16) + p) * df d 6 0 16 + c) * 2 ^ df d 6 16 2
def Sys2Proof.Spec.blockedAt (d : List Word) (i p c : Nat) : Nat :=
  let g := relayOf d
  (((i * g.cb + c / g.b) * (df d 7 16 16 * df d 7 0 16) + p) * g.b + c % g.b) * 2 ^ df d 6 16 2

/-- The beats of the rows that a mover reads, and writes unless NODST. -/
def Sys2Proof.Spec.rowBeats (n : Nat) (nodst : Bool) (rows : List (Nat × Nat)) : List (Nat × Nat) :=
  rows.map fun r => if nodst then (beats r.1 n, 0) else (beats r.1 n + pcw r.2 n, beats r.2 n)

/-- The beats of a RELAYOUT's pixels (08 R359, R374). -/
def Sys2Proof.Spec.pixelBeats (d : List Word) : List (Nat × Nat) :=
  let g := relayOf d
  (List.range (df d 8 0 16)).flatMap fun (i : Nat) => (List.range (df d 7 16 16 * df d 7 0 16)).map fun (p : Nat) =>
    let sr := pixelRuns d (wordAt d 4).toNat (!g.toBlocked) i p
    let dr := pixelRuns d (wordAt d 5).toNat g.toBlocked i p
    ((sr.map fun r => beats r.1 r.2).sum + (dr.map fun r => pcw r.1 r.2).sum, (dr.map fun r => beats r.1 r.2).sum)

/-- Where its memory is local and undamaged and its destination rows meet neither each other nor its source, a COPY writes
to each destination row the bytes of its source row; a FILL writes its value to every element; a GATHER writes to row
j the source row that index j names, up to the first index that is out of range, which ends it with INDEX_RANGE and j;
a RELAYOUT puts every channel of every pixel at its place in the other layout, with the pad value in the lanes past
the last channel. Each ends in its flight entry with OK (CRC_MISMATCH where a checked CRC differs) and a cycle count
within its bound; with NODST a COPY or GATHER writes nothing. No other byte, no register, no Bell and no other entry
changes. -/
def Obligations.HalyardDescriptorsMoveTheirBytes : Prop := ∀ (s : State) (inst : Nat) (f : Flight), calm s f → f.rem = [] →
  let d := f.desc
  let size := 2 ^ df d 6 16 2
  let n := df d 6 0 16 * size
  let check := bit (wordAt d 0) 13
  let nodst := bit (wordAt d 0) 14
  let ends (t : State) (c ib : Nat) (rows : List (Nat × Nat)) (l : List Byte) : Prop :=
    endedAs s t f (crcStatus d l) (crcOf d l) c 0 ∧ cyclesOk c ib check true rows
  let taken (rows : List (Nat × Nat)) : List Byte := rows.flatMap fun r => s.peek r.1 n
  (isOn s 4 inst 1 f → nodst = false → rowsFree s n (halRows d) →
    meet (extent (wordAt d 4).toNat (df d 6 0 16) size ((halDims d).map fun x => (x.1, x.2.1)))
      (extent (wordAt d 5).toNat (df d 6 0 16) size ((halDims d).map fun x => (x.1, x.2.2))) = none →
    ∃ t c, exec (.copy inst) s = .next t ∧ moved s t ∧ rowsMoved s t n (halRows d) ∧
      ends t c 0 (rowBeats n false (halRows d)) (taken (halRows d))) ∧
  (isOn s 4 inst 1 f → nodst = true → (∀ r, r ∈ halRows d → inRam s.part r.1 n = true) →
    ∃ t c, exec (.copy inst) s = .next t ∧ moved s t ∧ t.mem = s.mem ∧
      ends t c 0 (rowBeats n true (halRows d)) (taken (halRows d))) ∧
  (isOn s 4 inst 2 f → bit (wordAt d 0) 12 = false →
    (∀ r, r ∈ halRows d → inRam s.part r.2 n = true ∧ r.2 % size = 0) →
    ∃ t c, exec (.fill inst) s = .next t ∧ moved s t ∧ endedAs s t f 0 0 c 0 ∧
      cyclesOk c 0 check true ((halRows d).map fun r => (pcw r.2 n, beats r.2 n)) ∧
      (∀ r, r ∈ halRows d → ∀ k, k < df d 6 0 16 → ∀ i, i < size →
        t.byteAt (r.2 + k * size + i) = (leBytes size (wordAt d 15).toNat).getD i 0) ∧
      ∀ b, (∀ r, r ∈ halRows d → b < r.2 ∨ r.2 + n ≤ b) → t.byteAt b = s.byteAt b) ∧
  (isOn s 4 inst 3 f →
    let ibytes := df d 7 0 16 * (if df d 6 18 2 = 0 then 2 else 4)
    let ib := beats (wordAt d 8).toNat ibytes
    let rows := gatherRows s d
    let gathered (t : State) (c : Nat) : Prop :=
      if rows.length < df d 7 0 16 then
        endedAs s t f 0x32 (Word.nat rows.length) c 0 ∧ cyclesOk c ib check false (rowBeats n nodst rows)
      else ends t c ib (rowBeats n nodst rows) (taken rows)
    inRam s.part (wordAt d 8).toNat ibytes = true →
    (nodst = false → rowsFree s n rows →
      (let de := extent (wordAt d 5).toNat (df d 6 0 16) size [(df d 7 0 16, ds d 11)]
       overlaps de.1 de.2 (wordAt d 8).toNat (((wordAt d 8).toNat : Int) + (ibytes : Int) - 1) = false) →
      ∃ t c, exec (.gather inst) s = .next t ∧ moved s t ∧ rowsMoved s t n rows ∧ gathered t c) ∧
    (nodst = true → (∀ r, r ∈ rows → inRam s.part r.1 n = true) →
      ∃ t c, exec (.gather inst) s = .next t ∧ moved s t ∧ t.mem = s.mem ∧ gathered t c)) ∧
  (isOn s 4 inst 4 f →
    (let g := relayOf d
     let src := (wordAt d 4).toNat
     let dst := (wordAt d 5).toNat
     let sn := if g.toBlocked then g.nhwc else g.blocked
     let dn := if g.toBlocked then g.blocked else g.nhwc
     inRam s.part src sn = true → inRam s.part dst dn = true →
     0 < sn → 0 < dn → src + sn ≤ dst ∨ dst + dn ≤ src →
     ∃ t c, exec (.relayout inst) s = .next t ∧ moved s t ∧ ends t c 0 (pixelBeats d) (s.peek src sn) ∧
       memKeptBut s t dst dn ∧
       ∀ i p k e, i < df d 8 0 16 → p < df d 7 16 16 * df d 7 0 16 → e < size →
         (k < df d 6 0 16 → g.toBlocked = true →
           t.byteAt (dst + blockedAt d i p k + e) = s.byteAt (src + nhwcAt d i p k + e)) ∧
         (k < df d 6 0 16 → g.toBlocked = false →
           t.byteAt (dst + nhwcAt d i p k + e) = s.byteAt (src + blockedAt d i p k + e)) ∧
         (df d 6 0 16 ≤ k → k < g.cb * g.b → g.toBlocked = true →
           t.byteAt (dst + blockedAt d i p k + e) = (leBytes size (wordAt d 9).toNat).getD e 0)))

/-- The stores a Loom descriptor loads: its weights, scales and outlier list and weights as its ranges hold them. -/
def Sys2Proof.Spec.storesOf (s : State) (l : Loom) (d : List Word) : Loom :=
  let x := loomD d
  let o := if x.nout = 0 then [] else s.peek (wordAt d 13).toNat (64 + x.nch * x.ko)
  { l with
    weights := s.peek (wordAt d 9).toNat x.wbytes
    scales := (unpack 16 (x.nch * x.ng) (s.peek (wordAt d 10).toNat (x.nch * x.ng * 2))).map (BitVec.ofNat 16)
    outList := unpack 16 32 o, outWeights := o.drop 64 }

/-- The window that position `p` of a memory-fed descriptor reads. -/
def Sys2Proof.Spec.rowOf (s : State) (d : List Word) (p : Nat) : Window :=
  let x := loomD d
  let l := s.peek ((wordAt d 7).toNat + p * (wordAt d 8).toNat) x.rowBytes
  ⟨unpack x.bits x.k l, unpack 16 x.nout (l.drop x.outlAt)⟩

/-- The stores `l`, channels per tap `c` and windows `w` that a Loom descriptor about to be advanced works with: it is
queued, memory-fed and its ranges are readable, or it has loaded its stores and its Harrow has offered its windows. -/
def Sys2Proof.Spec.loomInput (s : State) (inst : Nat) (f : Flight) (l : Loom) (c : Nat) (w : Nat → Window) : Prop :=
  let d := f.desc
  let x := loomD d
  (x.feed = false ∧ f.st = .queued ∧ l = storesOf s (s.loom inst) d ∧ c = x.k ∧ w = rowOf s d ∧
    listFault (l.outList.take x.nout) (some x.k) = none ∧
    inRam s.part (wordAt d 9).toNat x.wbytes = true ∧ inRam s.part (wordAt d 10).toNat (x.nch * x.ng * 2) = true ∧
    (x.nout ≠ 0 → inRam s.part (wordAt d 13).toNat (64 + x.nch * x.ko) = true) ∧
    ∀ p, p < x.npos → inRam s.part ((wordAt d 7).toNat + p * (wordAt d 8).toNat) x.rowBytes = true) ∨
  (x.feed = true ∧ f.st = .running (.loom true 0) ∧ l = s.loom inst ∧ ∃ g, l.feed = some g ∧ g.isOf f = true ∧ c = g.c ∧
    x.npos ≤ g.windows.length ∧ ∀ p, p < x.npos → w p = g.windows.getD p ⟨[], []⟩)

/-- What the accumulator of position `p` and channel `ch` starts from (10 R443). -/
def Sys2Proof.Spec.startOf (s : State) (inst : Nat) (x : LoomD) (p ch : Nat) : Nat :=
  if x.chain then (match (s.loom inst).kept with | some k => (wordAt k.2 (p * 64 + ch)).toNat | none => 0) else 0

/-- The value of position `p` and channel `ch`. -/
def Sys2Proof.Spec.productAt (s : State) (inst : Nat) (x : LoomD) (l : Loom) (c : Nat) (w : Nat → Window) (p ch : Nat) : Word :=
  Word.nat (loomValue x l ch (channelWeights x l.weights ch) (termsOf x l c (w p)) (startOf s inst x p ch))

/-- A block holds the values of its positions and channels, and 0 beside them. -/
def Sys2Proof.Spec.blockIs (ws : List Word) (x : LoomD) (v : Nat → Nat → Word) : Prop :=
  ws.length = 2048 ∧ ∀ p ch, p < 32 → ch < 64 → wordAt ws (p * 64 + ch) = if p < x.npos ∧ ch < x.nch then v p ch else 0

/-- The accumulator bank of the next block (10 R443). -/
def Sys2Proof.Spec.bankOf (l : Loom) (x : LoomD) : Nat :=
  if x.chain then (match l.kept with | some k => k.1 | none => l.nextBank) else l.nextBank

/-- A Loom descriptor whose memory is local and undamaged, or whose Harrow has offered its windows, ends with OK, its
count of blocks and its nominal cycles. Every position and channel of it holds the exact products of its codes and
weights, group by group, scaled and accumulated in FP32 onto 0, or onto the kept block for CHAIN. The values stand in
memory at OUT, as FP32 or FP16; for KEEP they are the tile's kept block, and for hand-out they are the block that
joins the queue or stands coupled in its bank; the last block stands in its accumulator bank. A memory-fed descriptor
has loaded the stores first and set PREC. No other tile, nothing else of the tile's chain state and pairing order, and
no register but the stall counters of what it waits for, which never count down, changes, and no byte but those stored
to. -/
def Obligations.TheLoomAccumulatesItsProducts : Prop :=
  ∀ (s : State) (inst : Nat) (f : Flight) (l : Loom) (c : Nat) (w : Nat → Window) (l0 : Loom) (bank : Nat),
  l0 = s.loom inst → bank = bankOf l0 (loomD f.desc) →
  calm s f → isOn s 0 inst 1 f → loomInput s inst f l c w → bank ∉ l0.held → (32 < (loomD f.desc).npos → l0.held = []) →
  (loomD f.desc).nch ≤ 64 → 0 < (loomD f.desc).npos →
  ((loomD f.desc).chain = true → (loomD f.desc).npos ≤ 32 ∧ l0.kept.isSome = true ∧
    (f.st = .queued → l0.keptNum = f.cont)) →
  let x := loomD f.desc
  let done (t : State) : Prop :=
    let y := t.loom inst
    t = { s with mem := t.mem, cap := t.cap, regs := t.regs, free := t.free, looms := t.looms, view := [], viewOut := [] } ∧
    csrKept s t (x.waits.map fun k => LM inst + 0x10 + 4 * k) ∧
    (∀ k, k < 5 → (s.reg (LM inst + 0x10 + 4 * k)).toNat ≤ (t.reg (LM inst + 0x10 + 4 * k)).toNat) ∧
    (∀ m, m ≠ inst → t.loom m = s.loom m) ∧
    y = { l0 with
      prec := if f.st = .queued then df f.desc 4 0 8 else l0.prec
      weights := l.weights, outWeights := l.outWeights, outList := l.outList, scales := l.scales
      nextBank := y.nextBank, tables := y.tables, banks := y.banks, kept := y.kept, keptNum := y.keptNum
      out := y.out, held := y.held, feed := y.feed } ∧
    endedAs (s.loomStart inst) t f 0 (Word.nat (if x.keep then 0 else min x.blocks 0xFFFF)) (x.count + 3 * f.replays) 0
  let stands (t : State) (ws : List Word) : Prop :=
    Store.get [] (t.loom inst).banks bank = ws ∧ (t.loom inst).nextBank = 1 - bank ∧
    blockIs ws x (productAt s inst x l c w)
  (x.keep = false → x.out < 2 →
    (∀ p, p < x.npos → inRam s.part ((wordAt f.desc 11).toNat + p * (wordAt f.desc 12).toNat) (x.nch * x.osize) = true) →
    x.npos = 1 ∨ x.nch * x.osize ≤ (wordAt f.desc 12).toNat →
    (∀ p q, p < x.npos → q < x.npos → x.feed = false →
      (wordAt f.desc 7).toNat + p * (wordAt f.desc 8).toNat + x.rowBytes ≤
        (wordAt f.desc 11).toNat + q * (wordAt f.desc 12).toNat ∨
      (wordAt f.desc 11).toNat + q * (wordAt f.desc 12).toNat + x.nch * x.osize ≤
        (wordAt f.desc 7).toNat + p * (wordAt f.desc 8).toNat) →
    ∃ t, exec (.product inst) s = .next t ∧ done t ∧
      (∀ p ch e, p < x.npos → ch < x.nch → e < x.osize →
        t.byteAt ((wordAt f.desc 11).toNat + p * (wordAt f.desc 12).toNat + ch * x.osize + e) =
          (if x.out = 1 then leBytes 2 (to16 0 0 false (Fp.of32 (productAt s inst x l c w p ch).toNat))
           else leBytes 4 (productAt s inst x l c w p ch).toNat).getD e 0) ∧
      ∀ b, (∀ p, p < x.npos → b < (wordAt f.desc 11).toNat + p * (wordAt f.desc 12).toNat ∨
        (wordAt f.desc 11).toNat + p * (wordAt f.desc 12).toNat + x.nch * x.osize ≤ b) → t.byteAt b = s.byteAt b) ∧
  (x.npos ≤ 32 → x.keep = true → ∃ t ws, exec (.product inst) s = .next t ∧ done t ∧ t.mem = s.mem ∧ stands t ws ∧
    (t.loom inst).kept = some (bank, ws) ∧ (t.loom inst).keptNum = f.own ∧ (t.loom inst).out = l0.out ∧
    (t.loom inst).held = l0.held) ∧
  (x.npos ≤ 32 → x.keep = false → x.out = 2 → (l0.out.filter fun b => b.bank.isNone).length < 8 →
    ∃ t ws, exec (.product inst) s = .next t ∧ done t ∧ t.mem = s.mem ∧ stands t ws ∧
      (t.loom inst).out = l0.out ++ [⟨none, ws⟩] ∧ (t.loom inst).held = l0.held ∧
      (x.chain = true → (t.loom inst).kept = none)) ∧
  (x.npos ≤ 32 → x.keep = false → x.out = 3 →
    ∃ t ws, exec (.product inst) s = .next t ∧ done t ∧ t.mem = s.mem ∧ stands t ws ∧
      (t.loom inst).out = l0.out ++ [⟨some bank, ws⟩] ∧ (t.loom inst).held = NSet.insert l0.held bank ∧
      (x.chain = true → (t.loom inst).kept = none))

/-- Own stored row `i` of a Harrow descriptor, with its row of outlier codes (11 R471, R484). -/
def Sys2Proof.Spec.hwRow (s : State) (d : List Word) (x : HarrowD) (i : Nat) : HwRow :=
  ⟨if x.inhwc then s.peek ((wordAt d 4).toNat + i * (wordAt d 5).toNat) (x.iw * x.c * x.size)
   else (List.range x.cb).flatMap fun b =>
     s.peek ((wordAt d 4).toNat + i * (wordAt d 5).toNat + b * (wordAt d 6).toNat) x.blockBytes,
   if x.nout = 0 then [] else s.peek ((wordAt d 12).toNat + i * (wordAt d 13).toNat) (x.iw * 64)⟩

/-- Where block `b` of output pixel (oy, ox) stands, and its bytes. -/
def Sys2Proof.Spec.cellAt (d : List Word) (x : HarrowD) (oy ox b : Nat) : Nat :=
  (wordAt d 12).toNat + b * (wordAt d 14).toNat + oy * (wordAt d 13).toNat + ox * x.blk * x.size

/-- The output cells of a memory operation: row, column and block. -/
def Sys2Proof.Spec.cells (x : HarrowD) : List (Nat × Nat × Nat) :=
  (List.range (x.oh 0)).flatMap fun oy => (List.range x.ow).flatMap fun ox => (List.range x.ocb).map fun b => (oy, ox, b)

/-- The command of a Harrow memory operation. -/
def Sys2Proof.Spec.memOpOf (inst : Nat) (opc : Nat) : Option Instr :=
  match opc with
  | 3 => some (.poolMax inst)
  | 4 => some (.poolAvg inst)
  | 5 => some (.upNearest inst)
  | 6 => some (.upBilinear inst)
  | 7 => some (.s2d inst)
  | _ => none

/-- A memory operation of a Harrow whose input and output are local, undamaged and apart writes every lane of every output
pixel: for channels the maximum or rounded average over the window, the nearest or the bilinear interpolation of the
four neighbours, or the element that space-to-depth moves there, and PADV in the padding lanes. It ends with OK, its
output rows and its nominal cycles. No other byte, Harrow or register changes, but for the stall counters. -/
def Obligations.HarrowMemoryOperationsWriteTheirPixels : Prop :=
  ∀ (s : State) (inst opc : Nat) (c : Instr) (f : Flight), memOpOf inst opc = some c → calm s f → isOn s 1 inst opc f →
  let d := f.desc
  let x := harrowD d
  let input := (harrowChecks s {} d).ranges.getD 0 .absent
  let output := (harrowChecks s {} d).ranges.getD 2 .absent
  x.fmt = 3 ∨ x.fmt = 5 → x.nout = 0 → x.role = 0 → x.sout = false → x.sin = false →
  meet (input.lo, input.hi) (output.lo, output.hi) = none →
  (∀ i, i < x.ih → if x.inhwc then inRam s.part ((wordAt d 4).toNat + i * (wordAt d 5).toNat) (x.iw * x.c * x.size) = true
    else ∀ b, b < x.cb →
      inRam s.part ((wordAt d 4).toNat + i * (wordAt d 5).toNat + b * (wordAt d 6).toNat) x.blockBytes = true) →
  (∀ e, e ∈ cells x → inRam s.part (cellAt d x e.1 e.2.1 e.2.2) (x.blk * x.size) = true) →
  ((cells x).Pairwise fun e g => cellAt d x e.1 e.2.1 e.2.2 + x.blk * x.size ≤ cellAt d x g.1 g.2.1 g.2.2 ∨
    cellAt d x g.1 g.2.1 g.2.2 + x.blk * x.size ≤ cellAt d x e.1 e.2.1 e.2.2) →
  ∃ t, exec c s = .next t ∧
    t = { s with mem := t.mem, cap := t.cap, regs := t.regs, free := t.free, view := [], viewOut := [] } ∧
    csrKept s t ([0, 3].map fun k => HW inst + 0x10 + 4 * k) ∧
    endedAs s t f 0 (Word.nat (x.oh 0 % 65536)) (x.count 0) 0 ∧
    (∀ e, e ∈ cells x → ∀ k i, k < x.blk → i < x.size →
      t.byteAt (cellAt d x e.1 e.2.1 e.2.2 + k * x.size + i) = (leBytes x.size
        (if e.2.2 * x.blk + k < x.oc
         then pixelCode x ((List.range x.ih).map (hwRow s d x)) x.ih e.1 e.2.1 (e.2.2 * x.blk + k) else x.padv)).getD i 0) ∧
    ∀ b, (∀ e, e ∈ cells x → b < cellAt d x e.1 e.2.1 e.2.2 ∨ cellAt d x e.1 e.2.1 e.2.2 + x.blk * x.size ≤ b) →
      t.byteAt b = s.byteAt b

/-- Of all that is in flight `f` alone has changed: it has ended. -/
def Sys2Proof.Spec.faultedAs (s t : State) (f : Flight) (status : Nat) (detail : Word) (c : Nat) : Prop :=
  t.cap = { s.cap with flights := s.cap.flights.map fun g =>
    if g.ring == f.ring && g.idx == f.idx then { g with st := .ended status detail c } else g }

/-- The stall counters listed, of the engine whose registers stand at `base`, do not count down. -/
def Sys2Proof.Spec.stallsUp (s t : State) (base : Nat) (ks : List Nat) : Prop :=
  csrKept s t (ks.map fun k => base + 0x10 + 4 * k) ∧
  ∀ k, k ∈ ks → (s.reg (base + 0x10 + 4 * k)).toNat ≤ (t.reg (base + 0x10 + 4 * k)).toNat

/-- The elements of a run of a stream: bit address and count. -/
def Sys2Proof.Spec.runElems (s : State) (fmt : Nat) (r : Int × Nat) : List Nat :=
  let b := fmtBits fmt
  let bytes := bitRun r.1 b r.2
  let skip := if b < 8 then ((r.1 - (bytes.1 * 8 : Nat)) / b).toNat else 0
  ((unpack b (skip + r.2) (s.peek bytes.1 bytes.2)).drop skip).map (loadElem fmt)

/-- The runs that input slot `k` reads in iteration `i`. -/
def Sys2Proof.Spec.inRuns (d : List Word) (k i : Nat) : List (Int × Nat) :=
  let t := strm d k
  match t.kind with
  | 0 => memRuns d t i (millVl d i)
  | 2 => [((t.addr * 8 : Nat), min t.l0 (millVl d i))]
  | _ => []

/-- The elements that input slot `k` loads in iteration `i` (12 R523). -/
def Sys2Proof.Spec.inputOf (s : State) (d : List Word) (k i : Nat) : List Nat :=
  let t := strm d k
  let l := (inRuns d k i).flatMap (runElems s t.fmt)
  if t.kind = 2 then (List.range (millVl d i)).map fun (j : Nat) => l.getD (j % t.l0) 0 else l

/-- A Mill whose inputs for iteration `i` are loaded. -/
def Sys2Proof.Spec.inputsIn (s : State) (d : List Word) (i : Nat) (m : Mill) : Mill :=
  let put (k : Nat) (m : Mill) : Mill :=
    let t := strm d k
    if t.kind = 3 then m else m.setGroupAt t.c32 t.reg 0 (inputOf s d k i)
  { put 1 (put 0 m) with vl := millVl d i }

/-- The words that a Mill descriptor's recipe range holds: header and instructions. -/
def Sys2Proof.Spec.recipeWords (s : State) (d : List Word) : List Word :=
  bytesWords (8 + 2 * df d 6 16 7) (s.peek (wordAt d 4).toNat (32 + 8 * df d 6 16 7))

/-- A Mill with a descriptor's recipe in its store. -/
def Sys2Proof.Spec.recipeIn (s : State) (d : List Word) (m : Mill) : Mill :=
  let n := df d 6 16 7
  let ws := recipeWords s d
  { m with recipe := if n = 0 then [] else ws.drop 8 ++ List.replicate (130 - 2 * n) 0 ++ ws.take 2 }

/-- The runs that a descriptor stores: iteration, place among the iteration's runs, first byte and length. -/
def Sys2Proof.Spec.outRuns (d : List Word) : List (Nat × Nat × Nat × Nat) :=
  let t := strm d 2
  if t.kind ≠ 0 then []
  else (List.range (millIters d)).flatMap fun i =>
    (memRuns d { t with pre := 0 } i (millVl d i)).zipIdx.map fun r =>
      (i, r.2, (r.1.1 / 8).toNat, r.1.2 * fmtBits t.fmt / 8)

/-- A Mill descriptor about to start whose streams are local and undamaged, with none from a Loom, while no descriptor of
its Sheaf is at work and the Mill asks for no block. -/
def Sys2Proof.Spec.millReady (s : State) (inst : Nat) (f : Flight) : Prop :=
  calm s f ∧ f.rem = [] ∧ isOn s 2 inst 1 f ∧ f.st = .queued ∧ (s.mill inst).hold = [] ∧
  (s.millStart inst).liveOn 3 inst = none ∧ (∀ k, k < 4 → inst ∉ (s.loom k).asks) ∧
  (strm f.desc 0).kind ≠ 1 ∧ (strm f.desc 1).kind ≠ 1 ∧
  (df f.desc 6 16 7 ≠ 0 → inRam s.part (wordAt f.desc 4).toNat (32 + 8 * df f.desc 6 16 7) = true) ∧
  (∀ i k r, i < millIters f.desc → k < 2 → r ∈ inRuns f.desc k i →
    inRam s.part (bitRun r.1 (fmtBits (strm f.desc k).fmt) r.2).1 (bitRun r.1 (fmtBits (strm f.desc k).fmt) r.2).2 = true ∧
    ∀ o, o ∈ outRuns f.desc → o.1 < i →
      (bitRun r.1 (fmtBits (strm f.desc k).fmt) r.2).1 + (bitRun r.1 (fmtBits (strm f.desc k).fmt) r.2).2 ≤ o.2.2.1 ∨
      o.2.2.1 + o.2.2.2 ≤ (bitRun r.1 (fmtBits (strm f.desc k).fmt) r.2).1) ∧
  (∀ o, o ∈ outRuns f.desc → inRam s.part o.2.2.1 o.2.2.2 = true) ∧
  (outRuns f.desc).Pairwise fun o p => o.2.2.1 + o.2.2.2 ≤ p.2.2.1 ∨ p.2.2.1 + p.2.2.2 ≤ o.2.2.1

/-- What a Mill descriptor's end may change beside its flight entry. -/
def Sys2Proof.Spec.millOnly (s t : State) (inst : Nat) (d : List Word) : Prop :=
  t = { s with mem := t.mem, cap := t.cap, regs := t.regs, free := t.free, mills := t.mills, view := [], viewOut := [] } ∧
  stallsUp s t (ML inst) (millWaits d) ∧ ∀ m, m ≠ inst → t.mill m = s.mill m

/-- The cycles of a Mill descriptor with its recipe in the store. -/
def Sys2Proof.Spec.millCycles (m : Mill) (f : Flight) : Nat := millCount f.desc (millRecipe m f.desc) + 3 * f.replays

/-- The tile of the stream that slot `k` names. -/
def Sys2Proof.Spec.tileOf (s : State) (f : Flight) (k : Nat) : Loom := s.loom (strm f.desc k).tile

/-- Mill `inst` has let go of its blocks and asks for none: the banks of those that were coupled are free (12 R526). -/
def Sys2Proof.Spec.letGo (s t : State) (inst : Nat) : Prop :=
  (t.mill inst).hold = [] ∧ (∀ m, m < 4 → t.loom m = { s.loom m with
    asks := (s.loom m).asks.filter (· != inst)
    held := (s.loom m).held.filter fun n => !(s.mill inst).hold.any fun h => h.2.1 == m && h.2.2.bank == some n }) ∧
  ∀ m, 4 ≤ m → (t.loom m).asks = (s.loom m).asks ∧ (t.loom m).out = (s.loom m).out

/-- A Mill descriptor of MEM and REPEAT streams with local, undamaged memory loads its recipe and, iteration by iteration,
its inputs into their groups, runs the recipe over them and stores its output group; it ends with OK, its iterations
and its nominal cycles. A recipe that fails a check ends it with PROGRAM, the instruction and the reason; a lane out
of range in the first iteration ends it with LANE_RANGE, the instruction, element and iteration. A fault's cycles do
not exceed the nominal ones. No memory but the stored runs changes, and no register but the stall counters of what it
waits for, which never count down. An ACC stream that waits takes the oldest finished block of its tile once its Mill
is the first of those that asked, and waiting past the timeout with no block there ends its descriptor with
ACC_TIMEOUT and the slot, releases its blocks and takes back its requests. -/
def Obligations.TheMillRunsItsRecipe : Prop :=
  (∀ (s : State) (inst : Nat) (f : Flight), millReady s inst f →
    (df f.desc 6 16 7 = 0 ∨ recipeBad f.desc ((recipeWords s f.desc).take 8)
      (millRecipe (recipeIn s f.desc (s.mill inst)) f.desc) = none →
      (∀ ms : Nat → Mill, ms 0 = recipeIn s f.desc (s.mill inst) →
        (∀ i, i < millIters f.desc → runRecipe f.desc i (millVl f.desc i)
          (millRecipe (ms 0) f.desc).zipIdx (inputsIn s f.desc i (ms i)) = .ok (ms (i + 1))) →
        ∃ t, exec (.run inst) s = .next t ∧ millOnly s t inst f.desc ∧
          t.mill inst = { ms (millIters f.desc) with hold := [] } ∧
          endedAs (s.millStart inst) t f 0 (Word.nat (min (millIters f.desc) 0xFFFF + min f.blocks 0x7FFF * 65536))
            (millCycles (ms 0) f) 0 ∧
          (∀ o, o ∈ outRuns f.desc → ∀ e, e < o.2.2.2 → t.byteAt (o.2.2.1 + e) =
            (storeBytes (strm f.desc 2).fmt ((((ms (o.1 + 1)).group (strm f.desc 2).c32 (strm f.desc 2).reg
              (millVl f.desc o.1)).drop (o.2.1 * (strm f.desc 2).l0)).take
                (if (strm f.desc 2).l0 = 0 then millVl f.desc o.1 else (strm f.desc 2).l0))).getD e 0) ∧
          ∀ b, (∀ o, o ∈ outRuns f.desc → b < o.2.2.1 ∨ o.2.2.1 + o.2.2.2 ≤ b) → t.byteAt b = s.byteAt b) ∧
      (∀ w, 0 < millIters f.desc → runRecipe f.desc 0 (millVl f.desc 0)
          (millRecipe (recipeIn s f.desc (s.mill inst)) f.desc).zipIdx
          (inputsIn s f.desc 0 (recipeIn s f.desc (s.mill inst))) = .error w →
        ∃ t c, exec (.run inst) s = .next t ∧ millOnly s t inst f.desc ∧ t.mem = s.mem ∧
          c ≤ millCycles (t.mill inst) f ∧ (t.mill inst).recipe = (recipeIn s f.desc (s.mill inst)).recipe ∧
          endedAs (s.millStart inst) t f 0x51 w c 0)) ∧
    (∀ w, df f.desc 6 16 7 ≠ 0 → recipeBad f.desc ((recipeWords s f.desc).take 8)
        (millRecipe (recipeIn s f.desc (s.mill inst)) f.desc) = some w →
      ∃ t c, exec (.run inst) s = .next t ∧ millOnly s t inst f.desc ∧ t.mem = s.mem ∧
        t.mill inst = recipeIn s f.desc (s.mill inst) ∧ c ≤ millCycles (t.mill inst) f ∧
        endedAs (s.millStart inst) t f 0x50 w c 0)) ∧
  ∀ (s : State) (inst : Nat) (f : Flight) (i k j : Nat), s.capRuns = true → s.current 2 inst = some f →
    f.st = .running (.mill i k j) → k < 2 → (strm f.desc k).kind = 1 → (∀ h, h ∈ (s.mill inst).hold → h.1 ≠ k) →
    (∀ b rest, (tileOf s f k).asks.head? = some inst → (tileOf s f k).out = b :: rest →
      ∃ t, exec (.accBlockTake inst) s = .next t ∧ t = { s with cap := t.cap, looms := t.looms, mills := t.mills } ∧
        tileOf t f k = { tileOf s f k with out := rest, asks := (tileOf s f k).asks.drop 1 } ∧
        (∀ m, m ≠ (strm f.desc k).tile → t.loom m = s.loom m) ∧
        t.mill inst = { s.mill inst with hold := (s.mill inst).hold ++ [(k, (strm f.desc k).tile, b)] } ∧
        (∀ m, m ≠ inst → t.mill m = s.mill m) ∧
        t.cap = { s.cap with flights := s.cap.flights.map fun g =>
          if g.ring == f.ring && g.idx == f.idx then { g with blocks := g.blocks + 1 } else g }) ∧
    ((tileOf s f k).out = [] ∨ (tileOf s f k).asks.head? ≠ some inst → exec (.accBlockTake inst) s = .next s) ∧
    (f.tmo ≠ 0 → (tileOf s f k).out = [] →
      ∃ t c, exec (.accTimeout inst) s = .next t ∧
        t = { s with cap := t.cap, regs := t.regs, free := t.free, looms := t.looms, mills := t.mills } ∧
        stallsUp s t (ML inst) (millWaits f.desc) ∧ letGo s t inst ∧ (∀ m, m ≠ inst → t.mill m = s.mill m) ∧
        c ≤ millCycles (t.mill inst) f ∧ faultedAs s t f 0x52 (Word.nat k) c) ∧
    (f.tmo = 0 ∨ (tileOf s f k).out ≠ [] → exec (.accTimeout inst) s = .next s)

/-- The lengths of a Sheaf descriptor's results. -/
def Sys2Proof.Spec.sheafLens (m : Mill) (x : SheafD) : List Int :=
  if x.lenv then (m.group true x.lreg x.nres).map (sgn 32) else List.replicate x.nres (x.len : Int)

/-- The value of an element of a TYPE, for a Sheaf. -/
def Sys2Proof.Spec.sheafVal (x : SheafD) (v : Nat) : Fp :=
  match x.ty with
  | 0 => Fp.of32 v
  | 1 => Fp.of16 v
  | t => Fp.ofInt ((tyFmt t).toInt v)

/-- The active elements of result `i` of length `n`: position and value. -/
def Sys2Proof.Spec.sheafRow (m : Mill) (x : SheafD) (i n : Nat) : List (Nat × Fp) :=
  (List.range n).filterMap fun t =>
    if !x.men || (m.mask x.msk x.elems).getD (x.index i t) false
    then some (t, sheafVal x ((m.group (tyC32 x.ty) x.reg x.elems).getD (x.index i t) 0)) else none

/-- Result `i`. -/
def Sys2Proof.Spec.sheafResult (m : Mill) (x : SheafD) (i : Nat) : SheafRes :=
  let n := ((sheafLens m x).getD i 0).toNat
  match x.op with
  | 1 => sheafReduce x.fn (sheafRow m x i n)
  | 2 => sheafSoftmax (sheafRow m x i n) n
  | 3 => sheafLse (sheafRow m x i n) n
  | _ => sheafNorm (sheafRow m x i n) n x.eps

/-- DETAIL: the results that are empty and those that hold NaN. -/
def Sys2Proof.Spec.sheafCounts (m : Mill) (x : SheafD) : Word :=
  let rs := (List.range x.nres).map (sheafResult m x)
  Word.nat (min (rs.filter (·.empty)).length 0xFFFF + min (rs.filter (·.nan)).length 0x7FFF * 65536)

/-- The summary entries of a Sheaf descriptor: result, VALUE and INFO. -/
def Sys2Proof.Spec.summaries (m : Mill) (x : SheafD) : List (Nat × Word × Word) :=
  let sel := if x.summ = 0 then [] else if x.summ = 1 then [x.sidx] else List.range x.nres
  sel.zipIdx.map fun p =>
    let r := sheafResult m x p.1
    (p.1, Word.nat r.value, Word.nat (r.index % 65536 + x.tag * 65536 + b2n r.empty * 2 ^ 24 + b2n r.nan * 2 ^ 25 +
      b2n (p.2 + 1 == sel.length) * 2 ^ 26))

/-- The command of a Sheaf operation. -/
def Sys2Proof.Spec.sheafOpOf (inst opc : Nat) : Option Instr :=
  match opc with
  | 1 => some (.reduce inst)
  | 2 => some (.softmax inst)
  | 3 => some (.lse inst)
  | 4 => some (.norm inst)
  | _ => none

/-- What a Sheaf descriptor may change beside its flight entry. -/
def Sys2Proof.Spec.sheafOnly (s t : State) (inst : Nat) (ks : List Nat) : Prop :=
  t = { s with cap := t.cap, regs := t.regs, free := t.free, mills := t.mills, view := [], viewOut := [] } ∧
  stallsUp s t (SH inst) ks ∧ ∀ m, m ≠ inst → t.mill m = s.mill m

/-- The state of a Sheaf descriptor that starts: its push timeout is in force. -/
def Sys2Proof.Spec.timed (s : State) (inst : Nat) (f : Flight) : State :=
  s.mapFlight f.ring f.idx fun g => { g with tmo := s.rf (SH inst + 4) 0 16 }

/-- What a Sheaf descriptor is after a push that leaves these entries. -/
def Sys2Proof.Spec.pushed (detail : Word) (rest : List (Nat × Word × Word)) (g : Flight) : FlightSt :=
  if rest = [] then .ended 0 detail (sheafD g.desc).count else .running (.sheaf detail rest)

/-- While no descriptor of its Mill is at work, a Sheaf descriptor reads its lengths and its active elements before it
writes: a length outside 0 to L ends it with LENGTH_RANGE, the result's number and the same cycles; otherwise every
result's outputs go to the destination group and, without summaries, the descriptor ends with OK, its counts of empty
and NaN results and its nominal cycles. With summaries it goes on until SUMMARY_PUSH has put each entry into the FIFO,
which takes one while it holds fewer than 16. A push that waits past the timeout ends it with SUM_TIMEOUT, the
result's number and the nominal cycles, and SUMMARY_FLUSH empties the FIFO. No memory changes, and no register but the
stall counters of what it waits for, which never count down. -/
def Obligations.TheSheafReducesItsRows : Prop :=
  (∀ (s : State) (inst opc : Nat) (c : Instr) (f : Flight), sheafOpOf inst opc = some c → isOn s 3 inst opc f →
    f.st = .queued → f.out = [] → s.liveOn 2 inst = none →
    let m := s.mill inst
    let x := sheafD f.desc
    (∀ i n, (sheafLens m x)[i]? = some n → (n < 0 ∨ (x.len : Int) < n) →
      (∀ j k, j < i → (sheafLens m x)[j]? = some k → 0 ≤ k ∧ k ≤ (x.len : Int)) →
      ∃ t, exec c s = .next t ∧ sheafOnly s t inst x.waits ∧ t.mills = s.mills ∧
        endedAs (timed s inst f) t f 0x59 (Word.nat i) x.count 0) ∧
    ((∀ n, n ∈ sheafLens m x → 0 ≤ n ∧ n ≤ (x.len : Int)) → (x.summ = 1 → x.sidx < x.nres) → 0 < x.nres →
      ∃ t cells, exec c s = .next t ∧ sheafOnly s t inst (if x.summ = 0 then x.waits else []) ∧
        t.mill inst = m.setGroup (!x.whole || !x.f16) x.dreg cells ∧
        cells.length = (if x.whole then x.elems else x.nres) ∧
        (∀ i, i < x.nres → x.whole = false →
          cells[i]? = some (some ((sheafResult m x i).writes.getD 0 (0, 0)).2)) ∧
        (∀ i p, i < x.nres → p < x.len → x.whole = true → cells[x.index i p]? =
          some (((sheafResult m x i).writes.find? fun w => w.1 == p).map fun w =>
            if x.f16 then to16 0 0 false (Fp.of32 w.2) else w.2)) ∧
        (x.summ = 0 → endedAs (timed s inst f) t f 0 (sheafCounts m x) x.count 0) ∧
        (x.summ ≠ 0 → t.cap = { s.cap with flights := s.cap.flights.map fun g =>
          if g.ring == f.ring && g.idx == f.idx then
            { g with st := .running (.sheaf (sheafCounts m x) (summaries m x)), out := [], tmo := s.rf (SH inst + 4) 0 16 }
          else g }))) ∧
  (∀ (s : State) (inst : Nat) (f : Flight) (detail : Word) (i : Nat) (v w : Word) (rest : List (Nat × Word × Word)),
    s.capRuns = true → s.current 3 inst = some f → f.st = .running (.sheaf detail ((i, v, w) :: rest)) →
    ((s.fifo inst).length < 16 → ∃ t, exec (.summaryPush inst) s = .next t ∧
      t = { s with cap := t.cap, fifos := t.fifos, regs := t.regs, free := t.free } ∧
      stallsUp s t (SH inst) (if rest = [] then [0, 1] else []) ∧ t.fifo inst = s.fifo inst ++ [(v, w)] ∧
      (∀ k, k ≠ inst → t.fifo k = s.fifo k) ∧
      t.cap = { s.cap with flights := s.cap.flights.map fun g =>
        if g.ring == f.ring && g.idx == f.idx then
          { g with st := pushed detail rest g } else g }) ∧
    (16 ≤ (s.fifo inst).length → exec (.summaryPush inst) s = .next s ∧
      (f.tmo ≠ 0 → ∃ t, exec (.summaryTimeout inst) s = .next t ∧
        t = { s with cap := t.cap, regs := t.regs, free := t.free } ∧
        stallsUp s t (SH inst) [0, 1] ∧ faultedAs s t f 0x5A (Word.nat i) (sheafD f.desc).count)) ∧
    ((s.fifo inst).length < 16 ∨ f.tmo = 0 → exec (.summaryTimeout inst) s = .next s)) ∧
  ∀ (s : State) (inst : Nat), inst < 2 → ∃ t, exec (.summaryFlush inst) s = .next t ∧
    t = { s with fifos := t.fifos } ∧ t.fifo inst = [] ∧ ∀ k, k ≠ inst → t.fifo k = s.fifo k

/-- The command of an operation that feeds a Loom. -/
def Sys2Proof.Spec.feedOpOf (inst opc : Nat) : Option Instr :=
  match opc with
  | 1 => some (.conv inst)
  | 2 => some (.tconv inst)
  | _ => none

/-- Of all that is in flight the entry of `f` alone has changed: it is at stage `k` of a Harrow. -/
def Sys2Proof.Spec.atStage (s t : State) (f : Flight) (k : Nat) : Prop :=
  t.cap = { s.cap with flights := s.cap.flights.map fun g =>
    if g.ring == f.ring && g.idx == f.idx then { g with st := .running (.harrow k), out := [] } else g }

/-- Every byte of the own rows of a Harrow descriptor, and of its outlier rows, is in local memory. -/
def Sys2Proof.Spec.rowsLocal (s : State) (d : List Word) (x : HarrowD) : Prop :=
  ∀ i, i < x.ih →
    (if x.inhwc then inRam s.part ((wordAt d 4).toNat + i * (wordAt d 5).toNat) (x.iw * x.c * x.size) = true
      else ∀ b, b < x.cb →
        inRam s.part ((wordAt d 4).toNat + i * (wordAt d 5).toNat + b * (wordAt d 6).toNat) x.blockBytes = true) ∧
    (x.nout ≠ 0 → inRam s.part ((wordAt d 12).toNat + i * (wordAt d 13).toNat) (x.iw * 64) = true)

/-- The windows of every output position, in raster order. -/
def Sys2Proof.Spec.allWindows (x : HarrowD) (rows : List HwRow) (kept : Nat) : List Window :=
  (List.range (x.oh kept)).flatMap fun oy => (List.range x.ow).map fun ox => window x rows (x.rows kept) oy ox

/-- The Loom and Harrow descriptors that head the pairing order of a tile: both have started. -/
def Sys2Proof.Spec.feedHeads (s : State) (tile : Nat) (ta : List LoomEnt) (tb : List HwEnt) (f g : Flight) : Prop :=
  s.capRuns = true ∧ (s.loom tile).feed = none ∧
  (s.loom tile).looms = ⟨f.ring, f.idx, false⟩ :: ta ∧ (s.loom tile).harrows = ⟨g.inst, g.ring, g.idx, none⟩ :: tb ∧
  s.flightAt f.ring f.idx = some f ∧ s.flightAt g.ring g.idx = some g ∧ f.inst = tile ∧ (f.ring ≠ g.ring ∨ f.idx ≠ g.idx) ∧
  (∃ p, f.st = .running p) ∧ ∃ p, g.st = .running p

/-- The halo parts that head the halo orders of the two Harrows, neither ended. -/
def Sys2Proof.Spec.haloHeads (s : State) (ta tb : List LoomEnt) (f g : Flight) : Prop :=
  s.capRuns = true ∧ (s.harrow 0).halo = ⟨f.ring, f.idx, false⟩ :: ta ∧ (s.harrow 1).halo = ⟨g.ring, g.idx, false⟩ :: tb ∧
  s.flightAt f.ring f.idx = some f ∧ s.flightAt g.ring g.idx = some g ∧ (f.ring ≠ g.ring ∨ f.idx ≠ g.idx)

/-- Of all that is in flight the entries of `f` and `g` alone have changed: both have ended, with a status, DETAIL and
CYCLES. -/
def Sys2Proof.Spec.bothEnded (s t : State) (f g : Flight) (st st' : Nat) (d : Word) (c c' : Nat) : Prop :=
  t.cap = { s.cap with flights := s.cap.flights.map fun h =>
    if h.ring == f.ring && h.idx == f.idx then { h with st := .ended st d c }
    else if h.ring == g.ring && h.idx == g.idx then { h with st := .ended st' d c' } else h }

/-- The places of a pairing or halo order with that of `f` marked as ended. -/
def Sys2Proof.Spec.marked (f : Flight) (l : List LoomEnt) : List LoomEnt :=
  l.map fun e => if e.ring = f.ring ∧ e.idx = f.idx then { e with ended := true } else e

/-- The place of a Loom descriptor in its tile's pairing order. -/
def Sys2Proof.Spec.placeOf (l : Loom) (f : Flight) : Nat := l.looms.findIdx fun e => e.ring == f.ring && e.idx == f.idx

/-- The kept block of a tile after a descriptor of it has failed (10 R447, R453). -/
def Sys2Proof.Spec.keptAfter (l : Loom) (x : LoomD) : Option (Nat × List Word) := if x.keep ∨ x.chain then none else l.kept

/-- No CSR counts down, and only those listed count up. -/
def Sys2Proof.Spec.countsUp (s t : State) (l : List Nat) : Prop :=
  csrKept s t l ∧ ∀ a, a ∈ l → (s.reg a).toNat ≤ (t.reg a).toNat

/-- The stall counters of what a descriptor waits for. -/
def Sys2Proof.Spec.stallRegs (base : Nat) (ks : List Nat) : List Nat := ks.map fun k => base + 0x10 + 4 * k

/-- A CONV or TCONV without a halo part that starts takes its place in the pairing order of its tile and reads its stored
rows; paired, it offers its tile the windows of every output position in raster order, and when they are taken it ends
with OK, its output rows and nominal cycles, keeping the last rows where its stripe goes on. FEED_PAIR pairs the
oldest unpaired Loom and Harrow descriptors of a tile; where they disagree both end with FEED_MISMATCH and the first
difference. HALO_PAIR starts the two oldest halo parts, or ends both with HALO_MISMATCH and no cycles. A Loom
descriptor whose Harrow has faulted before it starts ends as it starts, with that fault. A Loom descriptor whose
Harrow, or a halo part whose partner, does not come within its timeout ends with FEED_TIMEOUT or HALO_TIMEOUT. Nothing
else in flight, no other tile or Harrow, no Bell and no memory changes. -/
def Obligations.FeedsPairAndDeliverTheirWindows : Prop :=
  (∀ (s : State) (inst opc : Nat) (c : Instr) (f : Flight) (old : List HwRow), feedOpOf inst opc = some c →
    calm s f → f.rem = [] → isOn s 1 inst opc f →
    let x := harrowD f.desc
    (f.st = .queued → x.role = 0 → rowsLocal s f.desc x →
      (∀ g, (s.loom x.tile).feed = some g → g.inst = inst → g.ring = f.ring → g.idx ≠ f.idx) →
      (if x.sin then (s.harrow inst).kept = some old ∧ (s.harrow inst).keptNum = f.cont else old = []) →
      ∃ t, exec c s = .next t ∧
        t = { s with cap := t.cap, looms := t.looms, harrows := t.harrows, view := [], viewOut := [] } ∧ atStage s t f 3 ∧
        t.harrow inst = { s.harrow inst with
          rows := old ++ (List.range x.ih).map (hwRow s f.desc x), err := none
          kept := if x.op = 1 then none else (s.harrow inst).kept } ∧
        (∀ m, m ≠ inst → t.harrow m = s.harrow m) ∧
        t.loom x.tile = { s.loom x.tile with
          harrows := (s.loom x.tile).harrows ++ [⟨inst, f.ring, f.idx, none⟩] } ∧
        ∀ m, m ≠ x.tile → t.loom m = s.loom m) ∧
    (∀ g, f.st = .running (.harrow 3) → (s.loom x.tile).feed = some g → g.inst = inst → g.ring = f.ring → g.idx = f.idx →
      (s.harrow inst).err = none → (s.harrow inst).rows.length = x.rows f.kept →
      (g.offered = false → g.lost = false →
        ∃ t, exec c s = .next t ∧ t = { s with cap := t.cap, looms := t.looms, view := [], viewOut := [] } ∧
          atStage s t f 3 ∧ (∀ m, m ≠ x.tile → t.loom m = s.loom m) ∧
          t.loom x.tile = { s.loom x.tile with
            feed := some { g with offered := true, fault := none, windows := allWindows x (s.harrow inst).rows f.kept } }) ∧
      (g.offered = true → g.windows = [] →
        ∃ t, exec c s = .next t ∧
          t = { s with cap := t.cap, looms := t.looms, harrows := t.harrows, regs := t.regs, free := t.free, view := []
                       viewOut := [] } ∧
          endedAs s t f 0 (Word.nat (x.oh f.kept % 65536)) (x.count f.kept) 0 ∧ stallsUp s t (HW inst) x.waits ∧
          t.loom x.tile = { s.loom x.tile with feed := none } ∧ (∀ m, m ≠ x.tile → t.loom m = s.loom m) ∧
          t.harrow inst = { s.harrow inst with
            rows := []
            keptNum := if x.sout then f.own else (s.harrow inst).keptNum
            kept := if x.sout then some ((s.harrow inst).rows.drop ((s.harrow inst).rows.length - x.keepr))
              else if x.op = 1 then none else (s.harrow inst).kept } ∧
          ∀ m, m ≠ inst → t.harrow m = s.harrow m))) ∧
  (∀ (s : State) (tile : Nat) (ta : List LoomEnt) (tb : List HwEnt) (f g : Flight), feedHeads s tile ta tb f g →
    let x := harrowD g.desc
    let y := loomD f.desc
    (State.feedBad x g.kept y = none → ∃ t, exec (.feedPair tile) s = .next t ∧
      t = { s with looms := t.looms } ∧ (∀ m, m ≠ tile → t.loom m = s.loom m) ∧
      t.loom tile = { s.loom tile with looms := ta, harrows := tb, feed := some {
        inst := g.inst, ring := g.ring, idx := g.idx, lring := f.ring, lidx := f.idx, c := x.c } }) ∧
    (∀ n, State.feedBad x g.kept y = some n → ∃ t c c', exec (.feedPair tile) s = .next t ∧
      t = { s with looms := t.looms, harrows := t.harrows, cap := t.cap, regs := t.regs, free := t.free } ∧
      c ≤ y.count + 3 * f.replays ∧ c' ≤ x.count g.kept ∧ bothEnded s t f g 0x43 0x48 (Word.nat n) c c' ∧
      countsUp s t (stallRegs (LM tile) y.waits ++ stallRegs (HW g.inst) x.waits) ∧
      t.loom tile = { s.loom tile with
        looms := (if y.feed then marked f ta else ta), harrows := tb, kept := keptAfter (s.loom tile) y } ∧
      (∀ m, m ≠ tile → t.loom m = s.loom m) ∧
      t.harrow g.inst = { s.harrow g.inst with
        kept := if g.null = false ∧ opcOf g.desc = 1 ∧ x.sout = true then none else (s.harrow g.inst).kept } ∧
      ∀ m, m ≠ g.inst → t.harrow m = s.harrow m)) ∧
  (∀ (s : State) (inst st c : Nat) (f : Flight) (e : HwEnt) (d : Word), isOn s 0 inst 1 f → f.st = .queued →
    (loomD f.desc).feed = true → (s.loom inst).harrows[(s.loom inst).looms.length]? = some e → e.fault = some (st, d, c) →
    (∀ g ∈ s.cap.flights, g.cls = 0 → g.inst = inst → ∀ p, g.st = .running p → g.ring = f.ring ∧ g.idx = f.idx) →
    (∀ g, (s.loom inst).feed = some g → g.isOf f = false) →
    ∃ t n, exec (.product inst) s = .next t ∧ t = { s with looms := t.looms, cap := t.cap, regs := t.regs, free := t.free } ∧
      n ≤ (loomD f.desc).count ∧ stallsUp s t (LM inst) (loomD f.desc).waits ∧ (∀ m, m ≠ inst → t.loom m = s.loom m) ∧
      t.loom inst = { s.loom inst with
        prec := df f.desc 4 0 8, kept := none, looms := marked f ((s.loom inst).looms ++ [⟨f.ring, f.idx, true⟩]) } ∧
      t.cap = { s.cap with flights := s.cap.flights.map fun g => if g.ring == f.ring && g.idx == f.idx
        then { g with st := .ended st d n, tmo := s.rf (LM inst + 4) 0 16, addr := c } else g }) ∧
  (∀ (s : State) (inst : Nat) (f : Flight) (b : Bool) (k : Nat), s.capRuns = true → s.current 0 inst = some f →
    f.st = .running (.loom b k) → (loomD f.desc).feed = true → placeOf (s.loom inst) f < (s.loom inst).looms.length →
    (∀ g, (s.loom inst).feed = some g → g.isOf f = false) →
    (f.tmo ≠ 0 → (s.loom inst).harrows.length ≤ placeOf (s.loom inst) f →
      ∃ t c, exec (.feedTimeout inst) s = .next t ∧
        t = { s with looms := t.looms, cap := t.cap, regs := t.regs, free := t.free } ∧
        c ≤ (loomD f.desc).count + 3 * f.replays ∧ faultedAs s t f 0x44 0 c ∧
        stallsUp s t (LM inst) (loomD f.desc).waits ∧ (∀ m, m ≠ inst → t.loom m = s.loom m) ∧
        t.loom inst = { s.loom inst with
          looms := marked f (s.loom inst).looms, kept := keptAfter (s.loom inst) (loomD f.desc) }) ∧
    (f.tmo = 0 ∨ placeOf (s.loom inst) f < (s.loom inst).harrows.length → exec (.feedTimeout inst) s = .next s)) ∧
  (∀ (s : State) (ta tb : List LoomEnt) (f g : Flight), haloHeads s ta tb f g →
    let paired (t : State) : Prop :=
      t.harrow 0 = { s.harrow 0 with halo := ta, inbox := [], inboxFail := none } ∧
      t.harrow 1 = { s.harrow 1 with halo := tb, inbox := [], inboxFail := none } ∧ ∀ m, 1 < m → t.harrow m = s.harrow m
    let joins (n m : Nat) (h : Flight) : List HwEnt :=
      if (harrowD h.desc).tile = m then [⟨n, h.ring, h.idx, none⟩] else []
    (State.haloBad (harrowD f.desc) (harrowD g.desc) = none → ∃ t, exec .haloPair s = .next t ∧
      t = { s with looms := t.looms, harrows := t.harrows, cap := t.cap } ∧ paired t ∧
      t.cap = { s.cap with flights := s.cap.flights.map fun h =>
        if (h.ring == f.ring && h.idx == f.idx) || (h.ring == g.ring && h.idx == g.idx)
        then { h with st := .running (.harrow 1) } else h } ∧
      ∀ m, t.loom m = { s.loom m with harrows := (s.loom m).harrows ++ joins 0 m f ++ joins 1 m g }) ∧
    (∀ n, State.haloBad (harrowD f.desc) (harrowD g.desc) = some n → ∃ t, exec .haloPair s = .next t ∧
      t = { s with harrows := t.harrows, cap := t.cap, regs := t.regs, free := t.free } ∧ paired t ∧
      countsUp s t [HW f.inst + 0x18, HW g.inst + 0x18] ∧ bothEnded s t f g 0x4D 0x4D (Word.nat n) 0 0)) ∧
  ∀ (s : State) (inst : Nat) (f : Flight), s.capRuns = true → inst < 2 → s.current 1 inst = some f →
    f.st = .running (.harrow 0) →
    (f.tmo ≠ 0 → (s.harrow (1 - inst)).halo.length < (s.harrow inst).halo.length →
      ∃ t, exec (.haloTimeout inst) s = .next t ∧
        t = { s with harrows := t.harrows, cap := t.cap, regs := t.regs, free := t.free } ∧
        faultedAs s t f 0x49 0 0 ∧ stallsUp s t (HW inst) [2] ∧ (∀ m, m ≠ inst → t.harrow m = s.harrow m) ∧
        t.harrow inst = { s.harrow inst with halo := marked f (s.harrow inst).halo }) ∧
    (f.tmo = 0 ∨ (s.harrow inst).halo.length ≤ (s.harrow (1 - inst)).halo.length → exec (.haloTimeout inst) s = .next s)

/-- Of all that is in flight the entry of `f` alone has changed: it has ended with OK after a unit of `n` bytes, within
the bound on its cycles (08 R375); GAP of its stream has been taken. -/
def Sys2Proof.Spec.streamEnds (s t : State) (f : Flight) (sid n : Nat) (detail : Word) : Prop :=
  ∃ c, c ≤ (State.streamBound sid n).getD 0xFFFFFFFF ∧ t.cap = { s.cap with
    gaps := NSet.erase s.cap.gaps sid
    flights := s.cap.flights.map fun g =>
      if g.ring == f.ring && g.idx == f.idx then { g with st := .ended 0 detail c, addr := 0 } else g }

/-- Streams that are stopped have no descriptor in flight, but for `sid`. -/
def Sys2Proof.Spec.stoppedIdle (s : State) (but : Nat) : Prop :=
  ∀ sid, sid ∈ [1, 3, 4, 5, 6, 8] → sid ≠ but → s.streamStopped sid = true →
    ∀ g, g ∈ s.cap.flights → g.cls = 4 → flightSid g ≠ sid

/-- The field of the register in which a source counts the units it has lost. -/
def Sys2Proof.Spec.lostField (sid : Nat) : Option (Nat × Nat × Nat) :=
  match sid with
  | 1 => some (LK_LOST, 0, 16)
  | 3 => some (CSI_LOST, 0, 16)
  | 4 => some (CSI_LOST, 16, 16)
  | 5 => some (AU_CNT, 0, 8)
  | 6 => some (AU_CNT, 8, 8)
  | _ => none

/-- A STREAM_IN that starts waits for a unit of its stream, or ends at once with STOPPED where the stream is stopped. A
unit goes whole to the oldest descriptor that waits for its stream: its bytes up to the capacity stand at the
destination, the descriptor ends with OK, the bytes written, the TRUNC and GAP marks and a cycle count within its
bound, and the mark is taken. A unit that no descriptor waits for is lost, is counted by its source, and marks GAP
while a ring is bound. A STREAM_OUT reads its block, queues it for playback while fewer than two blocks are queued,
and ends with OK; otherwise it waits. Nothing else changes. -/
def Obligations.StreamDescriptorsTakeAndGiveUnits : Prop :=
  (∀ (s : State) (inst : Nat) (f : Flight), isOn s 4 inst 5 f → f.st = .queued → flightSid f ∈ [1, 3, 4, 5, 6, 8] →
    stoppedIdle s (flightSid f) →
    (s.streamStopped (flightSid f) = false → ∃ t, exec (.streamIn inst) s = .next t ∧
      t = { s with cap := { s.cap with flights := s.cap.flights.map fun g =>
        if g.ring == f.ring && g.idx == f.idx then { g with st := .running .streamWait } else g } }) ∧
    (s.streamStopped (flightSid f) = true → (∀ u, u ∈ s.units → u.1 ≠ flightSid f) →
      (s.cap.flights.filter fun g => g.cls == 4 && flightSid g == flightSid f) = [f] →
      ∃ t, exec (.streamIn inst) s = .next t ∧
      t = { s with cap := { s.cap with
        gaps := NSet.erase s.cap.gaps (flightSid f)
        flights := s.cap.flights.map fun g =>
          if g.ring == f.ring && g.idx == f.idx then
            { g with st := .ended 0 (streamDetail 0 false (s.cap.gaps.contains (flightSid f)) true) 0 } else g } })) ∧
  (∀ (s : State) (sid k : Nat) (l : List Byte), s.units.find? (fun u => u.1 == sid) = some (k, l) →
    s.streamStopped sid = false →
    (∀ f, s.waiting sid = some f → calm s f → s.viewOut = [] →
      inRam s.part (wordAt f.desc 5).toNat (min l.length (wordAt f.desc 7).toNat) = true →
      ∃ t, exec (.streamUnit sid) s = .next t ∧
        t = { s with cap := t.cap, units := t.units, mem := t.mem, free := t.free } ∧
        t.units = (s.units.eraseP fun u => u.1 == sid) ∧
        (∀ i, i < min l.length (wordAt f.desc 7).toNat → t.byteAt ((wordAt f.desc 5).toNat + i) = l.getD i 0) ∧
        memKeptBut s t (wordAt f.desc 5).toNat (min l.length (wordAt f.desc 7).toNat) ∧
        streamEnds s t f sid l.length (streamDetail (min l.length (wordAt f.desc 7).toNat)
          (decide ((wordAt f.desc 7).toNat < l.length)) (s.cap.gaps.contains sid) false)) ∧
    (s.waiting sid = none → ∃ t, exec (.streamUnit sid) s = .next t ∧
      t = { s with cap := t.cap, units := s.units.eraseP (fun u => u.1 == sid), regs := t.regs } ∧
      t.cap = { s.cap with
        gaps := if Store.get 0 s.cap.binds sid ≠ 0 then NSet.insert s.cap.gaps sid else s.cap.gaps } ∧
      (∀ a lo w, lostField sid = some (a, lo, w) → csrKept s t [a] ∧
        t.rf a lo w = min (s.rf a lo w + 1) (2 ^ w - 1)) ∧
      (lostField sid = none → t.regs = s.regs))) ∧
  (∀ (s : State) (sid : Nat), (∀ u, u ∈ s.units → u.1 ≠ sid) → exec (.streamUnit sid) s = .next s) ∧
  ∀ (s : State) (inst : Nat) (f : Flight), isOn s 4 inst 6 f → f.st = .queued → flightSid f = 7 →
    s.streamStopped 7 = false → (∀ g, g ∈ s.cap.flights → g.cls = 4 → (g.inst = inst ∨ flightSid g = 7) → g = f) →
    (s.audio.queue.length < 2 → calm s f → f.rem = [] → s.viewOut = [] → QBlock.reading f.ring f.idx ∉ s.audio.queue →
      inRam s.part (wordAt f.desc 4).toNat (wordAt f.desc 7).toNat = true →
      ∃ t, exec (.streamOut inst) s = .next t ∧
        t = { s with cap := t.cap, audio := t.audio, free := t.free, view := [] } ∧
        t.audio = { s.audio with queue := s.audio.queue ++
          [QBlock.block (s.peek (wordAt f.desc 4).toNat (wordAt f.desc 7).toNat)] } ∧
        streamEnds s t f 7 (wordAt f.desc 7).toNat (streamDetail (wordAt f.desc 7).toNat false (s.cap.gaps.contains 7) false)) ∧
    (2 ≤ s.audio.queue.length → ∃ t, exec (.streamOut inst) s = .next t ∧
      t = { s with cap := { s.cap with flights := s.cap.flights.map fun g =>
        if g.ring == f.ring && g.idx == f.idx then { g with st := .running .streamWait } else g } })

/-- Bosun is about to execute `i`: both copies agree, it is the word at PC, and it may stand there. -/
def Sys2Proof.Spec.bosunAt (s : State) (i : BIns) : Prop :=
  s.bosunReady = true ∧ s.nextIns = some i ∧ s.bosun.trail = none ∧ s.bosun.diverge = none ∧ s.bosun.bundle = [] ∧
  s.damaged s.core.pc.toNat 4 = [] ∧ (i.barred = true → s.core.delay = none ∧ s.core.shadow = 0)

/-- The command of an instruction. -/
def Sys2Proof.Spec.cmdOf : BIns → Instr
  | .r op _ _ _ => match op with
    | .add => .addR | .sub => .subR | .and => .andR | .or => .orR | .xor => .xorR | .nor => .nor | .lts => .lts
    | .ltu => .ltu | .min => .minR | .max => .maxR | .minu => .minu | .maxu => .maxu | .shl => .shl | .shr => .shr
    | .sar => .sar | .mul => .mul | .mulhs => .mulhs | .mulhu => .mulhu | .div => .div | .divu => .divu | .rem => .rem
    | .remu => .remu
  | .sh op _ _ _ => match op with | .shli => .shli | .shri => .shri | .sari => .sari
  | .jr _ => .jr
  | .jalr _ _ => .jalr
  | .i op _ _ _ => match op with
    | .addi => .addi | .ltsi => .ltsi | .ltui => .ltui | .andi => .andi | .ori => .ori | .xori => .xori
  | .movh _ _ => .movh
  | .ld op _ _ _ => match op with | .ldb => .ldb | .ldbu => .ldbu | .ldh => .ldh | .ldhu => .ldhu | .ldw => .ldw
  | .st op _ _ _ => match op with | .stb => .stb | .sth => .sth | .stw => .stw
  | .br op _ _ _ => match op with
    | .beq => .beq | .bne => .bne | .blt => .blt | .bge => .bge | .bltu => .bltu | .bgeu => .bgeu
  | .j _ => .j
  | .jal _ => .jal
  | .lp _ _ _ => .lp
  | .lpi _ _ _ => .lpi
  | .csr op _ _ _ => match op with | .csrrw => .csrrw | .csrrs => .csrrs | .csrrc => .csrrc
  | .post _ _ _ => .post
  | .belladd _ _ => .belladd
  | .bellset _ _ => .bellset
  | .waitge _ _ _ => .waitge
  | .waiteq _ _ _ => .waiteq
  | .bellrd _ _ => .bellrd
  | .sumrd _ _ _ _ => .sumrd
  | .tack _ => .tack
  | .hsig _ => .hsig
  | .fence => .fence
  | .wfi => .wfi
  | .nop => .nop
  | .eret => .eret
  | .syscall _ => .syscall
  | .brk _ => .breakI
  | .mcrew => .mcrew

/-- The result of an R-format operation (14 Table 14.5, R601). -/
def Sys2Proof.Spec.resultR (op : ROp) (a b : Word) : Word :=
  match op with
  | .add => Word.nat (a.toNat + b.toNat)
  | .sub => BitVec.ofInt 32 ((a.toNat : Int) - (b.toNat : Int))
  | .and => a &&& b
  | .or => a ||| b
  | .xor => a ^^^ b
  | .nor => ~~~(a ||| b)
  | .lts => if a.toInt < b.toInt then 1 else 0
  | .ltu => if a.toNat < b.toNat then 1 else 0
  | .min => BitVec.ofInt 32 (min a.toInt b.toInt)
  | .max => BitVec.ofInt 32 (max a.toInt b.toInt)
  | .minu => Word.nat (min a.toNat b.toNat)
  | .maxu => Word.nat (max a.toNat b.toNat)
  | .shl => Word.nat (a.toNat * 2 ^ (b.toNat % 32))
  | .shr => Word.nat (a.toNat / 2 ^ (b.toNat % 32))
  | .sar => BitVec.ofInt 32 (a.toInt / 2 ^ (b.toNat % 32))
  | .mul => Word.nat (a.toNat * b.toNat)
  | .mulhs => BitVec.ofInt 32 (a.toInt * b.toInt / 2 ^ 32)
  | .mulhu => Word.nat (a.toNat * b.toNat / 2 ^ 32)
  | .div => if b = 0 then Word.nat 0xFFFFFFFF else BitVec.ofInt 32 (Int.tdiv a.toInt b.toInt)
  | .divu => if b = 0 then Word.nat 0xFFFFFFFF else Word.nat (a.toNat / b.toNat)
  | .rem => if b = 0 then a else BitVec.ofInt 32 (Int.tmod a.toInt b.toInt)
  | .remu => if b = 0 then a else Word.nat (a.toNat % b.toNat)

/-- The result of an I-format operation (14 R602). -/
def Sys2Proof.Spec.resultI (op : IOp) (a : Word) (imm : BitVec 16) : Word :=
  match op with
  | .addi => BitVec.ofInt 32 (a.toInt + imm.toInt)
  | .ltsi => if a.toInt < imm.toInt then 1 else 0
  | .ltui => if a.toNat < (BitVec.ofInt 32 imm.toInt).toNat then 1 else 0
  | .andi => Word.nat (Nat.land a.toNat imm.toNat)
  | .ori => Word.nat (Nat.lor a.toNat imm.toNat)
  | .xori => Word.nat (Nat.xor a.toNat imm.toNat)

/-- The register an arithmetic instruction writes, and its result. -/
def Sys2Proof.Spec.arithmetic (s : State) : BIns → Option (Reg × Word)
  | .r op rd ra rb => some (rd, resultR op (s.bw ra) (s.bw rb))
  | .sh .shli rd ra n => some (rd, Word.nat ((s.bw ra).toNat * 2 ^ n.toNat))
  | .sh .shri rd ra n => some (rd, Word.nat ((s.bw ra).toNat / 2 ^ n.toNat))
  | .sh .sari rd ra n => some (rd, BitVec.ofInt 32 ((s.bw ra).toInt / 2 ^ n.toNat))
  | .i op rd ra imm => some (rd, resultI op (s.bw ra) imm)
  | .movh rd imm => some (rd, Word.nat (imm.toNat * 65536))
  | _ => none

/-- The loop action of 14 R609 after the instruction at PC: the next PC, and the copy with its counts. -/
def Sys2Proof.Spec.looped (c : Core) : Word × Core :=
  let at1 : Bool := decide (c.csrGet (BS_LC 1) ≠ 0) && decide (c.pc = c.csrGet (BS_LE 1))
  if at1 && decide (c.csrGet (BS_LC 1) ≠ 1) then (c.csrGet (BS_LS 1), c.csrPut (BS_LC 1) (c.csrGet (BS_LC 1) - 1))
  else
    let c := if at1 then c.csrPut (BS_LC 1) 0 else c
    if c.csrGet (BS_LC 0) = 0 ∨ c.pc ≠ c.csrGet (BS_LE 0) then (c.pc + 4, c)
    else if c.csrGet (BS_LC 0) = 1 then (c.pc + 4, c.csrPut (BS_LC 0) 0)
    else (c.csrGet (BS_LS 0), c.csrPut (BS_LC 0) (c.csrGet (BS_LC 0) - 1))

/-- A copy that moves on from the instruction at PC: past it for one that ends no loop body (`barred`), otherwise as the
loops choose; to the target in the delay slot of a taken branch; with one shadow instruction fewer (14 R593, R604, R609). -/
def Sys2Proof.Spec.onward (barred : Bool) (c : Core) : Core :=
  let x : Word × Core := if barred then (c.pc + 4, c) else looped c
  let next := match c.delay with
    | some (_, some target) => target
    | _ => x.1
  let c := { x.2 with pc := next, delay := none, entered := false }
  match c.shadow with
  | 0 => c
  | 1 => { c with shadow := 0 }.csrPut BS_STATUS (putFld (c.csrGet BS_STATUS) 0 1 1)
  | k + 1 => { c with shadow := k }

/-- Bosun's copies have become `c`, and one more instruction is counted; nothing else has changed. -/
def Sys2Proof.Spec.bosunDid (s : State) (c : Core) : State :=
  { s with bosun := { s.bosun with core := c, instret := s.bosun.instret + 1 } }

/-- When Bosun is about to execute an arithmetic instruction, its command writes the result of Tables 14.5 and R602 to rd,
counts the instruction, and moves on: to the target where it stood in the delay slot of a taken branch or jump,
otherwise as the loops choose, with one shadow instruction fewer left. Division by 0 and the division of -2^31 by -1
have the results of R601. w0 reads as 0 and discards what is written to it. Nothing else in the machine changes. NOP
moves on alone. -/
def Obligations.BosunArithmeticWritesItsResult : Prop := ∀ (s : State) (i : BIns), bosunAt s i →
  (∀ rd v, arithmetic s i = some (rd, v) →
    exec (cmdOf i) s = .next (bosunDid s (onward false (s.core.setReg rd.toNat v)))) ∧
  (i = .nop → exec .nop s = .next (bosunDid s (onward false s.core))) ∧
  (∀ (c : Core) (v : Word), c.reg 0 = 0 ∧ c.setReg 0 v = c)

/-- An exception entry finds a good frame in undamaged memory, and a vector that can be fetched. -/
def Sys2Proof.Spec.canEnter (s : State) (vec : Nat) : Prop :=
  s.esv = false ∧ s.frameOk (s.bw 30).toNat = true ∧ s.damaged ((s.bw 30).toNat - 16) 16 = [] ∧ s.inject = none ∧
  Memory.wf s.mem = true ∧ (spaceOf s.part (s.bsv BS_EVEC + Word.nat vec).toNat = .itcm ∨
    spaceOf s.part (s.bsv BS_EVEC + Word.nat vec).toNat = .rom)

/-- Bosun has entered an exception from `s`: `bd` and `mcp` as STATUS takes them, `epc`, `cause` and `bad` as pushed. -/
def Sys2Proof.Spec.entered (s t : State) (cause : Nat) (epc : Word) (bd : Bool) (mcp : Nat) (bad : Word) (vec : Nat) : Prop :=
  let sp := s.bw 30
  t = { s with mem := t.mem, bosun := { s.bosun with core := t.core, wait := none } } ∧
  memKeptBut s t (sp.toNat - 16) 16 ∧
  t.peekWord (sp.toNat - 16) = Word.nat (s.bsf BS_STATUS 0 1 * 4 + s.bsf BS_STATUS 1 1 * 8 + b2n bd * 16 + mcp * 32) ∧
  t.peekWord (sp.toNat - 12) = epc ∧ t.peekWord (sp.toNat - 8) = Word.nat cause ∧ t.peekWord (sp.toNat - 4) = bad ∧
  t.bw 30 = sp - 16 ∧ (∀ r : Reg, r ≠ 30 → t.bw r = s.bw r) ∧
  t.core.pc = s.bsv BS_EVEC + Word.nat vec ∧ t.core.delay = none ∧ t.core.shadow = 0 ∧ t.core.entered = true ∧
  t.bsv BS_CAUSE = Word.nat cause ∧ t.bsv BS_BADADDR = bad ∧ t.bsv BS_EPC = epc ∧ t.bsf BS_STATUS 0 2 = 0 ∧
  t.bsf BS_STATUS 2 1 = s.bsf BS_STATUS 0 1 ∧ t.bsf BS_STATUS 3 1 = s.bsf BS_STATUS 1 1 ∧ t.bsf BS_STATUS 4 1 = b2n bd ∧
  t.bsf BS_STATUS 5 2 = mcp % 4 ∧ t.bsf BS_STATUS 7 1 = 0 ∧
  ∀ n, n ∉ [BS_STATUS, BS_EPC, BS_CAUSE, BS_BADADDR] → t.bsv n = s.bsv n

/-- A synchronous exception of the instruction at PC: EPC is the branch in whose delay slot it stands, if any. -/
def Sys2Proof.Spec.trapped (s t : State) (code sub : Nat) (bad : Word) : Prop :=
  match s.core.delay with
  | some (br, _) => entered s t (code + sub * 256) br true s.core.shadow bad 0x080
  | none => entered s t (code + sub * 256) s.core.pc false s.core.shadow bad 0x080

/-- Whether a branch is taken (14 R604). -/
def Sys2Proof.Spec.taken (op : BOp) (a b : Word) : Bool :=
  match op with
  | .beq => decide (a = b)
  | .bne => decide (a ≠ b)
  | .blt => decide (a.toInt < b.toInt)
  | .bge => decide (b.toInt ≤ a.toInt)
  | .bltu => decide (a.toNat < b.toNat)
  | .bgeu => decide (b.toNat ≤ a.toNat)

/-- The copy `c` at the delay slot of the branch or jump at PC, with its target where it is taken. -/
def Sys2Proof.Spec.branched (c : Core) (target : Option Word) : Core :=
  { c with pc := c.pc + 4, delay := some (c.pc, target), entered := false }

/-- The first check of 14 R608 that a loop set-up fails. -/
def Sys2Proof.Spec.loopFault (s : State) (l : Bool) (le : Word) : Option Nat :=
  let ls := s.core.pc + 4
  let last := decodeB (s.peekWord le.toNat)
  let before := decodeB (s.peekWord (le - 4).toNat)
  if s.bsv (BS_LC (b2n l)) ≠ 0 then some 1
  else if l = false ∧ s.bsv (BS_LC 1) ≠ 0 then some 2
  else if spaceOf s.part le.toNat ≠ spaceOf s.part s.core.pc.toNat then some 3
  else if l = true ∧ s.bsv (BS_LC 0) ≠ 0 ∧
    ¬((s.bsv (BS_LS 0)).toNat ≤ ls.toNat ∧ le.toNat ≤ (s.bsv (BS_LE 0)).toNat) then some 4
  else if (∃ i, last = some i ∧ i.barred = true) ∨ (∃ i, before = some i ∧ i.jumps = true) then some 5
  else none

/-- A loop set-up of level `l` with count `c`: its end address and the copy after it. -/
def Sys2Proof.Spec.loopOf (s : State) : BIns → Option (Bool × Word × Word)
  | .lp l ra off => some (l, s.bw ra, s.core.pc + 4 + Word.nat (4 * off.toNat))
  | .lpi l cnt off => some (l, Word.nat cnt.toNat, s.core.pc + 4 + Word.nat (4 * off.toNat))
  | _ => none

/-- A branch compares its registers and leaves PC at its delay slot, with the target of 4 x OFF from the branch where it
is taken; J, JAL, JR and JALR do so always, and JAL and JALR write PC + 8 to w31 and rd. JR and JALR to a target that
is not a multiple of 4 raise ALIGN and write nothing. LP and LPI that pass the checks of R608 set LS, LE and LC of
their level and go to the body, or past it for a count of 0; the first check that fails raises LOOP_FORM with its
number. An exception pushes status, EPC, cause and address, changes sp, CAUSE, BADADDR, EPC and STATUS, and goes to
its vector in Keeper mode with interrupts off. -/
def Obligations.BosunBranchesJumpsAndLoops : Prop := ∀ (s : State) (i : BIns), bosunAt s i →
  (∀ op ra rb off, i = .br op ra rb off → exec (cmdOf i) s = .next (bosunDid s (branched s.core
    (if taken op (s.bw ra) (s.bw rb) then some (s.core.pc + BitVec.ofInt 32 (4 * off.toInt)) else none)))) ∧
  (∀ off, i = .j off →
    exec .j s = .next (bosunDid s (branched s.core (some (s.core.pc + BitVec.ofInt 32 (4 * off.toInt)))))) ∧
  (∀ off, i = .jal off → exec .jal s = .next (bosunDid s (branched (s.core.setReg 31 (s.core.pc + 8))
    (some (s.core.pc + BitVec.ofInt 32 (4 * off.toInt)))))) ∧
  (∀ ra, i = .jr ra → (s.bw ra).toNat % 4 = 0 →
    exec .jr s = .next (bosunDid s (branched s.core (some (s.bw ra))))) ∧
  (∀ rd ra, i = .jalr rd ra → (s.bw ra).toNat % 4 = 0 →
    exec .jalr s = .next (bosunDid s (branched (s.core.setReg rd.toNat (s.core.pc + 8)) (some (s.bw ra))))) ∧
  (∀ ra, (i = .jr ra ∨ ∃ rd, i = .jalr rd ra) → (s.bw ra).toNat % 4 ≠ 0 → canEnter s 0x080 →
    ∃ t, exec (cmdOf i) s = .next t ∧ trapped s t 5 0 (s.bw ra)) ∧
  ∀ l c le, loopOf s i = some (l, c, le) → s.damaged le.toNat 4 = [] → s.damaged (le - 4).toNat 4 = [] →
    (loopFault s l le = none → exec (cmdOf i) s = .next (bosunDid s
      { (((s.core.csrPut (BS_LS (b2n l)) (s.core.pc + 4)).csrPut (BS_LE (b2n l)) le).csrPut (BS_LC (b2n l)) c) with
        pc := (if c = 0 then le + 4 else s.core.pc + 4), entered := false })) ∧
    ∀ k, loopFault s l le = some k → canEnter s 0x080 → ∃ t, exec (cmdOf i) s = .next t ∧ trapped s t 4 k le

/-- The value a load takes from address `a`. -/
def Sys2Proof.Spec.loaded (s : State) (op : LdOp) (a : Nat) : Word :=
  let half : BitVec 16 := BitVec.ofNat 16 ((s.byteAt a).toNat + 256 * (s.byteAt (a + 1)).toNat)
  match op with
  | .ldb => BitVec.ofInt 32 (s.byteAt a).toInt
  | .ldbu => Word.nat (s.byteAt a).toNat
  | .ldh => BitVec.ofInt 32 half.toInt
  | .ldhu => Word.nat half.toNat
  | .ldw => Word.nat (half.toNat + 65536 * ((s.byteAt (a + 2)).toNat + 256 * (s.byteAt (a + 3)).toNat))

/-- The address of an access: ra + sext(IMM). -/
def Sys2Proof.Spec.ea (s : State) (ra : Reg) (imm : BitVec 16) : Nat :=
  (BitVec.ofInt 32 ((s.bw ra).toInt + imm.toInt)).toNat

/-- The `n` bytes from `a` hold the low bytes of `v` in `t`, and every other byte is as in `s`. -/
def Sys2Proof.Spec.wrote (s t : State) (a n : Nat) (v : Word) : Prop :=
  (∀ i, i < n → t.byteAt (a + i) = BitVec.ofNat 8 (v.toNat / 256 ^ i)) ∧ memKeptBut s t a n

/-- Bosun's copies have become `c`, one more instruction is counted and memory has changed; nothing else has. -/
def Sys2Proof.Spec.bosunWrote (s t : State) (c : Core) : Prop :=
  t = { bosunDid s c with mem := t.mem }

/-- The value that a CSR instruction writes over `old`, if it writes (14 R611). -/
def Sys2Proof.Spec.csrNew (op : COp) (ra : Reg) (old a : Word) : Option Word :=
  match op with
  | .csrrw => some a
  | .csrrs => if ra = 0 then none else some (old ||| a)
  | .csrrc => if ra = 0 then none else some (old &&& ~~~a)

/-- A CSR that holds a plain value. -/
def Sys2Proof.Spec.plainBs (n : Nat) : Prop := n ∉ [BS_IPEND, BS_CYCLE_LO, BS_CYCLE_HI, BS_INSTRET] ∧ n < 0x080

/-- A load of readable local memory extends the bytes at ra + sext(IMM) into rd, with the store queue empty. A store to a
TCM changes those bytes at once; one elsewhere joins the queue of four, and STORE_PERFORM performs the oldest and
FENCE all. An access that its mode, alignment, region or address space forbids raises the exception of that check and
performs nothing; a misaligned one raises ALIGN with its address. A CSR instruction reads the CSR into rd and writes
it as F gives, unless it writes nothing; a reserved number or a write of a read-only CSR raises ILLEGAL, and one that
Crew may not make raises PRIV. Nothing else changes. -/
def Obligations.BosunLoadsStoresAndCsrAccesses : Prop :=
  (∀ (s : State) (i : BIns), bosunAt s i → Memory.wf s.mem = true →
    (∀ op rd ra imm, i = .ld op rd ra imm →
      (s.dataBars (ea s ra imm) op.size false = none → s.bosun.stores = [] →
        spaceOf s.part (ea s ra imm) ≠ .remote → spaceOf s.part (ea s ra imm) ≠ .csr →
        s.damaged (ea s ra imm) op.size = [] →
        (State.inCn (ea s ra imm) = true → s.rbit CN_CTRL 0 = false ∧ s.rbit CN_CTRL 1 = false) →
        exec (cmdOf i) s = .next (bosunDid s (onward false (s.core.setReg rd.toNat (loaded s op (ea s ra imm)))))) ∧
      (∀ c sub, s.dataBars (ea s ra imm) op.size false = some (c, sub) → canEnter s 0x080 →
        ∃ t, exec (cmdOf i) s = .next t ∧ trapped s t c sub (Word.nat (ea s ra imm))) ∧
      (ea s ra imm % op.size ≠ 0 → s.dataBars (ea s ra imm) op.size false = some (5, 0))) ∧
    (∀ op rs ra imm, i = .st op rs ra imm →
      (s.dataBars (ea s ra imm) op.size true = none →
        (spaceOf s.part (ea s ra imm) = .itcm ∨ spaceOf s.part (ea s ra imm) = .dtcm) →
        s.damaged (ea s ra imm) op.size = [] → s.inject = none →
        ∃ t, exec (cmdOf i) s = .next t ∧ bosunWrote s t (onward false s.core) ∧
          wrote s t (ea s ra imm) op.size (s.bw rs)) ∧
      (s.dataBars (ea s ra imm) op.size true = none → spaceOf s.part (ea s ra imm) ≠ .itcm →
        spaceOf s.part (ea s ra imm) ≠ .dtcm → spaceOf s.part (ea s ra imm) ≠ .remote → s.bosun.stores.length < 4 →
        exec (cmdOf i) s = .next { s with bosun := { s.bosun with
          core := onward false s.core, instret := s.bosun.instret + 1
          stores := s.bosun.stores ++ [(ea s ra imm, leBytes op.size (s.bw rs).toNat)] } }) ∧
      (∀ c sub, s.dataBars (ea s ra imm) op.size true = some (c, sub) → canEnter s 0x080 →
        ∃ t, exec (cmdOf i) s = .next t ∧ trapped s t c sub (Word.nat (ea s ra imm))) ∧
      (ea s ra imm % op.size ≠ 0 → s.dataBars (ea s ra imm) op.size true = some (5, 0))) ∧
    (i = .fence →
      (s.bosun.stores = [] → exec .fence s = .next (bosunDid s (onward false s.core))) ∧
      ∀ a n v, s.bosun.stores = [(a, leBytes n v)] → inRam s.part a n = true → s.damaged a n = [] → s.inject = none →
        ∃ t, exec .fence s = .next t ∧
          t = { s with mem := t.mem, bosun := { s.bosun with
            core := onward false s.core, instret := s.bosun.instret + 1, stores := [] } } ∧
          (∀ k, k < n → t.byteAt (a + k) = (leBytes n v).getD k 0) ∧ memKeptBut s t a n) ∧
    (∀ op rd ra n, i = .csr op rd ra n → plainBs n.toNat → bsKnown n.toNat = true →
      (s.crew = true → bsCrewRead n.toNat = true) →
      (csrNew op ra (s.bsv n.toNat) (s.bw ra) = none →
        exec (cmdOf i) s = .next (bosunDid s (onward false (s.core.setReg rd.toNat (s.bsv n.toNat))))) ∧
      (∀ v, csrNew op ra (s.bsv n.toNat) (s.bw ra) = some v → bsRo n.toNat = false →
        (s.crew = true → bsCrewWrite n.toNat = true) →
        exec (cmdOf i) s = .next (bosunDid s (onward false ((s.core.csrPut n.toNat
          (storeFields (bsFields n.toNat) (s.bsv n.toNat) v)).setReg rd.toNat (s.bsv n.toNat)))))) ∧
    (∀ op rd ra n, i = .csr op rd ra n → canEnter s 0x080 →
      (bsKnown n.toNat = false ∨ (bsRo n.toNat = true ∧ (op = .csrrw ∨ ra ≠ 0)) →
        ∃ t, exec (cmdOf i) s = .next t ∧ trapped s t 2 0 (s.peekWord s.core.pc.toNat)) ∧
      (bsKnown n.toNat = true → (bsRo n.toNat = false ∨ (op ≠ .csrrw ∧ ra = 0)) → s.crew = true →
        (bsCrewRead n.toNat = false ∨ (bsCrewWrite n.toNat = false ∧ (op = .csrrw ∨ ra ≠ 0))) →
        ∃ t, exec (cmdOf i) s = .next t ∧ trapped s t 3 0 (s.peekWord s.core.pc.toNat)))) ∧
  (∀ s : State, s.bosun.stores = [] → exec .storePerform s = .next s) ∧
  ∀ (s : State) (a : Nat) (l : List Byte) (rest : List (Nat × List Byte)), s.bosun.stores = (a, l) :: rest →
    inRam s.part a l.length = true → s.damaged a l.length = [] → s.inject = none → Memory.wf s.mem = true →
    ∃ t, exec .storePerform s = .next t ∧ t = { s with mem := t.mem, bosun := { s.bosun with stores := rest } } ∧
      (∀ k, k < l.length → t.byteAt (a + k) = l.getD k 0) ∧ memKeptBut s t a l.length

/-- A wait that an instruction starts. -/
def Sys2Proof.Spec.waits (s : State) (w : BosunWait) : State := { s with bosun := { s.bosun with wait := some w } }

/-- Bosun waits, runs on, and its copies agree. -/
def Sys2Proof.Spec.waiting (s : State) (w : BosunWait) : Prop :=
  s.bosun.wait = some w ∧ s.bosun.run = true ∧ s.capRuns = true ∧ s.bosun.trail = none ∧ s.bosun.diverge = none ∧
  s.bosun.bundle = []

/-- Bosun has executed an instruction with effect `x`: its copies have become `c` and the instruction is counted. -/
def Sys2Proof.Spec.after (x : State) (c : Core) (n : Word) : State :=
  { x with bosun := { x.bosun with core := c, instret := n + 1 } }

/-- A wait of Bosun is over: the copies have become `c` and one more instruction is counted. -/
def Sys2Proof.Spec.waitOver (s : State) (c : Core) : State :=
  { s with bosun := { s.bosun with core := c, instret := s.bosun.instret + 1, wait := none } }

/-- With the store queue empty, POST offers a tail to its ring, which takes it or answers its code, and writes the code to
rd; BELLADD and BELLSET add to and set their Bell, with what that sets off; BELLRD reads one; TACK in Keeper mode
starts a drain and writes 0, or changes nothing and writes 1 while one is pending or held, and in Crew raises PRIV;
HSIG writes BS_HOSTMSG and sets the host's SIG latch. WAITGE and WAITEQ that hold at issue write 0, SUMRD reads the
oldest summary entry or, without blocking, the empty pair, and WFI goes on with an enabled source pending; otherwise
each of them waits. BOSUN_WAIT_END ends a wait whose condition has been met and BOSUN_WAIT_TIMEOUT one that
BS_WAIT_TMO lets time out, with 1 in rd, or with the empty pair for SUMRD. -/
def Obligations.BosunReachesTheCapstan : Prop :=
  (∀ (s : State) (i : BIns), bosunAt s i →
    (∀ rd ra rb n tail code, i = .post rd ra rb → s.bosun.stores = [] → n = (s.bw ra).toNat % 16384 →
      tail = (s.bw rb).toNat % 65536 → code = offerCode s n tail →
      let c := onward false (s.core.setReg rd.toNat (Word.nat code))
      (code ≠ 0 → exec .post s = .next (bosunDid s c)) ∧
      (code = 0 → ∃ x y, exec .post s = .next (after y c s.bosun.instret) ∧ workFollows x y ∧
        ringSet s x n { s.ring n with
          tail := tail, epochs := (s.ring n).epochs ++ List.replicate ((s.ring n).dist tail (s.ring n).tail) s.epochCur })) ∧
    (∀ ra rb set, s.bosun.stores = [] → i = (if set then .bellset ra rb else .belladd ra rb) →
      ∃ x, bellTook s x ((s.bw ra).toNat % 256) set (s.bw rb) false ∧
        exec (cmdOf i) s = .next (after x (onward false s.core) s.bosun.instret)) ∧
    (∀ rd ra, i = .bellrd rd ra →
      exec .bellrd s = .next (bosunDid s (onward false (s.core.setReg rd.toNat (s.bell ((s.bw ra).toNat % 256)))))) ∧
    (∀ rd, i = .tack rd → s.bosun.stores = [] →
      (s.crew = false → s.draining = false → s.held = false → ringsWf s →
        ∃ x, tacked s x false ∧ exec .tack s = .next (after x (onward false (s.core.setReg rd.toNat 0)) s.bosun.instret)) ∧
      (s.crew = false → s.draining = true ∨ s.held = true →
        exec .tack s = .next (bosunDid s (onward false (s.core.setReg rd.toNat 1)))) ∧
      (s.crew = true → canEnter s 0x080 → ∃ t, exec .tack s = .next t ∧ trapped s t 3 0 (s.peekWord s.core.pc.toNat))) ∧
    (∀ ra, i = .hsig ra → s.bosun.stores = [] → ∃ t, exec .hsig s = .next t ∧
      t = { bosunDid s (onward false (s.core.csrPut BS_HOSTMSG (s.bw ra))) with deck := t.deck } ∧
      deckRegs s t [DK_IRQ_RAW] ∧ raised s t [irqSIG]) ∧
    (∀ rd ra rb (eq : Bool), i = (if eq then .waiteq rd ra rb else .waitge rd ra rb) →
      (State.bellHolds (s.bell ((s.bw ra).toNat % 256)) (s.bw rb) eq = true →
        exec (cmdOf i) s = .next (bosunDid s (onward true (s.core.setReg rd.toNat 0)))) ∧
      (State.bellHolds (s.bell ((s.bw ra).toNat % 256)) (s.bw rb) eq = false →
        exec (cmdOf i) s = .next (waits s {
          kind := if eq then .eq else .ge, sel := (s.bw ra).toNat % 256, operand := s.bw rb, rd := rd.toNat }))) ∧
    (∀ rd rb sh nb, i = .sumrd rd rb sh nb →
      (∀ a b rest, s.fifo (b2n sh) = (a, b) :: rest → ∃ t, exec .sumrd s = .next t ∧
        t = { bosunDid s (onward (!nb) ((s.core.setReg rd.toNat a).setReg rb.toNat b)) with fifos := t.fifos } ∧
        t.fifo (b2n sh) = rest ∧ ∀ k, k ≠ b2n sh → t.fifo k = s.fifo k) ∧
      (s.fifo (b2n sh) = [] → nb = true → exec .sumrd s =
        .next (bosunDid s (onward false ((s.core.setReg rd.toNat 0).setReg rb.toNat (Word.nat 0x80000000))))) ∧
      (s.fifo (b2n sh) = [] → nb = false → exec .sumrd s = .next (waits s {
        kind := .sum, sel := b2n sh, rd := rd.toNat, rd2 := rb.toNat }))) ∧
    (i = .wfi →
      (s.ienabled ≠ 0 → exec .wfi s = .next (bosunDid s (onward true s.core))) ∧
      (s.ienabled = 0 → exec .wfi s = .next (waits s { kind := .wfi, sel := 0 })))) ∧
  (∀ (s : State) (w : BosunWait), waiting s w → w.rd < 32 → w.rd2 < 32 →
    (w.kind = .ge ∨ w.kind = .eq →
      (w.sat = true → exec .bosunWaitEnd s = .next (waitOver s (onward true (s.core.setReg w.rd 0)))) ∧
      (w.sat = false → exec .bosunWaitEnd s = .next s ∧
        (s.bsf BS_WAIT_TMO 0 16 ≠ 0 → exec .bosunWaitTimeout s = .next (waitOver s (onward true (s.core.setReg w.rd 1)))) ∧
        (s.bsf BS_WAIT_TMO 0 16 = 0 → exec .bosunWaitTimeout s = .next s))) ∧
    (w.kind = .wfi → exec .bosunWaitTimeout s = .next s ∧
      (s.ienabled ≠ 0 → exec .bosunWaitEnd s = .next (waitOver s (onward true s.core))) ∧
      (s.ienabled = 0 → exec .bosunWaitEnd s = .next s)) ∧
    (w.kind = .sum →
      (∀ a b rest, s.fifo w.sel = (a, b) :: rest → ∃ t, exec .bosunWaitEnd s = .next t ∧
        t = { waitOver s (onward true ((s.core.setReg w.rd a).setReg w.rd2 b)) with fifos := t.fifos } ∧
        t.fifo w.sel = rest ∧ ∀ k, k ≠ w.sel → t.fifo k = s.fifo k) ∧
      (s.fifo w.sel = [] → exec .bosunWaitEnd s = .next s ∧
        (s.bsf BS_WAIT_TMO 0 16 ≠ 0 → exec .bosunWaitTimeout s = .next (waitOver s
          (onward true ((s.core.setReg w.rd 0).setReg w.rd2 (Word.nat 0x80000000)))))))) ∧
  ∀ s : State, s.bosun.wait = none → exec .bosunWaitEnd s = .next s ∧ exec .bosunWaitTimeout s = .next s

/-- Bosun could execute the word at PC, which is in fetchable, undamaged memory; the copies agree. -/
def Sys2Proof.Spec.fetches (s : State) : Prop :=
  s.bosunReady = true ∧ s.bosun.trail = none ∧ s.bosun.diverge = none ∧ s.bosun.bundle = [] ∧
  (∀ e, e ∈ s.ecc → e.1 ≠ s.core.pc.toNat) ∧ s.damaged s.core.pc.toNat 4 = []

/-- What ERET restores from a frame's first word, without its frame: shadow, PMODE and PIE (15 R655, R664). -/
def Sys2Proof.Spec.returned (s t : State) (image target : Word) : Prop :=
  t.core.pc = Word.nat (target.toNat / 4 * 4) ∧ t.core.delay = none ∧ t.core.entered = false ∧
  t.core.shadow = (if fld image 2 1 = 0 then min (fld image 5 2) 2 else 0) ∧
  t.bsf BS_STATUS 0 1 = fld image 2 1 ∧ t.bsf BS_STATUS 1 1 = fld image 3 1 ∧ t.bsf BS_STATUS 7 1 = 0 ∧
  (∀ n, n ≠ BS_STATUS → t.bsv n = s.bsv n) ∧ t.bsf BS_STATUS 2 5 = s.bsf BS_STATUS 2 5 ∧
  t.bosun.instret = s.bosun.instret + 1

/-- STACK_FAULT of a frame with cause `saved`, found by the entry of exception `code`: the frame that could not be pushed is
in the ESAVE bank (15 R649). -/
def Sys2Proof.Spec.stackFaulted (s t : State) (saved code : Nat) (bad : Word) : Prop :=
  t = { s with bosun := { s.bosun with core := t.core } } ∧
  t.bsv (BS_ESAVE 0) = Word.nat (s.bsf BS_STATUS 0 1 * 4 + s.bsf BS_STATUS 1 1 * 8 + s.core.shadow * 32) ∧
  t.bsv (BS_ESAVE 1) = s.core.pc ∧ t.bsv (BS_ESAVE 2) = Word.nat saved ∧ t.bsv (BS_ESAVE 3) = bad ∧
  t.bsv (BS_ESAVE 4) = s.bw 30 ∧ t.bw 30 = s.bsv BS_ESP ∧ (∀ r : Reg, r ≠ 30 → t.bw r = s.bw r) ∧
  t.bsv BS_CAUSE = Word.nat (0x0A + code * 256) ∧ t.bsv BS_BADADDR = s.bw 30 ∧ t.bsv BS_EPC = s.core.pc ∧
  t.bsf BS_STATUS 0 2 = 0 ∧ t.bsf BS_STATUS 7 1 = 1 ∧ t.core.pc = s.bsv BS_EVEC ∧
  t.core.delay = none ∧ t.core.shadow = 0 ∧ t.core.entered = true

/-- The state in which an INTERRUPT of `s` is taken: a WFI that waits has continued first (15 R663). -/
def Sys2Proof.Spec.wokenUp (s : State) : State :=
  if (s.bosun.wait.map (·.kind)) = some .wfi then waitOver s (onward true s.core) else s

/-- Bosun's edge latches hold these values. -/
def Sys2Proof.Spec.latched (s : State) (halt stale deck : Bool) : State :=
  { s with bosun := { s.bosun with latHalt := halt, latStale := stale, latDeck := deck } }

/-- SYSCALL and BREAK raise their exceptions with CODE as the address; a word that decodes to no instruction raises
ILLEGAL with the word, and a fetch that is not permitted raises its exception with the PC, and neither does anything
else. An INTERRUPT is taken when the conditions of R660 hold and no resync is due, after a WFI that waits has
continued; it names the lowest pending and enabled source and clears its latch if it is an edge source; otherwise the
command changes nothing. A CHECKPOINT that is due enters at its own vector. A frame that cannot be pushed enters
STACK_FAULT with the frame in the ESAVE bank, and no word of memory changes. ERET in Keeper mode restores PC, mode,
interrupt enable and shadow from the frame, and pops it, or from the ESAVE bank; MCREW starts the shadow of two
instructions; both raise PRIV in Crew. -/
def Obligations.BosunExceptionsAndReturns : Prop :=
  (∀ (s : State) (i : BIns), bosunAt s i →
    (∀ code, i = .syscall code → canEnter s 0x080 →
      ∃ t, exec .syscall s = .next t ∧ trapped s t 8 0 (Word.nat code.toNat)) ∧
    (∀ code, i = .brk code → canEnter s 0x080 →
      ∃ t, exec .breakI s = .next t ∧ trapped s t 9 0 (Word.nat code.toNat)) ∧
    (∀ code, i = .syscall code → s.esv = false → s.frameOk (s.bw 30).toNat = false →
      (spaceOf s.part (s.bsv BS_EVEC).toNat = .itcm ∨ spaceOf s.part (s.bsv BS_EVEC).toNat = .rom) →
      ∃ t, exec .syscall s = .next t ∧ stackFaulted s t 8 8 (Word.nat code.toNat)) ∧
    (i = .mcrew →
      (s.crew = false → exec .mcrew s = .next (bosunDid s { s.core with pc := s.core.pc + 4, shadow := 2, entered := false })) ∧
      (s.crew = true → canEnter s 0x080 →
        ∃ t, exec .mcrew s = .next t ∧ trapped s t 3 0 (s.peekWord s.core.pc.toNat))) ∧
    (i = .eret →
      (s.crew = false → s.esv = true → ∃ t, exec .eret s = .next t ∧
        t = { s with bosun := { s.bosun with core := t.core, instret := t.bosun.instret } } ∧
        returned s t (s.bsv (BS_ESAVE 0)) (s.bsv BS_EPC) ∧ ∀ r : Reg, t.bw r = s.bw r) ∧
      (s.crew = false → s.esv = false → s.frameOk ((s.bw 30).toNat + 16) = true → s.damaged (s.bw 30).toNat 8 = [] →
        ∃ t, exec .eret s = .next t ∧
        t = { s with bosun := { s.bosun with core := t.core, instret := t.bosun.instret } } ∧
        returned s t (s.peekWord (s.bw 30).toNat) (s.peekWord ((s.bw 30).toNat + 4)) ∧ t.bw 30 = s.bw 30 + 16 ∧
        ∀ r : Reg, r ≠ 30 → t.bw r = s.bw r) ∧
      (s.crew = false → s.esv = false → s.frameOk ((s.bw 30).toNat + 16) = false →
        (spaceOf s.part (s.bsv BS_EVEC).toNat = .itcm ∨ spaceOf s.part (s.bsv BS_EVEC).toNat = .rom) →
        ∃ t, exec .eret s = .next t ∧ stackFaulted s t 0x0A 0 (s.bw 30)) ∧
      (s.crew = true → canEnter s 0x080 →
        ∃ t, exec .eret s = .next t ∧ trapped s t 3 0 (s.peekWord s.core.pc.toNat)))) ∧
  (∀ s : State, fetches s → canEnter s 0x080 →
    (s.fetchBars s.core.pc = none → decodeB (s.peekWord s.core.pc.toNat) = none →
      ∃ t, exec .illegal s = .next t ∧ trapped s t 2 0 (s.peekWord s.core.pc.toNat)) ∧
    ∀ c sub, s.fetchBars s.core.pc = some (c, sub) → ∃ t, exec .fetch s = .next t ∧ trapped s t c sub s.core.pc) ∧
  (∀ s : State, s.bosun.run = true → s.capRuns = true → s.bosun.ckpt = false → s.bosun.trail = none →
    s.bosun.diverge = none → s.bosun.bundle = [] →
    (s.interrupts = false ∨ s.resyncDue = true → exec .interrupt s = .next s) ∧
    (s.interrupts = true → s.resyncDue = false → canEnter s 0x100 →
      ∃ t, exec .interrupt s = .next t ∧
        entered (latched (wokenUp s) t.bosun.latHalt t.bosun.latStale t.bosun.latDeck) t
          (0x10 + s.intSource * 65536) (wokenUp s).core.pc false 0 0 0x100 ∧
        t.bosun.latHalt = (s.bosun.latHalt && s.intSource != 0) ∧
        t.bosun.latStale = (s.bosun.latStale && s.intSource != 1) ∧
        t.bosun.latDeck = (s.bosun.latDeck && s.intSource != 6))) ∧
  ∀ s : State, s.bosun.run = true → s.capRuns = true → s.bosun.trail = none → s.bosun.diverge = none →
    s.bosun.bundle = [] →
    (s.bosun.ckpt = false → exec .checkpoint s = .next s) ∧
    (s.bosun.ckpt = true → canEnter s 0x180 → ∃ t, exec .checkpoint s = .next t ∧
      entered { s with bosun := { s.bosun with ckpt := false } } t 0x18 s.core.pc false 0 0 0x180)

/-- Bosun issues the word at PC, which is fetched without an error; the copies agree. -/
def Sys2Proof.Spec.issues (s : State) : Prop := fetches s ∧ s.fetchBars s.core.pc = none ∧ canEnter s 0x080

/-- The slot-barred instructions are the branches and jumps, LP and LPI, MCREW, ERET, SYSCALL and BREAK, WAITGE, WAITEQ,
WFI, and SUMRD with NB = 0, and no others. One in a delay slot or in a mode-change shadow raises ILLEGAL, and no
interrupt is taken between a branch and its delay slot. A JR or JALR whose target has bits 1:0 not 0 raises ALIGN at
the jump, writes no register but what entry writes, and leaves no delay slot; a JALR with rd = ra decodes to no
instruction and raises ILLEGAL. -/
def Obligations.SlotBarredInstructionsTrap : Prop :=
  (∀ i : BIns, i.barred = true ↔
    ((∃ op ra rb off, i = .br op ra rb off) ∨ (∃ off, i = .j off) ∨ (∃ off, i = .jal off) ∨ (∃ ra, i = .jr ra) ∨
     (∃ rd ra, i = .jalr rd ra) ∨ (∃ l ra off, i = .lp l ra off) ∨ (∃ l cnt off, i = .lpi l cnt off) ∨ i = .mcrew ∨
     i = .eret ∨ (∃ code, i = .syscall code) ∨ (∃ code, i = .brk code) ∨ (∃ rd ra rb, i = .waitge rd ra rb) ∨
     (∃ rd ra rb, i = .waiteq rd ra rb) ∨ i = .wfi ∨ ∃ rd rb sh, i = .sumrd rd rb sh false)) ∧
  (∀ (s : State) (i : BIns), issues s → decodeB (s.peekWord s.core.pc.toNat) = some i → i.barred = true →
    (s.core.delay ≠ none ∨ s.core.shadow ≠ 0) →
    ∃ t, exec (cmdOf i) s = .next t ∧ trapped s t 2 0 (s.peekWord s.core.pc.toNat)) ∧
  (∀ s : State, s.core.delay ≠ none → (∀ c, s.bosun.trail = some c → c.delay ≠ none) → exec .interrupt s = .next s) ∧
  (∀ (s : State) (i : BIns) (ra : Reg), issues s → decodeB (s.peekWord s.core.pc.toNat) = some i →
    (i = .jr ra ∨ ∃ rd, i = .jalr rd ra) → s.core.delay = none → s.core.shadow = 0 → (s.bw ra).toNat % 4 ≠ 0 →
    ∃ t, exec (cmdOf i) s = .next t ∧ entered s t 5 s.core.pc false 0 (s.bw ra) 0x080) ∧
  ∀ (s : State) (ra : Reg), issues s → s.peekWord s.core.pc.toNat = encodeB (.jalr ra ra) →
    ∃ t, exec .illegal s = .next t ∧ trapped s t 2 0 (s.peekWord s.core.pc.toNat)

/-- A write of SH_CTRL.FLUSH removes every entry of that Sheaf's FIFO, a push that was waiting on the full FIFO then puts
its entry into the empty one, each push raises the summary source of Bosun's interrupts, and a push or a flush of one
Sheaf leaves the other's FIFO as it is. -/
def Obligations.FlushEmptiesTheSummaryFifo : Prop := ∀ (s : State) (inst : Nat), inst < 2 →
  ∃ t, exec (.summaryFlush inst) s = .next t ∧ t = { s with fifos := t.fifos } ∧ t.fifo inst = [] ∧
    t.fifo (1 - inst) = s.fifo (1 - inst) ∧
    ∀ (f : Flight) (detail : Word) (i : Nat) (v w : Word) (rest : List (Nat × Word × Word)), s.capRuns = true →
      s.current 3 inst = some f → f.st = .running (.sheaf detail ((i, v, w) :: rest)) →
      ∃ u, exec (.summaryPush inst) t = .next u ∧ u.fifo inst = [(v, w)] ∧ u.fifo (1 - inst) = s.fifo (1 - inst) ∧
        u.ipend.testBit (3 + inst) = true

/-- The signature of a copy: the CRC-32 of the 52 registers of 16 Table 16.2 in order. -/
def Sys2Proof.Spec.signed (c : Core) : Word :=
  let csrs := [BS_STATUS, BS_EPC, BS_CAUSE, BS_BADADDR, BS_EVEC, BS_IMASK, BS_ESP, BS_SPLIM_LO, BS_SPLIM_HI, BS_LC 0,
    BS_LS 0, BS_LE 0, BS_LC 1, BS_LS 1, BS_LE 1, BS_WAIT_TMO, BS_CREW_IBASE, BS_CREW_DBASE, BS_HOSTMSG, BS_SCRATCH]
  crc32 (wordsBytes ((List.range 31).map (fun i => c.reg (i + 1)) ++ [c.pc] ++ csrs.map c.csrGet))

/-- The trailing copy: the leading one where they agree. -/
def Sys2Proof.Spec.trailing (s : State) : Core := s.bosun.trail.getD s.core

/-- A sweep has written the signatures and counted itself. -/
def Sys2Proof.Spec.swept (s t : State) : Prop :=
  t.reg (bsAddr BS_LS_SIGL) = signed s.core ∧ t.reg (bsAddr BS_LS_SIGT) = signed (trailing s) ∧
  t.rf (bsAddr BS_LS_STAT) 16 16 = (s.rf (bsAddr BS_LS_STAT) 16 16 + 1) % 65536 ∧
  t.rf (bsAddr BS_LS_STAT) 0 8 = s.rf (bsAddr BS_LS_STAT) 0 8

/-- While the pair is clocked and no resync is due, a sweep writes the signatures of the two copies to BS_LS_SIGL and
BS_LS_SIGT and counts itself; signatures that agree do nothing more, and signatures that differ are LATENT_DIVERGE:
with POLICY 1 the device becalms, with POLICY 0 a class L record is written, FT_LATENT counts and CKPT_DUE is set. A
resync that is due at an interruptible boundary with ESV 0 makes the copies agree, clears CKPT_DUE, sets the host's
LATENT latch, and leaves a CHECKPOINT due where Bosun runs, whose wait it ends; while the pair's counter does not run,
or elsewhere, neither does anything. A CSR write of DIVERGE with a register inverts bit 0 of that register in the
trailing copy alone, once the instruction is complete. Nothing else changes. -/
def Obligations.SweepsCompareTheCopies : Prop := ∀ s : State,
  (s.counterRuns = true → s.rbit (bsAddr BS_LS_STAT) 8 = false →
    (signed s.core = signed (trailing s) → ∃ t, exec .sweep s = .next t ∧ t = { s with regs := t.regs } ∧
      csrKept s t [bsAddr BS_LS_STAT, bsAddr BS_LS_SIGL, bsAddr BS_LS_SIGT] ∧ swept s t ∧
      t.rbit (bsAddr BS_LS_STAT) 8 = false) ∧
    (signed s.core ≠ signed (trailing s) → s.dkbit DK_LATENT_POLICY 0 = false →
      ∃ t, exec .sweep s = .next t ∧ t = { s with regs := t.regs, deck := t.deck } ∧ swept s t ∧
      csrKept s t [bsAddr BS_LS_STAT, bsAddr BS_LS_SIGL, bsAddr BS_LS_SIGT, FT_REC 0, FT_REC 1, FT_REC 2, FT_REC 3,
        FT_REC 4, FT_LATENT] ∧ deckRegs s t [DK_FAULT_LO, DK_FAULT_HI, DK_FAULT_SEQ] ∧
      t.reg (FT_REC 0) = Word.nat (0x224 + (s.dkf DK_FAULT_SEQ 0 16 + 1) % 65536 * 65536) ∧ t.reg (FT_REC 1) = 0 ∧
      t.reg (FT_REC 2) = 0 ∧ t.reg (FT_REC 3) = 0 ∧ t.reg (FT_REC 4) = s.deck.ms ∧ t.dk DK_FAULT_LO = 0 ∧
      t.rbit (bsAddr BS_LS_STAT) 8 = true ∧ t.dk DK_FAULT_HI = 0x0224 ∧
      t.dkf DK_FAULT_SEQ 0 16 = (s.dkf DK_FAULT_SEQ 0 16 + 1) % 65536 ∧
      (t.reg FT_LATENT).toNat = min ((s.reg FT_LATENT).toNat + 1) (2 ^ 32 - 1)) ∧
    (signed s.core ≠ signed (trailing s) → s.dkbit DK_LATENT_POLICY 0 = true → s.bosun.stores = [] →
      ∃ u t, exec .sweep s = .next t ∧ u = { s with regs := u.regs } ∧ swept s u ∧
        csrKept s u [bsAddr BS_LS_STAT, bsAddr BS_LS_SIGL, bsAddr BS_LS_SIGT] ∧ becalmedBy u t 0x24 0)) ∧
  (s.counterRuns = true → s.rbit (bsAddr BS_LS_STAT) 8 = true →
    exec .sweep s = .next s ∧
    (s.esv = false → s.interruptible = true →
      ∃ t, exec .resync s = .next t ∧ t = { s with regs := t.regs, deck := t.deck, bosun := t.bosun } ∧
      csrKept s t [bsAddr BS_LS_STAT] ∧ t.reg (bsAddr BS_LS_STAT) = putFld (s.reg (bsAddr BS_LS_STAT)) 8 1 0 ∧
      deckRegs s t [DK_IRQ_RAW] ∧ raised s t [irqLATENT] ∧
      (s.bosun.run = false → t.bosun = { s.bosun with trail := none, ckpt := false }) ∧
      (s.bosun.run = true → t.bosun = { (wokenUp s).bosun with trail := none, ckpt := true, wait := none })) ∧
    (s.esv = true ∨ s.interruptible = false → exec .resync s = .next s)) ∧
  (s.counterRuns = false → exec .sweep s = .next s ∧ exec .resync s = .next s) ∧
  (s.rbit (bsAddr BS_LS_STAT) 8 = false → exec .resync s = .next s) ∧
  ∀ rd ra, bosunAt s (.csr .csrrw rd ra 0x083) → s.crew = false → bit (s.bw ra) 31 = true → fld (s.bw ra) 0 5 ≠ 0 →
    ∃ t, exec .lsDiverge s = .next t ∧ t = { s with regs := t.regs, bosun := t.bosun } ∧
      csrKept s t [bsAddr BS_LS_TEST] ∧ t.rf (bsAddr BS_LS_TEST) 0 5 = fld (s.bw ra) 0 5 ∧
      t.core = onward false (s.core.setReg rd.toNat (s.reg (bsAddr BS_LS_TEST))) ∧
      t.bosun = { s.bosun with
        core := t.core, instret := s.bosun.instret + 1
        trail := some (t.core.setReg (fld (s.bw ra) 0 5) (t.core.reg (fld (s.bw ra) 0 5) ^^^ 1)) }

/-- E_max of R716, for HDR, K, PERIOD and the window height in force. -/
def Sys2Proof.Spec.eMax (s : State) : Nat :=
  let hdr := s.fbit LK_CTRL 3
  let k := s.ff LK_CTRL 6 2 + 1
  let b := min 16383 (s.ff LK_PERIOD 0 20 - s.ff LK_WIN_Y 16 8 * (if hdr then 16 else 8) - 42)
  if hdr then b * 2 ^ k / (2 ^ k + 1) else b

/-- ETRIM's pseudocode of R723, from μ and the E and G of the measured frame. -/
def Sys2Proof.Spec.etrimRule (s : State) (mu e g : Nat) : Nat × Nat :=
  let tgt := s.ff LK_ETRIM 0 10
  let top := min (s.ff LK_ETRIM 16 14) (eMax s)
  let new := max (e / 2) (min (2 * e) (e * tgt / max mu 1))
  if (mu - tgt + (tgt - mu)) * 8 ≤ tgt then (e, g)
  else if top < new ∧ g < s.ff LK_ETRIM 10 2 then (max 1 (min (new / 2) top), g + 1)
  else if 0 < g ∧ new < e ∧ 2 * new ≤ top then (max 1 (min (2 * new) top), g - 1)
  else (max 1 (min new top), g)

/-- A node's codes above black, with the defects of the part and of LK_DEFn taken from their row neighbours. -/
def Sys2Proof.Spec.pix (s : State) (raw : List Nat) (x y : Nat) : Nat :=
  let v (x : Nat) : Nat := raw.getD (y * 320 + x) 0 % 1024 - s.ff LK_BLACK 0 10
  let bad := (s.part.defects.take 64 ++ (List.range 64).map fun n => s.force (LK_DEF n)).any fun w =>
    bit w 31 && fld w 0 9 == x && fld w 16 8 == y
  if bad then (if x = 0 then v 1 else if x = 319 then v 318 else (v (x - 1) + v (x + 1) + 1) / 2) else v x

/-- The merged code of the long and short nodes. -/
def Sys2Proof.Spec.hdrPix (s : State) (long short : List Nat) (x y : Nat) : Nat :=
  if s.fbit LK_CTRL 3 = true ∧ s.ff LK_BLACK 16 10 < pix s long x y then
    pix s short x y * 2 ^ (s.ff LK_CTRL 6 2 + 1)
  else pix s long x y

/-- μ of R723: the mean of the window's long codes. -/
def Sys2Proof.Spec.windowMean (s : State) (long : List Nat) : Nat :=
  boxSum (s.ff LK_WIN_X 0 9) (s.ff LK_WIN_Y 0 8) (s.ff LK_WIN_X 16 9) (s.ff LK_WIN_Y 16 8) (pix s long) /
    (s.ff LK_WIN_X 16 9 * s.ff LK_WIN_Y 16 8)

/-- The unit of SID 1 for a frame. -/
def Sys2Proof.Spec.isUnit (s : State) (f : Frame) (long short : List Nat) (u : List Byte) : Prop :=
  let b := 2 ^ s.ff LK_CTRL 4 2
  let wo := s.ff LK_WIN_X 16 9 / b
  let ho := s.ff LK_WIN_Y 16 8 / b
  let p := (2 * wo * ho + 31) / 32 * 32
  u.length = p + 32 ∧
  (∀ x y, x < wo → y < ho → (u.drop (2 * (y * wo + x))).take 2 =
    leBytes 2 ((boxSum (s.ff LK_WIN_X 0 9 + b * x) (s.ff LK_WIN_Y 0 8 + b * y) b b (hdrPix s long short) + b * b / 2) /
      (b * b))) ∧
  (∀ i, 2 * wo * ho ≤ i → i < p → u.getD i 0 = 0) ∧
  wordAt (bytesWords 8 (u.drop p)) 0 = s.reg LK_FRAME ∧ wordAt (bytesWords 8 (u.drop p)) 1 = f.t0 ∧
  fld (wordAt (bytesWords 8 (u.drop p)) 5) 0 9 = wo % 512 ∧ fld (wordAt (bytesWords 8 (u.drop p)) 5) 16 8 = ho % 256

/-- A frame that starts where frames start takes the next number, the exposure min(EXP, E_max), its short exposure and the
gain in force. When it ends, its unit is sent only where FULL_EN is in force and the die has run since it started
(where that has changed in between, it is open whether): output pixels in row order as the mean of their merged box,
zeros up to a multiple of 32 bytes, and the trailer. A forwarded frame reaches the gesture network as 1,200 box means.
ETRIM takes its measurement and, one frame later, brings the result into force. Outside those states, and with no
frame, nothing changes. -/
def Obligations.ImagerFramesAndTheirUnits : Prop := ∀ s : State,
  (∀ time, s.fbit LK_CTRL 0 = true → s.lk.frame = none → s.dev.mode ≠ .moored → s.dev.mode ≠ .muster →
    (s.dev.mode = .reefed → s.fbit LK_CTRL 2 = true) →
    ∃ t f, exec (.frameStart time) s = .next t ∧ t = { s with regs := t.regs, lk := t.lk } ∧ csrKept s t [LK_FRAME] ∧
      t.reg LK_FRAME = s.reg LK_FRAME + 1 ∧ t.lk = { s.lk with
        frame := some f, fresh := none, fwd := if f.dec then some ((s.reg LK_FRAME + 1).toNat, time) else s.lk.fwd } ∧
      f.live = some s.dieUp ∧ f.pair = s.sw.paired ∧ f.etrim = s.lk.byEtrim ∧ f.t0 = time ∧ f.gain = s.rf LK_EXP_STAT 14 2 ∧
      f.e = min (s.rf LK_EXP_STAT 0 14) (eMax s) ∧
      f.es = (if s.fbit LK_CTRL 3 then max 1 (f.e / 2 ^ (s.ff LK_CTRL 6 2 + 1)) else 0) ∧
      f.strobe = (s.fbit LK_CTRL 10 && decide (s.dev.mode ≠ .becalmed)) ∧
      (f.dec = true ↔ s.fbit LK_CTRL 2 = true ∧ s.ff LK_WIN_X 0 9 = 0 ∧ s.ff LK_WIN_Y 0 8 = 0 ∧
        s.ff LK_WIN_X 16 9 = 320 ∧ s.ff LK_WIN_Y 16 8 = 240 ∧
        ∀ m since, s.lk.fwd = some (m, since) → s.ff LK_DEC 0 4 + 1 ≤ (t.reg LK_FRAME - Word.nat m).toNat ∧
          100000 ≤ (time - since).toNat)) ∧
  (∀ time, s.fbit LK_CTRL 0 = false ∨ s.lk.frame ≠ none ∨ s.dev.mode = .moored ∨ s.dev.mode = .muster ∨
      (s.dev.mode = .reefed ∧ s.fbit LK_CTRL 2 = false) → exec (.frameStart time) s = .next s) ∧
  (∀ long short f, s.lk.frame = some f → s.part.iob = false ∨ s.rbit SW_FWD 1 = false →
    (f.dec = true → s.damaged 0x50010000 0x20000 = []) →
    ∃ t, exec (.frameEnd long short) s = .next t ∧
      t = { s with regs := t.regs, lk := t.lk, cn := t.cn, units := t.units, free := t.free } ∧
      csrKept s t [LK_EXP_STAT, CN_FLOOR] ∧ t.lk.frame = none ∧
      (s.fbit LK_CTRL 1 = true → f.live = some true →
        ∃ u, t.units = s.units ++ [(1, u)] ∧ isUnit s f long short u) ∧
      (s.fbit LK_CTRL 1 = false ∨ f.live = some false → t.units = s.units) ∧
      (s.fbit LK_CTRL 1 = true → f.live = none →
        t.units = s.units ∨ ∃ u, t.units = s.units ++ [(1, u)] ∧ isUnit s f long short u) ∧
      (f.dec = false ∨ s.rbit CN_CTRL 1 = false → t.cn = s.cn ∧ t.reg CN_FLOOR = s.reg CN_FLOOR) ∧
      (f.dec = true → s.rbit CN_CTRL 1 = true →
        ∃ codes, codes.length = 1200 ∧
        t.cn = { s.cn with gs := { s.cn.gs with
          count := s.cn.gs.count + 1, frames := (codes :: s.cn.gs.frames).take 4
          due := s.cn.gs.due ++ [((codes :: s.cn.gs.frames).take 4 ++
            List.replicate 4 (List.replicate 1200 0)).take 4]
          floorOn := t.cn.gs.floorOn } } ∧
        (s.rbit CN_CTRL 3 = false → t.cn.gs.floorOn = s.cn.gs.floorOn ∧ t.reg CN_FLOOR = s.reg CN_FLOOR) ∧
        ∀ x y, x < 40 → y < 30 → codes.getD (y * 40 + x) 0 =
          min 255 ((boxSum (8 * x) (8 * y) 8 8 (pix s long) + 128) / 256)) ∧
      (s.fbit LK_CTRL 9 = false → t.lk = { s.lk with frame := none } ∧ t.reg LK_EXP_STAT = s.reg LK_EXP_STAT) ∧
      (s.fbit LK_CTRL 9 = true → s.lk.waiting = none → t.reg LK_EXP_STAT = s.reg LK_EXP_STAT ∧
        t.lk = { s.lk with
          frame := none, waiting := some ⟨windowMean s long, s.rf LK_EXP_STAT 0 14, s.rf LK_EXP_STAT 14 2⟩ }) ∧
      ∀ x, s.fbit LK_CTRL 9 = true → s.lk.waiting = some x →
        t.lk = { s.lk with frame := none, waiting := none, fresh := some x, byEtrim := true } ∧
        t.rf LK_EXP_STAT 0 14 = (etrimRule s x.mu x.e x.g).1 % 2 ^ 14 ∧
        t.rf LK_EXP_STAT 14 2 = (etrimRule s x.mu x.e x.g).2 % 4) ∧
  ∀ long short, s.lk.frame = none → exec (.frameEnd long short) s = .next s

/-- The receiver is on the part, supplied, enabled and running. -/
def Sys2Proof.Spec.hears (s : State) : Prop :=
  s.part.iob = true ∧ s.dev.straps.phy = true ∧ s.rbit CSI_CTRL 0 = true ∧ s.dieUp = true
/-- A VC is enabled in force. -/
def Sys2Proof.Spec.vcEnabled (s : State) (vc : Nat) : Prop := vc < 2 ∧ s.fbit (CSI_VC vc) 0 = true
/-- Flags of LK_CSI_ERR are set, and nothing else changes. -/
def Sys2Proof.Spec.flagged (s t : State) (flag : Nat) : Prop :=
  t = { s with regs := t.regs } ∧ csrKept s t [CSI_ERR] ∧ t.rbit CSI_ERR flag = true ∧
  ∀ i, i ≠ flag → t.rbit CSI_ERR i = s.rbit CSI_ERR i
/-- The frame of a VC has ended: its bytes, if any, are a unit of its stream. -/
def Sys2Proof.Spec.vcEnded (s t : State) (vc : Nat) (f : CsiFrame) : Prop :=
  t = { s with regs := t.regs, csi := t.csi, units := t.units } ∧
  (∀ v, t.csiOpen v = if v = vc then none else s.csiOpen v) ∧ t.rf (CSI_FRM vc) 16 16 = f.written % 65536 ∧
  t.units = if f.bytes = [] then s.units else s.units ++ [(3 + vc, f.bytes)]

/-- On a part that has the receiver, enabled and running, a Frame Start of an enabled VC opens a frame with its number, a
line of the VC's type is added to the open frame normalised to the line length, with LINE_LEN, CRC and LINE_CNT
flagged where they apply, a Frame End sends what was received as a unit, and what the receiver cannot use sets the
flag of Table 17.3 alone. Clearing EN ends the open frames at the lines received. -/
def Obligations.CameraLinesBecomeUnits : Prop := ∀ s : State, hears s →
  (∀ vc, vcEnabled s vc →
    (∀ num, s.csiOpen vc = none → ∃ t, exec (.csiFrameStart vc num) s = .next t ∧
      t = { s with regs := t.regs, csi := t.csi } ∧ csrKept s t [CSI_FRM vc] ∧
      t.rf (CSI_FRM vc) 0 16 = num % 65536 ∧ t.rf (CSI_FRM vc) 16 16 = s.rf (CSI_FRM vc) 16 16 ∧
      ∀ v, t.csiOpen v = if v = vc then some {} else s.csiOpen v) ∧
    (∀ num f, s.csiOpen vc = some f → s.rbit SW_FWD (3 + vc) = false → ∃ t, exec (.csiFrameStart vc num) s = .next t ∧
      t = { s with regs := t.regs, csi := t.csi, units := t.units } ∧ csrKept s t [CSI_FRM vc, CSI_ERR] ∧
      t.rbit CSI_ERR 5 = true ∧ t.rf (CSI_FRM vc) 0 16 = num % 65536 ∧ t.rf (CSI_FRM vc) 16 16 = f.written % 65536 ∧
      (∀ v, t.csiOpen v = if v = vc then some {} else s.csiOpen v) ∧
      t.units = if f.bytes = [] then s.units else s.units ++ [(3 + vc, f.bytes)]) ∧
    (∀ f, s.csiOpen vc = some f → s.rbit SW_FWD (3 + vc) = false → ∃ t, exec (.csiFrameEnd vc) s = .next t ∧
      vcEnded s t vc f ∧ csrKept s t [CSI_FRM vc, CSI_ERR] ∧
      t.rbit CSI_ERR 8 = (s.rbit CSI_ERR 8 || decide (f.received ≠ s.ff (CSI_VC vc) 16 10))) ∧
    (s.csiOpen vc = none → ∃ t, exec (.csiFrameEnd vc) s = .next t ∧ flagged s t 9) ∧
    (∀ dt l crc, csiType (s.ff (CSI_VC vc) 1 2) = dt →
      (s.csiOpen vc = none → ∃ t, exec (.csiLongPacket vc dt l crc) s = .next t ∧ flagged s t 6) ∧
      (∀ f, s.csiOpen vc = some f → s.ff (CSI_VC vc) 16 10 ≤ f.received →
        ∃ t, exec (.csiLongPacket vc dt l crc) s = .next t ∧ t = { s with regs := t.regs, csi := t.csi } ∧
          csrKept s t [CSI_ERR, CSI_CNT] ∧ t.rbit CSI_ERR 8 = true ∧ t.rbit CSI_ERR 4 = (s.rbit CSI_ERR 4 || !crc) ∧
          ∀ v, t.csiOpen v = if v = vc then some { f with received := f.received + 1 } else s.csiOpen v) ∧
      ∀ f, s.csiOpen vc = some f → f.received < s.ff (CSI_VC vc) 16 10 →
        ∃ t line time, exec (.csiLongPacket vc dt l crc) s = .next t ∧
          t = { s with regs := t.regs, csi := t.csi, free := t.free } ∧
          (0 < f.written → time = f.time ∧ t.free = s.free) ∧ csrKept s t [CSI_ERR, CSI_CNT] ∧
          t.rbit CSI_ERR 7 = (s.rbit CSI_ERR 7 || decide (l.length ≠ lineBytes (s.ff (CSI_VC vc) 1 2) (s.ff (CSI_VC vc) 5 11))) ∧
          t.rbit CSI_ERR 4 = (s.rbit CSI_ERR 4 || !crc) ∧ (crc = true → t.reg CSI_CNT = s.reg CSI_CNT) ∧
          (crc = false → t.rf CSI_CNT 16 8 = min (s.rf CSI_CNT 16 8 + 1) 255) ∧
          (∀ v, t.csiOpen v = if v = vc then
            some { bytes := f.bytes ++ line, written := f.written + 1, received := f.received + 1, time := time
                   pair := if f.written = 0 then s.sw.paired else f.pair } else s.csiOpen v) ∧
          (s.ff (CSI_VC vc) 1 2 ≠ 1 →
            line.length = lineBytes (s.ff (CSI_VC vc) 1 2) (s.ff (CSI_VC vc) 5 11) ∧
            ∀ i, i < line.length → line.getD i 0 = l.getD i 0) ∧
          (s.ff (CSI_VC vc) 1 2 = 1 → ∀ k i, k < s.ff (CSI_VC vc) 5 11 / 4 → i < 4 → (line.drop (8 * k + 2 * i)).take 2 =
            leBytes 2 ((l.getD (5 * k + i) 0).toNat * 4 + (l.getD (5 * k + 4) 0).toNat / 4 ^ i % 4))) ∧
    ∀ dt l crc, csiType (s.ff (CSI_VC vc) 1 2) ≠ dt →
      ∃ t, exec (.csiLongPacket vc dt l crc) s = .next t ∧ flagged s t 9) ∧
  (∀ vc, ¬ vcEnabled s vc → (∀ num, ∃ t, exec (.csiFrameStart vc num) s = .next t ∧ flagged s t 9) ∧
    (∃ t, exec (.csiFrameEnd vc) s = .next t ∧ flagged s t 9) ∧
    ∀ dt l crc, ∃ t, exec (.csiLongPacket vc dt l crc) s = .next t ∧ flagged s t 9) ∧
  (∀ kind, kind < 4 → ∃ t, exec (.csiPacketDiscard kind) s = .next t ∧ t = { s with regs := t.regs } ∧
    csrKept s t [CSI_ERR, CSI_CNT] ∧ t.rbit CSI_ERR kind = true ∧
    (∀ i, i ≠ kind → t.rbit CSI_ERR i = s.rbit CSI_ERR i) ∧
    (∀ lo, (kind, lo) ∈ [(1, 24), (2, 0), (3, 8)] → t.rf CSI_CNT lo 8 = min (s.rf CSI_CNT lo 8 + 1) 255)) ∧
  (∃ t, exec (.csiPacketDiscard 4) s = .next t ∧ flagged s t 9) ∧
  (∀ kind, 4 < kind → exec (.csiPacketDiscard kind) s = .next s) ∧
  ∀ v f, s.capRuns = true → bit v 0 = false → bit v 31 = false → s.csiOpen 0 = some f → s.csiOpen 1 = none → s.rbit SW_FWD 3 = false →
    (∀ g, g ∈ s.cap.flights → g.cls = 4 → flightSid g ≠ 3 ∧ flightSid g ≠ 4) →
    ∃ t, exec (.csiEnWrite v) s = .next t ∧ vcEnded s t 0 f ∧ t.rbit CSI_CTRL 0 = false ∧
      csrKept s t [CSI_CTRL, CSI_FRM 0]

/-- A tick is due. -/
def Sys2Proof.Spec.ticking (s : State) : Prop :=
  s.fbit AU_CTRL 0 = true ∧ s.audio.relock = false ∧ s.dev.mode ≠ .moored ∧ s.dev.mode ≠ .muster ∧
  s.audio.ticks < s.ff AU_RATE 16 13

/-- The bytes of a playback sample and of a frame (R760). -/
def Sys2Proof.Spec.playWidth (s : State) : Nat := if s.fbit AU_PLAY 1 then 4 else 2
def Sys2Proof.Spec.playBytes (s : State) : Nat := if s.fbit AU_PLAY 2 then playWidth s else 2 * playWidth s

/-- The internal value of the playback sample at `l`. -/
def Sys2Proof.Spec.playValue (s : State) (l : List Byte) : Word :=
  if s.fbit AU_PLAY 1 then Word.nat (leNat (l.take 4)) else Word.nat (leNat (l.take 2) * 65536)

/-- The frame that stands first in `l` (R760). -/
def Sys2Proof.Spec.firstFrame (s : State) (l : List Byte) : Word × Word :=
  (playValue s l, playValue s (if s.fbit AU_PLAY 2 then l else l.drop (playWidth s)))

/-- The tick has taken the frame `f`, or silence, and leaves these bytes playing and this queue (R759–R762). -/
def Sys2Proof.Spec.ticked (s t : State) (f : Option (Word × Word)) (playing : List Byte) (queue : List QBlock) : Prop :=
  let under := f.isNone && s.audio.played && (s.fbit AU_PLAY 0 || s.fbit AU_PLAY 3)
  let first := under && !s.audio.inUnder
  let v := f.getD (0, 0)
  t.audio = { s.audio with
    playing := playing, queue := queue, played := s.audio.played || f.isSome, inUnder := under
    past := ((⟨v.1, v.2, under⟩ : PlayFrame) :: s.audio.past).take 4400
    dac := if s.fbit AU_PLAY 0 && s.dieUp then (State.dacCode v.1, State.dacCode v.2) else (0, 0)
    tx := if s.fbit AU_PLAY 3 && decide (s.dev.mode ≠ .becalmed) then s.txFrame v.1 v.2 else []
    tick := s.audio.tick + 1, ticks := s.audio.ticks + 1, time := t.audio.time
    rxLast := t.audio.rxLast, rxNew := t.audio.rxNew, rxBlock := t.audio.rxBlock, slips := t.audio.slips } ∧
  t.reg AU_CNT =
    (if first then putFld (s.reg AU_CNT) 16 8 (min (s.rf AU_CNT 16 8 + 1) 255) else s.reg AU_CNT) ∧
  t.cap = { s.cap with gaps :=
    if first && Store.get 0 s.cap.binds 7 != 0 then NSet.insert s.cap.gaps 7 else s.cap.gaps }

/-- What GTRIM makes of a channel's code and quiet count (R755). -/
def Sys2Proof.Spec.gtrimRule (s : State) (peak g quiet : Nat) : Nat × Nat :=
  let q := if peak < s.ff AU_GTRIM 16 8 * 2 ^ 15 then quiet + 1 else 0
  if s.ff AU_GTRIM 8 8 * 2 ^ 15 ≤ peak then (g - 1, 0)
  else if s.ff AU_GTRIM 24 8 ≤ q ∧ g < s.ff AU_GTRIM 1 5 then (g + 1, 0) else (g, q)

/-- The peak of a converter's samples. -/
def Sys2Proof.Spec.peakOf (s : State) (l : List Word) : Nat :=
  (l.take s.audio.ticks).foldl (fun m v => max m ((converter v).toInt / 256).natAbs) 0

/-- Multiples of 32 that hold `n` bytes. -/
def Sys2Proof.Spec.to32 (n : Nat) : Nat := (n + 31) / 32 * 32

/-- The unit of SID 5 for the block in progress: one plane for each slot of the mask, reference planes, the trailer. -/
def Sys2Proof.Spec.isPdmUnit (s : State) (pdm : List (List Word)) (u : List Byte) : Prop :=
  let ss := if s.fbit AU_CAP5 8 then 4 else 2
  let blk := s.ff AU_RATE 16 13
  let slots := (List.range 8).filter (s.ff AU_CAP5 0 8).testBit
  let ref := s.ff AU_CAP5 9 2
  let body := slots.length * to32 (blk * ss) + (ref % 2 + ref / 2) * to32 ((s.ff AU_CAP5 16 8 + blk) * ss)
  u.length = body + 32 ∧
  (∀ k i, k < slots.length → i < blk → (u.drop (k * to32 (blk * ss) + i * ss)).take ss =
    (auSample (s.fbit AU_CAP5 8) (((pdm.getD (slots.getD k 0) []).map converter).getD i 0)).1) ∧
  wordAt (bytesWords 8 (u.drop body)) 0 = Word.nat s.audio.block ∧
  wordAt (bytesWords 8 (u.drop body)) 1 = s.audio.start ∧ fld (wordAt (bytesWords 8 (u.drop body)) 2) 0 13 = blk ∧
  fld (wordAt (bytesWords 8 (u.drop body)) 3) 0 8 = s.ff AU_CAP5 0 8 ∧ wordAt (bytesWords 8 (u.drop body)) 6 = s.audio.time

/-- A tick that is due takes the next frame of the playing block, else of the next queued one that has been read, else
silence, and the DAC and the I²S port put it out where they are in force; the first of a block gives its TIME; silence
after a played block is an underrun, counted and marked once per run. The I²S port takes its new frame, or repeats the
last and counts a slip. A frame the port receives replaces one not yet taken, which counts a slip. At a block's end
each stream that is not stopped sends one unit of planes and trailer where the die runs, GTRIM moves each enabled ADC
channel's code by at most one, and the next block begins. Where these are not due nothing changes. -/
def Obligations.AudioTicksAndBlocks : Prop := ∀ s : State,
  (ticking s → ∃ t, exec .playbackTick s = .next t ∧
    t = { s with regs := t.regs, audio := t.audio, cap := t.cap, free := t.free } ∧ csrKept s t [AU_CNT, AU_SLIP] ∧
    (s.audio.ticks ≠ 0 → t.audio.time = s.audio.time ∧ t.free = s.free) ∧
    (playBytes s ≤ s.audio.playing.length →
      ticked s t (some (firstFrame s s.audio.playing)) (s.audio.playing.drop (playBytes s)) s.audio.queue) ∧
    (s.audio.playing.length < playBytes s →
      (s.audio.queue = [] → ticked s t none [] []) ∧
      (∀ m k q, s.audio.queue = .reading m k :: q → ticked s t none [] s.audio.queue) ∧
      ∀ l q, s.audio.queue = .block l :: q →
        (playBytes s ≤ l.length → ticked s t (some (firstFrame s l)) (l.drop (playBytes s)) q) ∧
        (l.length < playBytes s → ticked s t none [] q)) ∧
    (s.fbit AU_I2S 0 = false → t.reg AU_SLIP = s.reg AU_SLIP ∧ t.audio.rxBlock = s.audio.rxBlock ∧
      t.audio.rxLast = s.audio.rxLast ∧ t.audio.rxNew = s.audio.rxNew ∧ t.audio.slips = s.audio.slips) ∧
    (s.fbit AU_I2S 0 = true → t.audio.rxLast = s.audio.rxNew.getD s.audio.rxLast ∧ t.audio.rxNew = none ∧
      t.audio.rxBlock = s.audio.rxBlock ++ [t.audio.rxLast] ∧
      t.audio.slips = s.audio.slips + b2n (s.audio.rxNew.isNone && !s.fbit AU_I2S 3) ∧
      t.rf AU_SLIP 0 16 =
        min (s.rf AU_SLIP 0 16 + b2n (s.audio.rxNew.isNone && !s.fbit AU_I2S 3)) 65535)) ∧
  (¬ ticking s → exec .playbackTick s = .next s) ∧
  (∀ slots, s.fbit AU_I2S 0 = true → s.dev.mode ≠ .moored → s.dev.mode ≠ .muster →
    ∃ t f, exec (.i2sFrame slots) s = .next t ∧ t = { s with regs := t.regs, audio := t.audio } ∧
      csrKept s t [AU_SLIP] ∧ t.audio.rxNew = some f ∧ f.length = 2 * 2 ^ s.ff AU_I2S 4 2 ∧
      (∀ i, i < f.length → f.getD i 0 =
        if s.fbit AU_I2S 6 then slots.getD i 0 else Word.nat ((slots.getD i 0).toNat % 65536 * 65536)) ∧
      t.audio = { s.audio with rxNew := some f, slips := t.audio.slips } ∧
      t.audio.slips = s.audio.slips + b2n (s.audio.rxNew.isSome && !s.fbit AU_I2S 3) ∧
      t.rf AU_SLIP 0 16 = min (s.rf AU_SLIP 0 16 + b2n (s.audio.rxNew.isSome && !s.fbit AU_I2S 3)) 65535) ∧
  (∀ slots, s.fbit AU_I2S 0 = false ∨ s.dev.mode = .moored ∨ s.dev.mode = .muster →
    exec (.i2sFrame slots) s = .next s) ∧
  (∀ pdm adc, s.fbit AU_CTRL 0 = true → s.audio.ticks = s.ff AU_RATE 16 13 → s.audio.ticks ≠ 0 →
    s.part.iob = false ∨ (s.rbit SW_FWD 5 = false ∧ s.rbit SW_FWD 6 = false) →
    ∃ t five six, exec (.blockBoundary pdm adc) s = .next t ∧
      t = { s with regs := t.regs, audio := t.audio, units := t.units, free := t.free } ∧ csrKept s t [AU_GAIN_STAT] ∧
      t.audio = { s.audio with
        ticks := 0, start := s.audio.tick, block := s.audio.block + 1, rxBlock := [], slips := 0
        byGtrim := s.audio.byGtrim ||
          (s.fbit AU_GTRIM 0 && !s.fbit AU_CAP6 0 && decide (s.ff AU_CAP6 1 2 ≠ 0))
        quiet0 := t.audio.quiet0, quiet1 := t.audio.quiet1 } ∧
      t.units = s.units ++ five ++ six ∧
      (s.dieUp = false ∨ s.ff AU_CAP5 0 8 = 0 → five = []) ∧
      (s.dieUp = true → s.ff AU_CAP5 0 8 ≠ 0 → ∃ u, five = [(5, u)] ∧ isPdmUnit s pdm u) ∧
      (s.dieUp = false ∨ s.auStopped 6 = true → six = []) ∧
      (s.dieUp = true → s.auStopped 6 = false → ∃ u, six = [(6, u)]) ∧
      (s.fbit AU_GTRIM 0 = false ∨ s.fbit AU_CAP6 0 = true → t.reg AU_GAIN_STAT = s.reg AU_GAIN_STAT) ∧
      (s.fbit AU_GTRIM 0 = true → s.fbit AU_CAP6 0 = false →
        (s.fbit AU_CAP6 1 = true →
          (t.rf AU_GAIN_STAT 0 5, t.audio.quiet0) =
            ((gtrimRule s (peakOf s (adc.getD 0 [])) (s.rf AU_GAIN_STAT 0 5) s.audio.quiet0).1 % 32,
             (gtrimRule s (peakOf s (adc.getD 0 [])) (s.rf AU_GAIN_STAT 0 5) s.audio.quiet0).2)) ∧
        (s.fbit AU_CAP6 2 = true →
          (t.rf AU_GAIN_STAT 8 5, t.audio.quiet1) =
            ((gtrimRule s (peakOf s (adc.getD 1 [])) (s.rf AU_GAIN_STAT 8 5) s.audio.quiet1).1 % 32,
             (gtrimRule s (peakOf s (adc.getD 1 [])) (s.rf AU_GAIN_STAT 8 5) s.audio.quiet1).2)))) ∧
  ∀ pdm adc, s.fbit AU_CTRL 0 = false ∨ s.audio.ticks = 0 ∨ s.audio.ticks < s.ff AU_RATE 16 13 →
    exec (.blockBoundary pdm adc) s = .next s

/-- The controller is there and drives its lines; and it can be written at all, which BECALMED leaves (02 R68; 03 R146). -/
def Sys2Proof.Spec.drives (s : State) (c : Nat) : Prop :=
  (c = 0 ∧ s.dev.mode ∈ [.hoveTo, .underway, .reefed]) ∨ (c = 1 ∧ s.part.iob = true ∧ s.dieUp = true)
def Sys2Proof.Spec.reached (s : State) (c : Nat) : Prop :=
  drives s c ∨ (s.dev.mode = .becalmed ∧ (c = 0 ∨ (c = 1 ∧ s.part.iob = true)))
/-- What controller `c` has put on its lines. -/
def Sys2Proof.Spec.lines (s : State) (c : Nat) : List I2cSym := Store.get [] s.i2cOut c

/-- The transfer of controller `c` has ended with `l` on its lines. -/
def Sys2Proof.Spec.i2cEnded (s t : State) (c result n : Nat) (l : List I2cSym) : Prop :=
  t = { s with regs := t.regs, i2c := t.i2c, i2cOut := t.i2cOut, free := t.free } ∧ t.i2cRun c = none ∧
  lines t c = l ∧ (∀ k, k ≠ c → lines t k = lines s k ∧ t.i2cRun k = s.i2cRun k) ∧ t.rbit (I2C c + 0x18) 0 = false ∧ t.rbit (I2C c + 0x18) 1 = true ∧
  t.rf (I2C c + 0x18) 2 3 = result ∧ t.rf (I2C c + 0x18) 8 4 = n % 16

/-- The reader has ended with a result: MU_QRD_CTRL and MU_QRD_STAT alone have changed. -/
def Sys2Proof.Spec.qrdEnded (s t : State) (result : Nat) : Prop :=
  t = { s with regs := t.regs } ∧ csrKept s t [MU_QRD_CTRL, MU_QRD_STAT] ∧ t.rbit MU_QRD_STAT 0 = false ∧
  t.rbit MU_QRD_STAT 1 = true ∧ t.rf MU_QRD_STAT 2 3 = result

/-- The region that holds the reader's whole destination. -/
def Sys2Proof.Spec.qrdRegion (s : State) (v : Word) : Option Nat :=
  s.findRegion (s.reg MU_QRD_DST).toNat (((s.reg MU_QRD_DST).toNat + 4096 * fld v 0 16 : Nat) - 1 : Int) [2, 12]

/-- GO starts a transfer of at most 8 bytes each way, with the address and bytes as they stand, on a controller that
drives its lines and has none, and otherwise writes its register alone; a transfer ends with the result and the
acknowledged bytes of R735, having sent its bytes up to there, and stores what it read; ABORT ends it with ABORTED;
RECOVER puts its pulses and a STOP on idle lines and changes no register. GO of the QSPI reader starts a transfer that
passes its checks in their order and otherwise ends with STATE, REGION or FLASH; the transfer writes its bytes and
ends with OK. -/
def Obligations.SerialBusesTransferBytes : Prop := ∀ s : State,
  (∀ c, reached s c →
    (∀ v, bit v 31 = true → drives s c → fld v 8 4 ≤ 8 → fld v 12 4 ≤ 8 → s.i2cRun c = none →
      ∃ t, exec (.i2cGo c v) s = .next t ∧ t = { s with regs := t.regs, i2c := t.i2c } ∧
        csrKept s t [I2C c + 4, I2C c + 0x18] ∧
        t.i2cRun c = some { wcnt := fld v 8 4, rcnt := fld v 12 4, addr := fld v 0 7
                            data := (wordsBytes [s.reg (I2C c + 8), s.reg (I2C c + 0x0C)]).take (fld v 8 4) } ∧
        (∀ k, k ≠ c → t.i2cRun k = s.i2cRun k) ∧ t.reg (I2C c + 0x18) = putFld (s.reg (I2C c + 0x18)) 0 1 1 ∧
        t.rf (I2C c + 4) 0 7 = fld v 0 7 ∧ t.rf (I2C c + 4) 8 4 = fld v 8 4 ∧ t.rf (I2C c + 4) 12 4 = fld v 12 4) ∧
    (∀ v, bit v 31 = true → ¬ drives s c ∨ s.i2cRun c ≠ none ∨ 8 < fld v 8 4 ∨ 8 < fld v 12 4 →
      ∃ t, exec (.i2cGo c v) s = .next t ∧ t = { s with regs := t.regs } ∧ csrKept s t [I2C c + 4]) ∧
    (drives s c → s.i2cRun c = none → ∃ t, exec (.i2cRecover c) s = .next t ∧ t = { s with i2cOut := t.i2cOut } ∧
      lines t c = [.pulses 9, .stop] ∧ ∀ k, k ≠ c → lines t k = lines s k)) ∧
  (∀ c, ¬ reached s c → ∀ v, exec (.i2cGo c v) s = .next s) ∧
  (∀ c, ¬ drives s c ∨ s.i2cRun c ≠ none → exec (.i2cRecover c) s = .next s) ∧
  (∀ c, c < 2 →
    (∀ r, s.i2cRun c = some r →
      (∀ free addr acks again rd, (free && addr && decide (r.wcnt ≤ acks) && (decide (r.rcnt = 0) || again)) = false →
        ∃ t, exec (.i2cXferEnd c free addr acks again rd) s = .next t ∧ csrKept s t [I2C c + 0x18] ∧ t.free = s.free ∧
          (free = false → i2cEnded s t c 3 0 []) ∧
          (free = true → addr = false → i2cEnded s t c 1 0 (State.i2cSends r 0 false ++ [.stop])) ∧
          (free = true → addr = true → acks < r.wcnt →
            i2cEnded s t c 2 acks (State.i2cSends r (acks + 1) false ++ [.stop])) ∧
          (free = true → addr = true → r.wcnt ≤ acks →
            i2cEnded s t c 1 r.wcnt (State.i2cSends r r.wcnt true ++ [.stop]))) ∧
      (∀ acks again rd, r.wcnt ≤ acks → r.rcnt = 0 ∨ again = true → r.rcnt ≤ 8 →
        ∃ t, exec (.i2cXferEnd c true true acks again rd) s = .next t ∧
          csrKept s t [I2C c + 0x10, I2C c + 0x14, I2C c + 0x18] ∧ t.free = s.free ∧ i2cEnded s t c 0 r.wcnt (State.i2cSends r r.wcnt (decide (r.rcnt ≠ 0)) ++ [.stop]) ∧
          ∀ i, i < 8 → (wordsBytes [t.reg (I2C c + 0x10), t.reg (I2C c + 0x14)]).getD i 0 =
            if i < r.rcnt then rd.getD i 0
            else (wordsBytes [s.reg (I2C c + 0x10), s.reg (I2C c + 0x14)]).getD i 0) ∧
      ∃ t n, exec (.i2cAbort c) s = .next t ∧ csrKept s t [I2C c + 0x18] ∧ i2cEnded s t c 4 n (lines t c) ∧ n ≤ r.wcnt) ∧
    (s.i2cRun c = none → (∀ free addr acks again rd, exec (.i2cXferEnd c free addr acks again rd) s = .next s) ∧
      exec (.i2cAbort c) s = .next s)) ∧
  (∀ v, bit v 31 = true → s.rbit MU_QRD_STAT 0 = false →
    (s.dieUp = false → ∃ t, exec (.qrdGo v) s = .next t ∧ qrdEnded s t 3) ∧
    (s.dieUp = true →
      (fld v 0 16 = 0 → ∃ t, exec (.qrdGo v) s = .next t ∧ qrdEnded s t 0) ∧
      (fld v 0 16 ≠ 0 → qrdRegion s v = none → ∃ t, exec (.qrdGo v) s = .next t ∧ qrdEnded s t 1) ∧
      ∀ e, fld v 0 16 ≠ 0 → qrdRegion s v = some e →
        ((bit v 21 = false ∧ 2 ^ 24 < (s.reg MU_QRD_FOFF).toNat + 4096 * fld v 0 16 →
          ∃ t, exec (.qrdGo v) s = .next t ∧ qrdEnded s t 2) ∧
        (bit v 21 = true ∨ (s.reg MU_QRD_FOFF).toNat + 4096 * fld v 0 16 ≤ 2 ^ 24 →
          ∃ t, exec (.qrdGo v) s = .next t ∧ t = { s with regs := t.regs, dev := { s.dev with
              reader := some ⟨e, (s.reg MU_QRD_DST).toNat, fld v 0 16⟩ } } ∧
            csrKept s t [MU_QRD_CTRL, MU_QRD_STAT] ∧ t.rbit MU_QRD_STAT 0 = true)))) ∧
  (∀ v, bit v 31 = true → s.rbit MU_QRD_STAT 0 = true → ∃ t, exec (.qrdGo v) s = .next t ∧
    t = { s with regs := t.regs } ∧ csrKept s t [MU_QRD_CTRL]) ∧
  (∀ r data, s.dev.reader = some r → spaceOf s.part r.dst ≠ .remote → s.inject = none →
    inRam s.part r.dst (4096 * r.n) = true → s.ecc = [] → Memory.wf s.mem = true →
    ∃ t, exec (.qrdEnd data) s = .next t ∧ t = { s with regs := t.regs, dev := { s.dev with reader := none }, mem := t.mem } ∧
      csrKept s t [MU_QRD_STAT] ∧ t.rbit MU_QRD_STAT 0 = false ∧ t.rbit MU_QRD_STAT 1 = true ∧
      t.rf MU_QRD_STAT 2 3 = 0 ∧ (∀ i, i < 4096 * r.n → t.byteAt (r.dst + i) = data.getD i 0) ∧
      memKeptBut s t r.dst (4096 * r.n)) ∧
  ∀ data, s.dev.reader = none → exec (.qrdEnd data) s = .next s

/-- A network's history at enable, and its enable bit. -/
def Sys2Proof.Spec.netOf (s : State) (g : Bool) : Net := if g then s.cn.gs else s.cn.kw
def Sys2Proof.Spec.cnLives (s : State) : Prop := s.dev.mode ≠ .moored ∧ s.dev.mode ≠ .muster

/-- The floor after a level (R794). -/
def Sys2Proof.Spec.floorRule (on : Bool) (n l : Nat) : Nat :=
  if on = false ∨ l < n then l else n + (l - n + 511) / 512

/-- Where the block of a network stands, and its length (19 Table 19.2). -/
def Sys2Proof.Spec.blockAt (g : Bool) : Nat × Nat := if g then (0x50008000, 15072) else (0x50000000, 8584)

/-- thr(c) of R794. -/
def Sys2Proof.Spec.thr (s : State) (g : Bool) (c : Nat) : Nat :=
  let t0 := s.rf (if g then CN_GTHR (c / 2) else CN_KTHR (c / 2)) (16 * (c % 2)) 10
  let cfg := if g then CN_GCFG else CN_KCFG
  let n := if (netOf s g).floorOn then s.rf CN_FLOOR (if g then 16 else 0) 15 else 0
  let smax := if g then 510 else 1020
  if s.rbit CN_CTRL (if g then 3 else 2) = true ∧ t0 ≤ smax then min smax (t0 + s.rf cfg 8 8 * (n - s.rf cfg 16 15) / 256)
  else t0

/-- The feed sample of a tick's samples of PDM slots 0 and 1 and of MIC0 (18 R773). -/
def Sys2Proof.Spec.fedBy (s : State) (x : Word × Word × Word) : Word :=
  match s.ff AU_CN 1 2 with
  | 0 => x.1
  | 1 => BitVec.ofInt 32 ((x.1.toInt + x.2.1.toInt) / 2)
  | _ => x.2.2

/-- Network `h` has been switched by a write of its enable bit: a 1 checks its block and starts it from empty history, or
leaves it off with KBAD or GBAD; a 0 leaves it off (19 R791). -/
def Sys2Proof.Spec.switched (s t : State) (h on : Bool) : Prop :=
  let ok := on && blockOk h (s.peek (blockAt h).1 (blockAt h).2)
  t.rbit CN_CTRL (b2n h) = ok ∧ t.rbit CN_STAT (2 + b2n h) = (s.rbit CN_STAT (2 + b2n h) || (on && !ok)) ∧
  netOf t h = (if ok then {} else { netOf s h with due := [] }) ∧
  t.rf CN_FLOOR (16 * b2n h) 15 = (if ok then 0 else s.rf CN_FLOOR (16 * b2n h) 15) ∧
  (h = false → t.cn.feed = if ok then [] else s.cn.feed)

/-- The smoothed score of a class over the inferences of `hist`. -/
def Sys2Proof.Spec.smoothed (hist : List (List Nat)) (c : Nat) : Nat := (hist.map fun q => q.getD c 0).sum

/-- The lowest class below `n` with the best score. -/
def Sys2Proof.Spec.bestOf (hist : List (List Nat)) (n c : Nat) : Prop :=
  c < n ∧ (∀ k, k < n → smoothed hist k ≤ smoothed hist c) ∧ ∀ k, k < c → smoothed hist k < smoothed hist c

/-- A write of the enable bits checks the block of each network whose bit it writes as 1: one that passes starts from
empty history, and one that fails sets KBAD or GBAD and is off; a bit written as 0 turns its network off and discards
what is due. 160 samples of the source that AU_CN selects complete a feature frame of the last 400 feed samples, the
first and every second one after it make a keyword inference due, and its level moves the floor under ATRIM. The
inference that ends is the keyword network's where one is due: the best smoothed score and its lowest class go to
CN_KLAST or CN_GLAST, and an event enters both FIFOs exactly where no hold runs, its class may raise one, and the
score reaches the threshold. An uncorrectable weight discards the inference and disables the network. A read of
CN_EVENT takes the oldest entry, loads its time into CN_EVTIME and clears OVF. -/
def Obligations.TheCrowsnestListensAndWatches : Prop := ∀ s : State,
  (∀ (g : Bool) (c : Instr) (val : Bool), (c, val) ∈ [(Instr.cnNetEnable g, true), (.cnNetDisable g, false)] →
    s.answers = true → cnLives s → (∀ h, s.damaged (blockAt h).1 (blockAt h).2 = []) →
    ∃ t, exec c s = .next t ∧ t = { s with regs := t.regs, cn := t.cn } ∧ csrKept s t [CN_CTRL, CN_FLOOR, CN_STAT] ∧
      t.cn = { s.cn with kw := t.cn.kw, gs := t.cn.gs, feed := t.cn.feed } ∧
      (∀ i, 2 ≤ i → t.rbit CN_CTRL i = s.rbit CN_CTRL i) ∧
      (∀ i, i ≠ 2 → i ≠ 3 → t.rbit CN_STAT i = s.rbit CN_STAT i) ∧
      switched s t g val ∧ switched s t (!g) (s.rbit CN_CTRL (b2n !g))) ∧
  (∀ samples l, l = samples.map (fedBy s) → cnLives s → s.fbit AU_CN 0 = true → s.rbit CN_CTRL 0 = true →
    samples.length = 160 → s.damaged 0x50010000 0x20000 = [] →
    ∃ t, exec (.featureFrame samples) s = .next t ∧ t = { s with regs := t.regs, cn := t.cn } ∧
      csrKept s t [CN_FLOOR] ∧ t.rf CN_FLOOR 16 15 = s.rf CN_FLOOR 16 15 ∧
      t.cn = { s.cn with
        feed := (s.cn.feed ++ l).drop ((s.cn.feed ++ l).length - 400)
        kw := { s.cn.kw with
          frames := (features t.cn.feed :: s.cn.kw.frames).take 100, count := s.cn.kw.count + 1
          due := s.cn.kw.due ++ (if s.cn.kw.count % 2 = 0 then [t.cn.kw.frames.reverse] else [])
          floorOn := s.cn.kw.floorOn || s.rbit CN_CTRL 2 } } ∧
      t.rf CN_FLOOR 0 15 = (if s.rbit CN_CTRL 2 then
        floorRule s.cn.kw.floorOn (s.rf CN_FLOOR 0 15) (features t.cn.feed).sum % 2 ^ 15 else s.rf CN_FLOOR 0 15)) ∧
  (∀ samples, ¬ cnLives s ∨ s.fbit AU_CN 0 = false ∨ s.rbit CN_CTRL 0 = false ∨ samples.length ≠ 160 →
    exec (.featureFrame samples) s = .next s) ∧
  (cnLives s →
    (s.cn.fifo = [] → exec .cnEventRead s = .next { s with cn := { s.cn with ovf := false } }) ∧
    ∀ e rest, s.cn.fifo = e :: rest → ∃ t, exec .cnEventRead s = .next t ∧
      t = { s with regs := t.regs, cn := { s.cn with fifo := rest, ovf := false } } ∧ csrKept s t [CN_EVTIME] ∧
      t.reg CN_EVTIME = e.time) ∧
  (¬ cnLives s → exec .cnEventRead s = .next s) ∧
  (¬ cnLives s ∨ (s.cn.kw.due = [] ∧ s.cn.gs.due = []) → exec .inferenceEnd s = .next s) ∧
  ∀ g x rest, cnLives s → (g = true → s.cn.kw.due = []) → (netOf s g).due = x :: rest →
    (s.ecc = [] → s.dkbit DK_CTRL 0 = false → ∀ codes, codes = (if g then gsInfer else kwInfer)
        (s.peek (blockAt g).1 (blockAt g).2) x → ∀ hist, hist = (codes :: (netOf s g).hist).take (if g then 2 else 4) →
      ∃ t c, exec .inferenceEnd s = .next t ∧ t = { s with regs := t.regs, cn := t.cn, deck := t.deck } ∧
        bestOf hist (if g then 8 else 22) c ∧ csrKept s t [if g then CN_GLAST else CN_KLAST, CN_INF] ∧
        t.reg (if g then CN_GLAST else CN_KLAST) = Word.nat (c + smoothed hist c * 65536) ∧
        t.rf CN_INF (16 * b2n g) 16 = (s.rf CN_INF (16 * b2n g) 16 + 1) % 65536 ∧
        (netOf t g).due = rest ∧ (netOf t g).hist = hist ∧ netOf t (!g) = netOf s (!g) ∧
        ((0 < (netOf s g).hold ∨ (if g then 8 else 20) ≤ c ∨ s.rbit (if g then CN_GMASK else CN_KMASK) c = false ∨
            smoothed hist c < thr s g c) →
          (netOf t g).hold = (netOf s g).hold - 1 ∧ t.deck = s.deck ∧ t.cn.fifo = s.cn.fifo ∧ t.cn.ovf = s.cn.ovf) ∧
        ((netOf s g).hold = 0 → c < (if g then 8 else 20) → s.rbit (if g then CN_GMASK else CN_KMASK) c = true →
          thr s g c ≤ smoothed hist c →
          (netOf t g).hold = s.rf (if g then CN_GCFG else CN_KCFG) 0 8 ∧
          (s.deck.cnFifo.length < 8 → t.dkbit DK_IRQ_RAW irqCN = true ∧ t.deck.cnOvf = s.deck.cnOvf ∧
            t.deck.cnFifo = s.deck.cnFifo ++ [⟨c, b2n g, smoothed hist c, s.deck.ms⟩]) ∧
          (8 ≤ s.deck.cnFifo.length → t.deck = { s.deck with cnOvf := true }) ∧
          (s.cn.fifo.length < 8 →
            t.cn.fifo = s.cn.fifo ++ [⟨c, b2n g, smoothed hist c, s.deck.ms⟩] ∧ t.cn.ovf = s.cn.ovf) ∧
          (8 ≤ s.cn.fifo.length → t.cn.fifo = s.cn.fifo ∧ t.cn.ovf = true))) ∧
    ∀ w, s.ecc = [(w, .double)] → (blockAt g).1 ≤ w → w < (blockAt g).1 + (blockAt g).2 →
      ∃ t, exec .inferenceEnd s = .next t ∧ t = { s with regs := t.regs, cn := t.cn } ∧
        t.rbit CN_CTRL (b2n g) = false ∧ t.rbit CN_STAT 5 = true ∧ (netOf t g).due = [] ∧
        csrKept s t [CN_CTRL, CN_STAT, CN_ECC, CN_ECC_ADDR] ∧ t.reg CN_ECC_ADDR = Word.nat w ∧
        t.cn.fifo = s.cn.fifo ∧ t.cn.ovf = s.cn.ovf ∧ t.cn.feed = s.cn.feed ∧ netOf t (!g) = netOf s (!g) ∧
        netOf t g = { netOf s g with due := [] }

/-- The port is on (20 R807; 02 R107). -/
def Sys2Proof.Spec.portOn (s : State) : Prop :=
  s.part.iob = true ∧ s.dev.straps.phy = true ∧ s.dev.straps.role ≠ 0 ∧ s.rbit SW_CTRL 0 = true ∧ s.dieUp = true
/-- The port is on, in a state of 20 Table 20.1. -/
def Sys2Proof.Spec.portIn (s : State) (st : LinkSt) : Prop := portOn s ∧ s.sw.st = st
/-- `c` is the code of the largest margin measured, the lowest one on a tie (20 R810). -/
def Sys2Proof.Spec.widest (m : List Nat) (c : Nat) : Prop :=
  c < 16 ∧ ∀ k, k < 16 → m.getD k 0 ≤ m.getD c 0 ∧ (k < c → m.getD k 0 < m.getD c 0)

/-- Nothing but the remote writes of `f` hangs on the link. -/
def Sys2Proof.Spec.linkQuiet (s : State) (f : Flight) : Prop :=
  s.sw.inbox = [] ∧ s.deck.doors = [] ∧ s.deck.win = none ∧ (∀ g, g ∈ s.cap.flights → g.cls = 4 → flightSid g ≠ 8) ∧
  (∀ g, g ∈ s.cap.flights → g.ring = f.ring → g.idx = f.idx → g = f) ∧
  (s.sw.ops ≠ [] → f ∈ s.cap.flights) ∧
  ∀ o, o ∈ s.sw.ops → o.answer = none ∧ ∃ r, o.owner = .flight f.ring f.idx r

/-- What hangs on the link has been answered with a reason: the waiting remote writes of `f` end with REMOTE, at most their
cycles counted, and what its engine leaves undefined with them may change (07 R343; 10 R453; 12 R543). -/
def Sys2Proof.Spec.opsFail (s t : State) (f : Flight) (reason : Nat) : Prop :=
  t.sw.ops = [] ∧ (s.sw.ops = [] → t.cap = s.cap ∧ t.free = s.free) ∧
  (s.sw.ops = [] ∨ f.cls ≠ 0 → t.looms = s.looms) ∧ (s.sw.ops = [] ∨ f.cls ≠ 2 → t.mills = s.mills) ∧
  ∀ o r st d c rest, s.sw.ops = o :: rest → o.owner = .flight f.ring f.idx r → f ∈ s.cap.flights →
    f.st = .running (.remoteWrite st d c) →
    ∃ c', c' ≤ c ∧ t.cap = { s.cap with flights := s.cap.flights.map fun g =>
      if g.ring == f.ring && g.idx == f.idx then
        { g with st := .ended 0x31 (Word.nat (r + reason * 256)) c', out := [] } else g }

/-- The port has left LINKED and stands in `st`; `drops` counts the exits from ACTIVE. -/
def Sys2Proof.Spec.leftLinked (s t : State) (f : Flight) (st : LinkSt) (drops txde : Nat) : Prop :=
  t = { s with regs := t.regs, deck := t.deck, sw := t.sw, cap := t.cap, looms := t.looms, mills := t.mills, free := t.free } ∧
  csrKept s t [SW_CNT1] ∧ t.rf SW_CNT1 24 8 = min (s.rf SW_CNT1 24 8 + s.sw.bellQ.length) 255 ∧
  t.rf SW_CNT1 8 8 = min (s.rf SW_CNT1 8 8 + 1) 255 ∧ t.rf SW_CNT1 0 8 = min (s.rf SW_CNT1 0 8 + drops) 255 ∧
  t.rf SW_CNT1 16 8 = s.rf SW_CNT1 16 8 ∧ deckRegs s t [DK_IRQ_RAW] ∧ raised s t [irqLINK] ∧ opsFail s t f 1 ∧
  t.sw = { s.sw with
    st := st, txde := txde, linked := false, paired := false, peer := [], own := [], slots := 0, rxSeq := 0, txSeq := 0
    nak := false, replay := [], next := 0, crq := {}, crs := {}, cms := {}, bellQ := [], rspQ := [], msgQ := []
    ops := [], inbox := [] }

/-- The port has gone from ACTIVE to DETECT and keeps its session. -/
def Sys2Proof.Spec.recovers (s t : State) : Prop :=
  t = { s with regs := t.regs, sw := { s.sw with st := .detect, txde := s.rf SW_LTRIM 6 2 } } ∧ csrKept s t [SW_CNT1] ∧
  t.rf SW_CNT1 0 8 = min (s.rf SW_CNT1 0 8 + 1) 255 ∧ t.rf SW_CNT1 8 24 = s.rf SW_CNT1 8 24

/-- The role of R806, from the own strap, the peer's role (0 A, 1 B, 2 automatic) and the serials: none in a conflict. -/
def Sys2Proof.Spec.roleRule (own peer : Nat) (mine theirs : Word) : Option Bool :=
  if own = 3 then
    (if peer = 0 then some true else if peer = 1 then some false
     else if mine = theirs then none else some (decide (mine.toNat < theirs.toNat)))
  else if own = peer + 1 then none else some (decide (own = 2))

/-- Each training step takes the port from its state to the next, a time-out back to DETECT; ALIGN resolves the role or
sets ROLE_ERR; EQUALISE sets the codes where LTRIM acts, and in ACTIVE LTRIM moves one step towards a neighbour with
strictly fewer errors only. Lock loss and RETRAIN take an ACTIVE port to DETECT, and keep it LINKED while HOLD is not
0. DROP, a HOLD that ends and a HOLD of 0 leave LINKED: the latch is raised, the session's numbers, credits and queues
start afresh, dropped Bells are counted, and a descriptor that waits for its remote writes fails REMOTE with DOWN. In
another state of the port, none of these changes anything. -/
def Obligations.SweadeTrainsRecoversAndLeaves : Prop := ∀ s : State,
  (portIn s .detect → exec .linkBlockLock s = .next { s with sw := { s.sw with st := .equalise, eqDone := false } }) ∧
  (∀ m0 m1, portIn s .equalise → ∃ t, exec (.linkEqualiseDone m0 m1) s = .next t ∧
    t = { s with regs := t.regs, sw := { s.sw with st := .align } } ∧ csrKept s t [SW_LTRIM] ∧
    t.rf SW_LTRIM 0 8 = s.rf SW_LTRIM 0 8 ∧
    (s.rbit SW_LTRIM 0 = true → s.rbit SW_LTRIM 1 = false →
      widest m0 (t.rf SW_LTRIM 8 4) ∧ widest m1 (t.rf SW_LTRIM 12 4) ∧ t.rf SW_LTRIM 16 16 = s.rf SW_LTRIM 16 16) ∧
    (s.rbit SW_LTRIM 0 = false ∨ s.rbit SW_LTRIM 1 = true → t.reg SW_LTRIM = s.reg SW_LTRIM)) ∧
  (∀ role sn swap pol, role < 3 → portIn s .align →
    (∀ b, roleRule s.dev.straps.role.toNat role s.part.serial sn = some b →
      exec (.linkAlignDone role sn swap pol) s = .next { s with sw := { s.sw with
        st := .config, roleB := b, lswap := swap, pol := pol % 4, slots := 4095 } }) ∧
    (roleRule s.dev.straps.role.toNat role s.part.serial sn = none →
      ∃ t, exec (.linkAlignDone role sn swap pol) s = .next t ∧
        t = { s with regs := t.regs, sw := { s.sw with st := .detect, txde := s.rf SW_LTRIM 6 2 } } ∧
        csrKept s t [SW_STAT] ∧ t.rbit SW_STAT 12 = true)) ∧
  (∀ st, (st = .equalise ∨ st = .align ∨ st = .config) → portIn s st →
    exec .linkTrainTimeout s = .next { s with sw := { s.sw with st := .detect, txde := s.rf SW_LTRIM 6 2 } }) ∧
  ((¬ portIn s .detect → exec .linkBlockLock s = .next s) ∧
   (¬ portIn s .equalise → ∀ m0 m1, exec (.linkEqualiseDone m0 m1) s = .next s) ∧
   (¬ portIn s .align → ∀ role sn swap pol, exec (.linkAlignDone role sn swap pol) s = .next s) ∧
   (¬ portIn s .equalise → ¬ portIn s .align → ¬ portIn s .config → exec .linkTrainTimeout s = .next s) ∧
   (¬ portIn s .active → exec .linkLockLoss s = .next s ∧ ∀ l a b c, exec (.ltrimAdapt l a b c) s = .next s) ∧
   (s.sw.linked = false ∨ s.sw.st = .active → exec .linkHoldExpiry s = .next s)) ∧
  (∀ c, c = Instr.linkLockLoss ∨ (c = Instr.swRetrain ∧ s.dev.vinOk = true ∧ s.reg SW_CTRL = 1) → portIn s .active →
    (s.rf SW_CFG 0 8 ≠ 0 → ∃ t, exec c s = .next t ∧ recovers s t) ∧
    (∀ f, s.rf SW_CFG 0 8 = 0 → s.sw.linked = true → linkQuiet s f →
      ∃ t, exec c s = .next t ∧ leftLinked s t f .detect 1 (s.rf SW_LTRIM 6 2))) ∧
  (∀ f, s.sw.linked = true → linkQuiet s f →
    (∀ st, s.dev.vinOk = true → s.reg SW_CTRL = 1 → portIn s st →
      ∃ t, exec .swDrop s = .next t ∧ leftLinked s t f .detect 0 (s.rf SW_LTRIM 6 2)) ∧
    (s.sw.st ≠ .active → ∃ t, exec .linkHoldExpiry s = .next t ∧ leftLinked s t f s.sw.st 0 s.sw.txde)) ∧
  ∀ lane lower here upper, lane < 2 → portIn s .active → s.rbit SW_LTRIM 0 = true → s.rbit SW_LTRIM 1 = false →
    ∀ c, c = s.rf SW_LTRIM (8 + 4 * lane) 4 →
    ∃ t, exec (.ltrimAdapt lane lower here upper) s = .next t ∧ t = { s with regs := t.regs, free := t.free } ∧
      csrKept s t [SW_LTRIM] ∧ t.rf SW_LTRIM 0 8 = s.rf SW_LTRIM 0 8 ∧
      t.rf SW_LTRIM (12 - 4 * lane) 4 = s.rf SW_LTRIM (12 - 4 * lane) 4 ∧
      (t.rf SW_LTRIM (8 + 4 * lane) 4 = c ∨ (t.rf SW_LTRIM (8 + 4 * lane) 4 + 1 = c ∧ lower < here) ∨
        (t.rf SW_LTRIM (8 + 4 * lane) 4 = c + 1 ∧ upper < here)) ∧
      ((0 < c ∧ lower < here) ∨ (c < 15 ∧ upper < here) → t.rf SW_LTRIM (8 + 4 * lane) 4 ≠ c)

/-- What every flit of an ACTIVE port brings: its acknowledgement, credits and NAK. -/
def Sys2Proof.Spec.acked (s u : State) (f : Flit) : Prop :=
  u = { s with sw := u.sw, regs := u.regs } ∧ csrKept s u [SW_CNT0, FT_CE_SWEADE] ∧
  u.sw = { s.sw with
    replay := u.sw.replay, next := u.sw.next, crq := { s.sw.crq with peer := f.crq % 256 }
    crs := { s.sw.crs with peer := f.crs % 256 }, cms := { s.sw.cms with peer := f.cms % 256 } } ∧
  ((∀ x, x ∈ s.sw.replay → x.seq ≠ f.ack) → u.sw.replay = s.sw.replay) ∧
  (∀ a x b, s.sw.replay = a ++ x :: b → x.seq = f.ack → (∀ y, y ∈ a → y.seq ≠ f.ack) → u.sw.replay = b) ∧
  (f.nak = true → u.sw.replay ≠ [] → u.sw.next = 0 ∧ u.rf SW_CNT0 16 16 = s.rf SW_CNT0 16 16 ∧
    u.rf SW_CNT0 0 16 = min (s.rf SW_CNT0 0 16 + 1) 65535 ∧
    u.rf FT_CE_SWEADE 0 32 = min (s.rf FT_CE_SWEADE 0 32 + 1) (2 ^ 32 - 1)) ∧
  (f.nak = false ∨ u.sw.replay = [] →
    u.regs = s.regs ∧ u.sw.next = s.sw.next - (s.sw.replay.length - u.sw.replay.length))

/-- The answer to a request of the peer (R823). -/
def Sys2Proof.Spec.answer (typ status : Nat) (w : Word) (data : List Byte) : TxFlit :=
  { typ := typ, hdr := [Word.nat (fld w 0 20 + status * 2 ^ 20), 0, 0, 0], data := data }

/-- The reason for which a request for `n` bytes at `k` is refused (R824); 0 where it is not. -/
def Sys2Proof.Spec.refusal (s : State) (k n : Nat) (write : Bool) : Nat :=
  if s.capRuns = false ∨ s.bindRuns = true then 4
  else if s.part.granary < k + n then 5
  else if (s.findRegion (0x10000000 + k : Nat) (((0x10000000 + k + n : Nat) : Int) - 1) [5, if write then 2 else 1]) = none
    then 6
  else 0

/-- R820's conditions on the words 2 to 7 of both CONFIGs. -/
def Sys2Proof.Spec.pairs (own peer : List Word) : Prop :=
  bit (wordAt own 1) 3 = true ∧ bit (wordAt peer 1) 3 = true ∧ wordAt own 3 = wordAt peer 3 ∧ wordAt own 3 ≠ 0 ∧
  (wordAt own 5).toNat ≤ fld (wordAt peer 1) 0 3 * 16777216 ∧ (wordAt peer 5).toNat ≤ fld (wordAt own 1) 0 3 * 16777216 ∧
  fld (wordAt own 0) 24 8 ≤ fld (wordAt peer 0) 16 8 ∧ fld (wordAt peer 0) 24 8 ≤ fld (wordAt own 0) 16 8

/-- The port of `u` is PAIRED by these CONFIGs (20 R820). -/
def Sys2Proof.Spec.pairedBy (u : State) (own peer : List Word) : Prop :=
  u.sw.linked = true ∧ own ≠ [] ∧ peer ≠ [] ∧ pairs own peer

/-- Words 2 to 7 of the port's CONFIG (20 R819). -/
def Sys2Proof.Spec.configWords (s : State) : List Word :=
  [Word.nat (s.dkId + (s.dk 8).toNat * 65536),
   Word.nat (s.part.stackCount + (if s.dev.image.isSome then 8 else 0) + s.sw.session % 256 * 256), s.part.serial,
   (s.dev.image.map (·.key)).getD 0, Word.nat s.sw.rxSeq, (s.dev.image.map (·.peer)).getD 0]

/-- A CONFIG is due in ACTIVE (20 R819). -/
def Sys2Proof.Spec.due (s : State) : Prop :=
  4095 ≤ s.sw.slots ∨ ∃ i, i ∈ [0, 1, 2, 3, 5] ∧ wordAt (configWords s) i ≠ wordAt s.sw.own i

/-- The port of `u` enters ACTIVE and LINKED afresh on the peer's CONFIG (20 R813, R819, R820). -/
def Sys2Proof.Spec.linkedAfresh (u t : State) (hdr : List Word) : Prop :=
  t = { u with sw := t.sw, deck := t.deck } ∧ deckRegs u t [DK_IRQ_RAW] ∧ raised u t [irqLINK] ∧
  (t.sw.paired = true ↔ u.sw.own ≠ [] ∧ hdr ≠ [] ∧ pairs u.sw.own hdr) ∧
  t.sw = { u.sw with
    st := .active, linked := true, paired := t.sw.paired, peer := hdr, session := (u.sw.session + 1) % 256 }

/-- The unit of SID 8 for a message (R831). -/
def Sys2Proof.Spec.msgUnit (sid no : Nat) (time : Word) (trunc : Bool) (l : List Byte) : List Byte :=
  l ++ List.replicate ((l.length + 31) / 32 * 32 - l.length) 0 ++
    wordsBytes [Word.nat (sid + b2n trunc * 256), Word.nat no, Word.nat l.length, time, 0, 0, 0, 0]

/-- A flit has left in this slot, with the port's acknowledgement, credits and NAK. -/
def Sys2Proof.Spec.flitLeft (s t : State) (f : TxFlit) : Prop :=
  t.sw.nak = false ∧ t.sw.slots = (if f.typ = 0xF then 0 else s.sw.slots + 1) ∧ t.sw.scr = scrAfter s.sw.tx s.sw.scr ∧
  t.sw.tx = some (.flit ⟨f, (s.sw.rxSeq + 4095) % 4096, s.sw.crq.freed, s.sw.crs.freed, s.sw.cms.freed, s.sw.nak⟩)

/-- A CONFIG has left, and the port is PAIRED as it and the peer's latest one say (20 R819, R820). -/
def Sys2Proof.Spec.configLeft (s t : State) : Prop :=
  t = { s with sw := { s.sw with
    own := configWords s, paired := t.sw.paired, nak := t.sw.nak, slots := t.sw.slots, tx := t.sw.tx, scr := t.sw.scr } } ∧
  (t.sw.paired = true ↔ pairedBy s (configWords s) s.sw.peer) ∧ flitLeft s t { typ := 0xF, hdr := configWords s }

/-- A training block of a lane: TS1 with EQ_DONE and the serial number, or TS2; the bits that R812 does not give are those
of `x` (20 R812). -/
def Sys2Proof.Spec.trainBlock (s : State) (ts1 done : Bool) (x : List Byte) (lane : Nat) : List Byte :=
  let role : Byte := if s.dev.straps.role = 1 then 0 else if s.dev.straps.role = 2 then 1 else 2
  if ts1 then [0x4B, BitVec.ofNat 8 lane, role, BitVec.ofNat 8 ((x.getD 0 0).toNat / 2 * 2 + b2n done)] ++
    leBytes 4 s.part.serial.toNat
  else [0x45, BitVec.ofNat 8 lane, role] ++ x

/-- Performing what an accepted flit asks: WR, RD and BELL. -/
def Sys2Proof.Spec.requested (v : State) (f : Flit) (go : Instr → State → Prop) : Prop :=
  let w := wordAt f.hdr 0
  let n := fld w 0 8
  let k := (wordAt f.hdr 1).toNat
  let freed : Credit := { v.sw.crq with freed := (v.sw.crq.freed + 1) % 256 }
  (f.data.length = n → ∃ t, go (.flitWr f) t ∧ t = { v with sw := t.sw, regs := t.regs, mem := t.mem } ∧
    t.sw = { v.sw with crq := freed, rspQ := v.sw.rspQ ++ [answer 8 (refusal v k n true) w []] } ∧
    (refusal v k n true = 0 → t.regs = v.regs ∧ memKeptBut v t (0x10000000 + k) n ∧
      ∀ i, i < n → t.byteAt (0x10000000 + k + i) = f.data.getD i 0) ∧
    (refusal v k n true ≠ 0 → t.mem = v.mem ∧ csrKept v t [SW_CNT2] ∧
      t.rf SW_CNT2 16 16 = min (v.rf SW_CNT2 16 16 + 1) 65535)) ∧
  (∃ t, go (.flitRd f) t ∧ t = { v with sw := t.sw, regs := t.regs } ∧
    t.sw = { v.sw with crq := freed, rspQ := v.sw.rspQ ++ [answer 9 (refusal v k n false) w
      (if refusal v k n false = 0 then v.peek (0x10000000 + k) n else [])] } ∧
    (refusal v k n false = 0 → t.regs = v.regs) ∧
    (refusal v k n false ≠ 0 → csrKept v t [SW_CNT2] ∧ t.rf SW_CNT2 16 16 = min (v.rf SW_CNT2 16 16 + 1) 65535)) ∧
  (v.capRuns = true → v.bindRuns = false → fld w 24 2 = 1 ∨ fld w 24 2 = 2 → ∃ t, go (.flitBell f) t ∧
    bellTook { v with sw := { v.sw with crq := freed } } t (k % 256) (decide (fld w 24 2 = 2)) (wordAt f.hdr 2) false) ∧
  (v.capRuns = true → v.bindRuns = false → fld w 24 2 ≠ 1 → fld w 24 2 ≠ 2 →
    go (.flitBell f) { v with sw := { v.sw with crq := freed } }) ∧
  (v.capRuns = false ∨ v.bindRuns = true → ∃ t, go (.flitBell f) t ∧
    t = { v with regs := t.regs, sw := { v.sw with crq := freed } } ∧ csrKept v t [SW_CNT1] ∧
    t.rf SW_CNT1 24 8 = min (v.rf SW_CNT1 24 8 + 1) 255)

/-- What an accepted MSG segment does while no message but `m` is in progress. -/
def Sys2Proof.Spec.segment (v : State) (f : Flit) (go : Instr → State → Prop) : Prop :=
  let w := wordAt f.hdr 0
  let sid := fld w 8 4
  let no := (wordAt f.hdr 1).toNat
  let l := f.data.take (fld w 0 8)
  let freed : Credit := { v.sw.cms with freed := (v.sw.cms.freed + 1) % 256 }
  (bit w 12 = true → v.sw.inbox = [] → v.waiting 8 = none → ∃ t, go (.flitMsg f) t ∧
    t = { v with sw := t.sw, cap := t.cap, regs := t.regs } ∧ csrKept v t [SW_CNT1] ∧
    t.rf SW_CNT1 16 8 = min (v.rf SW_CNT1 16 8 + 1) 255 ∧
    t.cap = { v.cap with
      gaps := if Store.get 0 v.cap.binds 8 ≠ 0 then NSet.insert v.cap.gaps 8 else v.cap.gaps } ∧
    t.sw = { v.sw with
      cms := freed, inbox := if bit w 13 then [] else [⟨sid, no, wordAt f.hdr 3, l, none⟩] }) ∧
  (∀ g, bit w 12 = true → bit w 13 = false → v.sw.inbox = [] → v.waiting 8 = some g → ∃ t, go (.flitMsg f) t ∧
    t = { v with sw := t.sw, cap := t.cap } ∧
    t.sw = { v.sw with
      cms := freed, inbox := [⟨sid, no, wordAt f.hdr 3, l, some (g.ring, g.idx, v.cap.gaps.contains 8)⟩] } ∧
    t.cap = { v.cap with
      gaps := NSet.erase v.cap.gaps 8
      flights := v.cap.flights.map fun h =>
        if h.ring == g.ring && h.idx == g.idx then { h with st := .running (.streamRecv 0 false) } else h }) ∧
  ∀ m g gap a b, bit w 12 = false → bit w 13 = true → v.sw.inbox = [m] → m.sid = sid → m.msgno = no →
    m.dest = some (g.ring, g.idx, gap) → g ∈ v.cap.flights →
    (∀ h, h ∈ v.cap.flights → h.ring = g.ring → h.idx = g.idx → h = g) → flightSid g = 8 →
    g.st = .running (.streamRecv a b) → v.viewOut = [] →
    inRam v.part (wordAt g.desc 5).toNat
      (min (msgUnit sid no m.time (bit w 14) (m.bytes ++ l)).length (wordAt g.desc 7).toNat) = true →
    ∃ t c u, c ≤ 0xFFFFFFFF ∧ go (.flitMsg f) t ∧ u = msgUnit sid no m.time (bit w 14) (m.bytes ++ l) ∧
      t = { v with sw := { v.sw with cms := freed, inbox := [] }, cap := t.cap, mem := t.mem, free := t.free } ∧
      (∀ i, i < min u.length (wordAt g.desc 7).toNat → t.byteAt ((wordAt g.desc 5).toNat + i) = u.getD i 0) ∧
      memKeptBut v t (wordAt g.desc 5).toNat (min u.length (wordAt g.desc 7).toNat) ∧
      t.cap = { v.cap with flights := v.cap.flights.map fun h =>
        if h.ring == g.ring && h.idx == g.idx then { h with
          st := .ended 0 (streamDetail (min u.length (wordAt g.desc 7).toNat) (decide ((wordAt g.desc 7).toNat < u.length))
            gap false) c
          addr := 0 } else h }

/-- Operation `o` alone is outstanding: the last remote write of `f`, which waits for it. -/
def Sys2Proof.Spec.lastWrite (s : State) (o : RemOp) (f : Flight) (r st : Nat) (d : Word) (c : Nat) : Prop :=
  s.sw.ops = [o] ∧ o.answer = none ∧ o.sent = true ∧ o.owner = .flight f.ring f.idx r ∧ f ∈ s.cap.flights ∧
  (∀ g, g ∈ s.cap.flights → g.ring = f.ring → g.idx = f.idx → g = f) ∧ f.st = .running (.remoteWrite st d c) ∧
  f.out = [] ∧ s.deck.doors = [] ∧ s.deck.win = none

/-- `f` has ended with its outcome where the reason is 0; otherwise with REMOTE, at most its cycles counted, and what its
engine leaves undefined then may change (07 R343; 10 R453; 12 R543). -/
def Sys2Proof.Spec.writeDone (s t : State) (f : Flight) (r reason st : Nat) (d : Word) (c : Nat) : Prop :=
  t = { s with sw := { s.sw with ops := [] }, cap := t.cap, looms := t.looms, mills := t.mills, free := t.free } ∧
  (reason = 0 → t.free = s.free) ∧ (reason = 0 ∨ f.cls ≠ 0 → t.looms = s.looms) ∧
  (reason = 0 ∨ f.cls ≠ 2 → t.mills = s.mills) ∧
  ∃ c', c' ≤ c ∧ (reason = 0 → c' = c) ∧ t.cap = { s.cap with flights := s.cap.flights.map fun g =>
    if g.ring == f.ring && g.idx == f.idx then { g with
      st := if reason = 0 then .ended st d c else .ended 0x31 (Word.nat (r + reason * 256)) c', out := [] } else g }

/-- Every flit of an ACTIVE port brings its acknowledgement, credits and NAK, which is all a NULL flit does. A sequenced
flit out of order only sets NAK; the next expected one is performed: a WR or RD is checked in R824's order, has its
effect on the Granary and is answered; a BELL acts on its Bell or is dropped; a MSG segment opens, extends or delivers
its message, or loses it; a response, and a time-out, answers its operation, and a late response does nothing. A
CONFIG makes a port in CONFIG LINKED, afresh or where the session that a HOLD kept goes on, and pairs it as R820 says.
A slot sends nothing while the port is OFF, a training block on each lane while it trains (role B also in CONFIG: log
120), role A's CONFIG in CONFIG, and in ACTIVE a CONFIG that is due, else the next flit to resend, else a new one with
its number, else NULL. SW_RBELL sends a Bell operation, or drops and counts it. What is discarded is counted and sets
NAK. -/
def Obligations.SweadeFlitsAndTheirEffects : Prop := ∀ s : State,
  (∀ f : Flit, portIn s .active → ∃ u, exec (.flitNull f) s = .next u ∧ acked s u f ∧
    (f.seq ≠ s.sw.rxSeq → ∀ c, c ∈ [Instr.flitWr f, .flitRd f, .flitBell f, .flitMsg f, .flitWrrsp f, .flitRdrsp f] →
      exec c s = .next { u with sw := { u.sw with nak := true } }) ∧
    (f.seq = s.sw.rxSeq → ∀ v, v = { u with sw := { u.sw with rxSeq := (u.sw.rxSeq + 1) % 4096 } } →
      (s.ecc = [] → s.inject = none → Memory.wf s.mem = true →
        requested v f (fun c t => exec c s = .next t) ∧ segment v f (fun c t => exec c s = .next t)) ∧
      ∀ c, c = Instr.flitWrrsp f ∨ c = Instr.flitRdrsp f →
        ∀ w, w = { v with sw := { v.sw with crs := { v.sw.crs with freed := (v.sw.crs.freed + 1) % 256 } } } →
        ((∀ o, o ∈ s.sw.ops → o.num % 4096 ≠ fld (wordAt f.hdr 0) 8 12) → exec c s = .next w) ∧
        ∀ o g r st d n, lastWrite s o g r st d n → o.num % 4096 = fld (wordAt f.hdr 0) 8 12 →
          ∃ t, exec c s = .next t ∧ writeDone w t g r (fld (wordAt f.hdr 0) 20 4) st d n)) ∧
  (∀ o g r st d n, s.rf SW_CFG 8 16 ≠ 0 → lastWrite s o g r st d n →
    ∃ t, exec (.remoteTimeout (o.num % 4096)) s = .next t ∧ writeDone s t g r 3 st d n) ∧
  (∀ tag, s.rf SW_CFG 8 16 = 0 → exec (.remoteTimeout tag) s = .next s) ∧
  (∀ f : Flit, portIn s .config → s.sw.paired = false → s.sw.linked = false →
    ∃ t, exec (.flitConfig f) s = .next t ∧ linkedAfresh s t f.hdr) ∧
  (∀ (f : Flit) g, portIn s .config → s.sw.linked = true → linkQuiet s g →
    (fld (wordAt f.hdr 1) 8 8 ≠ fld (wordAt s.sw.peer 1) 8 8 ∨ (s.sw.txSeq ≠ fld (wordAt f.hdr 4) 0 12 ∧
      ∀ x, x ∈ s.sw.replay → x.seq ≠ fld (wordAt f.hdr 4) 0 12)) →
    ∃ u t, exec (.flitConfig f) s = .next t ∧ leftLinked s u g .config 0 s.sw.txde ∧ linkedAfresh u t f.hdr) ∧
  (∀ (f : Flit) a r, portIn s .config → s.sw.linked = true →
    (s.sw.paired = true → pairedBy s s.sw.own f.hdr) →
    fld (wordAt f.hdr 1) 8 8 = fld (wordAt s.sw.peer 1) 8 8 → s.sw.replay = a ++ r →
    (∀ y, y ∈ a → y.seq ≠ fld (wordAt f.hdr 4) 0 12) →
    (r = [] ∧ s.sw.txSeq = fld (wordAt f.hdr 4) 0 12 ∨ ∃ x b, r = x :: b ∧ x.seq = fld (wordAt f.hdr 4) 0 12) →
    ∃ t, exec (.flitConfig f) s = .next t ∧ t = { s with sw := { s.sw with
      st := .active, peer := f.hdr, replay := r, next := 0, paired := t.sw.paired } } ∧
      (t.sw.paired = true ↔ pairedBy s s.sw.own f.hdr)) ∧
  (∀ f : Flit, portIn s .active → (s.sw.paired = true → pairedBy s s.sw.own f.hdr) →
    ∃ u t, exec (.flitNull f) s = .next u ∧ exec (.flitConfig f) s = .next t ∧
      t = { u with sw := { u.sw with peer := f.hdr, paired := t.sw.paired } } ∧
      (t.sw.paired = true ↔ pairedBy s s.sw.own f.hdr)) ∧
  (∀ f : Flit, ¬ portIn s .active → ¬ portIn s .config → exec (.flitConfig f) s = .next s ∧ exec .flitDiscard s = .next s) ∧
  (portIn s .active ∨ portIn s .config → ∃ t, exec .flitDiscard s = .next t ∧
    t = { s with regs := t.regs, sw := { s.sw with nak := true } } ∧ csrKept s t [SW_CNT0] ∧
    t.rf SW_CNT0 16 16 = min (s.rf SW_CNT0 16 16 + 1) 65535 ∧ t.rf SW_CNT0 0 16 = s.rf SW_CNT0 0 16) ∧
  (¬ portIn s .active → (∀ f, exec (.flitNull f) s = .next s) ∧
    ∀ f c, c ∈ [Instr.flitWr f, .flitRd f, .flitBell f, .flitMsg f, .flitWrrsp f, .flitRdrsp f] → exec c s = .next s) ∧
  (¬ portOn s → exec .flitSlot s = .next s) ∧
  (∀ ts1 : Bool, portOn s → s.sw.st ≠ .active → (s.sw.st = .config → s.sw.roleB = true) →
    (ts1 = true ↔ s.sw.st = .detect ∨ s.sw.st = .equalise) →
    ∃ t x, exec .flitSlot s = .next t ∧ x.length = 5 ∧ t = { s with free := t.free, sw := { s.sw with
      eqDone := t.sw.eqDone, scr := t.sw.scr
      tx := some (.train (trainBlock s ts1 t.sw.eqDone x 0) (trainBlock s ts1 t.sw.eqDone x 1)) } } ∧
      (t.sw.eqDone = true → s.sw.st = .equalise) ∧ (s.sw.st = .equalise → s.sw.eqDone = true → t.sw.eqDone = true)) ∧
  (portIn s .config → s.sw.roleB = false → (s.sw.paired = true → pairedBy s (configWords s) s.sw.peer) →
    ∃ t, exec .flitSlot s = .next t ∧ configLeft s t) ∧
  (portIn s .active →
    (due s → (s.sw.paired = true → pairedBy s (configWords s) s.sw.peer) →
      ∃ t, exec .flitSlot s = .next t ∧ configLeft s t) ∧
    (¬ due s →
      (∀ f, s.sw.replay[s.sw.next]? = some f → f.sends < 16 → ∃ t, exec .flitSlot s = .next t ∧
        t = { s with sw := { s.sw with
          replay := s.sw.replay.set s.sw.next { f with sends := f.sends + 1 }, next := s.sw.next + 1
          nak := t.sw.nak, slots := t.sw.slots, tx := t.sw.tx, scr := t.sw.scr } } ∧ flitLeft s t { f with sends := f.sends + 1 }) ∧
      (∀ f, s.sw.replay[s.sw.next]? = some f → 16 ≤ f.sends → s.rf SW_CFG 0 8 ≠ 0 →
        ∃ t, exec .flitSlot s = .next t ∧ recovers s t) ∧
      (s.sw.replay[s.sw.next]? = none → s.sw.paired = false → s.sw.rspQ = [] → ∃ t, exec .flitSlot s = .next t ∧
        t = { s with sw := { s.sw with nak := t.sw.nak, slots := t.sw.slots, tx := t.sw.tx, scr := t.sw.scr } } ∧
        flitLeft s t { typ := 0 }) ∧
      (∀ f rest, s.sw.replay[s.sw.next]? = none → s.sw.paired = false → s.sw.rspQ = f :: rest → f.typ ≠ 0xF →
        s.sw.replay.length < 64 → (s.sw.crs.sent + 256 - s.sw.crs.peer) % 256 < 32 → ∃ t, exec .flitSlot s = .next t ∧
        t = { s with sw := { s.sw with
          rspQ := rest, crs := { s.sw.crs with sent := (s.sw.crs.sent + 1) % 256 }, txSeq := (s.sw.txSeq + 1) % 4096
          replay := s.sw.replay ++ [{ f with seq := s.sw.txSeq, sends := 1 }], next := s.sw.replay.length + 1
          nak := t.sw.nak, slots := t.sw.slots, tx := t.sw.tx, scr := t.sw.scr } } ∧
        flitLeft s t { f with seq := s.sw.txSeq, sends := 1 }) ∧
      (∀ o rest, s.sw.replay[s.sw.next]? = none → s.sw.paired = true → s.sw.rspQ = [] → s.sw.msgQ = [] →
        s.sw.bellQ = [] → s.sw.ops = o :: rest → o.sent = false → o.answer = none → (∀ p, p ∈ rest → p.num ≠ o.num) →
        s.sw.replay.length < 64 → (s.sw.crq.sent + 256 - s.sw.crq.peer) % 256 < 32 → ∃ t f, exec .flitSlot s = .next t ∧
        f = { typ := if o.write then 1 else 2, seq := s.sw.txSeq, sends := 1, data := o.data
              hdr := [Word.nat (o.len + o.num % 4096 * 256), Word.nat (o.addr - 0x70000000), 0, 0] } ∧
        t = { s with sw := { s.sw with
          ops := { o with sent := true } :: rest, crq := { s.sw.crq with sent := (s.sw.crq.sent + 1) % 256 }
          txSeq := (s.sw.txSeq + 1) % 4096, replay := s.sw.replay ++ [f], next := s.sw.replay.length + 1
          nak := t.sw.nak, slots := t.sw.slots, tx := t.sw.tx, scr := t.sw.scr } } ∧ flitLeft s t f))) ∧
  ∀ v, bit v 31 = true → fld v 8 2 = 1 ∨ fld v 8 2 = 2 → s.part.iob = true → s.dieUp = true → s.dev.vinOk = true →
    ∃ t, exec (.swRbellSend v) s = .next t ∧ t = { s with regs := t.regs, sw := t.sw } ∧
      csrKept s t [SW_RBELL, SW_CNT1] ∧ t.rf SW_RBELL 0 10 = fld v 0 10 ∧
      (s.sw.paired = true → t.reg SW_CNT1 = s.reg SW_CNT1 ∧ t.sw = { s.sw with
        bellQ := s.sw.bellQ ++ [(s.sw.issued, fld v 0 8, decide (fld v 8 2 = 2), s.reg SW_RBELL_VAL)] }) ∧
      (s.sw.paired = false → t.sw = s.sw ∧ t.rf SW_CNT1 24 8 = min (s.rf SW_CNT1 24 8 + 1) 255)
end

