-- ==== Sys2Proof/Laws/Bits.lean ====
section
/-! SUPPORT. What a field reads as after a field is set, and the bytes of a number. -/

namespace Sys2Proof.Machine

theorem fld_lt {n : Nat} (v : BitVec n) (lo w : Nat) : fld v lo w < 2 ^ w := Nat.mod_lt _ (Nat.two_pow_pos w)

/-- Bit `i` of a field. -/
theorem testBit_fld {n : Nat} (v : BitVec n) (lo w i : Nat) :
    (fld v lo w).testBit i = (decide (i < w) && v.getLsbD (lo + i)) := by
  unfold fld
  rw [Nat.testBit_mod_two_pow, ← Nat.shiftRight_eq_div_pow, Nat.testBit_shiftRight]
  rfl

theorem testBit_putFld_nat (v lo w x i : Nat) :
    (v - v / 2 ^ lo % 2 ^ w * 2 ^ lo + x % 2 ^ w * 2 ^ lo).testBit i =
      if lo ≤ i ∧ i < lo + w then x.testBit (i - lo) else v.testBit i := by
  have hlow : v % 2 ^ lo < 2 ^ lo := Nat.mod_lt _ (Nat.two_pow_pos lo)
  have hsplit : v = v / 2 ^ lo / 2 ^ w * 2 ^ (lo + w) + v / 2 ^ lo % 2 ^ w * 2 ^ lo + v % 2 ^ lo := by
    have h1 := Nat.div_add_mod v (2 ^ lo)
    have h2 := Nat.div_add_mod (v / 2 ^ lo) (2 ^ w)
    have h3 : v / 2 ^ lo / 2 ^ w * 2 ^ (lo + w) = 2 ^ lo * (2 ^ w * (v / 2 ^ lo / 2 ^ w)) := by rw [pow_add]; ring
    calc v = 2 ^ lo * (v / 2 ^ lo) + v % 2 ^ lo := h1.symm
      _ = 2 ^ lo * (2 ^ w * (v / 2 ^ lo / 2 ^ w) + v / 2 ^ lo % 2 ^ w) + v % 2 ^ lo := by rw [h2]
      _ = _ := by rw [h3]; ring
  have hrw : v - v / 2 ^ lo % 2 ^ w * 2 ^ lo + x % 2 ^ w * 2 ^ lo =
      2 ^ lo * (2 ^ w * (v / 2 ^ lo / 2 ^ w) + x % 2 ^ w) + v % 2 ^ lo := by
    have h3 : v / 2 ^ lo / 2 ^ w * 2 ^ (lo + w) = 2 ^ lo * (2 ^ w * (v / 2 ^ lo / 2 ^ w)) := by rw [pow_add]; ring
    have : v - v / 2 ^ lo % 2 ^ w * 2 ^ lo = v / 2 ^ lo / 2 ^ w * 2 ^ (lo + w) + v % 2 ^ lo := by omega
    rw [this, h3]; ring
  rw [hrw, Nat.testBit_two_pow_mul_add _ hlow]
  split
  · rename_i hi
    rw [if_neg (by omega), Nat.testBit_mod_two_pow]
    simp [hi]
  · rename_i hi
    have hx : x % 2 ^ w < 2 ^ w := Nat.mod_lt _ (Nat.two_pow_pos w)
    rw [Nat.testBit_two_pow_mul_add _ hx]
    by_cases h : i < lo + w
    · rw [if_pos (by omega), if_pos (by omega), Nat.testBit_mod_two_pow]
      simp [show i - lo < w by omega]
    · rw [if_neg (by omega), if_neg (by omega), ← Nat.shiftRight_eq_div_pow, ← Nat.shiftRight_eq_div_pow,
        Nat.testBit_shiftRight, Nat.testBit_shiftRight]
      congr 1; omega

/-- Bit `i` after a field is set. -/
theorem getLsbD_putFld {n : Nat} (v : BitVec n) (lo w x i : Nat) :
    (putFld v lo w x).getLsbD i =
      (decide (i < n) && (if lo ≤ i ∧ i < lo + w then x.testBit (i - lo) else v.getLsbD i)) := by
  unfold putFld fld
  rw [BitVec.getLsbD_ofNat, testBit_putFld_nat]
  rfl

/-- A field just set reads as set. -/
theorem fld_putFld_self {n : Nat} (v : BitVec n) (lo w x : Nat) (h : lo + w ≤ n) :
    fld (putFld v lo w x) lo w = x % 2 ^ w := by
  apply Nat.eq_of_testBit_eq
  intro i
  rw [testBit_fld, getLsbD_putFld, Nat.testBit_mod_two_pow]
  by_cases hi : i < w
  · simp [hi, show lo + i < n by omega]
  · simp [hi]

/-- A field apart from the one just set reads as before. -/
theorem fld_putFld_ne {n : Nat} (v : BitVec n) (lo w x lo' w' : Nat) (h : lo' + w' ≤ lo ∨ lo + w ≤ lo') :
    fld (putFld v lo w x) lo' w' = fld v lo' w' := by
  apply Nat.eq_of_testBit_eq
  intro i
  rw [testBit_fld, testBit_fld, getLsbD_putFld]
  by_cases hi : i < w'
  · rw [if_neg (by omega)]
    by_cases hn : lo' + i < n
    · simp [hn]
    · simp [hn, BitVec.getLsbD_of_ge v (lo' + i) (by omega)]
  · simp [hi]

@[simp] theorem length_leBytes (n x : Nat) : (leBytes n x).length = n := by
  induction n generalizing x with
  | zero => rfl
  | succ n ih => simp [leBytes, ih]

/-- The bytes of a number spell it. -/
theorem leNat_leBytes (n x : Nat) : leNat (leBytes n x) = x % 256 ^ n := by
  induction n generalizing x with
  | zero => simp [leBytes, leNat, Nat.mod_one]
  | succ n ih =>
    simp only [leBytes, leNat, ih, BitVec.toNat_ofNat]
    rw [show 256 ^ (n + 1) = 256 * 256 ^ n by rw [pow_succ]; ring, Nat.mod_mul]

theorem leWord_leBytes (v : Word) : leWord (leBytes 4 v.toNat) = v := by
  unfold leWord
  rw [leNat_leBytes]
  apply BitVec.eq_of_toNat_eq
  rw [BitVec.toNat_ofNat]
  have := v.isLt
  omega

theorem length_wordsBytes (ws : List Word) : (wordsBytes ws).length = 4 * ws.length := by
  induction ws with
  | nil => rfl
  | cons w t ih => simp only [wordsBytes, List.flatMap_cons, List.length_append, length_leBytes, List.length_cons] at *; omega

end Sys2Proof.Machine
end

