-- ==== Sys2Proof/Laws/Store.lean ====
section
/-! SUPPORT. The laws of sparse data in canonical form: what a read after a write gives, and that every
operation keeps the form. -/

namespace Sys2Proof.Machine.Store

variable {α : Type} [DecidableEq α]

/-! ### One key -/

theorem get_eq_default_of_wfFrom (d : α) {lo k : Nat} {m : List (Nat × α)} (h : wfFrom d lo m = true) (hk : k < lo) :
    get d m k = d := by
  induction m generalizing lo with
  | nil => rfl
  | cons e t ih =>
    obtain ⟨j, v⟩ := e
    simp only [wfFrom, Bool.and_eq_true, decide_eq_true_eq] at h
    obtain ⟨⟨hj, -⟩, ht⟩ := h
    simp only [get, if_neg (show ¬ j = k by omega)]
    exact ih ht (by omega)

theorem wfFrom_mono (d : α) {lo lo' : Nat} {m : List (Nat × α)} (h : wfFrom d lo m = true) (hl : lo' ≤ lo) :
    wfFrom d lo' m = true := by
  cases m with
  | nil => rfl
  | cons e t =>
    obtain ⟨j, v⟩ := e
    simp only [wfFrom, Bool.and_eq_true, decide_eq_true_eq] at h ⊢
    exact ⟨⟨by omega, h.1.2⟩, h.2⟩

omit [DecidableEq α] in
theorem get_append (d : α) {a b : List (Nat × α)} {k : Nat} (ha : ∀ e ∈ a, e.1 ≠ k) : get d (a ++ b) k = get d b k := by
  induction a with
  | nil => rfl
  | cons e t ih =>
    obtain ⟨j, v⟩ := e
    have hj : j ≠ k := ha (j, v) (by simp)
    simp only [List.cons_append, get, if_neg hj]
    exact ih fun e he => ha e (by simp [he])

omit [DecidableEq α] in
theorem get_append_left (d : α) {a b : List (Nat × α)} {k : Nat} (hb : ∀ e ∈ b, e.1 ≠ k) :
    get d (a ++ b) k = get d a k := by
  induction a with
  | nil => simpa [get] using get_append d (b := []) hb
  | cons e t ih =>
    obtain ⟨j, v⟩ := e
    simp only [List.cons_append, get, ih]

omit [DecidableEq α] in
theorem get_filter (d : α) (m : List (Nat × α)) (p : Nat → Bool) {k : Nat} (hk : p k = true) :
    get d (m.filter fun e => p e.1) k = get d m k := by
  induction m with
  | nil => rfl
  | cons e t ih =>
    obtain ⟨j, v⟩ := e
    simp only [List.filter_cons]
    split
    · simp only [get, ih]
    · rename_i hj
      have : j ≠ k := by rintro rfl; exact hj hk
      simp only [get, if_neg this, ih]

/-- A read after a write at the same key gives the value written. -/
@[simp] theorem get_set_self (d : α) (m : List (Nat × α)) (k : Nat) (v : α) : get d (set d m k v) k = v := by
  unfold set
  rw [List.append_assoc, get_append]
  · split
    · rename_i hv
      subst hv
      simpa [get] using get_append_left v (a := []) (b := m.filter fun e => decide (k < e.1)) (k := k)
        (by intro e he; have := (List.mem_filter.1 he).2; simp at this; omega)
    · simp [get]
  · intro e he; have := (List.mem_filter.1 he).2; simp at this; omega

/-- A write leaves every other key as it reads. -/
theorem get_set_ne' (d d' : α) (m : List (Nat × α)) {k k' : Nat} (v : α) (h : k' ≠ k) :
    get d (set d' m k v) k' = get d m k' := by
  unfold set
  have hm : ∀ e ∈ (if v = d' then [] else [(k, v)]), e.1 ≠ k' := by
    intro e he
    split at he
    · simp at he
    · simp at he; subst he; exact Ne.symm h
  rcases Nat.lt_or_gt_of_ne h with hlt | hgt
  · rw [List.append_assoc, get_append_left]
    · exact get_filter d m (fun i => decide (i < k)) (by simpa using hlt)
    · intro e he
      rcases List.mem_append.1 he with he | he
      · exact hm e he
      · have := (List.mem_filter.1 he).2; simp at this; omega
  · rw [get_append]
    · exact get_filter d m (fun i => decide (k < i)) (by simpa using hgt)
    · intro e he
      rcases List.mem_append.1 he with he | he
      · have := (List.mem_filter.1 he).2; simp at this; omega
      · exact hm e he

theorem get_set_ne (d : α) (m : List (Nat × α)) {k k' : Nat} (v : α) (h : k' ≠ k) :
    get d (set d m k v) k' = get d m k' := get_set_ne' d d m v h

/-! ### Runs of keys -/

theorem wfFrom_filter (d : α) (p : Nat × α → Bool) {lo : Nat} {m : List (Nat × α)} (h : wfFrom d lo m = true) :
    wfFrom d lo (m.filter p) = true := by
  induction m generalizing lo with
  | nil => rfl
  | cons e t ih =>
    obtain ⟨j, v⟩ := e
    simp only [wfFrom, Bool.and_eq_true, decide_eq_true_eq] at h
    obtain ⟨⟨hj, hv⟩, ht⟩ := h
    simp only [List.filter_cons]
    split
    · simp only [wfFrom, Bool.and_eq_true, decide_eq_true_eq]
      exact ⟨⟨hj, hv⟩, ih ht⟩
    · exact wfFrom_mono d (ih ht) (by omega)

theorem wfFrom_cells (d : α) (k : Nat) (vs : List α) : wfFrom d k (cells d k vs) = true := by
  induction vs generalizing k with
  | nil => rfl
  | cons v t ih =>
    simp only [cells]
    split
    · exact wfFrom_mono d (ih (k + 1)) (by omega)
    · rename_i hv
      simp only [wfFrom, Bool.and_eq_true, decide_eq_true_eq]
      exact ⟨⟨le_refl k, by simpa using hv⟩, ih (k + 1)⟩

theorem mem_cells (d : α) {k : Nat} {vs : List α} {e : Nat × α} (h : e ∈ cells d k vs) :
    k ≤ e.1 ∧ e.1 < k + vs.length := by
  induction vs generalizing k with
  | nil => simp [cells] at h
  | cons v t ih =>
    simp only [cells] at h
    split at h
    · have := ih h; simp only [List.length_cons]; omega
    · rcases List.mem_cons.1 h with rfl | h
      · simp only [List.length_cons]; omega
      · have := ih h; simp only [List.length_cons]; omega

theorem wfFrom_lower (d : α) {lo hi : Nat} {m : List (Nat × α)} (h : wfFrom d lo m = true)
    (hm : ∀ e ∈ m, hi ≤ e.1) : wfFrom d hi m = true := by
  cases m with
  | nil => rfl
  | cons e t =>
    obtain ⟨j, v⟩ := e
    have := hm (j, v) (by simp)
    simp only [wfFrom, Bool.and_eq_true, decide_eq_true_eq] at h ⊢
    exact ⟨⟨this, h.1.2⟩, h.2⟩

theorem wfFrom_append (d : α) {lo mid : Nat} {a b : List (Nat × α)} (ha : wfFrom d lo a = true)
    (hm : ∀ e ∈ a, e.1 < mid) (hb : wfFrom d mid b = true) (hl : lo ≤ mid) : wfFrom d lo (a ++ b) = true := by
  induction a generalizing lo with
  | nil => exact wfFrom_mono d hb hl
  | cons e t ih =>
    obtain ⟨j, v⟩ := e
    simp only [wfFrom, Bool.and_eq_true, decide_eq_true_eq, List.cons_append] at ha ⊢
    have := hm (j, v) (by simp)
    exact ⟨ha.1, ih ha.2 (fun e he => hm e (by simp [he])) (by simpa using this)⟩

/-- Writing one key keeps the canonical form. -/
theorem wf_set (d : α) {m : List (Nat × α)} (h : wf d m = true) (k : Nat) (v : α) : wf d (set d m k v) = true := by
  unfold wf set
  rw [List.append_assoc]
  refine wfFrom_append d (mid := k) (wfFrom_filter d _ h) (by intro e he; simpa using (List.mem_filter.1 he).2) ?_
    (Nat.zero_le k)
  refine wfFrom_append d (mid := k + 1) ?_ ?_ ?_ (by omega)
  · split
    · rfl
    · rename_i hv; simp [wfFrom, hv]
  · intro e he
    split at he
    · simp at he
    · simp at he; subst he; simp
  · refine wfFrom_lower d (wfFrom_filter d _ h) ?_
    intro e he; have := (List.mem_filter.1 he).2; simp at this; omega

/-- Writing a run of keys keeps the canonical form. -/
theorem wf_setRun (d : α) {m : List (Nat × α)} (h : wf d m = true) (k : Nat) (vs : List α) :
    wf d (setRun d m k vs) = true := by
  unfold wf setRun
  rw [List.append_assoc]
  refine wfFrom_append d (mid := k) (wfFrom_filter d _ h) (by intro e he; simpa using (List.mem_filter.1 he).2) ?_
    (Nat.zero_le k)
  refine wfFrom_append d (mid := k + vs.length) (wfFrom_cells d k vs) (fun e he => (mem_cells d he).2) ?_ (by omega)
  exact wfFrom_lower d (wfFrom_filter d _ h) (by intro e he; simpa using (List.mem_filter.1 he).2)

theorem get_cells (d : α) (k : Nat) (vs : List α) (i : Nat) (hi : i < vs.length) :
    get d (cells d k vs) (k + i) = vs[i] := by
  induction vs generalizing k i with
  | nil => simp at hi
  | cons v t ih =>
    simp only [cells]
    cases i with
    | zero =>
      split
      · rename_i hv
        simpa [hv] using get_eq_default_of_wfFrom d (wfFrom_cells d (k + 1) t) (by omega)
      · simp [get]
    | succ i =>
      have hi' : i < t.length := by simpa using hi
      have e : k + (i + 1) = k + 1 + i := by omega
      split
      · rw [e, ih (k + 1) i hi']; simp
      · simp only [get, if_neg (show ¬ k = k + (i + 1) by omega)]
        rw [e, ih (k + 1) i hi']; simp

/-- A read outside a written run gives what it gave before. -/
theorem get_setRun_out (d : α) (m : List (Nat × α)) (k : Nat) (vs : List α) {j : Nat} (h : j < k ∨ k + vs.length ≤ j) :
    get d (setRun d m k vs) j = get d m j := by
  unfold setRun
  rcases h with h | h
  · rw [List.append_assoc, get_append_left]
    · exact get_filter d m (fun i => decide (i < k)) (by simpa using h)
    · intro e he
      rcases List.mem_append.1 he with he | he
      · have := mem_cells d he; omega
      · have := (List.mem_filter.1 he).2; simp at this; omega
  · rw [get_append]
    · exact get_filter d m (fun i => decide (k + vs.length ≤ i)) (by simpa using h)
    · intro e he
      rcases List.mem_append.1 he with he | he
      · have := (List.mem_filter.1 he).2; simp at this; omega
      · have := mem_cells d he; omega

/-- A read inside a written run gives the value written there. -/
theorem get_setRun_in (d : α) (m : List (Nat × α)) (k : Nat) (vs : List α) (i : Nat) (hi : i < vs.length) :
    get d (setRun d m k vs) (k + i) = vs[i] := by
  unfold setRun
  rw [List.append_assoc, get_append, get_append_left, get_cells d k vs i hi]
  · intro e he; have := (List.mem_filter.1 he).2; simp at this; omega
  · intro e he; have := (List.mem_filter.1 he).2; simp at this; omega

theorem get_expand (d : α) {m : List (Nat × α)} (n : Nat) {k : Nat} (h : wfFrom d k m = true) (i : Nat) (hi : i < n) :
    (expand d m k n)[i]? = some (get d m (k + i)) := by
  induction n generalizing m k i with
  | zero => omega
  | succ n ih =>
    cases m with
    | nil =>
      simp only [expand]
      cases i with
      | zero => simp [get]
      | succ i =>
        simp only [List.getElem?_cons_succ]
        rw [ih (k := k + 1) (by rfl) i (by omega)]; rfl
    | cons e t =>
      obtain ⟨j, v⟩ := e
      simp only [wfFrom, Bool.and_eq_true, decide_eq_true_eq] at h
      obtain ⟨⟨hj, hv⟩, ht⟩ := h
      simp only [expand]
      split
      · rename_i hjk
        subst hjk
        cases i with
        | zero => simp [get]
        | succ i =>
          simp only [List.getElem?_cons_succ, get, if_neg (show ¬ j = j + (i + 1) by omega)]
          rw [ih ht i (by omega)]
          congr 2; omega
      · rename_i hjk
        cases i with
        | zero =>
          simp only [List.getElem?_cons_zero, get, Nat.add_zero, if_neg hjk]
          rw [get_eq_default_of_wfFrom d ht (by omega)]
        | succ i =>
          simp only [List.getElem?_cons_succ]
          have hw : wfFrom d (k + 1) ((j, v) :: t) = true := by
            simp only [wfFrom, Bool.and_eq_true, decide_eq_true_eq]
            exact ⟨⟨by omega, hv⟩, ht⟩
          rw [ih hw i (by omega)]
          congr 2; omega

omit [DecidableEq α] in
theorem length_expand (d : α) (m : List (Nat × α)) (k n : Nat) : (expand d m k n).length = n := by
  induction n generalizing m k with
  | zero => simp [expand]
  | succ n ih =>
    cases m with
    | nil => simp [expand, ih]
    | cons e t => obtain ⟨j, v⟩ := e; simp only [expand]; split <;> simp [ih]

omit [DecidableEq α] in
@[simp] theorem length_getRun (d : α) (m : List (Nat × α)) (k n : Nat) : (getRun d m k n).length = n :=
  length_expand d _ k n

/-- A read of a run gives what its keys read as. -/
theorem getElem?_getRun (d : α) {m : List (Nat × α)} (h : wf d m = true) (k n i : Nat) (hi : i < n) :
    (getRun d m k n)[i]? = some (get d m (k + i)) := by
  unfold getRun
  have hs : wfFrom d k (slice m k n) = true := by
    refine wfFrom_lower d (wfFrom_filter d _ h) ?_
    intro e he
    have := (List.mem_filter.1 he).2
    simp at this; omega
  rw [get_expand d n hs i hi]
  congr 1
  exact get_filter d m (fun j => decide (k ≤ j) && decide (j < k + n)) (by simp; omega)

/-- A run written over its own keys reads back. -/
theorem getRun_setRun (d : α) {m : List (Nat × α)} (h : wf d m = true) (k : Nat) (vs : List α) :
    getRun d (setRun d m k vs) k vs.length = vs := by
  apply List.ext_getElem?
  intro i
  by_cases hi : i < vs.length
  · rw [getElem?_getRun d (wf_setRun d h k vs) k _ i hi, get_setRun_in d m k vs i hi, List.getElem?_eq_getElem hi]
  · rw [List.getElem?_eq_none (by simp; omega), List.getElem?_eq_none (by omega)]

end Sys2Proof.Machine.Store
end

