-- ==== Sys2Proof/Laws/State.lean ====
section
/-! SUPPORT. What each named update of State writes and what it leaves: one lemma per field per update, so that no
later proof unfolds a record update. -/

namespace Sys2Proof.Machine.State

/-! ### setReg -/

@[simp] theorem setReg_part (s : State) (a : Nat) (v : Word) : (s.setReg a v).part = s.part := rfl
@[simp] theorem setReg_pending (s : State) (a : Nat) (v : Word) : (s.setReg a v).pending = s.pending := rfl
@[simp] theorem setReg_free (s : State) (a : Nat) (v : Word) : (s.setReg a v).free = s.free := rfl
@[simp] theorem setReg_dev (s : State) (a : Nat) (v : Word) : (s.setReg a v).dev = s.dev := rfl
@[simp] theorem setReg_deck (s : State) (a : Nat) (v : Word) : (s.setReg a v).deck = s.deck := rfl
@[simp] theorem setReg_inForce (s : State) (a : Nat) (v : Word) : (s.setReg a v).inForce = s.inForce := rfl
@[simp] theorem setReg_mem (s : State) (a : Nat) (v : Word) : (s.setReg a v).mem = s.mem := rfl
@[simp] theorem setReg_ecc (s : State) (a : Nat) (v : Word) : (s.setReg a v).ecc = s.ecc := rfl
@[simp] theorem setReg_inject (s : State) (a : Nat) (v : Word) : (s.setReg a v).inject = s.inject := rfl
@[simp] theorem setReg_scrubAt (s : State) (a : Nat) (v : Word) : (s.setReg a v).scrubAt = s.scrubAt := rfl
@[simp] theorem setReg_rgRef (s : State) (a : Nat) (v : Word) : (s.setReg a v).rgRef = s.rgRef := rfl
@[simp] theorem setReg_rgPend (s : State) (a : Nat) (v : Word) : (s.setReg a v).rgPend = s.rgPend := rfl
@[simp] theorem setReg_cap (s : State) (a : Nat) (v : Word) : (s.setReg a v).cap = s.cap := rfl
@[simp] theorem setReg_looms (s : State) (a : Nat) (v : Word) : (s.setReg a v).looms = s.looms := rfl
@[simp] theorem setReg_harrows (s : State) (a : Nat) (v : Word) : (s.setReg a v).harrows = s.harrows := rfl
@[simp] theorem setReg_mills (s : State) (a : Nat) (v : Word) : (s.setReg a v).mills = s.mills := rfl
@[simp] theorem setReg_fifos (s : State) (a : Nat) (v : Word) : (s.setReg a v).fifos = s.fifos := rfl
@[simp] theorem setReg_bosun (s : State) (a : Nat) (v : Word) : (s.setReg a v).bosun = s.bosun := rfl
@[simp] theorem setReg_sw (s : State) (a : Nat) (v : Word) : (s.setReg a v).sw = s.sw := rfl
@[simp] theorem setReg_audio (s : State) (a : Nat) (v : Word) : (s.setReg a v).audio = s.audio := rfl
@[simp] theorem setReg_cn (s : State) (a : Nat) (v : Word) : (s.setReg a v).cn = s.cn := rfl
@[simp] theorem setReg_trim (s : State) (a : Nat) (v : Word) : (s.setReg a v).trim = s.trim := rfl
@[simp] theorem setReg_lk (s : State) (a : Nat) (v : Word) : (s.setReg a v).lk = s.lk := rfl
@[simp] theorem setReg_csi (s : State) (a : Nat) (v : Word) : (s.setReg a v).csi = s.csi := rfl
@[simp] theorem setReg_i2c (s : State) (a : Nat) (v : Word) : (s.setReg a v).i2c = s.i2c := rfl
@[simp] theorem setReg_units (s : State) (a : Nat) (v : Word) : (s.setReg a v).units = s.units := rfl
@[simp] theorem setReg_view (s : State) (a : Nat) (v : Word) : (s.setReg a v).view = s.view := rfl
@[simp] theorem setReg_viewOut (s : State) (a : Nat) (v : Word) : (s.setReg a v).viewOut = s.viewOut := rfl

/-! ### setForce -/

@[simp] theorem setForce_part (s : State) (a : Nat) (v : Word) : (s.setForce a v).part = s.part := rfl
@[simp] theorem setForce_pending (s : State) (a : Nat) (v : Word) : (s.setForce a v).pending = s.pending := rfl
@[simp] theorem setForce_free (s : State) (a : Nat) (v : Word) : (s.setForce a v).free = s.free := rfl
@[simp] theorem setForce_dev (s : State) (a : Nat) (v : Word) : (s.setForce a v).dev = s.dev := rfl
@[simp] theorem setForce_deck (s : State) (a : Nat) (v : Word) : (s.setForce a v).deck = s.deck := rfl
@[simp] theorem setForce_regs (s : State) (a : Nat) (v : Word) : (s.setForce a v).regs = s.regs := rfl
@[simp] theorem setForce_mem (s : State) (a : Nat) (v : Word) : (s.setForce a v).mem = s.mem := rfl
@[simp] theorem setForce_ecc (s : State) (a : Nat) (v : Word) : (s.setForce a v).ecc = s.ecc := rfl
@[simp] theorem setForce_inject (s : State) (a : Nat) (v : Word) : (s.setForce a v).inject = s.inject := rfl
@[simp] theorem setForce_scrubAt (s : State) (a : Nat) (v : Word) : (s.setForce a v).scrubAt = s.scrubAt := rfl
@[simp] theorem setForce_rgRef (s : State) (a : Nat) (v : Word) : (s.setForce a v).rgRef = s.rgRef := rfl
@[simp] theorem setForce_rgPend (s : State) (a : Nat) (v : Word) : (s.setForce a v).rgPend = s.rgPend := rfl
@[simp] theorem setForce_cap (s : State) (a : Nat) (v : Word) : (s.setForce a v).cap = s.cap := rfl
@[simp] theorem setForce_looms (s : State) (a : Nat) (v : Word) : (s.setForce a v).looms = s.looms := rfl
@[simp] theorem setForce_harrows (s : State) (a : Nat) (v : Word) : (s.setForce a v).harrows = s.harrows := rfl
@[simp] theorem setForce_mills (s : State) (a : Nat) (v : Word) : (s.setForce a v).mills = s.mills := rfl
@[simp] theorem setForce_fifos (s : State) (a : Nat) (v : Word) : (s.setForce a v).fifos = s.fifos := rfl
@[simp] theorem setForce_bosun (s : State) (a : Nat) (v : Word) : (s.setForce a v).bosun = s.bosun := rfl
@[simp] theorem setForce_sw (s : State) (a : Nat) (v : Word) : (s.setForce a v).sw = s.sw := rfl
@[simp] theorem setForce_audio (s : State) (a : Nat) (v : Word) : (s.setForce a v).audio = s.audio := rfl
@[simp] theorem setForce_cn (s : State) (a : Nat) (v : Word) : (s.setForce a v).cn = s.cn := rfl
@[simp] theorem setForce_trim (s : State) (a : Nat) (v : Word) : (s.setForce a v).trim = s.trim := rfl
@[simp] theorem setForce_lk (s : State) (a : Nat) (v : Word) : (s.setForce a v).lk = s.lk := rfl
@[simp] theorem setForce_csi (s : State) (a : Nat) (v : Word) : (s.setForce a v).csi = s.csi := rfl
@[simp] theorem setForce_i2c (s : State) (a : Nat) (v : Word) : (s.setForce a v).i2c = s.i2c := rfl
@[simp] theorem setForce_units (s : State) (a : Nat) (v : Word) : (s.setForce a v).units = s.units := rfl
@[simp] theorem setForce_view (s : State) (a : Nat) (v : Word) : (s.setForce a v).view = s.view := rfl
@[simp] theorem setForce_viewOut (s : State) (a : Nat) (v : Word) : (s.setForce a v).viewOut = s.viewOut := rfl

/-! ### setDk -/

@[simp] theorem setDk_part (s : State) (o : Nat) (v : Half) : (s.setDk o v).part = s.part := rfl
@[simp] theorem setDk_pending (s : State) (o : Nat) (v : Half) : (s.setDk o v).pending = s.pending := rfl
@[simp] theorem setDk_free (s : State) (o : Nat) (v : Half) : (s.setDk o v).free = s.free := rfl
@[simp] theorem setDk_dev (s : State) (o : Nat) (v : Half) : (s.setDk o v).dev = s.dev := rfl
@[simp] theorem setDk_regs (s : State) (o : Nat) (v : Half) : (s.setDk o v).regs = s.regs := rfl
@[simp] theorem setDk_inForce (s : State) (o : Nat) (v : Half) : (s.setDk o v).inForce = s.inForce := rfl
@[simp] theorem setDk_mem (s : State) (o : Nat) (v : Half) : (s.setDk o v).mem = s.mem := rfl
@[simp] theorem setDk_ecc (s : State) (o : Nat) (v : Half) : (s.setDk o v).ecc = s.ecc := rfl
@[simp] theorem setDk_inject (s : State) (o : Nat) (v : Half) : (s.setDk o v).inject = s.inject := rfl
@[simp] theorem setDk_scrubAt (s : State) (o : Nat) (v : Half) : (s.setDk o v).scrubAt = s.scrubAt := rfl
@[simp] theorem setDk_rgRef (s : State) (o : Nat) (v : Half) : (s.setDk o v).rgRef = s.rgRef := rfl
@[simp] theorem setDk_rgPend (s : State) (o : Nat) (v : Half) : (s.setDk o v).rgPend = s.rgPend := rfl
@[simp] theorem setDk_cap (s : State) (o : Nat) (v : Half) : (s.setDk o v).cap = s.cap := rfl
@[simp] theorem setDk_looms (s : State) (o : Nat) (v : Half) : (s.setDk o v).looms = s.looms := rfl
@[simp] theorem setDk_harrows (s : State) (o : Nat) (v : Half) : (s.setDk o v).harrows = s.harrows := rfl
@[simp] theorem setDk_mills (s : State) (o : Nat) (v : Half) : (s.setDk o v).mills = s.mills := rfl
@[simp] theorem setDk_fifos (s : State) (o : Nat) (v : Half) : (s.setDk o v).fifos = s.fifos := rfl
@[simp] theorem setDk_bosun (s : State) (o : Nat) (v : Half) : (s.setDk o v).bosun = s.bosun := rfl
@[simp] theorem setDk_sw (s : State) (o : Nat) (v : Half) : (s.setDk o v).sw = s.sw := rfl
@[simp] theorem setDk_audio (s : State) (o : Nat) (v : Half) : (s.setDk o v).audio = s.audio := rfl
@[simp] theorem setDk_cn (s : State) (o : Nat) (v : Half) : (s.setDk o v).cn = s.cn := rfl
@[simp] theorem setDk_trim (s : State) (o : Nat) (v : Half) : (s.setDk o v).trim = s.trim := rfl
@[simp] theorem setDk_lk (s : State) (o : Nat) (v : Half) : (s.setDk o v).lk = s.lk := rfl
@[simp] theorem setDk_csi (s : State) (o : Nat) (v : Half) : (s.setDk o v).csi = s.csi := rfl
@[simp] theorem setDk_i2c (s : State) (o : Nat) (v : Half) : (s.setDk o v).i2c = s.i2c := rfl
@[simp] theorem setDk_units (s : State) (o : Nat) (v : Half) : (s.setDk o v).units = s.units := rfl
@[simp] theorem setDk_view (s : State) (o : Nat) (v : Half) : (s.setDk o v).view = s.view := rfl
@[simp] theorem setDk_viewOut (s : State) (o : Nat) (v : Half) : (s.setDk o v).viewOut = s.viewOut := rfl

/-! ### poke -/

@[simp] theorem poke_part (s : State) (a : Nat) (l : List Byte) : (s.poke a l).part = s.part := rfl
@[simp] theorem poke_pending (s : State) (a : Nat) (l : List Byte) : (s.poke a l).pending = s.pending := rfl
@[simp] theorem poke_free (s : State) (a : Nat) (l : List Byte) : (s.poke a l).free = s.free := rfl
@[simp] theorem poke_dev (s : State) (a : Nat) (l : List Byte) : (s.poke a l).dev = s.dev := rfl
@[simp] theorem poke_deck (s : State) (a : Nat) (l : List Byte) : (s.poke a l).deck = s.deck := rfl
@[simp] theorem poke_regs (s : State) (a : Nat) (l : List Byte) : (s.poke a l).regs = s.regs := rfl
@[simp] theorem poke_inForce (s : State) (a : Nat) (l : List Byte) : (s.poke a l).inForce = s.inForce := rfl
@[simp] theorem poke_ecc (s : State) (a : Nat) (l : List Byte) : (s.poke a l).ecc = s.ecc := rfl
@[simp] theorem poke_inject (s : State) (a : Nat) (l : List Byte) : (s.poke a l).inject = s.inject := rfl
@[simp] theorem poke_scrubAt (s : State) (a : Nat) (l : List Byte) : (s.poke a l).scrubAt = s.scrubAt := rfl
@[simp] theorem poke_rgRef (s : State) (a : Nat) (l : List Byte) : (s.poke a l).rgRef = s.rgRef := rfl
@[simp] theorem poke_rgPend (s : State) (a : Nat) (l : List Byte) : (s.poke a l).rgPend = s.rgPend := rfl
@[simp] theorem poke_cap (s : State) (a : Nat) (l : List Byte) : (s.poke a l).cap = s.cap := rfl
@[simp] theorem poke_looms (s : State) (a : Nat) (l : List Byte) : (s.poke a l).looms = s.looms := rfl
@[simp] theorem poke_harrows (s : State) (a : Nat) (l : List Byte) : (s.poke a l).harrows = s.harrows := rfl
@[simp] theorem poke_mills (s : State) (a : Nat) (l : List Byte) : (s.poke a l).mills = s.mills := rfl
@[simp] theorem poke_fifos (s : State) (a : Nat) (l : List Byte) : (s.poke a l).fifos = s.fifos := rfl
@[simp] theorem poke_bosun (s : State) (a : Nat) (l : List Byte) : (s.poke a l).bosun = s.bosun := rfl
@[simp] theorem poke_sw (s : State) (a : Nat) (l : List Byte) : (s.poke a l).sw = s.sw := rfl
@[simp] theorem poke_audio (s : State) (a : Nat) (l : List Byte) : (s.poke a l).audio = s.audio := rfl
@[simp] theorem poke_cn (s : State) (a : Nat) (l : List Byte) : (s.poke a l).cn = s.cn := rfl
@[simp] theorem poke_trim (s : State) (a : Nat) (l : List Byte) : (s.poke a l).trim = s.trim := rfl
@[simp] theorem poke_lk (s : State) (a : Nat) (l : List Byte) : (s.poke a l).lk = s.lk := rfl
@[simp] theorem poke_csi (s : State) (a : Nat) (l : List Byte) : (s.poke a l).csi = s.csi := rfl
@[simp] theorem poke_i2c (s : State) (a : Nat) (l : List Byte) : (s.poke a l).i2c = s.i2c := rfl
@[simp] theorem poke_units (s : State) (a : Nat) (l : List Byte) : (s.poke a l).units = s.units := rfl
@[simp] theorem poke_view (s : State) (a : Nat) (l : List Byte) : (s.poke a l).view = s.view := rfl
@[simp] theorem poke_viewOut (s : State) (a : Nat) (l : List Byte) : (s.poke a l).viewOut = s.viewOut := rfl

/-! ### setEcc -/

@[simp] theorem setEcc_part (s : State) (w : Nat) (e : Ecc) : (s.setEcc w e).part = s.part := rfl
@[simp] theorem setEcc_pending (s : State) (w : Nat) (e : Ecc) : (s.setEcc w e).pending = s.pending := rfl
@[simp] theorem setEcc_free (s : State) (w : Nat) (e : Ecc) : (s.setEcc w e).free = s.free := rfl
@[simp] theorem setEcc_dev (s : State) (w : Nat) (e : Ecc) : (s.setEcc w e).dev = s.dev := rfl
@[simp] theorem setEcc_deck (s : State) (w : Nat) (e : Ecc) : (s.setEcc w e).deck = s.deck := rfl
@[simp] theorem setEcc_regs (s : State) (w : Nat) (e : Ecc) : (s.setEcc w e).regs = s.regs := rfl
@[simp] theorem setEcc_inForce (s : State) (w : Nat) (e : Ecc) : (s.setEcc w e).inForce = s.inForce := rfl
@[simp] theorem setEcc_mem (s : State) (w : Nat) (e : Ecc) : (s.setEcc w e).mem = s.mem := rfl
@[simp] theorem setEcc_inject (s : State) (w : Nat) (e : Ecc) : (s.setEcc w e).inject = s.inject := rfl
@[simp] theorem setEcc_scrubAt (s : State) (w : Nat) (e : Ecc) : (s.setEcc w e).scrubAt = s.scrubAt := rfl
@[simp] theorem setEcc_rgRef (s : State) (w : Nat) (e : Ecc) : (s.setEcc w e).rgRef = s.rgRef := rfl
@[simp] theorem setEcc_rgPend (s : State) (w : Nat) (e : Ecc) : (s.setEcc w e).rgPend = s.rgPend := rfl
@[simp] theorem setEcc_cap (s : State) (w : Nat) (e : Ecc) : (s.setEcc w e).cap = s.cap := rfl
@[simp] theorem setEcc_looms (s : State) (w : Nat) (e : Ecc) : (s.setEcc w e).looms = s.looms := rfl
@[simp] theorem setEcc_harrows (s : State) (w : Nat) (e : Ecc) : (s.setEcc w e).harrows = s.harrows := rfl
@[simp] theorem setEcc_mills (s : State) (w : Nat) (e : Ecc) : (s.setEcc w e).mills = s.mills := rfl
@[simp] theorem setEcc_fifos (s : State) (w : Nat) (e : Ecc) : (s.setEcc w e).fifos = s.fifos := rfl
@[simp] theorem setEcc_bosun (s : State) (w : Nat) (e : Ecc) : (s.setEcc w e).bosun = s.bosun := rfl
@[simp] theorem setEcc_sw (s : State) (w : Nat) (e : Ecc) : (s.setEcc w e).sw = s.sw := rfl
@[simp] theorem setEcc_audio (s : State) (w : Nat) (e : Ecc) : (s.setEcc w e).audio = s.audio := rfl
@[simp] theorem setEcc_cn (s : State) (w : Nat) (e : Ecc) : (s.setEcc w e).cn = s.cn := rfl
@[simp] theorem setEcc_trim (s : State) (w : Nat) (e : Ecc) : (s.setEcc w e).trim = s.trim := rfl
@[simp] theorem setEcc_lk (s : State) (w : Nat) (e : Ecc) : (s.setEcc w e).lk = s.lk := rfl
@[simp] theorem setEcc_csi (s : State) (w : Nat) (e : Ecc) : (s.setEcc w e).csi = s.csi := rfl
@[simp] theorem setEcc_i2c (s : State) (w : Nat) (e : Ecc) : (s.setEcc w e).i2c = s.i2c := rfl
@[simp] theorem setEcc_units (s : State) (w : Nat) (e : Ecc) : (s.setEcc w e).units = s.units := rfl
@[simp] theorem setEcc_view (s : State) (w : Nat) (e : Ecc) : (s.setEcc w e).view = s.view := rfl
@[simp] theorem setEcc_viewOut (s : State) (w : Nat) (e : Ecc) : (s.setEcc w e).viewOut = s.viewOut := rfl

/-! ### setLoom -/

@[simp] theorem setLoom_part (s : State) (i : Nat) (x : Loom) : (s.setLoom i x).part = s.part := rfl
@[simp] theorem setLoom_pending (s : State) (i : Nat) (x : Loom) : (s.setLoom i x).pending = s.pending := rfl
@[simp] theorem setLoom_free (s : State) (i : Nat) (x : Loom) : (s.setLoom i x).free = s.free := rfl
@[simp] theorem setLoom_dev (s : State) (i : Nat) (x : Loom) : (s.setLoom i x).dev = s.dev := rfl
@[simp] theorem setLoom_deck (s : State) (i : Nat) (x : Loom) : (s.setLoom i x).deck = s.deck := rfl
@[simp] theorem setLoom_regs (s : State) (i : Nat) (x : Loom) : (s.setLoom i x).regs = s.regs := rfl
@[simp] theorem setLoom_inForce (s : State) (i : Nat) (x : Loom) : (s.setLoom i x).inForce = s.inForce := rfl
@[simp] theorem setLoom_mem (s : State) (i : Nat) (x : Loom) : (s.setLoom i x).mem = s.mem := rfl
@[simp] theorem setLoom_ecc (s : State) (i : Nat) (x : Loom) : (s.setLoom i x).ecc = s.ecc := rfl
@[simp] theorem setLoom_inject (s : State) (i : Nat) (x : Loom) : (s.setLoom i x).inject = s.inject := rfl
@[simp] theorem setLoom_scrubAt (s : State) (i : Nat) (x : Loom) : (s.setLoom i x).scrubAt = s.scrubAt := rfl
@[simp] theorem setLoom_rgRef (s : State) (i : Nat) (x : Loom) : (s.setLoom i x).rgRef = s.rgRef := rfl
@[simp] theorem setLoom_rgPend (s : State) (i : Nat) (x : Loom) : (s.setLoom i x).rgPend = s.rgPend := rfl
@[simp] theorem setLoom_cap (s : State) (i : Nat) (x : Loom) : (s.setLoom i x).cap = s.cap := rfl
@[simp] theorem setLoom_harrows (s : State) (i : Nat) (x : Loom) : (s.setLoom i x).harrows = s.harrows := rfl
@[simp] theorem setLoom_mills (s : State) (i : Nat) (x : Loom) : (s.setLoom i x).mills = s.mills := rfl
@[simp] theorem setLoom_fifos (s : State) (i : Nat) (x : Loom) : (s.setLoom i x).fifos = s.fifos := rfl
@[simp] theorem setLoom_bosun (s : State) (i : Nat) (x : Loom) : (s.setLoom i x).bosun = s.bosun := rfl
@[simp] theorem setLoom_sw (s : State) (i : Nat) (x : Loom) : (s.setLoom i x).sw = s.sw := rfl
@[simp] theorem setLoom_audio (s : State) (i : Nat) (x : Loom) : (s.setLoom i x).audio = s.audio := rfl
@[simp] theorem setLoom_cn (s : State) (i : Nat) (x : Loom) : (s.setLoom i x).cn = s.cn := rfl
@[simp] theorem setLoom_trim (s : State) (i : Nat) (x : Loom) : (s.setLoom i x).trim = s.trim := rfl
@[simp] theorem setLoom_lk (s : State) (i : Nat) (x : Loom) : (s.setLoom i x).lk = s.lk := rfl
@[simp] theorem setLoom_csi (s : State) (i : Nat) (x : Loom) : (s.setLoom i x).csi = s.csi := rfl
@[simp] theorem setLoom_i2c (s : State) (i : Nat) (x : Loom) : (s.setLoom i x).i2c = s.i2c := rfl
@[simp] theorem setLoom_units (s : State) (i : Nat) (x : Loom) : (s.setLoom i x).units = s.units := rfl
@[simp] theorem setLoom_view (s : State) (i : Nat) (x : Loom) : (s.setLoom i x).view = s.view := rfl
@[simp] theorem setLoom_viewOut (s : State) (i : Nat) (x : Loom) : (s.setLoom i x).viewOut = s.viewOut := rfl

/-! ### setHarrow -/

@[simp] theorem setHarrow_part (s : State) (i : Nat) (x : Harrow) : (s.setHarrow i x).part = s.part := rfl
@[simp] theorem setHarrow_pending (s : State) (i : Nat) (x : Harrow) : (s.setHarrow i x).pending = s.pending := rfl
@[simp] theorem setHarrow_free (s : State) (i : Nat) (x : Harrow) : (s.setHarrow i x).free = s.free := rfl
@[simp] theorem setHarrow_dev (s : State) (i : Nat) (x : Harrow) : (s.setHarrow i x).dev = s.dev := rfl
@[simp] theorem setHarrow_deck (s : State) (i : Nat) (x : Harrow) : (s.setHarrow i x).deck = s.deck := rfl
@[simp] theorem setHarrow_regs (s : State) (i : Nat) (x : Harrow) : (s.setHarrow i x).regs = s.regs := rfl
@[simp] theorem setHarrow_inForce (s : State) (i : Nat) (x : Harrow) : (s.setHarrow i x).inForce = s.inForce := rfl
@[simp] theorem setHarrow_mem (s : State) (i : Nat) (x : Harrow) : (s.setHarrow i x).mem = s.mem := rfl
@[simp] theorem setHarrow_ecc (s : State) (i : Nat) (x : Harrow) : (s.setHarrow i x).ecc = s.ecc := rfl
@[simp] theorem setHarrow_inject (s : State) (i : Nat) (x : Harrow) : (s.setHarrow i x).inject = s.inject := rfl
@[simp] theorem setHarrow_scrubAt (s : State) (i : Nat) (x : Harrow) : (s.setHarrow i x).scrubAt = s.scrubAt := rfl
@[simp] theorem setHarrow_rgRef (s : State) (i : Nat) (x : Harrow) : (s.setHarrow i x).rgRef = s.rgRef := rfl
@[simp] theorem setHarrow_rgPend (s : State) (i : Nat) (x : Harrow) : (s.setHarrow i x).rgPend = s.rgPend := rfl
@[simp] theorem setHarrow_cap (s : State) (i : Nat) (x : Harrow) : (s.setHarrow i x).cap = s.cap := rfl
@[simp] theorem setHarrow_looms (s : State) (i : Nat) (x : Harrow) : (s.setHarrow i x).looms = s.looms := rfl
@[simp] theorem setHarrow_mills (s : State) (i : Nat) (x : Harrow) : (s.setHarrow i x).mills = s.mills := rfl
@[simp] theorem setHarrow_fifos (s : State) (i : Nat) (x : Harrow) : (s.setHarrow i x).fifos = s.fifos := rfl
@[simp] theorem setHarrow_bosun (s : State) (i : Nat) (x : Harrow) : (s.setHarrow i x).bosun = s.bosun := rfl
@[simp] theorem setHarrow_sw (s : State) (i : Nat) (x : Harrow) : (s.setHarrow i x).sw = s.sw := rfl
@[simp] theorem setHarrow_audio (s : State) (i : Nat) (x : Harrow) : (s.setHarrow i x).audio = s.audio := rfl
@[simp] theorem setHarrow_cn (s : State) (i : Nat) (x : Harrow) : (s.setHarrow i x).cn = s.cn := rfl
@[simp] theorem setHarrow_trim (s : State) (i : Nat) (x : Harrow) : (s.setHarrow i x).trim = s.trim := rfl
@[simp] theorem setHarrow_lk (s : State) (i : Nat) (x : Harrow) : (s.setHarrow i x).lk = s.lk := rfl
@[simp] theorem setHarrow_csi (s : State) (i : Nat) (x : Harrow) : (s.setHarrow i x).csi = s.csi := rfl
@[simp] theorem setHarrow_i2c (s : State) (i : Nat) (x : Harrow) : (s.setHarrow i x).i2c = s.i2c := rfl
@[simp] theorem setHarrow_units (s : State) (i : Nat) (x : Harrow) : (s.setHarrow i x).units = s.units := rfl
@[simp] theorem setHarrow_view (s : State) (i : Nat) (x : Harrow) : (s.setHarrow i x).view = s.view := rfl
@[simp] theorem setHarrow_viewOut (s : State) (i : Nat) (x : Harrow) : (s.setHarrow i x).viewOut = s.viewOut := rfl

/-! ### setMill -/

@[simp] theorem setMill_part (s : State) (i : Nat) (x : Mill) : (s.setMill i x).part = s.part := rfl
@[simp] theorem setMill_pending (s : State) (i : Nat) (x : Mill) : (s.setMill i x).pending = s.pending := rfl
@[simp] theorem setMill_free (s : State) (i : Nat) (x : Mill) : (s.setMill i x).free = s.free := rfl
@[simp] theorem setMill_dev (s : State) (i : Nat) (x : Mill) : (s.setMill i x).dev = s.dev := rfl
@[simp] theorem setMill_deck (s : State) (i : Nat) (x : Mill) : (s.setMill i x).deck = s.deck := rfl
@[simp] theorem setMill_regs (s : State) (i : Nat) (x : Mill) : (s.setMill i x).regs = s.regs := rfl
@[simp] theorem setMill_inForce (s : State) (i : Nat) (x : Mill) : (s.setMill i x).inForce = s.inForce := rfl
@[simp] theorem setMill_mem (s : State) (i : Nat) (x : Mill) : (s.setMill i x).mem = s.mem := rfl
@[simp] theorem setMill_ecc (s : State) (i : Nat) (x : Mill) : (s.setMill i x).ecc = s.ecc := rfl
@[simp] theorem setMill_inject (s : State) (i : Nat) (x : Mill) : (s.setMill i x).inject = s.inject := rfl
@[simp] theorem setMill_scrubAt (s : State) (i : Nat) (x : Mill) : (s.setMill i x).scrubAt = s.scrubAt := rfl
@[simp] theorem setMill_rgRef (s : State) (i : Nat) (x : Mill) : (s.setMill i x).rgRef = s.rgRef := rfl
@[simp] theorem setMill_rgPend (s : State) (i : Nat) (x : Mill) : (s.setMill i x).rgPend = s.rgPend := rfl
@[simp] theorem setMill_cap (s : State) (i : Nat) (x : Mill) : (s.setMill i x).cap = s.cap := rfl
@[simp] theorem setMill_looms (s : State) (i : Nat) (x : Mill) : (s.setMill i x).looms = s.looms := rfl
@[simp] theorem setMill_harrows (s : State) (i : Nat) (x : Mill) : (s.setMill i x).harrows = s.harrows := rfl
@[simp] theorem setMill_fifos (s : State) (i : Nat) (x : Mill) : (s.setMill i x).fifos = s.fifos := rfl
@[simp] theorem setMill_bosun (s : State) (i : Nat) (x : Mill) : (s.setMill i x).bosun = s.bosun := rfl
@[simp] theorem setMill_sw (s : State) (i : Nat) (x : Mill) : (s.setMill i x).sw = s.sw := rfl
@[simp] theorem setMill_audio (s : State) (i : Nat) (x : Mill) : (s.setMill i x).audio = s.audio := rfl
@[simp] theorem setMill_cn (s : State) (i : Nat) (x : Mill) : (s.setMill i x).cn = s.cn := rfl
@[simp] theorem setMill_trim (s : State) (i : Nat) (x : Mill) : (s.setMill i x).trim = s.trim := rfl
@[simp] theorem setMill_lk (s : State) (i : Nat) (x : Mill) : (s.setMill i x).lk = s.lk := rfl
@[simp] theorem setMill_csi (s : State) (i : Nat) (x : Mill) : (s.setMill i x).csi = s.csi := rfl
@[simp] theorem setMill_i2c (s : State) (i : Nat) (x : Mill) : (s.setMill i x).i2c = s.i2c := rfl
@[simp] theorem setMill_units (s : State) (i : Nat) (x : Mill) : (s.setMill i x).units = s.units := rfl
@[simp] theorem setMill_view (s : State) (i : Nat) (x : Mill) : (s.setMill i x).view = s.view := rfl
@[simp] theorem setMill_viewOut (s : State) (i : Nat) (x : Mill) : (s.setMill i x).viewOut = s.viewOut := rfl

/-! ### setFifo -/

@[simp] theorem setFifo_part (s : State) (i : Nat) (l : List (Word × Word)) : (s.setFifo i l).part = s.part := rfl
@[simp] theorem setFifo_pending (s : State) (i : Nat) (l : List (Word × Word)) : (s.setFifo i l).pending = s.pending := rfl
@[simp] theorem setFifo_free (s : State) (i : Nat) (l : List (Word × Word)) : (s.setFifo i l).free = s.free := rfl
@[simp] theorem setFifo_dev (s : State) (i : Nat) (l : List (Word × Word)) : (s.setFifo i l).dev = s.dev := rfl
@[simp] theorem setFifo_deck (s : State) (i : Nat) (l : List (Word × Word)) : (s.setFifo i l).deck = s.deck := rfl
@[simp] theorem setFifo_regs (s : State) (i : Nat) (l : List (Word × Word)) : (s.setFifo i l).regs = s.regs := rfl
@[simp] theorem setFifo_inForce (s : State) (i : Nat) (l : List (Word × Word)) : (s.setFifo i l).inForce = s.inForce := rfl
@[simp] theorem setFifo_mem (s : State) (i : Nat) (l : List (Word × Word)) : (s.setFifo i l).mem = s.mem := rfl
@[simp] theorem setFifo_ecc (s : State) (i : Nat) (l : List (Word × Word)) : (s.setFifo i l).ecc = s.ecc := rfl
@[simp] theorem setFifo_inject (s : State) (i : Nat) (l : List (Word × Word)) : (s.setFifo i l).inject = s.inject := rfl
@[simp] theorem setFifo_scrubAt (s : State) (i : Nat) (l : List (Word × Word)) : (s.setFifo i l).scrubAt = s.scrubAt := rfl
@[simp] theorem setFifo_rgRef (s : State) (i : Nat) (l : List (Word × Word)) : (s.setFifo i l).rgRef = s.rgRef := rfl
@[simp] theorem setFifo_rgPend (s : State) (i : Nat) (l : List (Word × Word)) : (s.setFifo i l).rgPend = s.rgPend := rfl
@[simp] theorem setFifo_cap (s : State) (i : Nat) (l : List (Word × Word)) : (s.setFifo i l).cap = s.cap := rfl
@[simp] theorem setFifo_looms (s : State) (i : Nat) (l : List (Word × Word)) : (s.setFifo i l).looms = s.looms := rfl
@[simp] theorem setFifo_harrows (s : State) (i : Nat) (l : List (Word × Word)) : (s.setFifo i l).harrows = s.harrows := rfl
@[simp] theorem setFifo_mills (s : State) (i : Nat) (l : List (Word × Word)) : (s.setFifo i l).mills = s.mills := rfl
@[simp] theorem setFifo_bosun (s : State) (i : Nat) (l : List (Word × Word)) : (s.setFifo i l).bosun = s.bosun := rfl
@[simp] theorem setFifo_sw (s : State) (i : Nat) (l : List (Word × Word)) : (s.setFifo i l).sw = s.sw := rfl
@[simp] theorem setFifo_audio (s : State) (i : Nat) (l : List (Word × Word)) : (s.setFifo i l).audio = s.audio := rfl
@[simp] theorem setFifo_cn (s : State) (i : Nat) (l : List (Word × Word)) : (s.setFifo i l).cn = s.cn := rfl
@[simp] theorem setFifo_trim (s : State) (i : Nat) (l : List (Word × Word)) : (s.setFifo i l).trim = s.trim := rfl
@[simp] theorem setFifo_lk (s : State) (i : Nat) (l : List (Word × Word)) : (s.setFifo i l).lk = s.lk := rfl
@[simp] theorem setFifo_csi (s : State) (i : Nat) (l : List (Word × Word)) : (s.setFifo i l).csi = s.csi := rfl
@[simp] theorem setFifo_i2c (s : State) (i : Nat) (l : List (Word × Word)) : (s.setFifo i l).i2c = s.i2c := rfl
@[simp] theorem setFifo_units (s : State) (i : Nat) (l : List (Word × Word)) : (s.setFifo i l).units = s.units := rfl
@[simp] theorem setFifo_view (s : State) (i : Nat) (l : List (Word × Word)) : (s.setFifo i l).view = s.view := rfl
@[simp] theorem setFifo_viewOut (s : State) (i : Nat) (l : List (Word × Word)) : (s.setFifo i l).viewOut = s.viewOut := rfl

/-! ### setCore -/

@[simp] theorem setCore_part (s : State) (c : Core) : (s.setCore c).part = s.part := rfl
@[simp] theorem setCore_pending (s : State) (c : Core) : (s.setCore c).pending = s.pending := rfl
@[simp] theorem setCore_free (s : State) (c : Core) : (s.setCore c).free = s.free := rfl
@[simp] theorem setCore_dev (s : State) (c : Core) : (s.setCore c).dev = s.dev := rfl
@[simp] theorem setCore_deck (s : State) (c : Core) : (s.setCore c).deck = s.deck := rfl
@[simp] theorem setCore_regs (s : State) (c : Core) : (s.setCore c).regs = s.regs := rfl
@[simp] theorem setCore_inForce (s : State) (c : Core) : (s.setCore c).inForce = s.inForce := rfl
@[simp] theorem setCore_mem (s : State) (c : Core) : (s.setCore c).mem = s.mem := rfl
@[simp] theorem setCore_ecc (s : State) (c : Core) : (s.setCore c).ecc = s.ecc := rfl
@[simp] theorem setCore_inject (s : State) (c : Core) : (s.setCore c).inject = s.inject := rfl
@[simp] theorem setCore_scrubAt (s : State) (c : Core) : (s.setCore c).scrubAt = s.scrubAt := rfl
@[simp] theorem setCore_rgRef (s : State) (c : Core) : (s.setCore c).rgRef = s.rgRef := rfl
@[simp] theorem setCore_rgPend (s : State) (c : Core) : (s.setCore c).rgPend = s.rgPend := rfl
@[simp] theorem setCore_cap (s : State) (c : Core) : (s.setCore c).cap = s.cap := rfl
@[simp] theorem setCore_looms (s : State) (c : Core) : (s.setCore c).looms = s.looms := rfl
@[simp] theorem setCore_harrows (s : State) (c : Core) : (s.setCore c).harrows = s.harrows := rfl
@[simp] theorem setCore_mills (s : State) (c : Core) : (s.setCore c).mills = s.mills := rfl
@[simp] theorem setCore_fifos (s : State) (c : Core) : (s.setCore c).fifos = s.fifos := rfl
@[simp] theorem setCore_sw (s : State) (c : Core) : (s.setCore c).sw = s.sw := rfl
@[simp] theorem setCore_audio (s : State) (c : Core) : (s.setCore c).audio = s.audio := rfl
@[simp] theorem setCore_cn (s : State) (c : Core) : (s.setCore c).cn = s.cn := rfl
@[simp] theorem setCore_trim (s : State) (c : Core) : (s.setCore c).trim = s.trim := rfl
@[simp] theorem setCore_lk (s : State) (c : Core) : (s.setCore c).lk = s.lk := rfl
@[simp] theorem setCore_csi (s : State) (c : Core) : (s.setCore c).csi = s.csi := rfl
@[simp] theorem setCore_i2c (s : State) (c : Core) : (s.setCore c).i2c = s.i2c := rfl
@[simp] theorem setCore_units (s : State) (c : Core) : (s.setCore c).units = s.units := rfl
@[simp] theorem setCore_view (s : State) (c : Core) : (s.setCore c).view = s.view := rfl
@[simp] theorem setCore_viewOut (s : State) (c : Core) : (s.setCore c).viewOut = s.viewOut := rfl

/-! ### draw -/

@[simp] theorem draw_part (s : State) (w : Nat) : (s.draw w).2.part = s.part := rfl
@[simp] theorem draw_pending (s : State) (w : Nat) : (s.draw w).2.pending = s.pending := rfl
@[simp] theorem draw_dev (s : State) (w : Nat) : (s.draw w).2.dev = s.dev := rfl
@[simp] theorem draw_deck (s : State) (w : Nat) : (s.draw w).2.deck = s.deck := rfl
@[simp] theorem draw_regs (s : State) (w : Nat) : (s.draw w).2.regs = s.regs := rfl
@[simp] theorem draw_inForce (s : State) (w : Nat) : (s.draw w).2.inForce = s.inForce := rfl
@[simp] theorem draw_mem (s : State) (w : Nat) : (s.draw w).2.mem = s.mem := rfl
@[simp] theorem draw_ecc (s : State) (w : Nat) : (s.draw w).2.ecc = s.ecc := rfl
@[simp] theorem draw_inject (s : State) (w : Nat) : (s.draw w).2.inject = s.inject := rfl
@[simp] theorem draw_scrubAt (s : State) (w : Nat) : (s.draw w).2.scrubAt = s.scrubAt := rfl
@[simp] theorem draw_rgRef (s : State) (w : Nat) : (s.draw w).2.rgRef = s.rgRef := rfl
@[simp] theorem draw_rgPend (s : State) (w : Nat) : (s.draw w).2.rgPend = s.rgPend := rfl
@[simp] theorem draw_cap (s : State) (w : Nat) : (s.draw w).2.cap = s.cap := rfl
@[simp] theorem draw_looms (s : State) (w : Nat) : (s.draw w).2.looms = s.looms := rfl
@[simp] theorem draw_harrows (s : State) (w : Nat) : (s.draw w).2.harrows = s.harrows := rfl
@[simp] theorem draw_mills (s : State) (w : Nat) : (s.draw w).2.mills = s.mills := rfl
@[simp] theorem draw_fifos (s : State) (w : Nat) : (s.draw w).2.fifos = s.fifos := rfl
@[simp] theorem draw_bosun (s : State) (w : Nat) : (s.draw w).2.bosun = s.bosun := rfl
@[simp] theorem draw_sw (s : State) (w : Nat) : (s.draw w).2.sw = s.sw := rfl
@[simp] theorem draw_audio (s : State) (w : Nat) : (s.draw w).2.audio = s.audio := rfl
@[simp] theorem draw_cn (s : State) (w : Nat) : (s.draw w).2.cn = s.cn := rfl
@[simp] theorem draw_trim (s : State) (w : Nat) : (s.draw w).2.trim = s.trim := rfl
@[simp] theorem draw_lk (s : State) (w : Nat) : (s.draw w).2.lk = s.lk := rfl
@[simp] theorem draw_csi (s : State) (w : Nat) : (s.draw w).2.csi = s.csi := rfl
@[simp] theorem draw_i2c (s : State) (w : Nat) : (s.draw w).2.i2c = s.i2c := rfl
@[simp] theorem draw_units (s : State) (w : Nat) : (s.draw w).2.units = s.units := rfl
@[simp] theorem draw_view (s : State) (w : Nat) : (s.draw w).2.view = s.view := rfl
@[simp] theorem draw_viewOut (s : State) (w : Nat) : (s.draw w).2.viewOut = s.viewOut := rfl
@[simp] theorem draw_free (s : State) (w : Nat) : (s.draw w).2.free = s.free + 1 := rfl
@[simp] theorem draw_value (s : State) (w : Nat) : (s.draw w).1 = Config.freeValue w s.free := rfl

/-! ### Fields within the updated part -/

@[simp] theorem setDk_ms (s : State) (o : Nat) (v : Half) : (s.setDk o v).deck.ms = s.deck.ms := rfl
@[simp] theorem setDk_win (s : State) (o : Nat) (v : Half) : (s.setDk o v).deck.win = s.deck.win := rfl
@[simp] theorem setDk_doors (s : State) (o : Nat) (v : Half) : (s.setDk o v).deck.doors = s.deck.doors := rfl
@[simp] theorem setDk_cnFifo (s : State) (o : Nat) (v : Half) : (s.setDk o v).deck.cnFifo = s.deck.cnFifo := rfl
@[simp] theorem setDk_data (s : State) (o : Nat) (v : Half) : (s.setDk o v).deck.data = s.deck.data := rfl
@[simp] theorem setCore_core (s : State) (c : Core) : (s.setCore c).core = c := rfl
@[simp] theorem setCore_bosun_core (s : State) (c : Core) : (s.setCore c).bosun.core = c := rfl
@[simp] theorem setCore_run (s : State) (c : Core) : (s.setCore c).bosun.run = s.bosun.run := rfl
@[simp] theorem setCore_trail (s : State) (c : Core) : (s.setCore c).bosun.trail = s.bosun.trail := rfl
@[simp] theorem setCore_wait (s : State) (c : Core) : (s.setCore c).bosun.wait = s.bosun.wait := rfl
@[simp] theorem setCore_stores (s : State) (c : Core) : (s.setCore c).bosun.stores = s.bosun.stores := rfl
@[simp] theorem setCore_bundle (s : State) (c : Core) : (s.setCore c).bosun.bundle = s.bosun.bundle := rfl
@[simp] theorem setCore_instret (s : State) (c : Core) : (s.setCore c).bosun.instret = s.bosun.instret := rfl

/-! ### Reads after updates of the register files -/

@[simp] theorem reg_setReg_self (s : State) (a : Nat) (v : Word) : (s.setReg a v).reg a = v := by
  simp [reg, setReg]
theorem reg_setReg_ne (s : State) {a b : Nat} (v : Word) (h : b ≠ a) : (s.setReg a v).reg b = s.reg b :=
  Store.get_set_ne' _ _ _ v h
@[simp] theorem force_setForce_self (s : State) (a : Nat) (v : Word) : (s.setForce a v).force a = v := by
  simp [force, setForce]
theorem force_setForce_ne (s : State) {a b : Nat} (v : Word) (h : b ≠ a) : (s.setForce a v).force b = s.force b :=
  Store.get_set_ne' _ _ _ v h
@[simp] theorem dk_setDk_self (s : State) (o : Nat) (v : Half) : (s.setDk o v).dk o = v := by
  simp [dk, setDk]
theorem dk_setDk_ne (s : State) {o p : Nat} (v : Half) (h : p ≠ o) : (s.setDk o v).dk p = s.dk p :=
  Store.get_set_ne' _ _ _ v h
@[simp] theorem reg_setForce (s : State) (a b : Nat) (v : Word) : (s.setForce a v).reg b = s.reg b := rfl
@[simp] theorem reg_setDk (s : State) (o b : Nat) (v : Half) : (s.setDk o v).reg b = s.reg b := rfl
@[simp] theorem reg_poke (s : State) (a b : Nat) (l : List Byte) : (s.poke a l).reg b = s.reg b := rfl
@[simp] theorem reg_setEcc (s : State) (w b : Nat) (e : Ecc) : (s.setEcc w e).reg b = s.reg b := rfl
@[simp] theorem reg_draw (s : State) (w b : Nat) : (s.draw w).2.reg b = s.reg b := rfl
@[simp] theorem reg_setCore (s : State) (c : Core) (b : Nat) : (s.setCore c).reg b = s.reg b := rfl
@[simp] theorem force_setReg (s : State) (a b : Nat) (v : Word) : (s.setReg a v).force b = s.force b := rfl
@[simp] theorem force_setDk (s : State) (o b : Nat) (v : Half) : (s.setDk o v).force b = s.force b := rfl
@[simp] theorem dk_setReg (s : State) (a o : Nat) (v : Word) : (s.setReg a v).dk o = s.dk o := rfl
@[simp] theorem dk_setForce (s : State) (a o : Nat) (v : Word) : (s.setForce a v).dk o = s.dk o := rfl
@[simp] theorem dk_poke (s : State) (a o : Nat) (l : List Byte) : (s.poke a l).dk o = s.dk o := rfl
@[simp] theorem dk_setCore (s : State) (c : Core) (o : Nat) : (s.setCore c).dk o = s.dk o := rfl
@[simp] theorem dk_draw (s : State) (w o : Nat) : (s.draw w).2.dk o = s.dk o := rfl
/-- Reads of a register file depend on that file alone. -/
theorem reg_of_regs_eq {s t : State} (h : t.regs = s.regs) (a : Nat) : t.reg a = s.reg a := by unfold reg; rw [h]
theorem force_of_eq {s t : State} (h : t.inForce = s.inForce) (a : Nat) : t.force a = s.force a := by unfold force; rw [h]
theorem dk_of_deck_eq {s t : State} (h : t.deck = s.deck) (o : Nat) : t.dk o = s.dk o := by unfold dk; rw [h]
theorem dk_of_regs_eq {s t : State} (h : t.deck.regs = s.deck.regs) (o : Nat) : t.dk o = s.dk o := by unfold dk; rw [h]
theorem byteAt_of_mem_eq {s t : State} (h : t.mem = s.mem) (a : Nat) : t.byteAt a = s.byteAt a := by
  unfold byteAt; rw [h]
theorem peek_of_mem_eq {s t : State} (h : t.mem = s.mem) (a n : Nat) : t.peek a n = s.peek a n := by
  unfold peek; rw [h]

end Sys2Proof.Machine.State

namespace Sys2Proof.Machine.Core

/-! ### Bosun's registers -/

@[simp] theorem reg_zero (c : Core) : c.reg 0 = 0 := rfl
@[simp] theorem setReg_zero (c : Core) (v : Word) : c.setReg 0 v = c := rfl
@[simp] theorem reg_setReg_self (c : Core) {r : Nat} (h : r ≠ 0) (v : Word) : (c.setReg r v).reg r = v := by
  simp [reg, setReg, h]
theorem reg_setReg_ne (c : Core) {r q : Nat} (v : Word) (h : q ≠ r) : (c.setReg r v).reg q = c.reg q := by
  unfold reg setReg
  split
  · rfl
  · split
    · rfl
    · exact Store.get_set_ne _ _ v h
@[simp] theorem setReg_pc (c : Core) (r : Nat) (v : Word) : (c.setReg r v).pc = c.pc := by unfold setReg; split <;> rfl
@[simp] theorem setReg_delay (c : Core) (r : Nat) (v : Word) : (c.setReg r v).delay = c.delay := by
  unfold setReg; split <;> rfl
@[simp] theorem setReg_shadow (c : Core) (r : Nat) (v : Word) : (c.setReg r v).shadow = c.shadow := by
  unfold setReg; split <;> rfl
@[simp] theorem setReg_csr (c : Core) (r : Nat) (v : Word) : (c.setReg r v).csr = c.csr := by unfold setReg; split <;> rfl
@[simp] theorem csrGet_setReg (c : Core) (r n : Nat) (v : Word) : (c.setReg r v).csrGet n = c.csrGet n := by
  simp [csrGet]
@[simp] theorem csrGet_csrPut_self (c : Core) (n : Nat) (v : Word) : (c.csrPut n v).csrGet n = v := by
  simp [csrGet, csrPut]
theorem csrGet_csrPut_ne (c : Core) {n m : Nat} (v : Word) (h : m ≠ n) : (c.csrPut n v).csrGet m = c.csrGet m :=
  Store.get_set_ne' _ _ _ v h
@[simp] theorem csrPut_pc (c : Core) (n : Nat) (v : Word) : (c.csrPut n v).pc = c.pc := rfl
@[simp] theorem csrPut_w (c : Core) (n : Nat) (v : Word) : (c.csrPut n v).w = c.w := rfl
@[simp] theorem csrPut_delay (c : Core) (n : Nat) (v : Word) : (c.csrPut n v).delay = c.delay := rfl
@[simp] theorem csrPut_shadow (c : Core) (n : Nat) (v : Word) : (c.csrPut n v).shadow = c.shadow := rfl
@[simp] theorem reg_csrPut (c : Core) (n r : Nat) (v : Word) : (c.csrPut n v).reg r = c.reg r := rfl

end Sys2Proof.Machine.Core
end

