-- ==== Sys2Proof/Laws/Memory.lean ====
section
/-! SUPPORT. What the memory operations can do: which of them leave memory as it is, that every one keeps its canonical
form, and what a byte reads as after a write. -/

namespace Sys2Proof.Machine

/-- What holds of the start and is kept by each step of a fold holds of its end. -/
theorem foldl_keeps {α β : Type} (P : β → Prop) (f : β → α → β) (h : ∀ b a, P b → P (f b a)) (l : List α) (b : β)
    (hb : P b) : P (l.foldl f b) := by
  induction l generalizing b with
  | nil => exact hb
  | cons a t ih => exact ih _ (h b a hb)

namespace State

@[simp] theorem setRf_mem (s : State) (a lo w x : Nat) : (s.setRf a lo w x).mem = s.mem := rfl
@[simp] theorem bumpBy_mem (s : State) (a lo w k : Nat) : (s.bumpBy a lo w k).mem = s.mem := rfl
@[simp] theorem bump_mem (s : State) (a lo w : Nat) : (s.bump a lo w).mem = s.mem := rfl
@[simp] theorem setDkf_mem (s : State) (o lo w x : Nat) : (s.setDkf o lo w x).mem = s.mem := rfl
@[simp] theorem raise_mem (s : State) (i : Nat) : (s.raise i).mem = s.mem := rfl
@[simp] theorem poke_mem (s : State) (a : Nat) (l : List Byte) : (s.poke a l).mem = Store.setRun 0 s.mem a l := rfl

@[simp] theorem drawBytes_mem (s : State) (n : Nat) : (s.drawBytes n).2.mem = s.mem := by
  induction n generalizing s with
  | zero => rfl
  | succ n ih => simp only [drawBytes]; rw [ih]; rfl

@[simp] theorem drawBytes_length (s : State) (n : Nat) : (s.drawBytes n).1.length = n := by
  induction n generalizing s with
  | zero => rfl
  | succ n ih => simp only [drawBytes, List.length_cons]; rw [ih]

@[simp] theorem commit_mem (s : State) (l : List Nat) : (s.commit l).mem = s.mem :=
  foldl_keeps (fun t : State => t.mem = s.mem) (fun t a => t.setForce a (t.reg a)) (fun _ _ h => h) l s rfl

@[simp] theorem noteCnEcc_mem (s : State) (a : Nat) (ue : Bool) : (s.noteCnEcc a ue).mem = s.mem := by
  unfold noteCnEcc; split <;> rfl

@[simp] theorem noteEcc_mem (s : State) (src a : Nat) (ue : Bool) : (s.noteEcc src a ue).mem = s.mem := by
  unfold noteEcc
  split
  · simp
  · dsimp only
    split
    · split <;> rfl
    · split <;> rfl

@[simp] theorem eccRead_mem (s : State) (src a n : Nat) : (s.eccRead src a n).1.mem = s.mem := by
  unfold eccRead
  refine foldl_keeps (fun x : State × Option Nat => x.1.mem = s.mem) _ ?_ _ _ rfl
  rintro ⟨t, ue⟩ ⟨w, e⟩ h
  cases e <;> simpa using h

@[simp] theorem readBytes_mem (s : State) (a n : Nat) : (s.readBytes a n).2.mem = s.mem := by
  unfold readBytes
  dsimp only
  split
  · exact drawBytes_mem s n
  · rfl

@[simp] theorem readMem_mem (s : State) (src a n : Nat) : (s.readMem src a n).1.mem = s.mem := by
  unfold readMem
  split
  · split <;> rfl
  · simp

@[simp] theorem injectOn_mem (s : State) (a n : Nat) : (s.injectOn a n).mem = s.mem := by
  unfold injectOn
  split
  · rfl
  · split <;> rfl

/-! ### The canonical form is kept -/

theorem poke_memWf (s : State) (a : Nat) (l : List Byte) (h : Memory.wf s.mem = true) :
    Memory.wf (s.poke a l).mem = true := Store.wf_setRun 0 h a l

theorem eccPut_memWf (s : State) (src a : Nat) (l : List Byte) (h : Memory.wf s.mem = true) :
    Memory.wf (s.eccPut src a l).1.mem = true := by
  unfold eccPut
  dsimp only
  split
  · exact h
  · rw [injectOn_mem]
    apply poke_memWf
    refine foldl_keeps (fun x : State × List Nat => Memory.wf x.1.mem = true) _ ?_ _ _ h
    rintro ⟨t, bad⟩ ⟨w, e⟩ ht
    dsimp only
    split
    · exact ht
    · cases e <;> simpa using ht

/-- A write under ECC keeps memory in its canonical form. -/
theorem eccWrite_memWf (s : State) (src a : Nat) (l : List Byte) (h : Memory.wf s.mem = true) :
    Memory.wf (s.eccWrite src a l).1.mem = true := by
  unfold eccWrite
  split
  · refine foldl_keeps (fun x : State × Option Nat => Memory.wf x.1.mem = true) _ ?_ _ _ (by simpa using h)
    rintro ⟨t, ue⟩ ⟨lo, hi⟩ ht
    dsimp only
    split
    · exact eccPut_memWf t src _ _ ht
    · exact ht
  · exact eccPut_memWf s src a l h

/-- An engine's write keeps memory in its canonical form. -/
theorem writeMem_memWf (s : State) (src a : Nat) (l : List Byte) (h : Memory.wf s.mem = true) :
    Memory.wf (s.writeMem src a l).1.mem = true := by
  unfold writeMem
  split
  · exact h
  · exact eccWrite_memWf s src a l h

/-! ### Bytes after a write -/

/-- A byte outside the written run reads as before. -/
theorem byteAt_poke_out (s : State) (a : Nat) (l : List Byte) {b : Nat} (h : b < a ∨ a + l.length ≤ b) :
    (s.poke a l).byteAt b = s.byteAt b := by
  unfold byteAt
  split
  · rfl
  · exact Store.get_setRun_out 0 s.mem a l h

/-- A byte of the written run below the boot ROM reads as written. -/
theorem byteAt_poke_in (s : State) (a : Nat) (l : List Byte) (i : Nat) (hi : i < l.length) (hr : a + i < 0xF0000000) :
    (s.poke a l).byteAt (a + i) = l[i] := by
  unfold byteAt
  rw [if_neg (by omega)]
  exact Store.get_setRun_in 0 s.mem a l i hi

/-- Bytes just written read back. -/
theorem peek_poke (s : State) (a : Nat) (l : List Byte) (h : Memory.wf s.mem = true) (hr : a < 0xF0000000) :
    (s.poke a l).peek a l.length = l := by
  unfold peek
  rw [if_neg (by omega)]
  exact Store.getRun_setRun 0 h a l

/-- A write of undamaged memory outside the Crowsnest SRAM, with no injection armed, stores its bytes. -/
theorem eccWrite_clean (s : State) (src a : Nat) (l : List Byte) (hl : l ≠ []) (hd : s.damaged a l.length = [])
    (hc : ∀ i < l.length, s.cnShut (a + i) = false) (hi : s.inject = none) :
    s.eccWrite src a l = (s.poke a l, none) := by
  have hc' : ((List.range l.length).any fun i => s.cnShut (a + i)) = false := by
    simpa using hc
  unfold eccWrite
  rw [hc']
  simp only [Bool.false_eq_true, if_false]
  unfold eccPut
  dsimp only
  rw [hd]
  rw [if_neg (by simpa using hl)]
  simp [injectOn, hi]

/-! ### What an access leaves -/

/-- A register that an ECC error, or an injection that is performed, may change (06 R274, R275; 19 R785). -/
def eccReg (a : Nat) : Bool :=
  (decide (0x40010408 ≤ a) && decide (a < 0x40010440)) || a == FT_CE_ECC || a == CN_ECC || a == CN_ECC_ADDR

/-- A memory access changes memory, its code words, the ECC registers, the armed injection and the free values drawn. -/
def MemStep (s t : State) : Prop :=
  t = { s with mem := t.mem, ecc := t.ecc, regs := t.regs, free := t.free, inject := t.inject } ∧
  ∀ a, eccReg a = false → t.reg a = s.reg a

theorem MemStep.refl (s : State) : MemStep s s := ⟨rfl, fun _ _ => rfl⟩

theorem MemStep.trans {s t u : State} (h : MemStep s t) (h' : MemStep t u) : MemStep s u := by
  refine ⟨?_, fun a ha => (h'.2 a ha).trans (h.2 a ha)⟩
  have h1 := h.1
  have h2 := h'.1
  rw [h1] at h2
  exact h2

theorem MemStep.setReg {s : State} {b : Nat} (v : Word) (h : eccReg b = true) : MemStep s (s.setReg b v) := by
  refine ⟨rfl, fun a ha => reg_setReg_ne s v ?_⟩
  rintro rfl
  rw [h] at ha
  exact Bool.noConfusion ha

theorem MemStep.of_regs_eq {s t : State} (h : t = { s with mem := t.mem, ecc := t.ecc, regs := t.regs, free := t.free, inject := t.inject })
    (hr : t.regs = s.regs) : MemStep s t := ⟨h, fun a _ => by unfold reg; rw [hr]⟩

theorem memNumber_lt (p : Part) (a : Nat) : memNumber p a < 8 := by
  unfold memNumber
  have hk : p.stackCount ≤ 4 := by cases h : p.variant <;> simp [Part.stackCount, h]
  have hp : 0 < p.stackCount := by cases h : p.variant <;> simp [Part.stackCount, h]
  have := Nat.mod_lt ((a - 0x10000000) / 256) (show 0 < 2 * p.stackCount by omega)
  split
  · omega
  · split
    · omega
    · split <;> omega

theorem MemStep.setEcc (s : State) (w : Nat) (e : Ecc) : MemStep s (s.setEcc w e) := .of_regs_eq rfl rfl
theorem MemStep.poke (s : State) (a : Nat) (l : List Byte) : MemStep s (s.poke a l) := .of_regs_eq rfl rfl
theorem MemStep.draw (s : State) (w : Nat) : MemStep s (s.draw w).2 := .of_regs_eq rfl rfl

theorem MemStep.drawBytes (s : State) (n : Nat) : MemStep s (s.drawBytes n).2 := by
  induction n generalizing s with
  | zero => exact .refl s
  | succ n ih => exact (MemStep.draw s 8).trans (ih _)

theorem MemStep.noteCnEcc (s : State) (a : Nat) (ue : Bool) : MemStep s (s.noteCnEcc a ue) := by
  unfold State.noteCnEcc
  split
  · exact (MemStep.setReg _ (by decide)).trans (MemStep.setReg _ (by decide))
  · exact (MemStep.setReg _ (by decide)).trans (MemStep.setReg _ (by decide))

theorem MemStep.noteEcc (s : State) (src a : Nat) (ue : Bool) : MemStep s (s.noteEcc src a ue) := by
  unfold State.noteEcc
  split
  · exact .noteCnEcc s a ue
  · have hk := memNumber_lt s.part a
    have h1 : MemStep s (s.bump (RG_ECC_CNT (memNumber s.part a)) (if ue then 16 else 0) 16) :=
      MemStep.setReg _ (by unfold eccReg RG_ECC_CNT; simp; omega)
    dsimp only
    generalize s.bump (RG_ECC_CNT (memNumber s.part a)) (if ue then 16 else 0) 16 = s1 at h1 ⊢
    have h2 : MemStep s1 (if ue = true then s1 else s1.bump FT_CE_ECC 0 32) := by
      split
      · exact .refl _
      · exact MemStep.setReg _ (by decide)
    generalize (if ue = true then s1 else s1.bump FT_CE_ECC 0 32) = s2 at h2 ⊢
    refine (h1.trans h2).trans ?_
    split
    · exact .refl _
    · exact (MemStep.draw s2 8).trans ((MemStep.setReg _ (by decide)).trans (MemStep.setReg _ (by decide)))

theorem MemStep.eccRead (s : State) (src a n : Nat) : MemStep s (s.eccRead src a n).1 := by
  unfold State.eccRead
  refine foldl_keeps (fun x : State × Option Nat => MemStep s x.1) _ ?_ _ _ (.refl s)
  rintro ⟨t, ue⟩ ⟨w, e⟩ h
  cases e
  · exact h
  · exact h.trans ((MemStep.noteEcc t src w false).trans (.setEcc _ _ _))
  · exact h.trans (.noteEcc t src w true)

theorem MemStep.readBytes (s : State) (a n : Nat) : MemStep s (s.readBytes a n).2 := by
  unfold State.readBytes
  dsimp only
  split
  · exact .drawBytes s n
  · exact .refl s

theorem MemStep.injectOn (s : State) (a n : Nat) : MemStep s (s.injectOn a n) := by
  unfold State.injectOn
  split
  · exact .refl s
  · split
    · rename_i i _ _
      have h : MemStep s ((s.setEcc i.word i.kind).setReg RG_ECC_INJ 0) :=
        (MemStep.setEcc s i.word i.kind).trans (MemStep.setReg 0 (by decide))
      exact h.trans (.of_regs_eq rfl rfl)
    · exact .refl s

theorem MemStep.eccPut (s : State) (src a : Nat) (l : List Byte) : MemStep s (s.eccPut src a l).1 := by
  unfold State.eccPut
  dsimp only
  split
  · exact .refl s
  · refine MemStep.trans ?_ ((MemStep.poke _ _ _).trans (MemStep.injectOn _ _ _))
    refine foldl_keeps (fun x : State × List Nat => MemStep s x.1) _ ?_ _ _ (.refl s)
    rintro ⟨t, bad⟩ ⟨w, e⟩ h
    dsimp only
    split
    · exact h.trans (.setEcc _ _ _)
    · cases e
      · exact h
      · exact h.trans ((MemStep.noteEcc t src w false).trans (.setEcc _ _ _))
      · exact h.trans (.noteEcc t src w true)

/-- All that a write under ECC changes besides memory, and CN_STAT.WPROT. -/
theorem eccWrite_step (s : State) (src a : Nat) (l : List Byte) :
    MemStep s (s.eccWrite src a l).1 ∨ MemStep (s.setRf CN_STAT 4 1 1) (s.eccWrite src a l).1 := by
  unfold State.eccWrite
  split
  · right
    refine foldl_keeps (fun x : State × Option Nat => MemStep (s.setRf CN_STAT 4 1 1) x.1) _ ?_ _ _ (.refl _)
    rintro ⟨t, ue⟩ ⟨lo, hi⟩ h
    dsimp only
    split
    · exact h.trans (.eccPut _ _ _ _)
    · exact h
  · exact .inl (.eccPut s src a l)

/-- A write under ECC changes no register but those of ECC and CN_STAT. -/
theorem eccWrite_reg (s : State) (src a : Nat) (l : List Byte) {b : Nat} (h : eccReg b = false) (hc : b ≠ CN_STAT) :
    (s.eccWrite src a l).1.reg b = s.reg b := by
  rcases eccWrite_step s src a l with h1 | h1
  · exact h1.2 b h
  · rw [h1.2 b h]; exact reg_setReg_ne s _ hc

/-- A write under ECC leaves all but memory, code words, registers, the injection and the free values. -/
theorem eccWrite_frame (s : State) (src a : Nat) (l : List Byte) :
    (s.eccWrite src a l).1 = { s with
      mem := (s.eccWrite src a l).1.mem, ecc := (s.eccWrite src a l).1.ecc, regs := (s.eccWrite src a l).1.regs
      free := (s.eccWrite src a l).1.free, inject := (s.eccWrite src a l).1.inject } := by
  rcases eccWrite_step s src a l with h1 | h1
  · exact h1.1
  · exact h1.1

end State

end Sys2Proof.Machine
end

