-- ==== Sys2Proof/Laws/Device.lean ====
section
/-! SUPPORT. What entering a state, recording a fault, and entering BECALMED can do. -/

namespace Sys2Proof.Machine.State

/-! ### Derived updates -/

theorem dk_setDkf_ne (s : State) {o p : Nat} (lo w x : Nat) (h : p ≠ o) : (s.setDkf o lo w x).dk p = s.dk p :=
  dk_setDk_ne s _ h
@[simp] theorem dkf_setDkf_self (s : State) (o lo w x : Nat) (h : lo + w ≤ 16) :
    (s.setDkf o lo w x).dkf o lo w = x % 2 ^ w := by
  unfold dkf setDkf
  rw [dk_setDk_self, fld_putFld_self _ _ _ _ h]
theorem dkf_setDkf_ne (s : State) (o lo w x lo' w' : Nat) (h : lo' + w' ≤ lo ∨ lo + w ≤ lo') :
    (s.setDkf o lo w x).dkf o lo' w' = s.dkf o lo' w' := by
  unfold dkf setDkf
  rw [dk_setDk_self, fld_putFld_ne _ _ _ _ _ _ h]
theorem reg_setRf_ne (s : State) {a b : Nat} (lo w x : Nat) (h : b ≠ a) : (s.setRf a lo w x).reg b = s.reg b :=
  reg_setReg_ne s _ h
@[simp] theorem rf_setRf_self (s : State) (a lo w x : Nat) (h : lo + w ≤ 32) : (s.setRf a lo w x).rf a lo w = x % 2 ^ w := by
  unfold rf setRf
  rw [reg_setReg_self, fld_putFld_self _ _ _ _ h]
theorem rf_setRf_ne (s : State) (a lo w x lo' w' : Nat) (h : lo' + w' ≤ lo ∨ lo + w ≤ lo') :
    (s.setRf a lo w x).rf a lo' w' = s.rf a lo' w' := by
  unfold rf setRf
  rw [reg_setReg_self, fld_putFld_ne _ _ _ _ _ _ h]
theorem reg_bumpBy_ne (s : State) {a b : Nat} (lo w k : Nat) (h : b ≠ a) : (s.bumpBy a lo w k).reg b = s.reg b := by
  unfold bumpBy; exact reg_setRf_ne s lo w _ h
theorem reg_bump_ne (s : State) {a b : Nat} (lo w : Nat) (h : b ≠ a) : (s.bump a lo w).reg b = s.reg b := by
  unfold bump; exact reg_bumpBy_ne s lo w 1 h
@[simp] theorem dk_setRf (s : State) (a lo w x o : Nat) : (s.setRf a lo w x).dk o = s.dk o := rfl
@[simp] theorem dk_bump (s : State) (a lo w o : Nat) : (s.bump a lo w).dk o = s.dk o := rfl
@[simp] theorem dk_bumpBy (s : State) (a lo w k o : Nat) : (s.bumpBy a lo w k).dk o = s.dk o := rfl
@[simp] theorem reg_setDkf (s : State) (o lo w x a : Nat) : (s.setDkf o lo w x).reg a = s.reg a := rfl
@[simp] theorem reg_raise (s : State) (i a : Nat) : (s.raise i).reg a = s.reg a := rfl
theorem dk_raise_ne (s : State) (i : Nat) {o : Nat} (h : o ≠ DK_IRQ_RAW) : (s.raise i).dk o = s.dk o := dk_setDk_ne s _ h
theorem raise_frame (s : State) (i : Nat) : s.raise i = { s with deck := (s.raise i).deck } := rfl
/-- A raised source's latch reads 1. -/
theorem dkbit_raise (s : State) (i : Nat) (h : i < 16) : (s.raise i).dkbit DK_IRQ_RAW i = true := by
  unfold dkbit raise
  rw [dkf_setDkf_self _ _ _ _ _ (by omega)]
  rfl

/-! ### HAIL and transitions -/

/-- Sampling DK_STAGE may name the unit under test, a free choice. -/
theorem testUnit_frame (s : State) : s.testUnit = { s with deck := s.testUnit.deck, free := s.testUnit.free } := by
  unfold testUnit draw
  dsimp only
  split <;> rfl
theorem testUnit_dk (s : State) {o : Nat} (h : o ≠ DK_STAGE) : s.testUnit.dk o = s.dk o := by
  unfold testUnit draw
  dsimp only
  split
  · exact dk_setDkf_ne _ _ _ _ h
  · rfl

theorem hailDue_frame (s : State) : ∃ h, s.hailDue = { s with
    dev := { s.dev with hail := h }, deck := s.hailDue.deck, free := s.hailDue.free } := by
  unfold hailDue hailStart
  dsimp only
  split
  · have hu := testUnit_frame s
    generalize s.testUnit = u at *
    refine ⟨{ u.dev.hail with sending := u.hailLine, count := (u.dev.hail.count + 1) % 100000 }, ?_⟩
    have hd : u.dev = s.dev := by rw [hu]
    rw [hd, hu]
  · exact ⟨_, rfl⟩
theorem hailDue_dk (s : State) {o : Nat} (h : o ≠ DK_STAGE) : s.hailDue.dk o = s.dk o := by
  unfold hailDue hailStart
  dsimp only
  split
  · exact testUnit_dk s h
  · rfl

/-- A transition changes the mode, HAIL, the mark of the frame in progress, the STATE latch, and what sampling DK_STAGE for a
HAIL line does, alone. -/
theorem enter_frame (s : State) (m : Mode) : ∃ h, (s.enter m) = { s with
    dev := { s.dev with mode := m, hail := h }, lk := { s.lk with frame := s.lk.frame.map fun f => frameEnters f m }
    deck := (s.enter m).deck, free := (s.enter m).free } := by
  unfold enter
  dsimp only
  have key : ∀ (u : State) (b : Bool), (∃ h, u = { s with
        dev := { s.dev with mode := m, hail := h }, lk := { s.lk with frame := s.lk.frame.map fun f => frameEnters f m }
        deck := u.deck, free := u.free }) →
      ∃ h, (if b = true then u.hailDue else u) = { s with
        dev := { s.dev with mode := m, hail := h }, lk := { s.lk with frame := s.lk.frame.map fun f => frameEnters f m }
        deck := (if b = true then u.hailDue else u).deck, free := (if b = true then u.hailDue else u).free } := by
    intro u b ⟨h, hu⟩
    cases b
    · exact ⟨h, hu⟩
    · obtain ⟨h', hd⟩ := hailDue_frame u
      refine ⟨h', ?_⟩
      simp only [if_true]
      generalize u.hailDue = v at *
      rw [hd, hu]
  apply key
  split <;> exact ⟨_, rfl⟩

theorem enter_dk (s : State) (m : Mode) {o : Nat} (h : o ≠ DK_IRQ_RAW) (h' : o ≠ DK_STAGE ∨ m = .becalmed) :
    (s.enter m).dk o = s.dk o := by
  have raised : ∀ (u : State) (b : Bool), u.dk o = s.dk o → (if b = true then u else u.raise irqSTATE).dk o = s.dk o := by
    intro u b hu
    cases b
    · exact (dk_raise_ne _ _ h).trans hu
    · exact hu
  rcases h' with h' | rfl
  · have key : ∀ (u : State) (b : Bool), u.dk o = s.dk o → (if b = true then u.hailDue else u).dk o = s.dk o := by
      intro u b hu
      cases b
      · exact hu
      · exact (hailDue_dk u h').trans hu
    unfold enter
    dsimp only
    exact key _ _ (raised _ _ rfl)
  · unfold enter
    exact raised _ _ rfl

@[simp] theorem enter_mode (s : State) (m : Mode) : (s.enter m).dev.mode = m := by
  obtain ⟨h, he⟩ := enter_frame s m; rw [he]
@[simp] theorem enter_reg (s : State) (m : Mode) (a : Nat) : (s.enter m).reg a = s.reg a := by
  obtain ⟨h, he⟩ := enter_frame s m; rw [he]; rfl
@[simp] theorem enter_mem (s : State) (m : Mode) : (s.enter m).mem = s.mem := by
  obtain ⟨h, he⟩ := enter_frame s m; rw [he]
@[simp] theorem enter_cap (s : State) (m : Mode) : (s.enter m).cap = s.cap := by
  obtain ⟨h, he⟩ := enter_frame s m; rw [he]
@[simp] theorem enter_bosun (s : State) (m : Mode) : (s.enter m).bosun = s.bosun := by
  obtain ⟨h, he⟩ := enter_frame s m; rw [he]
@[simp] theorem enter_part (s : State) (m : Mode) : (s.enter m).part = s.part := by
  obtain ⟨h, he⟩ := enter_frame s m; rw [he]
@[simp] theorem enter_command (s : State) (m : Mode) : (s.enter m).dev.command = s.dev.command := by
  obtain ⟨h, he⟩ := enter_frame s m; rw [he]

/-- A transition other than HOVE_TO to or from UNDERWAY raises the STATE source (03 R134). -/
theorem enter_raises (s : State) (m : Mode) (h1 : ¬ (s.dev.mode = .hoveTo ∧ m = .underway))
    (h2 : ¬ (s.dev.mode = .underway ∧ m = .hoveTo)) : (s.enter m).dkbit DK_IRQ_RAW irqSTATE = true := by
  unfold enter
  dsimp only
  have key : ∀ (u : State) (b : Bool), u.dkbit DK_IRQ_RAW irqSTATE = true →
      (if b = true then u.hailDue else u).dkbit DK_IRQ_RAW irqSTATE = true := by
    intro u b hu
    cases b
    · exact hu
    · simp only [if_true]
      unfold dkbit dkf at hu ⊢
      rw [hailDue_dk u (by decide)]; exact hu
  apply key
  rw [if_neg (by simp only [Bool.or_eq_true, decide_eq_true_eq]; tauto)]
  exact dkbit_raise _ _ (by decide)

/-! ### Fault records -/

/-- Only the registers and the Deck differ. -/
def RegsDeck (s t : State) : Prop := t = { s with regs := t.regs, deck := t.deck }
theorem RegsDeck.refl (s : State) : RegsDeck s s := rfl
theorem RegsDeck.setReg {s t : State} (h : RegsDeck s t) (a : Nat) (v : Word) : RegsDeck s (t.setReg a v) := by
  have h' := congrArg (fun z : State => ({ z with regs := (t.setReg a v).regs } : State)) h
  exact h'
theorem RegsDeck.setDk {s t : State} (h : RegsDeck s t) (o : Nat) (v : Half) : RegsDeck s (t.setDk o v) := by
  have h' := congrArg (fun z : State => ({ z with deck := (t.setDk o v).deck } : State)) h
  exact h'

/-- A fault record changes the fault block's registers and three Deck mirrors alone (16 R698; 05 R234). -/
theorem recordFault_frame (s : State) (cls code : Nat) (multi : Bool) (d : Word) (at? : Option (Nat × Nat)) (a : Nat) :
    RegsDeck s (s.recordFault cls code multi d at? a) := by
  have key : ∀ u : State, RegsDeck s u →
      RegsDeck s (if cls = 3 then u.bump FT_ECNT 0 32 else if cls = 2 then u.bump FT_LATENT 0 32 else u) := by
    intro u hu
    split
    · exact hu.setReg _ _
    · split
      · exact hu.setReg _ _
      · exact hu
  unfold recordFault
  split
  · exact .refl s
  · exact key _ ((((((((RegsDeck.refl s).setReg _ _).setReg _ _).setReg _ _).setReg _ _).setReg _ _).setDk _ _).setDk _ _
      |>.setDk _ _)

theorem mirrors_dk (u : State) (x y z : Half) {o : Nat} (h : o ∉ [DK_FAULT_LO, DK_FAULT_HI, DK_FAULT_SEQ]) :
    (((u.setDk DK_FAULT_LO x).setDk DK_FAULT_HI y).setDk DK_FAULT_SEQ z).dk o = u.dk o := by
  simp only [List.mem_cons, List.not_mem_nil, or_false, not_or] at h
  rw [dk_setDk_ne _ _ h.2.2, dk_setDk_ne _ _ h.2.1, dk_setDk_ne _ _ h.1]

theorem mirrors_self (u : State) (x y z : Half) :
    let t := ((u.setDk DK_FAULT_LO x).setDk DK_FAULT_HI y).setDk DK_FAULT_SEQ z
    t.dk DK_FAULT_LO = x ∧ t.dk DK_FAULT_HI = y ∧ t.dk DK_FAULT_SEQ = z := by
  refine ⟨?_, ?_, ?_⟩
  · exact (dk_setDk_ne _ _ (by decide)).trans ((dk_setDk_ne _ _ (by decide)).trans (dk_setDk_self _ _ _))
  · exact (dk_setDk_ne _ _ (by decide)).trans (dk_setDk_self _ _ _)
  · exact dk_setDk_self _ _ _

theorem recordFault_dk (s : State) (cls code : Nat) (multi : Bool) (d : Word) (at? : Option (Nat × Nat)) (a : Nat)
    {o : Nat} (h : o ∉ [DK_FAULT_LO, DK_FAULT_HI, DK_FAULT_SEQ]) :
    (s.recordFault cls code multi d at? a).dk o = s.dk o := by
  have key : ∀ u : State, u.dk o = s.dk o →
      (if cls = 3 then u.bump FT_ECNT 0 32 else if cls = 2 then u.bump FT_LATENT 0 32 else u).dk o = s.dk o := by
    intro u hu
    split
    · exact hu
    · split
      · exact hu
      · exact hu
  unfold recordFault
  split
  · rfl
  · exact key _ (mirrors_dk _ _ _ _ h)

/-- A fault record's Deck mirrors. -/
theorem recordFault_mirror (s : State) (cls code : Nat) (multi : Bool) (d : Word) (at? : Option (Nat × Nat)) (a : Nat)
    (h : s.dev.mode ≠ .becalmed) :
    let t := s.recordFault cls code multi d at? a
    t.dk DK_FAULT_LO = BitVec.ofNat 16 d.toNat ∧ t.dk DK_FAULT_HI = BitVec.ofNat 16 (code + cls * 256) ∧
    t.dk DK_FAULT_SEQ = BitVec.ofNat 16 ((s.dkf DK_FAULT_SEQ 0 16 + 1) % 65536) := by
  have key : ∀ (u : State) (x y z : Half), (u.dk DK_FAULT_LO = x ∧ u.dk DK_FAULT_HI = y ∧ u.dk DK_FAULT_SEQ = z) →
      let t := (if cls = 3 then u.bump FT_ECNT 0 32 else if cls = 2 then u.bump FT_LATENT 0 32 else u)
      t.dk DK_FAULT_LO = x ∧ t.dk DK_FAULT_HI = y ∧ t.dk DK_FAULT_SEQ = z := by
    intro u x y z hu
    dsimp only
    split
    · exact hu
    · split
      · exact hu
      · exact hu
  unfold recordFault
  rw [if_neg h]
  exact key _ _ _ _ (mirrors_self _ _ _ _)

/-- The registers of the fault block. -/
theorem recordFault_reg (s : State) (cls code : Nat) (multi : Bool) (d : Word) (at? : Option (Nat × Nat)) (a : Nat) {b : Nat}
    (h : b < 0x40020000 ∨ 0x40030000 ≤ b) : (s.recordFault cls code multi d at? a).reg b = s.reg b := by
  have hb : ∀ c : Nat, 0x40020000 ≤ c → c < 0x40030000 → b ≠ c := by intro c _ _; omega
  unfold recordFault
  split
  · rfl
  · dsimp only
    have key : ∀ u : State, u.reg b = s.reg b → (if cls = 3 then u.bump FT_ECNT 0 32 else if cls = 2 then
        u.bump FT_LATENT 0 32 else u).reg b = s.reg b := by
      intro u hu
      split
      · exact (reg_setReg_ne _ _ (hb _ (by decide) (by decide))).trans hu
      · split
        · exact (reg_setReg_ne _ _ (hb _ (by decide) (by decide))).trans hu
        · exact hu
    apply key
    simp only [reg_setDk]
    rw [reg_setReg_ne _ _ (hb _ (by decide) (by decide)), reg_setReg_ne _ _ (hb _ (by decide) (by decide)),
      reg_setReg_ne _ _ (hb _ (by decide) (by decide)), reg_setReg_ne _ _ (hb _ (by decide) (by decide)),
      reg_setReg_ne _ _ (hb _ (by decide) (by decide))]

/-! ### Entry to BECALMED -/

theorem finishCmd_frame (s : State) (op r : Nat) :
    s.finishCmd op r = { s with dev := { s.dev with command := none }, deck := (s.finishCmd op r).deck } := rfl
theorem finishCmd_dk (s : State) (op r : Nat) {o : Nat} (h : o ≠ DK_CMDSTAT) (h' : o ≠ DK_IRQ_RAW) :
    (s.finishCmd op r).dk o = s.dk o := by
  unfold finishCmd
  rw [dk_raise_ne _ _ h', dk_setDk_ne _ _ h]; rfl
/-- A command's finish: DONE, its RESULT and OP (05 R219). -/
theorem finishCmd_stat (s : State) (op r : Nat) :
    (s.finishCmd op r).dk DK_CMDSTAT = BitVec.ofNat 16 (2 + r * 16 + op * 256) := by
  unfold finishCmd
  rw [dk_raise_ne _ _ (by decide), dk_setDk_self]

theorem linkDown_frame (s : State) : s.linkDown = { s with regs := s.linkDown.regs, deck := s.linkDown.deck, sw := s.linkDown.sw } := by
  unfold linkDown
  by_cases h : s.sw.linked = true
  · rw [if_pos h]; rfl
  · rw [if_neg h]
theorem linkDown_deck (s : State) (h : s.sw.linked = true) :
    s.linkDown.deck = (((s.bumpBy SW_CNT1 24 8 s.sw.bellQ.length).bump SW_CNT1 8 8).raise irqLINK).deck := by
  unfold linkDown
  rw [if_pos h]
theorem linkDown_regs (s : State) (h : s.sw.linked = true) :
    s.linkDown.regs = ((s.bumpBy SW_CNT1 24 8 s.sw.bellQ.length).bump SW_CNT1 8 8).regs := by
  unfold linkDown
  rw [if_pos h]; rfl
theorem linkDown_of_not (s : State) (h : ¬ s.sw.linked = true) : s.linkDown = s := by
  unfold linkDown
  rw [if_neg h]
theorem linkDown_dk (s : State) {o : Nat} (h : o ≠ DK_IRQ_RAW) : s.linkDown.dk o = s.dk o := by
  by_cases hl : s.sw.linked = true
  · exact (dk_of_deck_eq (linkDown_deck s hl) o).trans (dk_raise_ne _ _ h)
  · rw [linkDown_of_not s hl]
theorem linkDown_reg (s : State) {a : Nat} (h : a ≠ SW_CNT1) : s.linkDown.reg a = s.reg a := by
  by_cases hl : s.sw.linked = true
  · rw [reg_of_regs_eq (linkDown_regs s hl), reg_bump_ne _ _ _ h, reg_bumpBy_ne _ _ _ _ h]
  · rw [linkDown_of_not s hl]
@[simp] theorem linkDown_linked (s : State) : s.linkDown.sw.linked = false := by
  unfold linkDown
  by_cases hl : s.sw.linked = true
  · rw [if_pos hl]
  · rw [if_neg hl]; simpa using hl

theorem winReturn_frame (s : State) (v : Word) : s.winReturn v = { s with deck := (s.winReturn v).deck } := rfl
theorem deckReturn_dk (s : State) (o : Nat) (v : Half) (p : Nat) : (s.deckReturn o v).dk p = s.dk p := by
  unfold deckReturn dk
  dsimp only
  split <;> rfl
theorem winReturn_dk (s : State) (v : Word) {o : Nat} (h : o ≠ DK_WIN_DATA) (h' : o ≠ DK_WIN_DATA_HI) :
    (s.winReturn v).dk o = s.dk o := by
  unfold winReturn
  dsimp only
  rw [deckReturn_dk, dk_setDk_ne _ _ h, dk_setDk_ne _ _ h']

/-- Changes of the Deck's part alone chain. -/
theorem deck_trans {s u v : State} (h : u = { s with deck := u.deck }) (k : v = { u with deck := v.deck }) :
    v = { s with deck := v.deck } :=
  k.trans (congrArg (fun z : State => { z with deck := v.deck }) h)
theorem setDkf_frame (s : State) (o lo w n : Nat) : s.setDkf o lo w n = { s with deck := (s.setDkf o lo w n).deck } := rfl

theorem winDown_frame (s : State) : s.winDown = { s with deck := s.winDown.deck } := by
  have key (u : State) (b : Bool) (hu : u = { s with deck := u.deck }) :
      (if b = true then u else u.winReturn 0) = { s with deck := (if b = true then u else u.winReturn 0).deck } := by
    cases b
    · exact deck_trans hu (winReturn_frame u 0)
    · exact hu
  unfold winDown
  split
  · split
    · exact deck_trans (deck_trans (deck_trans (key _ _ rfl) (setDkf_frame _ _ _ _ _)) (setDkf_frame _ _ _ _ _))
        (raise_frame _ _)
    · rfl
  · rfl
theorem winDown_dk (s : State) {o : Nat} (h : o ∉ [DK_WIN_DATA, DK_WIN_DATA_HI, DK_WIN_CTRL, DK_IRQ_RAW]) :
    s.winDown.dk o = s.dk o := by
  simp only [List.mem_cons, List.not_mem_nil, or_false, not_or] at h
  have key : ∀ (u : State) (b : Bool), u.dk o = s.dk o →
      ((((if b = true then u else u.winReturn 0).setDkf DK_WIN_CTRL 4 1 0).setDkf DK_WIN_CTRL 8 4 8).raise irqWIN).dk o =
        s.dk o := by
    intro u b hu
    rw [dk_raise_ne _ _ h.2.2.2, dk_setDkf_ne _ _ _ _ h.2.2.1, dk_setDkf_ne _ _ _ _ h.2.2.1]
    cases b
    · exact (winReturn_dk u 0 h.1 h.2.1).trans hu
    · exact hu
  unfold winDown
  split
  · split
    · exact key _ _ rfl
    · rfl
  · rfl
theorem dropHost_frame (s : State) : s.dropHost = { s with deck := s.dropHost.deck } := rfl
theorem dropHost_dk (s : State) (o : Nat) : s.dropHost.dk o = s.dk o := rfl
theorem passCycles_frame (s : State) :
    s.passCycles = { s with bosun := { s.bosun with cycle := s.passCycles.bosun.cycle }, free := s.passCycles.free } := rfl

/-- A controller that stops changes its own status, its transfer, its lines and the free values alone. -/
theorem i2cStop_spec (s : State) (c : Nat) :
    s.i2cStop c = { s with
      regs := (s.i2cStop c).regs, i2c := (s.i2cStop c).i2c, i2cOut := (s.i2cStop c).i2cOut, free := (s.i2cStop c).free } ∧
    ∀ a, a ≠ I2C c + 0x18 → (s.i2cStop c).reg a = s.reg a := by
  have cut : ∀ u : State, u.i2cCut c false = ((u.i2cCut c false).1, { u with
      i2c := (u.i2cCut c false).2.i2c, i2cOut := (u.i2cCut c false).2.i2cOut, free := (u.i2cCut c false).2.free }) := by
    intro u
    unfold i2cCut
    split <;> rfl
  have key : ∀ u : State, u = { s with regs := u.regs } → (∀ a, a ≠ I2C c + 0x18 → u.reg a = s.reg a) →
      (u.i2cCut c false).2 = { s with
        regs := (u.i2cCut c false).2.regs, i2c := (u.i2cCut c false).2.i2c, i2cOut := (u.i2cCut c false).2.i2cOut
        free := (u.i2cCut c false).2.free } ∧
      ∀ a, a ≠ I2C c + 0x18 → (u.i2cCut c false).2.reg a = s.reg a := by
    intro u hu hr
    have h := congrArg Prod.snd (cut u)
    generalize (u.i2cCut c false).2 = v at *
    dsimp only at h
    refine ⟨?_, fun a ha => (reg_of_regs_eq (by rw [h]) a).trans (hr a ha)⟩
    rw [hu] at h
    rw [h]
  unfold i2cStop
  dsimp only
  split
  · exact key _ rfl fun a ha => reg_setRf_ne _ _ _ _ ha
  · exact key _ rfl fun _ _ => rfl

/-- An island parked at code 40 (04 Table 4.6). -/
theorem codes40_spec (s : State) :
    (∀ i, i < 8 → s.codes40.islCode i = 40) ∧ (∀ a, (∀ i, i < 8 → a ≠ TR_ISL i) → s.codes40.reg a = s.reg a) ∧
    s.codes40 = { s with regs := s.codes40.regs, trim := s.codes40.trim } := by
  have h : ∀ n, ∀ t : State, t = (List.range n).foldl (fun s i =>
      let s := s.setReg (TR_ISL i) (putFld (putFld (s.reg (TR_ISL i)) 0 6 40) 8 2 0)
      let x := Store.get {} s.trim.islands i
      { s with trim := { s.trim with islands := Store.set {} s.trim.islands i { x with streak := 0, low := 0 } } }) s →
      (∀ i, i < n → t.islCode i = 40) ∧ (∀ a, (∀ i, i < n → a ≠ TR_ISL i) → t.reg a = s.reg a) ∧
      t = { s with regs := t.regs, trim := t.trim } := by
    intro n
    induction n with
    | zero => intro t ht; simp at ht; subst ht; exact ⟨by omega, fun _ _ => rfl, rfl⟩
    | succ n ih =>
      intro t ht
      rw [List.range_succ, List.foldl_append, List.foldl_cons, List.foldl_nil] at ht
      obtain ⟨h1, h2, h3⟩ := ih _ rfl
      generalize (List.range n).foldl (fun s i =>
        let s := s.setReg (TR_ISL i) (putFld (putFld (s.reg (TR_ISL i)) 0 6 40) 8 2 0)
        let x := Store.get {} s.trim.islands i
        { s with trim := { s.trim with islands := Store.set {} s.trim.islands i { x with streak := 0, low := 0 } } }) s = u at *
      subst ht
      refine ⟨?_, ?_, ?_⟩
      · intro i hi
        by_cases hn : i = n
        · subst hn
          change fld ((u.setReg (TR_ISL i) _).reg (TR_ISL i)) 0 6 = 40
          rw [reg_setReg_self, fld_putFld_ne _ _ _ _ _ _ (by omega), fld_putFld_self _ _ _ _ (by omega)]
          norm_num
        · have := h1 i (by omega)
          change fld ((u.setReg (TR_ISL n) _).reg (TR_ISL i)) 0 6 = 40
          rw [reg_setReg_ne _ _ (by unfold TR_ISL; omega)]
          exact this
      · intro a ha
        change (u.setReg (TR_ISL n) _).reg a = _
        rw [reg_setReg_ne _ _ (ha n (by omega))]
        exact h2 a fun i hi => ha i (by omega)
      · rw [h3]; rfl
  exact h 8 _ rfl

/-- The units' safe states leave the Deck, the Capstan, Bosun and the port, and every island at code 40. -/
theorem safeStates_spec (s : State) :
    s.safeStates.deck = s.deck ∧ s.safeStates.cap = s.cap ∧ s.safeStates.bosun = s.bosun ∧ s.safeStates.sw = s.sw ∧
    s.safeStates.part = s.part ∧ s.safeStates.pending = s.pending ∧
    s.safeStates.dev = { s.dev with reader := s.safeStates.dev.reader } ∧
    (s.dev.reader = none → s.safeStates.mem = s.mem) ∧ ∀ i, i < 8 → s.safeStates.islCode i = 40 := by
  obtain ⟨h40, -, hfr⟩ := codes40_spec s
  unfold safeStates
  dsimp only
  generalize hu0 : s.codes40 = u0 at *
  obtain ⟨f1, r1⟩ := i2cStop_spec u0 0
  generalize u0.i2cStop 0 = u1 at *
  obtain ⟨f2, r2⟩ := i2cStop_spec u1 1
  generalize u1.i2cStop 1 = u2 at *
  have e2 : ∀ i, i < 8 → u2.islCode i = 40 := by
    intro i hi
    have := h40 i hi
    unfold islCode rf at this ⊢
    rw [r2 _ (by unfold TR_ISL I2C; simp; omega), r1 _ (by unfold TR_ISL I2C; simp; omega)]
    exact this
  have hdev : u2.dev = s.dev := by rw [f2, f1, hfr]
  have hdeck : u2.deck = s.deck := by rw [f2, f1, hfr]
  have hcap : u2.cap = s.cap := by rw [f2, f1, hfr]
  have hbos : u2.bosun = s.bosun := by rw [f2, f1, hfr]
  have hsw : u2.sw = s.sw := by rw [f2, f1, hfr]
  have hpart : u2.part = s.part := by rw [f2, f1, hfr]
  have hpend : u2.pending = s.pending := by rw [f2, f1, hfr]
  have hmem : u2.mem = s.mem := by rw [f2, f1, hfr]
  cases hr : u2.dev.reader with
  | none => 
    have hrs : s.dev.reader = none := by rw [← hdev]; exact hr
    refine ⟨hdeck, hcap, hbos, hsw, hpart, hpend, ?_, fun _ => hmem, e2⟩
    dsimp only
    rw [hdev]
  | some r =>
    dsimp only
    have hw := eccWrite_frame (u2.drawBytes (4096 * r.n)).2 srcHalyard r.dst (u2.drawBytes (4096 * r.n)).1
    have hd := (MemStep.drawBytes u2 (4096 * r.n)).1
    have hdr := (MemStep.drawBytes u2 (4096 * r.n)).2
    have hwr : ∀ i, i < 8 → ((u2.drawBytes (4096 * r.n)).2.eccWrite srcHalyard r.dst (u2.drawBytes (4096 * r.n)).1).1.reg
        (TR_ISL i) = u2.reg (TR_ISL i) := by
      intro i hi
      rw [eccWrite_reg _ _ _ _ (by unfold eccReg TR_ISL FT_CE_ECC CN_ECC CN_ECC_ADDR; simp; omega)
        (by unfold TR_ISL CN_STAT; omega)]
      exact hdr _ (by unfold eccReg TR_ISL FT_CE_ECC CN_ECC CN_ECC_ADDR; simp; omega)
    generalize ((u2.drawBytes (4096 * r.n)).2.eccWrite srcHalyard r.dst (u2.drawBytes (4096 * r.n)).1).1 = u3 at *
    generalize (u2.drawBytes (4096 * r.n)).2 = u4 at *
    have hne : s.dev.reader = none → False := by
      intro h; rw [← hdev, hr] at h; cases h
    refine ⟨?_, ?_, ?_, ?_, ?_, ?_, ?_, fun h => (hne h).elim, ?_⟩
    · change u3.deck = s.deck; rw [hw, hd]; exact hdeck
    · change u3.cap = s.cap; rw [hw, hd]; exact hcap
    · change u3.bosun = s.bosun; rw [hw, hd]; exact hbos
    · change u3.sw = s.sw; rw [hw, hd]; exact hsw
    · change u3.part = s.part; rw [hw, hd]; exact hpart
    · change u3.pending = s.pending; rw [hw, hd]; exact hpend
    · have h3 : u4.dev = s.dev := by rw [hd]; exact hdev
      change ({ u4.dev with reader := none } : Device) = { s.dev with reader := none }
      rw [h3]
    · intro i hi
      change fld ((u3.setRf MU_QRD_STAT 0 1 0).reg (TR_ISL i)) 0 6 = 40
      rw [reg_setRf_ne _ _ _ _ (by unfold TR_ISL MU_QRD_STAT; omega), hwr i hi]
      exact e2 i hi

/-- An abandoned BIND spoils memory alone, and nothing where it had nothing to place. -/
theorem spoilBind_spec (s : State) :
    s.spoilBind = { s with
      mem := s.spoilBind.mem, ecc := s.spoilBind.ecc, regs := s.spoilBind.regs, free := s.spoilBind.free
      inject := s.spoilBind.inject } ∧
    (∀ i, i < 8 → s.spoilBind.islCode i = s.islCode i) ∧ (s.dev.bindDest = [] → s.spoilBind = s) := by
  have key : ∀ (ds : List (Nat × Nat)) (u : State),
      u = { s with mem := u.mem, ecc := u.ecc, regs := u.regs, free := u.free, inject := u.inject } →
      (∀ i, i < 8 → u.reg (TR_ISL i) = s.reg (TR_ISL i)) →
      (fun t : State => t = { s with mem := t.mem, ecc := t.ecc, regs := t.regs, free := t.free, inject := t.inject } ∧
        ∀ i, i < 8 → t.reg (TR_ISL i) = s.reg (TR_ISL i))
      (ds.foldl (fun s (a, n) => let (l, s) := s.drawBytes n; (s.eccWrite srcBind a l).1) u) := by
    intro ds
    induction ds with
    | nil => exact fun u h1 h2 => ⟨h1, h2⟩
    | cons e t ih =>
      obtain ⟨a, n⟩ := e
      intro u h1 h2
      have hd := MemStep.drawBytes u n
      have hw := eccWrite_frame (u.drawBytes n).2 srcBind a (u.drawBytes n).1
      refine ih _ ?_ fun i hi => ?_
      · dsimp only
        have h3 := hd.1
        generalize ((u.drawBytes n).2.eccWrite srcBind a (u.drawBytes n).1).1 = x at hw ⊢
        generalize (u.drawBytes n).2 = y at hw h3
        rw [h1] at h3
        rw [h3] at hw
        exact hw
      · change ((u.drawBytes n).2.eccWrite srcBind a (u.drawBytes n).1).1.reg (TR_ISL i) = _
        rw [eccWrite_reg _ _ _ _ (by unfold eccReg TR_ISL FT_CE_ECC CN_ECC CN_ECC_ADDR; simp; omega)
          (by unfold TR_ISL CN_STAT; omega)]
        exact (hd.2 _ (by unfold eccReg TR_ISL FT_CE_ECC CN_ECC CN_ECC_ADDR; simp; omega)).trans (h2 i hi)
  obtain ⟨h1, h2⟩ := key s.dev.bindDest s rfl fun _ _ => rfl
  refine ⟨h1, fun i hi => ?_, fun h => ?_⟩
  · have := h2 i hi
    unfold islCode rf
    exact congrArg (fun w => fld w 0 6) this
  · unfold spoilBind
    rw [h]; rfl

/-- Entry to BECALMED, from any state but MOORED and BECALMED itself. -/
theorem becalm_spec (s : State) (code : Nat) (multi : Bool) (d : Word) (addr : Nat)
    (h : ¬ (s.dev.mode = .becalmed ∨ s.dev.mode = .moored)) :
    let t := s.becalm code multi d addr
    t.dev.mode = .becalmed ∧ t.cap = { s.cap with flights := [] } ∧ t.bosun.run = false ∧ t.part = s.part ∧
    t.pending = s.pending ∧ t.dev.image = s.dev.image ∧ t.dev.straps = s.dev.straps ∧
    (s.dev.reader = none → s.dev.bindDest = [] → t.mem = s.mem) ∧ (∀ i, i < 8 → t.islCode i = 40) ∧
    t.dkf DK_CAUSE 0 8 = code % 256 ∧ t.dk DK_FAULT_HI = BitVec.ofNat 16 (code + 4 * 256) ∧
    t.dk DK_FAULT_LO = BitVec.ofNat 16 d.toNat ∧
    t.dk DK_FAULT_SEQ = BitVec.ofNat 16 ((s.dkf DK_FAULT_SEQ 0 16 + 1) % 65536) ∧
    (∀ o, o ∉ [DK_CAUSE, DK_FAULT_LO, DK_FAULT_HI, DK_FAULT_SEQ, DK_WIN_DATA, DK_WIN_DATA_HI, DK_WIN_CTRL, DK_CMDSTAT, DK_IRQ_RAW] →
      t.dk o = s.dk o) := by
  have hm : s.dev.mode ≠ .becalmed := fun e => h (.inl e)
  unfold becalm
  rw [if_neg fun e => h (.inr e), if_neg hm]
  dsimp only
  have h0 : (if s.bosun.run = true then s.passCycles else s) = { s with
      bosun := { s.bosun with cycle := (if s.bosun.run = true then s.passCycles else s).bosun.cycle }
      free := (if s.bosun.run = true then s.passCycles else s).free } := by
    split
    · exact passCycles_frame s
    · rfl
  generalize (if s.bosun.run = true then s.passCycles else s) = s0 at *
  have hm0 : s0.dev.mode ≠ .becalmed := by rw [h0]; exact hm
  have hrf : s0.recordFault 4 code multi d none addr = { s0 with
      regs := (s0.recordFault 4 code multi d none addr).regs, deck := (s0.recordFault 4 code multi d none addr).deck } :=
    recordFault_frame s0 4 code multi d none addr
  have hrm := recordFault_mirror s0 4 code multi d none addr hm0
  have hrd := fun o => @recordFault_dk s0 4 code multi d none addr o
  have hd0 : s0.deck = s.deck := by rw [h0]
  have k0 : ∀ o, s0.dk o = s.dk o := fun o => dk_of_deck_eq hd0 o
  generalize s0.recordFault 4 code multi d none addr = s1 at *
  have hdev1 : s1.dev = s.dev := by rw [hrf, h0]
  have hsc : s1.setCause code = s1.setDkf DK_CAUSE 0 8 code := by
    unfold setCause; rw [hdev1, if_neg hm]
  rw [hsc]
  have h2f : s1.setDkf DK_CAUSE 0 8 code = { s1 with deck := (s1.setDkf DK_CAUSE 0 8 code).deck } := rfl
  have h2s := dkf_setDkf_self s1 DK_CAUSE 0 8 code (by decide)
  have h2n := fun o => @dk_setDkf_ne s1 DK_CAUSE o 0 8 code
  generalize s1.setDkf DK_CAUSE 0 8 code = s2 at *
  have h3f := linkDown_frame s2
  have h3d := fun o => @linkDown_dk s2 o
  generalize s2.linkDown = s3 at *
  have h4f := winDown_frame s3
  have h4d := fun o => @winDown_dk s3 o
  generalize s3.winDown = s3' at *
  have h4f' := dropHost_frame s3'
  have h4d' := dropHost_dk s3'
  generalize s3'.dropHost = s4 at *
  have h5 := safeStates_spec s4
  generalize s4.safeStates = s5 at *
  obtain ⟨d5', c5', b5', w5', p5', q5', v5', m5', i5'⟩ := h5
  obtain ⟨f6, j6, n6⟩ := spoilBind_spec s5
  have d5 : s5.spoilBind.deck = s4.deck := by rw [f6]; exact d5'
  have c5 : s5.spoilBind.cap = s4.cap := by rw [f6]; exact c5'
  have b5 : s5.spoilBind.bosun = s4.bosun := by rw [f6]; exact b5'
  have w5 : s5.spoilBind.sw = s4.sw := by rw [f6]; exact w5'
  have p5 : s5.spoilBind.part = s4.part := by rw [f6]; exact p5'
  have q5 : s5.spoilBind.pending = s4.pending := by rw [f6]; exact q5'
  have v5 : s5.spoilBind.dev = { s4.dev with reader := s5.spoilBind.dev.reader } := by rw [f6]; exact v5'
  have m5 : s4.dev.reader = none → s4.dev.bindDest = [] → s5.spoilBind.mem = s4.mem := by
    intro hr hb
    rw [n6 (by rw [v5']; exact hb)]; exact m5' hr
  have i5 : ∀ i, i < 8 → s5.spoilBind.islCode i = 40 := fun i hi => (j6 i hi).trans (i5' i hi)
  clear d5' c5' b5' w5' p5' q5' v5' m5' i5' f6 j6 n6
  generalize s5.spoilBind = s5 at *
  have mem4 : s4.mem = s.mem := by rw [h4f', h4f, h3f, h2f, hrf, h0]
  have dev4 : s4.dev = s.dev := by rw [h4f', h4f, h3f, h2f, hrf, h0]
  have cap4 : s4.cap = s.cap := by rw [h4f', h4f, h3f, h2f, hrf, h0]
  have part4 : s4.part = s.part := by rw [h4f', h4f, h3f, h2f, hrf, h0]
  have pend4 : s4.pending = s.pending := by rw [h4f', h4f, h3f, h2f, hrf, h0]
  have dk4 : ∀ o, o ∉ [DK_WIN_DATA, DK_WIN_DATA_HI, DK_WIN_CTRL, DK_IRQ_RAW] → s4.dk o = s2.dk o := by
    intro o ho
    rw [h4d' o, h4d o ho, h3d o (by simp only [List.mem_cons, not_or] at ho; tauto)]
  have reader5 : s.dev.reader = none → s.dev.bindDest = [] → s5.mem = s.mem := by
    intro hr hb; rw [m5 (by rw [dev4]; exact hr) (by rw [dev4]; exact hb), mem4]
  have dk5 : ∀ o, s5.dk o = s4.dk o := fun o => dk_of_deck_eq d5 o
  have img5 : s5.dev.image = s.dev.image := by rw [v5, ← dev4]
  have str5 : s5.dev.straps = s.dev.straps := by rw [v5, ← dev4]
  clear v5 m5 h4f h4d h4f' h4d' h3f h3d h2f hrf
  generalize hz : ({ s5 with
      cap := { s5.cap with flights := [] }
      sw := { s5.sw with st := .detect, ops := [], inbox := [], tx := none }
      bosun := { s5.bosun with wait := none, run := false }
      dev := { s5.dev with
        stopping := false, binding := false, bindDest := [], bindStale := false, waking := false, cold := false
        booting := false, wakeKept := false, coreEn := true, tie := some s.pairRuns
        retained := s5.dev.retained && !s5.dev.reefing, reefing := false } } : State) = s6
  have cap6 : s6.cap = { s.cap with flights := [] } := by
    subst hz
    change ({ s5.cap with flights := [] } : Capstan) = _
    rw [c5, cap4]
  have run6 : s6.bosun.run = false := by subst hz; rfl
  have part6 : s6.part = s.part := by subst hz; exact p5.trans part4
  have pend6 : s6.pending = s.pending := by subst hz; exact q5.trans pend4
  have img6 : s6.dev.image = s.dev.image := by subst hz; exact img5
  have str6 : s6.dev.straps = s.dev.straps := by subst hz; exact str5
  have mem6 : s.dev.reader = none → s.dev.bindDest = [] → s6.mem = s.mem := by subst hz; exact reader5
  have isl6 : ∀ i, i < 8 → s6.islCode i = 40 := by subst hz; exact i5
  have dk6 : ∀ o, s6.dk o = s4.dk o := by subst hz; exact dk5
  clear hz reader5 img5 str5 c5 p5 q5 i5 dk5
  obtain ⟨eh, he⟩ := enter_frame s6 .becalmed
  have hed := fun o => @enter_dk s6 .becalmed o
  have hem := enter_mode s6 .becalmed
  generalize s6.enter .becalmed = s7 at *
  have cap7 : s7.cap = { s.cap with flights := [] } := by rw [he]; exact cap6
  have run7 : s7.bosun.run = false := by rw [he]; exact run6
  have part7 : s7.part = s.part := by rw [he]; exact part6
  have pend7 : s7.pending = s.pending := by rw [he]; exact pend6
  have img7 : s7.dev.image = s.dev.image := by rw [he]; exact img6
  have str7 : s7.dev.straps = s.dev.straps := by rw [he]; exact str6
  have mem7 : s.dev.reader = none → s.dev.bindDest = [] → s7.mem = s.mem := by rw [he]; exact mem6
  have isl7 : ∀ i, i < 8 → s7.islCode i = 40 := by rw [he]; exact isl6
  have dk7 : ∀ o, o ∉ [DK_WIN_DATA, DK_WIN_DATA_HI, DK_WIN_CTRL, DK_IRQ_RAW] → s7.dk o = s2.dk o := by
    intro o ho
    rw [hed o (by simp only [List.mem_cons, not_or] at ho; tauto) (.inr rfl), dk6, dk4 o ho]
  clear he hed cap6 run6 part6 pend6 img6 str6 mem6 isl6 dk6 dk4
  have fin : ∀ u : State, u.dev.mode = s7.dev.mode → u.cap = s7.cap → u.bosun = s7.bosun → u.part = s7.part →
      u.pending = s7.pending → u.dev.image = s7.dev.image → u.dev.straps = s7.dev.straps → u.mem = s7.mem →
      u.regs = s7.regs → (∀ o, o ≠ DK_CMDSTAT → o ≠ DK_IRQ_RAW → u.dk o = s7.dk o) →
      u.dev.mode = .becalmed ∧ u.cap = { s.cap with flights := [] } ∧ u.bosun.run = false ∧ u.part = s.part ∧
      u.pending = s.pending ∧ u.dev.image = s.dev.image ∧ u.dev.straps = s.dev.straps ∧
      (s.dev.reader = none → s.dev.bindDest = [] → u.mem = s.mem) ∧ (∀ i, i < 8 → u.islCode i = 40) ∧
      u.dkf DK_CAUSE 0 8 = code % 256 ∧ u.dk DK_FAULT_HI = BitVec.ofNat 16 (code + 4 * 256) ∧
      u.dk DK_FAULT_LO = BitVec.ofNat 16 d.toNat ∧
      u.dk DK_FAULT_SEQ = BitVec.ofNat 16 ((s.dkf DK_FAULT_SEQ 0 16 + 1) % 65536) ∧
      (∀ o, o ∉ [DK_CAUSE, DK_FAULT_LO, DK_FAULT_HI, DK_FAULT_SEQ, DK_WIN_DATA, DK_WIN_DATA_HI, DK_WIN_CTRL, DK_CMDSTAT, DK_IRQ_RAW] →
        u.dk o = s.dk o) := by
    intro u a1 a2 a3 a4 a5 a6 a7 a8 a9 a10
    have k : ∀ o, o ≠ DK_CMDSTAT → o ∉ [DK_WIN_DATA, DK_WIN_DATA_HI, DK_WIN_CTRL, DK_IRQ_RAW] → u.dk o = s2.dk o := by
      intro o ho ho'
      rw [a10 o ho (by simp only [List.mem_cons, not_or] at ho'; tauto), dk7 o ho']
    refine ⟨a1.trans hem, a2.trans cap7, (congrArg Bosun.run a3).trans run7, a4.trans part7, a5.trans pend7,
      a6.trans img7, a7.trans str7, fun hr hb => a8.trans (mem7 hr hb), fun i hi => ?_, ?_, ?_, ?_, ?_, ?_⟩
    · have := isl7 i hi
      unfold islCode rf at this ⊢
      rw [reg_of_regs_eq a9]; exact this
    · unfold dkf at h2s ⊢
      rw [k _ (by decide) (by decide)]; exact h2s
    · rw [k _ (by decide) (by decide), h2n _ (by decide)]; exact hrm.2.1
    · rw [k _ (by decide) (by decide), h2n _ (by decide)]; exact hrm.1
    · rw [k _ (by decide) (by decide), h2n _ (by decide)]; exact hrm.2.2.trans (by unfold dkf; rw [k0])
    · intro o ho
      simp only [List.mem_cons, List.not_mem_nil, or_false, not_or] at ho
      rw [k o ho.2.2.2.2.2.2.2.1 (by simp only [List.mem_cons, List.not_mem_nil, or_false, not_or]; tauto), h2n o ho.1,
        hrd o (by simp only [List.mem_cons, List.not_mem_nil, or_false, not_or]; tauto), k0]
  cases hc : s7.dev.command with
  | none => exact fin s7 rfl rfl rfl rfl rfl rfl rfl rfl rfl (fun _ _ _ => rfl)
  | some c =>
    have hf := finishCmd_frame s7 c.op 5
    have hfd := fun o => @finishCmd_dk s7 c.op 5 o
    dsimp only
    generalize s7.finishCmd c.op 5 = s8 at *
    exact fin s8 (by rw [hf]) (by rw [hf]) (by rw [hf]) (by rw [hf]) (by rw [hf]) (by rw [hf]) (by rw [hf]) (by rw [hf])
      (by rw [hf]) hfd

end Sys2Proof.Machine.State
end

