-- ==== Sys2Proof/Machine/Lands.lean ====
section
/-! DEFINITION. What the device's output lands carry between commands, as functions of the state (02.4, 02.11; 03 R146;
18 R751, R757). No meaning reads them: the state holds what they are computed from. -/

namespace Sys2Proof.Machine

/-- What a land carries: driven low or high, toggling or carrying bits, at high impedance, an input with its pull, an open drain
released, a D-PHY or Sweade lane at rest, an audio output at VCMA or at a DAC code (02 Table 2.6). -/
inductive Land where
  | low | high | clock | bits | highZ | input | pullUp | pullDown | released
  | lpReceive | receive | termOff | idle | vcma | bias | dac (code : Word)
  /-- A variant without I/O die B has no connection there (02 R67). -/
  | absent
deriving DecidableEq, Repr

/-- A level that is driven. -/
def Land.level (b : Bool) : Land := if b then .high else .low

/-! ### HAIL_TX (02 R91) -/

/-- One 8N1 character: a start bit, eight bits least significant first, a stop bit. -/
def hailChar (b : Byte) : List Bool := [false] ++ (List.range 8).map (fun i => b.getLsbD i) ++ [true]

/-! ### I²S (18 R757) -/

/-- The bits of a frame's slots, most significant first. -/
def slotBits (width : Nat) (slots : List Word) : List Bool :=
  slots.flatMap fun w => (List.range width).map fun i => w.getLsbD (width - 1 - i)

/-- LRCK in the BCLK period of data bit `k`, of a frame of `n` slots: MODE 0 changes one period before a slot's most significant
bit, MODE 1 with it; MODE 2 is high in the one period before slot 0's. -/
def lrckAt (mode width n k : Nat) : Bool :=
  match mode with
  | 0 => decide (width ≤ (k + 1) % (width * n))
  | 1 => decide (k < width)
  | _ => decide (k + 1 = width * n)

/-! ### PDM (02 R90; 18 R751) -/

/-- The data line that capture slot `slot` uses, and whether it is captured at the rising edge of PDM_CLK. -/
def pdmInput (slot : Nat) : Nat × Bool := (slot / 2, slot % 2 == 1)

/-- What a decimator gives at DC for `ones` ones in `n` bits, in its 24 bits: round((2p − 1) × 2^23), saturated. -/
def pdmDc (ones n : Nat) : Int := max (-8388607) (min 8388607 (divRound ((2 * (ones : Int) - n) * 8388608) n 0))

namespace State

/-- I/O die B is on the part, and its core supply is in range (02 R67, R68). -/
def dieB (s : State) (on rest : Land) : Land := if !s.part.iob then .absent else if s.dev.vinOk then on else rest

/-- The Deck lands and DWAIT_N between accesses, and TDO between shifts (02 Table 2.6; 03 R146). -/
def landDD (_ : State) : Land := .highZ
def landDwait (_ : State) : Land := .highZ
def landTdo (_ : State) : Land := .highZ
/-- IRQ_N is open drain, and low while asserted (05 R232). -/
def landIrq (s : State) : Land := if s.irqN then .low else .released
/-- CORE_EN (02 R69, R106). -/
def landCoreEn (s : State) : Land := .level s.dev.coreEn
/-- NIR_STROBE (03 R146; 17 R719). -/
def landStrobe (s : State) : Land := .level (s.lk.frame.any (·.strobe))
/-- A GPIO land: no register of the device drives one (02 Table 2.6; 03 R146). -/
def landGpio (s : State) (n : Nat) : Land := if n < 16 ∨ s.part.iob then .pullDown else .absent
/-- SCL and SDA of a controller: its own while a transfer runs (02 R68; 03 R146). -/
def landI2c (s : State) (c : Nat) : Land :=
  let l := if (s.i2cRun c).isSome then .bits else Land.released
  if c = 0 then l else s.dieB l .highZ

/-- The flash reader, or the boot flow, reads the flash. -/
def qspiBusy (s : State) : Bool := s.dev.reader.isSome || s.dev.booting
def landQspiClk (s : State) : Land := if s.qspiBusy then .clock else .low
def landQspiCs (s : State) : Land := if s.qspiBusy then .low else .high
def landQspiIo (s : State) : Land := if s.qspiBusy then .bits else .pullUp

/-- The bits on HAIL_TX until the line being sent has ended; the line idles high (02 R91). -/
def hailBits (s : State) : List Bool := s.dev.hail.sending.flatMap hailChar
def landHail (s : State) : Land := if s.dev.hail.sending = [] then .high else .bits

/-- PDM_CLK runs for the Crowsnest feed, and for the ticks while PDM slots are captured (18 R749, R751, R773). -/
def landPdmClk (s : State) : Land :=
  if s.cnRuns && (s.fbit AU_CN 0 || (s.auRun && decide (0 < s.ff AU_CAP5 0 8))) then .clock else .low

/-- The I²S port drives its lands: it runs, and the device is not in BECALMED, MOORED or MUSTER (18 R757, R774). -/
def i2sLive (s : State) : Bool := s.cnRuns && decide (s.dev.mode ≠ .becalmed) && s.fbit AU_I2S 0
/-- KA leaves through I2S_MCLK while AU_I2S.MCLK is 1 in force (18 R757). -/
def landMclk (s : State) : Land := if s.cnRuns && s.fbit AU_I2S 7 then .clock else .low
/-- The controller drives BCLK and LRCK; the target takes them (18 R757, R774). -/
def landBclk (s : State) : Land := if s.i2sLive && s.fbit AU_I2S 3 then .clock else .pullDown
def landLrck (s : State) : Land := if s.i2sLive && s.fbit AU_I2S 3 then .bits else .pullDown
/-- BCLK periods of a frame, which is one tick. -/
def i2sWidth (s : State) : Nat := if s.fbit AU_I2S 6 then 32 else 16
/-- LRCK and I2S_DOUT in each BCLK period of the frame that carries `audio.tx`, from the most significant bit of slot 0
(18 R757, R759). -/
def i2sLines (s : State) : List (Bool × Bool) :=
  (slotBits s.i2sWidth s.audio.tx).zipIdx.map fun (d, k) => (lrckAt (s.ff AU_I2S 1 2) s.i2sWidth s.audio.tx.length k, d)
/-- I2S_DOUT carries a frame while I2S_TX is in force (18 R759, R774). -/
def landDout (s : State) : Land := if s.audio.tx = [] then .highZ else .bits

/-- MICBIASn is driven while its BIAS bit is in force (18 R752). -/
def landBias (s : State) (n : Nat) : Land := if s.ff AU_CAP6 (3 + n) 1 = 1 then .bias else .highZ
/-- LOUT and ROUT (18 R762, R774). -/
def landOut (s : State) (code : Word) : Land := if s.dieUp && s.fbit AU_PLAY 0 then .dac code else .vcma

/-- The CSI-2 lanes (02 Table 2.6; 17 R734). -/
def landCsi (s : State) : Land := s.dieB (if s.csiLive then .receive else .lpReceive) .lpReceive
/-- The Sweade transmit and receive lanes (02 R66, R68; 20 R807). -/
def landSweTx (s : State) : Land := s.dieB (if s.sw.tx.isSome then .bits else .idle) .highZ
def landSweRx (s : State) : Land := s.dieB (if s.portOff then .termOff else .receive) .termOff

end State

end Sys2Proof.Machine
end

