-- ==== Sys2Proof/WellFormed.lean ====
section
/-! DEFINITION. The operands that a command may carry: each field within the range the manual gives it. A command's
meaning is total; one that is ill-formed names something the part does not have. -/

namespace Sys2Proof

open Sys2Proof.Machine (fld bit wordAt)

/-- A ring number (07 R293), a Bell (07 R312), a region entry (06 R254), a Deck slot (05 R213). -/
def ringOk (n : Nat) : Bool := decide (n < 16384)
def bellOk (n : Nat) : Bool := decide (n < 256)
def regionOk (n : Nat) : Bool := decide (n < 64)
def slotOk (n : Nat) : Bool := decide (n < 64)

/-- A register target: an even Deck offset with a 16-bit value, or an aligned CSR address (05 R213; 06 R251). -/
def RegTarget.ok (t : RegTarget) (v : Word) : Bool :=
  match t with
  | .deck o => decide (o < 128) && o % 2 == 0 && decide (v.toNat < 65536)
  | .csr a => a % 4 == 0 && decide (0x40000000 ≤ a) && decide (a < 0x50000000)

/-- What the flash answers: four words in each boot block (03 R128). -/
def Flash.ok (f : Flash) : Bool := f.blockA.length == 4 && f.blockB.length == 4

/-- A flit with `k` header words and a data length of at most `d` (20 Table 20.2). -/
def Flit.ok (f : Flit) (k d : Nat) : Bool :=
  decide (f.seq < 4096) && decide (f.ack < 4096) && decide (f.crq < 256) && decide (f.crs < 256) && decide (f.cms < 256) &&
    f.hdr.length == k && decide (f.data.length ≤ d)

/-- A flit that carries LEN data bytes. -/
def Flit.full (f : Flit) : Bool :=
  f.ok 4 224 && f.data.length == fld (wordAt f.hdr 0) 0 8

/-- A request names 1 to 224 bytes (20 R821). -/
def Flit.lenOk (f : Flit) : Bool := decide (1 ≤ fld (wordAt f.hdr 0) 0 8) && decide (fld (wordAt f.hdr 0) 0 8 ≤ 224)

namespace Instr

/-- A command is well-formed. -/
def wf : Instr → Bool
  | .musterStageEnd _ unit detail => decide (unit < 16) && decide (detail < 4096)
  | .bootFlowEnd flash => flash.ok
  | .clockLoss unit => decide (1 ≤ unit) && decide (unit ≤ 4)
  | .vtrimEval island _ _ => decide (island < 10)
  | .vtrimStepDown island => decide (island < 8)
  | .vtrimStepUp island => decide (island < 8)
  | .replay island => decide (island < 4) || island == 6 || island == 7
  | .deck8LowRead slot => slotOk slot
  | .deck8HighRead slot => slotOk slot
  | .deck8LowWrite slot _ => slotOk slot
  | .deck8HighWrite slot _ => slotOk slot
  | .pairLowRead slot => slot == 15 || slot == 25 || slot == 38
  | .rcRead slot => slot == 27 || slot == 30 || slot == 35
  | .badcmd v => fld v 8 8 != 0x5A || fld v 0 4 == 0 || decide (6 < fld v 0 4)
  | .registerWrite t v => t.ok v
  | .dapAccess addr _ => addr.toNat % 4 == 0
  | .rgCommit n => regionOk n
  | .rgCommitApply n => regionOk n
  | .rgCommitStale n => regionOk n
  | .eccInjectArm mode => mode == 1 || mode == 2
  | .enable ring => ringOk ring
  | .disable ring => ringOk ring
  | .resumeRetry ring => ringOk ring
  | .resumeSkip ring => ringOk ring
  | .prio ring arg => ringOk ring && decide (arg < 8)
  | .ringOpBadarg ring op => ringOk ring && (op == 0 || op == 6 || op == 7)
  | .bellTimeout ring => ringOk ring
  | .engineFinish ring idx => ringOk ring && decide (idx < 65536)
  | .completionRecord ring => ringOk ring
  | .capBellWrite n _ => bellOk n
  | .capBellAddWrite n _ => bellOk n
  | .thresholdArm n v => bellOk n && bit v 0
  | .copy inst => decide (inst < 4)
  | .fill inst => decide (inst < 4)
  | .gather inst => decide (inst < 4)
  | .relayout inst => decide (inst < 4)
  | .streamIn inst => decide (inst < 4)
  | .streamOut inst => decide (inst < 4)
  | .streamUnit sid => sid == 1 || decide (3 ≤ sid ∧ sid ≤ 6)
  | .product inst => decide (inst < 4)
  | .feedPair inst => decide (inst < 4)
  | .feedTimeout inst => decide (inst < 4)
  | .accBlockTake inst => decide (inst < 2)
  | .accTimeout inst => decide (inst < 2)
  | .conv inst => decide (inst < 2)
  | .tconv inst => decide (inst < 2)
  | .poolMax inst => decide (inst < 2)
  | .poolAvg inst => decide (inst < 2)
  | .upNearest inst => decide (inst < 2)
  | .upBilinear inst => decide (inst < 2)
  | .s2d inst => decide (inst < 2)
  | .haloTimeout inst => decide (inst < 2)
  | .run inst => decide (inst < 2)
  | .reduce inst => decide (inst < 2)
  | .softmax inst => decide (inst < 2)
  | .lse inst => decide (inst < 2)
  | .norm inst => decide (inst < 2)
  | .summaryPush inst => decide (inst < 2)
  | .summaryTimeout inst => decide (inst < 2)
  | .summaryFlush inst => decide (inst < 2)
  | .trCommit v => bit v 31
  | .lkCommit v => bit v 31
  | .auCommit v => bit v 31
  | .csiCommit v => bit v 31
  | .qrdGo v => bit v 31
  | .swRbellSend v => bit v 31
  | .featureFrame samples => samples.length == 160
  | .csiFrameStart vc fnum => decide (vc < 4) && decide (fnum < 65536)
  | .csiFrameEnd vc => decide (vc < 4)
  | .csiLongPacket vc dt payload _ => decide (vc < 4) && decide (dt < 64) && decide (payload.length < 65536)
  | .i2cGo c v => decide (c < 2) && bit v 31
  | .i2cXferEnd c _ _ _ _ _ => decide (c < 2)
  | .i2cAbort c => decide (c < 2)
  | .i2cRecover c => decide (c < 2)
  | .linkEqualiseDone m0 m1 => m0.length == 16 && m1.length == 16
  | .linkAlignDone role _ _ pol => decide (role < 3) && decide (pol < 4)
  | .ltrimAdapt lane _ _ _ => decide (lane < 2)
  | .flitNull f => f.ok 4 0
  | .flitConfig f => f.ok 6 0
  | .flitWr f => f.full && f.lenOk
  | .flitRd f => f.ok 4 0 && f.lenOk
  | .flitBell f => f.ok 4 0
  | .flitMsg f => f.full && f.lenOk
  | .flitWrrsp f => f.ok 4 0
  | .flitRdrsp f => f.ok 4 224
  | .remoteTimeout tag => decide (tag < 4096)
  | .porAssert => true
  | .resetRelease _ _ _ _ _ => true
  | .pinReset => true
  | .cmdResetSoft => true
  | .softResetEffect => true
  | .softResetRelease => true
  | .tapReset => true
  | .regChkSupplyTimeout _ => true
  | .musterTime => true
  | .supplyLoss _ => true
  | .vddGrDip => true
  | .cmdReef _ => true
  | .reefSaveDone => true
  | .cmdWake => true
  | .vinCoreRise => true
  | .wakeSupplyTimeout => true
  | .wakeRestoreDone => true
  | .hailLineStart => true
  | .hailLineEnd => true
  | .hailSend => true
  | .tempSample _ => true
  | .timeTick => true
  | .ftrimStepSlower => true
  | .ftrimStepFaster => true
  | .trCommitApply => true
  | .trCommitStale => true
  | .cmdBind => true
  | .bindEnd => true
  | .cmdTack => true
  | .cmdResumeRetry => true
  | .cmdResumeSkip => true
  | .winRead => true
  | .winWrite _ => true
  | .winTimeout _ => true
  | .winLateCompletion => true
  | .doorbellWrite _ => true
  | .doorbellAnswer => true
  | .bellSelWrite _ => true
  | .bellMirrorLoad => true
  | .hostBellAdd _ => true
  | .hostBellSet _ => true
  | .dkCnEventRead => true
  | .scrubBlock => true
  | .eccInjectWithdraw => true
  | .admission => true
  | .tackDrainComplete => true
  | .tackDrainStale => true
  | .tackRelease => true
  | .haloPair => true
  | .addR => true
  | .subR => true
  | .andR => true
  | .orR => true
  | .xorR => true
  | .nor => true
  | .lts => true
  | .ltu => true
  | .minR => true
  | .maxR => true
  | .minu => true
  | .maxu => true
  | .shl => true
  | .shr => true
  | .sar => true
  | .shli => true
  | .shri => true
  | .sari => true
  | .mul => true
  | .mulhs => true
  | .mulhu => true
  | .div => true
  | .divu => true
  | .rem => true
  | .remu => true
  | .jr => true
  | .jalr => true
  | .addi => true
  | .ltsi => true
  | .ltui => true
  | .andi => true
  | .ori => true
  | .xori => true
  | .movh => true
  | .ldb => true
  | .ldbu => true
  | .ldh => true
  | .ldhu => true
  | .ldw => true
  | .stb => true
  | .sth => true
  | .stw => true
  | .storePerform => true
  | .beq => true
  | .bne => true
  | .blt => true
  | .bge => true
  | .bltu => true
  | .bgeu => true
  | .j => true
  | .jal => true
  | .lp => true
  | .lpi => true
  | .csrrw => true
  | .csrrs => true
  | .csrrc => true
  | .post => true
  | .belladd => true
  | .bellset => true
  | .waitge => true
  | .waiteq => true
  | .bellrd => true
  | .sumrd => true
  | .tack => true
  | .hsig => true
  | .fence => true
  | .wfi => true
  | .bosunWaitEnd => true
  | .bosunWaitTimeout => true
  | .nop => true
  | .eret => true
  | .syscall => true
  | .breakI => true
  | .mcrew => true
  | .interrupt => true
  | .checkpoint => true
  | .lockMismatch low count => decide (1 ≤ count) && decide (low + count ≤ 173)
  | .compFault => true
  | .delayParity _ lane => decide (lane < 32)
  | .compSelfInject _ _ => true
  | .sweep => true
  | .resync => true
  | .lsDiverge => true
  | .backstayRetry _ _ => true
  | .frameStart _ => true
  | .frameEnd _ _ => true
  | .lkCommitApply => true
  | .lkCommitStale => true
  | .csiPacketDiscard kind => decide (kind < 5)
  | .csiEnWrite _ => true
  | .csiCommitApply => true
  | .csiCommitStale => true
  | .blockBoundary _ _ => true
  | .playbackTick => true
  | .i2sFrame _ => true
  | .auCommitNow _ _ => true
  | .auCommitApply => true
  | .audioRelockDone => true
  | .auCommitStale => true
  | .inferenceEnd => true
  | .cnNetEnable _ => true
  | .cnNetDisable _ => true
  | .cnEventRead => true
  | .linkBlockLock => true
  | .linkTrainTimeout => true
  | .linkLockLoss => true
  | .swRetrain => true
  | .swDrop => true
  | .linkHoldExpiry => true
  | .qrdEnd _ => true
  | .testenLow => true
  | .vinCoreRemoval => true
  | .flitSlot => true
  | .flitDiscard => true
  | .illegal => true
  | .fetch => true

end Instr

end Sys2Proof
end

