-- ==== Sys2Proof/Tests/Slice0.lean ====
section
/-! SUPPORT. Tests of the model: ill-formed commands are refused, sample words and values of the manual, one step of
commands on small states, and a state and operands that meet the hypotheses of each statement. -/

open Sys2Proof Sys2Proof.Machine Sys2Proof.Spec

namespace Sys2Proof.Tests

set_option Elab.async false

/-! ### Small states -/

/-- The device in a state, with its supplies in range and nothing else changed from reset. -/
def base (m : Mode) : State := { dev := { mode := m, hold := .none, vinOk := true, grOk := true } }
/-- HOVE_TO. -/
def hove : State := base .hoveTo
/-- MUSTER in a stage and unit. -/
def stageAt (n unit : Nat) : State := (base .muster).setStage n unit false
/-- A command is running. -/
def running (op : Nat) (s : State) : State := { s with dev := { s.dev with command := some { op := op } } }

/-! ### Witnesses: the machine, resets and Muster -/

theorem witness_EveryStepKeepsMemoryCanonical :
    MemWf { hove with pending := [.timeTick] } ∧ ∃ t, step { hove with pending := [.timeTick] } = .next t :=
  ⟨by unfold MemWf; decide, _, rfl⟩

theorem witness_EveryStepKeepsTheRingTable :
    ringsWf { hove with pending := [.enable 16383] } ∧ ∃ t, step { hove with pending := [.enable 16383] } = .next t :=
  ⟨by unfold ringsWf; decide, _, rfl⟩

theorem witness_EveryStepKeepsThePartAndTakesOneCommand :
    ∃ t, step { hove with pending := [.timeTick, .porAssert] } = .next t := ⟨_, rfl⟩

theorem witness_BosunDecodeAndEncodeAgree :
    BIns.ok (.i .addi 31 31 0xFFFF) = true ∧ BIns.ok .nop = true ∧ decodeB 0x00000003 = some .nop := by decide

theorem witness_ResetsPutTheDeviceInMoored :
    hove.dev.mode ≠ .moored ∧ ({ dev := { hold := .pin } } : State).dev.hold ≠ .powerOn ∧
    ({ hove with dev := { hove.dev with softPend := true } } : State).dev.softPend = true := by decide

theorem witness_ReleaseStartsMuster :
    ∀ h ∈ [Hold.powerOn, .pin, .soft, .testen], ({ dev := { hold := h } } : State).dev.mode = .moored := by decide

theorem witness_MusterRunsItsStagesInOrder :
    (∀ n ∈ [1, 2, 3, 4, 6, 7, 8, 9], (stageAt n 0).mustering = true ∧ (stageAt n 0).stage = n ∧ (stageAt n 0).dev.cold = false) ∧
    ((stageAt 5 0).mustering = true ∧ (stageAt 5 0).stage = 5 ∧
      (stageAt 5 0).dkf DK_STAGE 8 4 + 1 < (stageAt 5 0).part.stackCount) ∧
    ((stageAt 5 3).mustering = true ∧ (stageAt 5 3).stage = 5 ∧
      (stageAt 5 3).part.stackCount ≤ (stageAt 5 3).dkf DK_STAGE 8 4 + 1) ∧
    (∀ b ∈ [(0 : BitVec 2), 1, 2, 3], ({ stageAt 10 0 with dev := { (stageAt 10 0).dev with straps := { boot := b } } }
      : State).mustering = true ∧ (stageAt 10 0).stage = 10) ∧
    ({ stageAt 3 0 with dev := { (stageAt 3 0).dev with vinOk := false } } : State).mustering = true ∧
    ({ stageAt 8 0 with dev := { (stageAt 8 0).dev with mode := .reefed, waking := true, cold := true } }
      : State).mustering = true := by decide

theorem witness_MusterFailuresBecalm :
    (stageAt 1 0).mustering = true ∧ (stageAt 1 0).stage ≠ 5 ∧ (stageAt 5 3).mustering = true ∧ (stageAt 5 3).stage = 5 ∧
    ({ stageAt 3 0 with dev := { (stageAt 3 0).dev with vinOk := false, grOk := false } } : State).mustering = true ∧
    (stageAt 3 0).stage = 3 ∧ (stageAt 3 0).dev.reader = none ∧ (stageAt 3 0).dev.bindDest = [] ∧ canBecalm hove ∧
    State.stageUnits (stageAt 1 0).stage ≤ 1 := by unfold canBecalm; decide

theorem witness_ClassFFaultsBecalm :
    hove.pairRuns = true ∧ hove.bosun.stores = [] ∧ 1 ≤ (1 : Nat) ∧ (172 + 1 : Nat) ≤ 173 ∧ (31 : Nat) < 32 ∧
    hove.dev.mode ≠ .moored ∧ hove.dev.mode ≠ .reefed ∧ hove.dev.mode ≠ .becalmed ∧ hove.part.iob = true ∧
    (base .becalmed).dev.mode = .becalmed ∧ (base .becalmed).dev.mode ≠ .moored ∧ (base .becalmed).dev.tie = none ∧
    hove.mustering = false ∧ hove.clockUsed 1 = true ∧ (base .becalmed).clockUsed 1 = true ∧ hove.clockUsed 9 = false ∧
    State.pairRuns { base .reefed with dev := { (base .reefed).dev with waking := true } } = true := by decide

theorem witness_SuppliesAndTheRetentionArea :
    (hove.dev.mode ≠ .moored ∧ hove.dev.mode ≠ .reefed ∧ hove.dev.mode ≠ .becalmed ∧ hove.dev.vinOk = true ∧
      hove.dev.grOk = true ∧ hove.dev.reader = none ∧ hove.dev.bindDest = []) ∧ (base .becalmed).dev.mode = .becalmed ∧
    ((base .reefed).dev.mode = .reefed ∧ (base .reefed).dev.retained = false) ∧
    ({ base .reefed with dev := { (base .reefed).dev with retained := true } } : State).dev.retained = true ∧
    State.reset.dev.mode = .moored ∧ State.reset.dev.grOk = false := by decide

/-- A REEF that has been accepted. -/
def reefing : State := { running 3 hove with dev := { (running 3 hove).dev with reefing := true } }

theorem witness_ReefStopsSavesAndTurnsOff :
    (canReef { hove with bosun := { core := { shadow := 1 } } } ∧
      State.atBoundary { hove with bosun := { core := { shadow := 1 } } } = false) ∧
    (canReef { hove with units := [(1, [])], dev := { hove.dev with reader := some ⟨0, 0, 1⟩ } } ∧
      State.idleForCmd { hove with units := [(1, [])], dev := { hove.dev with reader := some ⟨0, 0, 1⟩ } } = false ∧
      State.atBoundary { hove with units := [(1, [])], dev := { hove.dev with reader := some ⟨0, 0, 1⟩ } } = true) ∧
    (canReef (base .underway) ∧ (base .underway).atBoundary = true) ∧
    (canReef hove ∧ hove.atBoundary = true ∧ hove.bosun.stores = [] ∧ hove.idleForCmd = true) ∧
    (reefing.dev.command = some { op := 3 } ∧ reefing.dev.stopping = false ∧ reefing.dev.reefing = true ∧
      reefing.dev.mode = .hoveTo ∧ reefing.dev.wakeKept = false ∧ reefing.cap.flights = [] ∧ reefing.sw.inbox = [] ∧
      reefing.sw.ops = [] ∧ reefing.deck.win = none ∧ reefing.deck.doors = []) ∧
    ({ reefing with dev := { reefing.dev with wakeKept := true } } : State).dev.waking = false := by
  unfold canReef; decide

/-- A wake in progress. -/
def waking : State := { base .reefed with dev := { (base .reefed).dev with waking := true, retained := true } }

theorem witness_WakesLeaveReefed :
    ((base .reefed).dev.mode = .reefed ∧ (base .reefed).deckFree = true ∧ (base .reefed).dkbit DK_CMDSTAT 0 = false ∧
      (base .reefed).dev.waking = false ∧ (base .reefed).dev.retained = false) ∧
    ({ waking with dev := { waking.dev with retained := false } } : State).dev.vinOk = true ∧
    (waking.dev.mode = .reefed ∧ waking.dev.waking = true ∧ waking.dev.cold = false ∧ waking.dev.vinOk = true ∧
      waking.dev.retained = true) ∧
    ({ waking with dev := { waking.dev with vinOk := false } } : State).dev.mode = .reefed := by decide

theorem witness_HailTemperatureAndTime :
    (base .becalmed).dev.mode = .becalmed ∧ (base .becalmed).dev.hail.sending = [] ∧
    ({ base .becalmed with dev := { (base .becalmed).dev with hail := { sending := [35] } } } : State).dev.hail.sending ≠ [] ∧
    ({ sending := [35], waiting := some true } : Hail).waiting ≠ none ∧ hove.mustering = false ∧
    State.reset.dev.mode = .moored ∧
    hove.deckFree = true ∧ hove.dev.mode ≠ .moored ∧ (408 : Int) < (409 : BitVec 12).toInt ∧
    (408 : BitVec 12).toInt ≤ 408 ∧ hove.dkbit DK_TEMP 13 = false := by decide

/-! ### Witnesses: boot and BIND -/

theorem pair_of {α β : Type} (p : α × β) {b : β} (h : p.2 = b) : p = (p.1, b) := Prod.ext rfl h

/-- What an outcome of checks carries, where they passed. -/
theorem passed {α : Type} (r : Chk α) (h : (match r.2 with | .ok _ => true | .error _ => false) = true) :
    ∃ v x, r = (v, .ok x) := by
  obtain ⟨v, e⟩ := r
  cases e with
  | error c => simp at h
  | ok x => exact ⟨v, x, rfl⟩

/-- An image of a footprint and one instruction, NOP, at 0x6000_0000; its CRCs are those of 21 R848 and R849. -/
def image : List Word :=
  [0x31545246, 0x201, 0xC0, 0x60000000, 0, 0, 0, 0x2AFF2EA3] ++
  [1, 0x60, 0x40, 0, 0x26CD177, 0, 0, 0] ++ [2, 0xA0, 4, 0x60000000, 0x33F170F2, 0, 0, 0] ++
  [0, 0, 4, 0, 0, 0, 0, 0, 0, 1, 0, 0, 0, 0, 0, 0] ++ [3, 0, 0, 0, 0, 0, 0, 0]

/-- The same with four bytes of zeros at 0x2000, half a code word. -/
def tornImage : List Word :=
  [0x31545246, 0x301, 0xE0, 0x60000000, 0, 0, 0, 0x5DA5468C] ++
  [1, 0x80, 0x40, 0, 0xF3014302, 0, 0, 0] ++ [2, 0xC0, 4, 0x60000000, 0x33F170F2, 0, 0, 0] ++ [7, 0, 4, 0x2000, 0, 0, 0, 0] ++
  [0x2020, 0, 4, 0, 0, 0, 0, 0, 0, 1, 0, 0, 0, 0, 0, 0] ++ [3, 0, 0, 0, 0, 0, 0, 0]

/-- Boot blocks with that image behind each, the second the newer, and their CRCs. -/
def blockA : List Word := [0x31424C46, 0x1000, 0, 0xBC02C095]
def blockB : List Word := [0x31424C46, 0x2000, 0x10000, 0x0D7A5486]

/-- The boot flow runs. -/
def booting : State := { base .muster with dev := { (base .muster).dev with booting := true, straps := { boot := 1 } } }

/-- It has ended, and Bosun stops. -/
def flowed : State := { booting with bosun := { booting.bosun with run := false } }

/-- An outcome of checks that passed leaves the device as it was. -/
theorem passed_mode {α : Type} {r : Chk α} {v : State} {x : Except Nat α} (h : r = (v, x)) (k : r.1.dev.mode = .muster) :
    bootMode v := by subst h; exact .inl k

theorem witness_TheBootFlowEndsInHoveTo_none :
    booting.dev.booting = true ∧ bootMode booting ∧ blockValid [] = false := ⟨rfl, .inl rfl, by decide⟩

theorem witness_TheBootFlowEndsInHoveTo_bound :
    bootMode booting ∧ blockValid [] = false ∧ bootReads booting { blockA := blockA, imageA := wordsBytes image } false ∧
    ∃ u, bindImage (.flash (wordsBytes image)) flowed = (u, .ok ()) ∧ bootMode u := by
  refine ⟨.inl rfl, by decide, ⟨by decide +kernel, by decide, by decide +kernel, fun x h => nomatch h⟩, ?_⟩
  obtain ⟨v, x, h⟩ := passed (bindImage (.flash (wordsBytes image)) flowed) (by decide +kernel)
  exact ⟨v, h, passed_mode h (by decide +kernel)⟩

theorem witness_TheBootFlowEndsInHoveTo_failed :
    blockValid [] = false ∧ bootReads booting { blockA := blockA } false ∧
    bindImage (.flash []) flowed = (flowed, .error 0x33) ∧ bootMode flowed :=
  ⟨by decide, ⟨by decide +kernel, by decide, by decide +kernel, fun x h => nomatch h⟩, rfl, .inl rfl⟩

theorem witness_TheBootFlowEndsInHoveTo_two :
    newer blockA blockB = true ∧
    bootReads booting { blockA := blockA, blockB := blockB, imageA := wordsBytes image } true ∧
    bindImage (.flash []) flowed = (flowed, .error 0x33) ∧
    bootReads (bootFailed flowed flowed [] true 0x33)
      { blockA := blockA, blockB := blockB, imageA := wordsBytes image } false ∧
    (∃ w, bindImage (.flash (wordsBytes image)) (bootFailed flowed flowed [] true 0x33) = (w, .ok ()) ∧ bootMode w) ∧
    ∃ w c, bindImage (.flash []) (bootFailed flowed flowed [] true 0x33) = (w, .error c) ∧ bootMode w := by
  refine ⟨by decide, ⟨by decide +kernel, by decide, by decide +kernel, fun x h => nomatch h⟩, rfl,
    ⟨by decide +kernel, by decide, by decide +kernel, fun x h => nomatch h⟩, ?_, ⟨_, _, rfl, .inl rfl⟩⟩
  obtain ⟨v, x, h⟩ := passed (bindImage (.flash (wordsBytes image)) (bootFailed flowed flowed [] true 0x33))
    (by decide +kernel)
  exact ⟨v, h, passed_mode h (by decide +kernel)⟩

/-- BIND has been accepted with the image at address 0. -/
def binding (l : List Byte) : State :=
  { running 1 hove with dev := { (running 1 hove).dev with binding := true }, mem := Store.setRun 0 [] 0 l }

theorem witness_BindChecksAndBindsAnImage_accepted :
    canReef hove ∧ hove.cmdArg.toNat % 4096 = 0 ∧ inRam hove.part hove.cmdArg.toNat 1 = true ∧ hove.atBoundary = true ∧
    hove.bosun.stores = [] ∧ hove.idleForCmd = true ∧ canReef (base .underway) ∧ (base .underway).atBoundary = true ∧
    State.atBoundary { hove with bosun := { core := { shadow := 1 } } } = false := by unfold canReef; decide

theorem witness_BindChecksAndBindsAnImage_failed :
    (binding []).dev.command = some { op := 1 } ∧ (binding []).dev.binding = true ∧ (binding []).dev.bindStale = false ∧
    (binding []).dev.mode = .hoveTo ∧ ∃ v, checkImage (.mem 0) (binding []) = (v, .error 0x33) :=
  ⟨rfl, rfl, rfl, rfl, _, rfl⟩

/-- Checks that passed, and the outcome `ok` of the commit after them. -/
theorem committed (s : State) (ok : Bool)
    (h : (match checkImage (.mem 0) s with
      | (v, .ok x) => (match commitImage (.mem 0) v x with
        | (w, .ok _) => ok && decide (w.dev.mode ≠ .becalmed)
        | (w, .error _) => !ok && decide (w.dev.mode ≠ .becalmed))
      | _ => false) = true) :
    ∃ v x w e, checkImage (.mem 0) s = (v, .ok x) ∧ commitImage (.mem 0) v x = (w, e) ∧ w.dev.mode ≠ .becalmed ∧
      (match e with | .ok _ => true | .error _ => false) = ok := by
  rcases hv : checkImage (.mem 0) s with ⟨v, e⟩
  rw [hv] at h
  cases e with
  | error c => simp at h
  | ok x =>
    rcases hw : commitImage (.mem 0) v x with ⟨w, e⟩
    simp only [hw] at h
    cases e <;> simp at h <;> exact ⟨v, x, w, _, rfl, hw, h.2, by simp [h.1]⟩

theorem witness_BindChecksAndBindsAnImage_bound :
    ∃ v x w e, checkImage (.mem 0) (binding (wordsBytes image)) = (v, .ok x) ∧
      commitImage (.mem 0) v x = (w, e) ∧ w.dev.mode ≠ .becalmed ∧
      (match e with | .ok _ => true | .error _ => false) = true :=
  committed _ _ (by decide +kernel)

/-- What a failed commit leaves undefined is no device state. -/
theorem scramble_dev (l : List (Nat × Nat)) (s : State) : (s.scramble l).dev = s.dev := by
  unfold State.scramble
  induction l generalizing s with
  | nil => rfl
  | cons e t ih =>
    rw [List.foldl_cons, ih]
    have hd : (s.drawBytes e.2).2.dev = s.dev := by rw [(State.MemStep.drawBytes s e.2).1]
    have hw := State.eccWrite_frame (s.drawBytes e.2).2 srcCapstan e.1 (s.drawBytes e.2).1
    exact (congrArg State.dev hw).trans hd

theorem witness_BindChecksAndBindsAnImage_torn :
    ∃ v x w c, checkImage (.mem 0) { binding (wordsBytes tornImage) with ecc := [(0x2000, .double)] } = (v, .ok x) ∧
      commitImage (.mem 0) v x = (w, .error c) ∧ w.dev.mode ≠ .becalmed := by
  obtain ⟨v, x, hv⟩ := passed (checkImage (.mem 0) { binding (wordsBytes tornImage) with ecc := [(0x2000, .double)] })
    (by decide +kernel)
  have h : (match checkImage (.mem 0) { binding (wordsBytes tornImage) with ecc := [(0x2000, .double)] } with
    | (v, .ok x) => (decide (v.disableAll.dev.mode = .hoveTo) && match placeSects (.mem 0) x.sects v.disableAll with
      | (w, .error _) => decide (w.dev.mode = .hoveTo)
      | _ => false)
    | _ => false) = true := by decide +kernel
  rw [hv] at h
  rcases hp : placeSects (.mem 0) x.sects v.disableAll with ⟨w, e⟩
  simp only [hp] at h
  cases e with
  | ok y => simp at h
  | error c =>
    simp only [Bool.and_eq_true, decide_eq_true_eq] at h
    refine ⟨v, x, w.voidBind v x, c, hv, ?_, ?_⟩
    · unfold commitImage
      dsimp only
      rw [if_neg (by rw [h.1]; decide), hp]
      rfl
    · have : (w.voidBind v x).dev.mode = (w.scramble ((x.sects.filter fun y => y.placed && !State.inCn y.dest).map fun y =>
        (y.dest, y.len))).dev.mode := rfl
      rw [this, scramble_dev, h.2]; decide

/-! ### Witnesses: trims and commits -/

/-- An entry in flight on an instance of a class. -/
def flight (cls inst : Nat) (d : List Word) (st : FlightSt) : Flight :=
  { ring := 3, idx := 7, epoch := 0, cls := cls, inst := inst, desc := d, st := st }
def withFlights (l : List Flight) (s : State) : State := { s with cap := { s.cap with flights := l } }

/-- VTRIM and FTRIM are in force; island `i` stands at a code. -/
def trimming (i c : Nat) : State := (hove.setForce TR_CTRL 3).setCode i c

theorem witness_VtrimMovesOneIslandOneCode :
    hove.capRuns = true ∧ (7 : Nat) < 8 ∧
    ((trimming 7 39).vtEn = true ∧ (trimming 7 39).minCode < (trimming 7 39).islCode 7 ∧
      (trimming 7 39).rbit (TR_ISL 7) 9 = false) ∧
    (hove.setForce TR_CTRL 0).vtEn = false ∧ (hove.setCode 0 39).islCode 0 < 40 ∧ 40 ≤ hove.islCode 0 ∧ (hove.setForce TR_CTRL 0).ftEn = false ∧
    (((hove.setForce TR_CTRL 3).setForce TR_FT_CFG 0x40).ftEn = true ∧
      ((hove.setForce TR_CTRL 3).setForce TR_FT_CFG 0x40).trim.step <
        ((hove.setForce TR_CTRL 3).setForce TR_FT_CFG 0x40).ftFloor) ∧
    (trimming 7 39).rf (TR_ISL 7) 8 2 = 0 ∧ (hove.setRf (TR_ISL 0) 8 2 3).rf (TR_ISL 0) 8 2 ≠ 0 ∧
    ((hove.setRf (TR_ISL 0) 8 2 3).rbit (TR_ISL 0) 9 = true ∧ (hove.setRf (TR_ISL 0) 8 2 3).islandBusy 0 = false ∧
      (hove.setRf (TR_ISL 0) 8 2 3).rbit (TR_ISL 0) 8 = true ∧ (hove.setRf (TR_ISL 0) 8 2 3).islandRuns 0 = false) ∧
    (∀ st ∈ [FlightSt.running (.mill 0 2 0), .ended 0 0 9],
      let s := withFlights [flight 2 1 [] st] hove
      let here (f : Flight) : Bool := f.cls == 2 && f.inst == 7 - 6 && !f.null
      (s.cap.flights.find? fun f => here f && (match f.st with | .running _ => true | _ => false)).or
        (s.cap.flights.filter fun f => here f && (match f.st with | .ended _ _ _ => true | _ => false)).getLast? =
          some (flight 2 1 [] st)) := by
  decide

theorem witness_FtrimStepsOneStep :
    (State.capRuns { hove with trim := { step := 3, slow := true } } = true ∧
      State.kcBusy { hove with trim := { step := 3, slow := true } } = false ∧
      State.slowDue { hove with trim := { step := 3, slow := true } } = true) ∧
    State.fastDue { hove.setForce TR_CTRL 0 with trim := { step := 1 } } = true ∧
    State.kcBusy { hove.setForce TR_CTRL 0 with trim := { step := 1 } } = false ∧ hove.rbit TR_STAT 4 = false ∧
    (hove.setRf TR_STAT 4 1 1).rbit TR_STAT 4 = true ∧ (hove.setRf TR_STAT 4 1 1).kcBusy = false ∧
    hove.slowDue = false ∧ hove.fastDue = false := by decide

theorem witness_CommitsOnlySetPend :
    bit (0x80000001 : Word) 31 = true ∧ hove.part.iob = true ∧ hove.capRuns = true ∧ bit (0x80000001 : Word) 0 = true := by
  decide

theorem witness_StaleMarksAPendingCommit :
    (hove.setRf TR_STAT 4 1 1).rbit TR_STAT 4 = true ∧ (hove.setRf LK_STAT 0 1 1).rbit LK_STAT 0 = true ∧
    (hove.setRf CSI_STAT 0 1 1).rbit CSI_STAT 0 = true ∧ (hove.setRf AU_STAT 0 1 1).rbit AU_STAT 0 = true ∧
    63 ∈ (({ hove with rgPend := [63] } : State).rgPend) ∧
    (State.draining ({ hove with cap := { rings := [(16383, { st := .enabled, epochs := [255] })] } }.setRf CAP_EPOCH 8 1 1)
      = true ∧
     State.holders ({ hove with cap := { rings := [(16383, { st := .enabled, epochs := [255] })] } }.setRf CAP_EPOCH 8 1 1)
      = [16383]) ∧
    hove.rbit TR_STAT 4 = false ∧ hove.rbit LK_STAT 0 = false ∧ hove.rbit CSI_STAT 0 = false ∧
    hove.rbit AU_STAT 0 = false ∧ hove.draining = false := by decide

theorem witness_CommitsApplyOrAreRejected :
    ((hove.setRf TR_STAT 4 1 1).rbit TR_STAT 4 = true ∧ (hove.setRf TR_STAT 4 1 1).kcBusy = false) ∧
    ((hove.setRf LK_STAT 0 1 1).lk.frame = none ∧ (hove.setRf LK_STAT 0 1 1).lkReject = none ∧
      ((hove.setRf LK_STAT 0 1 1).setRf LK_PERIOD 0 20 4166).lkReject = some 1) ∧
    ((hove.setRf CSI_STAT 0 1 1).csiOpen 0 = none ∧ (hove.setRf CSI_STAT 0 1 1).csiOpen 1 = none ∧
      (hove.setRf CSI_STAT 0 1 1).vcOk 0 = true ∧ (hove.setRf CSI_STAT 0 1 1).vcOk 1 = true ∧
      ((hove.setRf CSI_STAT 0 1 1).setReg (CSI_VC 1) 1).vcOk 1 = false) ∧
    ((hove.setRf AU_STAT 0 1 1).auRun = false ∧ (hove.setRf AU_STAT 0 1 1).auReject = none ∧
      ((hove.setRf AU_STAT 0 1 1).setRf AU_RATE 16 13 8).auReject = some 1) ∧
    (Store.get 0 hove.rgRef 63 = 0 ∧ hove.dev.reader = none ∧ regionReject hove.part (hove.regionStaged 63) = none ∧
      (regionReject hove.part ((hove.setReg (RG_ATTR 63) 1).setReg (RG_LIMIT 63) 0x0FFFFFFF |>.regionStaged 63)).isSome)
    := by decide

/-! ### Witnesses: the Deck -/

theorem witness_RegisterWritesFollowTheAccessCodes :
    (({ lo := 0, w := 32, acc := .rw } : Field).lo + 32 ≤ 32) ∧ hove.deckFree = true ∧ (126 : Nat) ∉ deckActs ∧
    (plainCsr (RG_BASE 0) ∧ csrInReach hove (RG_BASE 0)) ∧ ¬ csrInReach (base .muster) (RG_BASE 0) := by
  unfold plainCsr csrInReach deckActs; decide

theorem witness_EightBitAccessesPairTheirBytes :
    (63 : Nat) < 64 ∧ 2 * 63 ∉ [DK_WIN_DATA, DK_BELL_VAL, DK_CN_EVENT, DK_TIME_LO] ∧
    State.deckFree { hove with dev := { hove.dev with straps := { busw := true } } } = true ∧
    (let s : State := { stageAt 2 0 with dev := { (stageAt 2 0).dev with straps := { busw := true } } }
     2 * (DK_STAGE / 2) = DK_STAGE ∧ s.deckFree = true ∧ s.mustering = true ∧ 1 < State.stageUnits (s.dkf DK_STAGE 0 8)) ∧
    ({ hove.deck with writeHold := some (63, 255) } : Deck).writeHold = some (63, 255) := by decide

theorem witness_DeckReadsWithEffects :
    hove.deckFree = true ∧ hove.dev.straps.busw = false ∧ hove.bellDark = false ∧
    (hove.setDkf DK_BELL_SEL 15 1 1).dkbit DK_BELL_SEL 15 = true ∧ hove.deck.cnFifo = [] ∧
    ({ hove.deck with cnFifo := [⟨19, 0, 1020, 5⟩] } : Deck).cnFifo = ⟨19, 0, 1020, 5⟩ :: [] := by decide

theorem witness_WindowAccessesAndRefusals :
    (hove.deckFree = true ∧ hove.dkbit DK_WIN_CTRL 4 = false ∧ hove.winCheck hove.winAddr false = none ∧
      hove.winCheck hove.winAddr true = none ∧ spaceOf hove.part hove.winAddr ≠ .remote ∧
      spaceOf hove.part hove.winAddr ≠ .csr ∧ netOn hove = false ∧
      (∃ x, (accessed hove).eccRead srcWindow hove.winAddr 4 = (x, none)) ∧
      ∃ x, (accessed hove).eccWrite srcWindow hove.winAddr (leBytes 4 (hove.winWord 0xFFFF).toNat) = (x, none)) ∧
    ((hove.setDkf DK_WIN_CTRL 4 1 1).dkbit DK_WIN_CTRL 4 = true ∧
      (hove.setDk DK_WIN_ADDR_HI 0x0FFF).winCheck (hove.setDk DK_WIN_ADDR_HI 0x0FFF).winAddr false = some 1 ∧
      (hove.setDk DK_WIN_ADDR_HI 0xF000).winCheck (hove.setDk DK_WIN_ADDR_HI 0xF000).winAddr true = some 7) ∧
    (∃ x w, (accessed { hove with ecc := [(0, .double)] }).eccRead srcWindow 0 4 = (x, some w)) ∧
    (∃ x w, (accessed { hove with ecc := [(0, .double)] }).eccWrite srcWindow 0 (leBytes 4 7) = (x, some w)) ∧
    (spaceOf hove.part (hove.setDk DK_WIN_ADDR_HI 0x4000).winAddr = .csr ∧
      (hove.setDk DK_WIN_ADDR_HI 0x4000).winCheck (hove.setDk DK_WIN_ADDR_HI 0x4000).winAddr false = none ∧
      (hove.setDk DK_WIN_ADDR_HI 0x4000).winCheck (hove.setDk DK_WIN_ADDR_HI 0x4000).winAddr true = none) ∧
    ((binding []).dev.binding = true ∧ (binding []).deckFree = true) := by
  refine ⟨⟨?_, ?_, ?_, ?_, ?_, ?_, ?_, ⟨_, pair_of _ (by decide)⟩, ⟨_, pair_of _ (by decide)⟩⟩, ?_,
    ⟨_, _, pair_of _ (by rfl)⟩, ⟨_, _, pair_of _ (by rfl)⟩, ?_, ?_⟩ <;> decide

/-- LINKED, PAIRED and idle, with the peer's Granary populated. -/
def pairedLink : State :=
  { hove with
    dev := { hove.dev with straps := { role := 1, phy := true } }
    sw := { st := .active, linked := true, paired := true, own := [0, 0, 0, 0, 0, 0], peer := [0, 4, 0, 0, 0, 0] } }

/-- A window access that is late. -/
def lateAccess (s : State) (x : WinAccess) : State := { s with deck := { s.deck with win := some x } }

theorem witness_WindowTimeoutsAndLateCompletions :
    (let s := pairedLink.setDk DK_WIN_ADDR_HI 0x7000
     s.deckFree = true ∧ s.dkbit DK_WIN_CTRL 4 = false ∧ s.winCheck s.winAddr false = none ∧ s.winCheck s.winAddr true = none ∧
      spaceOf s.part s.winAddr = .remote ∧ s.remoteRefusal s.winAddr 4 = none ∧ s.sw.ops = []) ∧
    (let s := hove.setDk DK_WIN_ADDR_HI 0x7000
     s.deckFree = true ∧ s.winCheck s.winAddr false = none ∧ s.winCheck s.winAddr true = none ∧
      (s.remoteRefusal s.winAddr 4).isSome ∧ s.sw.ops = []) ∧
    (hove.deckFree = true ∧ hove.winCheck hove.winAddr false = none ∧ hove.winCheck hove.winAddr true = none ∧
      spaceOf hove.part hove.winAddr ≠ .remote) ∧
    (∀ late, (lateAccess hove ⟨0, none, true, late, 0⟩).deck.win = some ⟨0, none, true, late, 0⟩) ∧
    (spaceOf hove.part 0 ≠ .csr ∧ spaceOf hove.part 0x40000000 = .csr ∧
      ((withWin hove none).csrWrite 0x40000000 1).deck.doors = []) ∧
    (∃ y, (withWin (lateAccess hove ⟨0, none, false, true, 0⟩) none).eccRead srcWindow 0 4 = (y, none)) ∧
    (∃ y, (withWin (lateAccess hove ⟨0, some 1, false, true, 0⟩) none).eccWrite srcWindow 0 (leBytes 4 1) = (y, none)) ∧
    (State.runOutcome { hove with sw := { ops := [winOp hove false []] } } .window = none ∧
      ∀ reason ∈ [0, 3], State.runOutcome { hove with sw := { ops := [{ winOp hove false [] with
        answer := some (reason, []) }] } } .window = some (reason, [])) := by
  refine ⟨?_, ?_, ?_, fun _ => rfl, ?_, ⟨_, pair_of _ (by decide)⟩, ⟨_, pair_of _ (by decide)⟩, ?_⟩ <;> decide

theorem witness_DoorbellsAreQueuedAndAnswered :
    (hove.deckFree = true ∧ hove.doorDepth < 8) ∧
    8 ≤ State.doorDepth { hove with deck := { hove.deck with doors := List.replicate 8 (.door 0 0) } } ∧
    (hove.answers = true ∧ hove.winHolds = false ∧ hove.capRuns = true ∧ hove.bindRuns = false) ∧
    tailCode hove 0 1 ≠ 0 ∧ tailCode { hove with cap := { rings := [(0, { size := 1, st := .enabled })] } } 0 1 = 0 ∧
    tailCode (running 1 hove) 0 0 ≠ 0 := by unfold tailCode offerCode; decide

theorem witness_HostBellOperations :
    (base .reefed).bellDark = true ∧ (base .reefed).deckFree = true ∧ hove.dkf DK_BELL_SEL 8 2 ≠ 1 ∧
    (reefing.bellDark = false ∧ reefing.capRuns = false ∧ reefing.deckFree = true) ∧
    hove.deckFree = true ∧ hove.answers = true ∧ hove.bellDark = false ∧ hove.deck.doors = [] ∧ hove.winHolds = false ∧
    hove.capRuns = true ∧ (hove.setDk DK_BELL_SEL 0x01FF).dkf DK_BELL_SEL 8 2 = 1 ∧
    (hove.setDk DK_BELL_SEL 0x02FF).dkf DK_BELL_SEL 8 2 = 2 ∧
    State.winHolds { hove with deck := { hove.deck with win := some ⟨0, some 1, false, true, 0⟩ } } = true := by decide

theorem witness_CommandsAreJudgedInOrder :
    hove.deckFree = true ∧ fld (0x5A07 : Half) 8 8 = 0x5A ∧ 6 < fld (0x5A07 : Half) 0 4 ∧
    (∀ op ∈ [1, 3, 4, 5], ¬ cmdPasses (base .reefed) op ∧ cmdPasses hove op) ∧
    (¬ cmdPasses hove 2 ∧ cmdPasses (base .reefed) 2) ∧
    ((hove.setDkf DK_CMDSTAT 0 1 1).dkbit DK_CMDSTAT 0 = true ∧ ¬ argPasses hove 5 ∧ argPasses hove 4) ∧
    State.winHolds (lateAccess hove ⟨0, some 1, false, true, 0⟩) = true ∧
    (hove.dieUp = true ∧ hove.draining = false ∧ hove.held = false ∧ ringsWf hove ∧
      (hove.setRf CAP_EPOCH 8 1 1).draining = true ∧ hove.deck.doors = [] ∧ hove.winHolds = false) ∧
    (State.ring { hove with cap := { rings := [(0, { size := 1, st := .halted })] } } 0).st = .halted ∧
    tableWhole hove := by
  refine ⟨?_, ?_, ?_, ?_, ?_, ?_, ?_, ?_, ?_, fun n _ e h => by simp [hove, base, State.damaged] at h⟩ <;>
    first | (unfold cmdPasses; decide) | (unfold argPasses; decide) | (unfold ringsWf; decide) | decide

theorem witness_TheDebugPortReachesWhatTheWindowDoes :
    ({ lock := true } : Part).lock = true ∧ hove.part.lock = false ∧ hove.answers = true ∧ hove.sw.ops = [] ∧
    hove.winCheck ((0x0FFF0000 : Word).toNat / 4 * 4) false = some 1 ∧
    hove.winCheck ((0xF0000000 : Word).toNat / 4 * 4) true = some 7 ∧
    (spaceOf hove.part 0 ≠ .remote ∧ spaceOf hove.part 0 ≠ .csr ∧ hove.winCheck 0 false = none ∧
      hove.winCheck 0 true = none) ∧
    (spaceOf hove.part 0x40000000 = .csr ∧ hove.winCheck 0x40000000 false = none ∧ hove.winCheck 0x40000000 true = none) ∧
    (spaceOf pairedLink.part 0x70000000 = .remote ∧ pairedLink.remoteRefusal 0x70000000 4 = none ∧
      pairedLink.answers = true ∧ pairedLink.part.lock = false ∧ pairedLink.sw.ops = [] ∧ pairedLink.deck.win = none ∧
      pairedLink.winCheck 0x70000000 false = none ∧ pairedLink.winCheck 0x70000000 true = none) ∧
    (∃ x, hove.eccRead srcWindow 0 4 = (x, none)) ∧ (∃ x, hove.eccWrite srcWindow 0 (leBytes 4 7) = (x, none)) ∧
    (∃ x w, State.eccRead { hove with ecc := [(0, .double)] } srcWindow 0 4 = (x, some w)) ∧
    ∃ x w, State.eccWrite { hove with ecc := [(0, .double)] } srcWindow 0 (leBytes 4 7) = (x, some w) := by
  refine ⟨?_, ?_, ?_, ?_, ?_, ?_, ?_, ?_, ?_, ⟨_, pair_of _ (by decide)⟩, ⟨_, pair_of _ (by decide)⟩,
    ⟨_, _, pair_of _ (by rfl)⟩, ⟨_, _, pair_of _ (by rfl)⟩⟩ <;> decide


/-! ### Witnesses: rings, Bells, admission and completions -/

/-- 16 words, 0 but those given. -/
def words (l : List (Nat × Nat)) : List Word := l.foldl (fun d p => d.set p.1 (Word.nat p.2)) (List.replicate 16 0)
/-- Memory holds `l` from address `a`, and nothing else. -/
def withMem (a : Nat) (l : List Byte) (s : State) : State := { s with mem := Store.setRun 0 [] a l }
def withRings (l : List (Nat × Ring)) (s : State) : State := { s with cap := { s.cap with rings := l } }

/-- A preset of 4 entries of class Halyard at 0x1000, its completion queue at 0x2000. -/
def preset : List Word := [Word.nat (2 + 4 * 2 ^ 8 + 2 ^ 16), 0x1000, 0x2000, 0]
/-- A ring in that configuration with one entry between HEAD and TAIL. -/
def halRing (w : Bool) : Ring :=
  { size := 2, cls := 4, mask := 1, base := 0x1000, cqbase := 0x2000, head := 3, tail := 0, done := 3, st := .enabled
    phase := true, epochs := [0], reached := w, waitOk := w }

theorem witness_RingOperationsAndTheirResults :
    hove.capRuns = true ∧ hove.cap.op = none ∧ (base .muster).capRuns = false ∧
    ({ op := some ⟨5, 16383, 0⟩ } : Capstan).op = some ⟨5, 16383, 0⟩ ∧
    opWrite hove 5 16383 3 (Word.nat (16383 + 5 * 2 ^ 16 + 3 * 2 ^ 20)) ∧ hove.damaged (State.ringAddr 16383) 32 = [] ∧ hove.inject = none ∧
    (hove.ring 16383).st = .disabled ∧ ringCfgOk hove.part (bytesWords 4 (hove.peek (State.ringAddr 16383) 16)) = false ∧
    (let s := withMem (State.ringAddr 16383) (wordsBytes preset) hove
     (s.ring 16383).st = .disabled ∧ s.damaged (State.ringAddr 16383) 32 = [] ∧
      ringCfgOk s.part (bytesWords 4 (s.peek (State.ringAddr 16383) 16)) = true) ∧
    (let s := withRings [(16383, halRing true)] hove
     (s.ring 16383).st ≠ .disabled ∧ (s.ring 16383).st ≠ .halted ∧ s.cap.flights.any (·.ring == 16383) = false ∧
      (withFlights [{ flight 4 0 [] .queued with ring := 16383 }] s).cap.flights.any (·.ring == 16383) = true) ∧
    (State.ring (withRings [(16383, { halRing false with st := .halted, fidx := 3 })] hove) 16383).st = .halted := by
  unfold opWrite csrInReach; decide +kernel

theorem witness_BellsAddSetAndFire :
    hove.capRuns = true ∧ (base .muster).capRuns = false ∧
    (let s := (hove.setReg (CAP_BTHR + 8 * 255) 7).setReg (CAP_BTHR + 8 * 255 + 4) 5
     s.rbit (CAP_BTHR + 8 * 255 + 4) 0 = true ∧
      State.bellHolds 7 (s.reg (CAP_BTHR + 8 * 255)) (s.rbit (CAP_BTHR + 8 * 255 + 4) 1) = true ∧
      State.bellHolds (s.bell 255 + 7) (s.reg (CAP_BTHR + 8 * 255)) (s.rbit (CAP_BTHR + 8 * 255 + 4) 1) = true ∧
      State.bellHolds (s.bell 255) (s.reg (CAP_BTHR + 8 * 255)) (bit (1 : Word) 1) = false) ∧
    bit (1 : Word) 0 = true ∧ State.bellHolds (hove.bell 0) (hove.reg CAP_BTHR) (bit (1 : Word) 1) = true := by decide

/-- Entry 15 of the region table in force covers the Pantry for the Halyards. -/
def regions (s : State) : State :=
  ((s.setForce (RG_BASE 15) 0).setForce (RG_LIMIT 15) 0x37FFFF).setForce (RG_ATTR 15) 0x1007
/-- A COPY of 40 bytes from 0x100 to 0x201, with its CRC. -/
def copyDesc : List Word := words [(0, 1 + 4 * 2 ^ 8 + 2 ^ 12), (4, 0x100), (5, 0x201), (6, 40)]
/-- A ring offers the descriptor `d` in entry 3. -/
def offering (w : Bool) (d : List Word) : State :=
  withMem 0x10C0 (wordsBytes d) (withRings [(5, halRing w)] (regions hove))

def okIs (r : Except Nat (List Nat)) (l : List Nat) : Bool := match r with | .ok m => m == l | .error _ => false
def failsAt (r : Except Nat (List Nat)) (k : Nat) : Bool := match r with | .ok _ => false | .error n => n == k

theorem witness_AdmissionTakesTheWinner :
    ((let s := offering true (words [(0, 0xFF)])
      ringsWf s ∧ wins s s.latchWaits 5 (halRing true) (words [(0, 0xFF)]) ∧
       (fieldChecks 4 (words [(0, 0xFF)]) (s.latchWaits.classChecks 5 (halRing true) (words [(0, 0xFF)]))).isSome = true)) ∧
    (let s := offering true copyDesc
     wins s s.latchWaits 5 (halRing true) copyDesc ∧
      fieldChecks 4 copyDesc (s.latchWaits.classChecks 5 (halRing true) copyDesc) = none ∧
      (s.latchWaits.classChecks 5 (halRing true) copyDesc).null = false ∧
      s.latchWaits.pendingHold (s.latchWaits.classChecks 5 (halRing true) copyDesc).ranges = false ∧
      okIs (s.latchWaits.regionCheck 4 (s.latchWaits.classChecks 5 (halRing true) copyDesc).ranges 0 []) [15] = true ∧
      (s.latchWaits.freeInst (halRing true)).isSome = true) ∧
    (let s := (offering true copyDesc).setForce (RG_ATTR 15) 0
     wins s s.latchWaits 5 (halRing true) copyDesc ∧
      failsAt (s.latchWaits.regionCheck 4 (s.latchWaits.classChecks 5 (halRing true) copyDesc).ranges 0 []) 0 = true) ∧
    (let s := { offering true copyDesc with rgPend := [15] }
     wins s s.latchWaits 5 (halRing true) copyDesc ∧
      s.latchWaits.pendingHold (s.latchWaits.classChecks 5 (halRing true) copyDesc).ranges = true ∧
      s.latchWaits.winner [5] = none) ∧
    (let d := words [(0, 1 + 4 * 2 ^ 8)]
     let s := offering true d
     wins s s.latchWaits 5 (halRing true) d ∧ fieldChecks 4 d (s.latchWaits.classChecks 5 (halRing true) d) = none ∧
      (s.latchWaits.classChecks 5 (halRing true) d).null = true ∧ (s.latchWaits.freeInst (halRing true)).isSome = true) ∧
    (let s := withRings [(5, { halRing false with tmo := 9 })]
        (withMem 0x10C0 (wordsBytes (words [(0, 1 + 4 * 2 ^ 8 + 2 ^ 16 + 200 * 2 ^ 24), (1, 1)])) hove)
     (s.latchWaits.ring 5).st = .enabled ∧ (s.latchWaits.ring 5).reached = true ∧ (s.latchWaits.ring 5).waitOk = false ∧
      (s.latchWaits.ring 5).tmo ≠ 0 ∧ (s.latchWaits.ring 5).admFault = none) ∧
    hove.dkbit DK_CTRL 1 = false ∧ hove.latchWaits.winner [] = none := by
  unfold ringsWf wins; decide +kernel

/-- A descriptor of ring 3 that is done but for its record. -/
def recording (status : Nat) : State :=
  withFlights [{ flight 4 0 copyDesc (.finished status 5 77) with idx := 3 }]
    (withRings [(3, { halRing false with head := 0 })] hove)

theorem witness_CompletionsWriteRecordsInOrder :
    turnOver (flight 4 0 copyDesc (.running .streamWait)) ∧
    hove.capRuns = true ∧
    ({ flight 4 0 copyDesc (.ended 0 5 77) with idx := 3 } : Flight) ∈
      (withFlights [{ flight 4 0 copyDesc (.ended 0 5 77) with idx := 3 }] hove).cap.flights ∧
    (withFlights [{ flight 4 0 copyDesc .queued with null := true }] hove).cap.flights =
      [{ flight 4 0 copyDesc .queued with null := true }] ∧
    (∀ st ∈ [0, 0x10, 0xFF], let s := recording st
      ringsWf s ∧ s.capRuns = true ∧ (s.ring 3).st = .enabled ∧
      s.flightAt 3 (s.ring 3).done = some { flight 4 0 copyDesc (.finished st 5 77) with idx := 3 } ∧
      cqOk s (s.ring 3) ∧ (s.ring 3).admFault = none ∧ ∀ g ∈ s.cap.flights, g.idx = (s.ring 3).done) ∧
    (let s := withRings [(3, { halRing false with admFault := some ⟨3, 0x15, 0, 0⟩ })] hove
     (s.ring 3).st = .enabled ∧ s.flightAt 3 (s.ring 3).done = none ∧ (s.ring 3).done = 3 ∧ cqOk s (s.ring 3) ∧
      s.cap.flights = []) ∧
    (hove.ring 3).st ≠ .enabled ∧
    fld (wordAt copyDesc 0) 20 2 = 0 ∧
    (∀ m ∈ [0, 1, 2], fld (wordAt (words [(0, m * 2 ^ 18)]) 0) 18 2 = m) := by
  refine ⟨trivial, ?_⟩
  unfold ringsWf cqOk wholeWords; decide +kernel

theorem witness_TackDrainsEndAndRelease :
    tableWhole hove ∧
    (let s := hove.setRf CAP_EPOCH 8 1 1
     s.capRuns = true ∧ ringsWf s ∧ s.draining = true ∧ s.holders = [] ∧ s.rbit CAP_TACK_CFG 8 = false ∧
      (s.setReg CAP_TACK_CFG 0x3FF).rbit CAP_TACK_CFG 8 = true) ∧ hove.draining = false ∧
    State.holders ((withRings [(16383, { st := .enabled, epochs := [255] })] hove).setRf CAP_EPOCH 8 1 1) ≠ [] := by
  refine ⟨fun n _ e h => by simp [hove, base, State.damaged] at h, ?_⟩
  unfold ringsWf; decide +kernel

/-- The scrubber runs and stands at block `k`. -/
def scrubbing (k : Nat) (e : List (Nat × Ecc)) : State :=
  { hove.setReg RG_SCRUB_CFG 0x10 with scrubAt := k, ecc := e }

theorem witness_ScrubbingAndInjection :
    (∀ k ∈ [0, scrubBlocks hove.part - 1], (scrubbing k []).rbit RG_SCRUB_CFG 4 = true ∧ (scrubbing k []).dieUp = true ∧ (scrubbing k []).damaged (scrubAddr k) 64 = []) ∧
    (∃ u, (scrubbing 0 [(8, .single)]).eccRead srcScrub (scrubAddr 0) 64 = (u, none)) ∧
    (∃ u a, (scrubbing 0 [(8, .double)]).eccRead srcScrub (scrubAddr 0) 64 = (u, some a)) ∧
    spaceOf hove.part ((hove.setReg RG_ECC_INJ_ADDR 7).reg RG_ECC_INJ_ADDR).toNat ∈
      [Space.pantry, .ringTable, .granary, .itcm, .dtcm] ∧
    spaceOf hove.part ((hove.setReg RG_ECC_INJ_ADDR 0x40000000).reg RG_ECC_INJ_ADDR).toNat ∉
      [Space.pantry, .ringTable, .granary, .itcm, .dtcm] ∧ (hove.setReg RG_SCRUB_CFG 0).rbit RG_SCRUB_CFG 4 = false ∧
    ({ hove with inject := some ⟨8, .double⟩ } : State).inject = some ⟨8, .double⟩ ∧ (8 : Nat) % 8 = 0 ∧
    (0 : Nat) ≤ 8 ∧ 8 + 8 ≤ 0 + (List.replicate 16 (0 : Byte)).length := by
  refine ⟨by decide +kernel, ⟨_, pair_of _ (by decide +kernel)⟩, ⟨_, _, pair_of _ (by rfl)⟩, ?_⟩
  decide +kernel

/-! ### Witnesses: engines -/

/-- A descriptor on instance `inst` of a class, with memory at 0x100. -/
def onEngine (cls inst : Nat) (d : List Word) (st : FlightSt) (l : List Byte) : State :=
  withMem 0x100 l (withFlights [flight cls inst d st] hove)

/-- A COPY of two rows of 3 elements of 2 bytes, 8 bytes apart, with and without destination. -/
def copy2 (nodst : Nat) : List Word :=
  words [(0, 1 + 4 * 2 ^ 8 + 2 ^ 12 + nodst * 2 ^ 14), (4, 0x100), (5, 0x200), (6, 3 + 2 ^ 16 + 2 ^ 18), (7, 2), (9, 8), (12, 6)]
/-- A FILL of two rows of 3 halves. -/
def fill2 : List Word := words [(0, 2 + 4 * 2 ^ 8), (5, 0x200), (6, 3 + 2 ^ 16 + 2 ^ 18), (7, 2), (12, 8), (15, 0xABCD)]
/-- A GATHER of two rows of 4 bytes by the indexes 1 and `n`, of a table of 2 rows. -/
def gather2 : List Word :=
  words [(0, 3 + 4 * 2 ^ 8 + 2 ^ 12), (4, 0x180), (5, 0x200), (6, 4), (7, 2), (8, 0x100), (9, 4), (10, 2), (11, 4)]
/-- A RELAYOUT of one image of 2 pixels of 3 channels to blocks of 16, or back. -/
def relayout2 (m : Nat) : List Word :=
  words [(0, 4 + 4 * 2 ^ 8), (4, 0x100), (5, 0x200), (6, 3 + m * 2 ^ 18), (7, 1 + 2 * 2 ^ 16), (8, 1), (9, 7)]

theorem witness_HalyardDescriptorsMoveTheirBytes :
    (let d := copy2 0
     let s := onEngine 4 3 d .queued [1, 2, 3]
     calm s (flight 4 3 d .queued) ∧ isOn s 4 3 1 (flight 4 3 d .queued) ∧ bit (wordAt d 0) 14 = false ∧
      (halRows d).length = 2 ∧ rowsFree s (df d 6 0 16 * 2 ^ df d 6 16 2) (halRows d) ∧
      meet (extent (wordAt d 4).toNat (df d 6 0 16) (2 ^ df d 6 16 2) ((halDims d).map fun x => (x.1, x.2.1)))
        (extent (wordAt d 5).toNat (df d 6 0 16) (2 ^ df d 6 16 2) ((halDims d).map fun x => (x.1, x.2.2))) = none) ∧
    (let d := copy2 1
     let s := onEngine 4 3 d .queued [1, 2, 3]
     calm s (flight 4 3 d .queued) ∧ isOn s 4 3 1 (flight 4 3 d .queued) ∧ bit (wordAt d 0) 14 = true ∧
      ∀ r ∈ halRows d, inRam s.part r.1 (df d 6 0 16 * 2 ^ df d 6 16 2) = true) ∧
    (let s := onEngine 4 0 fill2 .queued []
     calm s (flight 4 0 fill2 .queued) ∧ isOn s 4 0 2 (flight 4 0 fill2 .queued) ∧ bit (wordAt fill2 0) 12 = false ∧
      (halRows fill2).length = 2 ∧
      ∀ r ∈ halRows fill2, inRam s.part r.2 (df fill2 6 0 16 * 2 ^ df fill2 6 16 2) = true ∧
        r.2 % 2 ^ df fill2 6 16 2 = 0) ∧
    (∀ n ∈ [(0 : Byte), 2], let s := onEngine 4 1 gather2 .queued [1, 0, n, 0]
     calm s (flight 4 1 gather2 .queued) ∧ isOn s 4 1 3 (flight 4 1 gather2 .queued) ∧ bit (wordAt gather2 0) 14 = false ∧
      inRam s.part (wordAt gather2 8).toNat (df gather2 7 0 16 * (if df gather2 6 18 2 = 0 then 2 else 4)) = true ∧
      rowsFree s (df gather2 6 0 16 * 2 ^ df gather2 6 16 2) (gatherRows s gather2) ∧
      (gatherRows s gather2).length = (if n = 0 then 2 else 1) ∧
      (let de := extent (wordAt gather2 5).toNat (df gather2 6 0 16) (2 ^ df gather2 6 16 2)
        [(df gather2 7 0 16, ds gather2 11)]
       overlaps de.1 de.2 (wordAt gather2 8).toNat (((wordAt gather2 8).toNat : Int) +
         ((df gather2 7 0 16 * (if df gather2 6 18 2 = 0 then 2 else 4) : Nat) : Int) - 1) = false)) ∧
    (∀ m ∈ [0, 2], let d := relayout2 m
     let s := onEngine 4 2 d .queued [1]
     let g := relayOf d
     calm s (flight 4 2 d .queued) ∧ isOn s 4 2 4 (flight 4 2 d .queued) ∧ g.toBlocked = decide (m = 0) ∧
      0 < g.nhwc ∧ 0 < g.blocked ∧ inRam s.part 0x100 (max g.nhwc g.blocked) = true ∧
      inRam s.part 0x200 (max g.nhwc g.blocked) = true ∧ 0x100 + max g.nhwc g.blocked ≤ 0x200) := by
  unfold calm isOn rowsFree; refine ⟨?_, ?_, ?_, ?_, ?_⟩ <;> decide +kernel

/-- A memory-fed product of 3 positions, 2 channels and 33 codes; `n` are the bits of words 0 and 4 besides. -/
def product2 (w0 w4 : Nat) : List Word :=
  words [(0, 1 + w0), (4, 1 + 3 * 8 + w4), (5, 33 + 2 * 2 ^ 16), (6, 3), (7, 0x100), (8, 0x40), (9, 0x400), (10, 0x500),
    (11, 0x600), (12, 8)]

/-- A tile that keeps a block, and one that a Harrow has offered its windows. -/
def keeping : Loom := { kept := some (1, []) }
def offered : Loom := { feed := some { inst := 1, ring := 4, idx := 0, c := 33, offered := true, windows := List.replicate 3 ⟨[1], []⟩ } }

theorem witness_TheLoomAccumulatesItsProducts :
    (∀ x ∈ [(0, 0), (0, 2 ^ 10), (2 ^ 13, 0), (0, 2 * 2 ^ 10), (0, 3 * 2 ^ 10), (2 ^ 12, 0)],
      let d := product2 x.1 x.2
      let f := flight 0 2 d .queued
      let s := { onEngine 0 2 d .queued [1, 2, 3] with looms := [(2, keeping)] }
      calm s f ∧ isOn s 0 2 1 f ∧ (loomD d).feed = false ∧ f.st = .queued ∧ (s.loom 2).held = [] ∧
      listFault ((storesOf s (s.loom 2) d).outList.take (loomD d).nout) (some (loomD d).k) = none ∧
      inRam s.part (wordAt d 9).toNat (loomD d).wbytes = true ∧
      inRam s.part (wordAt d 10).toNat ((loomD d).nch * (loomD d).ng * 2) = true ∧ (loomD d).nout = 0 ∧
      (∀ p, p < (loomD d).npos →
        inRam s.part ((wordAt d 7).toNat + p * (wordAt d 8).toNat) (loomD d).rowBytes = true) ∧
      (loomD d).nch ≤ 64 ∧ 0 < (loomD d).npos ∧ (loomD d).npos ≤ 32 ∧ (s.loom 2).kept.isSome = true ∧ (s.loom 2).keptNum = f.cont ∧
      (∀ p, p < (loomD d).npos →
        inRam s.part ((wordAt d 11).toNat + p * (wordAt d 12).toNat) ((loomD d).nch * (loomD d).osize) = true) ∧
      (loomD d).nch * (loomD d).osize ≤ (wordAt d 12).toNat ∧
      (∀ p, p < (loomD d).npos → ∀ q, q < (loomD d).npos →
        (wordAt d 7).toNat + p * (wordAt d 8).toNat + (loomD d).rowBytes ≤ (wordAt d 11).toNat + q * (wordAt d 12).toNat)) ∧
    [(2 ^ 13, 0), (0, 2 * 2 ^ 10), (0, 3 * 2 ^ 10), (2 ^ 12, 0)].map (fun x =>
      ((loomD (product2 x.1 x.2)).keep, (loomD (product2 x.1 x.2)).out, (loomD (product2 x.1 x.2)).chain)) =
      [(true, 0, false), (false, 2, false), (false, 3, false), (false, 0, true)] ∧
    (let d := product2 (2 ^ 14) 0
     let f := flight 0 2 d (.running (.loom true 0))
     let s := { onEngine 0 2 d (.running (.loom true 0)) [] with looms := [(2, offered)] }
     calm s f ∧ isOn s 0 2 1 f ∧ (loomD d).feed = true ∧ (s.loom 2).feed = offered.feed ∧ (loomD d).npos ≤ 3) := by
  unfold calm isOn; refine ⟨?_, ?_, ?_⟩ <;> decide +kernel

/-- A memory operation on rows 4 pixels wide and 4 high of 3 channels, in blocks of 16. -/
def pool2 (op : Nat) : List Word :=
  words [(0, op + 2 ^ 8), (4, 0x100), (5, 0x40), (7, 4 + 4 * 2 ^ 16), (8, 3 + 3 * 2 ^ 13 + 2 * 2 ^ 16 + 2 * 2 ^ 20 + 5 * 2 ^ 24),
    (12, 0x400), (13, 0x100), (14, 0x80)]

theorem witness_HarrowMemoryOperationsWriteTheirPixels :
    ∀ op ∈ [3, 4, 5, 6, 7],
      let d := pool2 op
      let f := flight 1 1 d .queued
      let s := onEngine 1 1 d .queued [5, 6, 7]
      let x := harrowD d
      memOpOf 1 op ≠ none ∧ calm s f ∧ isOn s 1 1 op f ∧ x.fmt = 3 ∧ x.nout = 0 ∧ x.role = 0 ∧ x.sout = false ∧
      x.sin = false ∧ x.inhwc = false ∧
      meet (((harrowChecks s {} d).ranges.getD 0 .absent).lo, ((harrowChecks s {} d).ranges.getD 0 .absent).hi)
        (((harrowChecks s {} d).ranges.getD 2 .absent).lo, ((harrowChecks s {} d).ranges.getD 2 .absent).hi) = none ∧
      (∀ i, i < x.ih → ∀ b, b < x.cb →
        inRam s.part ((wordAt d 4).toNat + i * (wordAt d 5).toNat + b * (wordAt d 6).toNat) x.blockBytes = true) ∧
      cells x ≠ [] ∧ (∀ e ∈ cells x, inRam s.part (cellAt d x e.1 e.2.1 e.2.2) (x.blk * x.size) = true) ∧
      (cells x).Pairwise fun e g => cellAt d x e.1 e.2.1 e.2.2 + x.blk * x.size ≤ cellAt d x g.1 g.2.1 g.2.2 ∨
        cellAt d x g.1 g.2.1 g.2.2 + x.blk * x.size ≤ cellAt d x e.1 e.2.1 e.2.2 := by
  unfold calm isOn; decide +kernel

/-- A Mill descriptor of 3 halves in runs of 2 through a recipe of one instruction at 0x100. -/
def mill2 : List Word :=
  words [(0, 1 + 2 * 2 ^ 8), (4, 0x100), (5, 3), (6, 2 + 2 ^ 16), (7, 0x180), (8, 4 * 4), (11, 3), (13, 0x200), (14, 4 * 4 + 2 ^ 6)]
/-- The recipe's header and its instruction. -/
def recipe2 (w0 w1 : Nat) : List Byte := wordsBytes ([1, 2, 0, 0, 0, 0, 0, 0] ++ [Word.nat w0, Word.nat w1])
def addU16 : List Byte := recipe2 (1 + 4 * 2 ^ 6 + 2 ^ 9) (2 ^ 28)
def lutOne : List Byte := recipe2 (0x24 + 4 * 2 ^ 6 + 2 ^ 9) (1 + 2 ^ 28)
def reserved : List Byte := recipe2 0 0

def milling (l : List Byte) : State :=
  { onEngine 2 1 mill2 .queued [] with mem := Store.setRun 0 (Store.setRun 0 [] 0x100 l) 0x180 [1, 0, 1, 0, 3, 0] }
def onMill : Flight := flight 2 1 mill2 .queued

/-- The Mill after each iteration of `mill2`. -/
def millStates (s : State) : Nat → Mill
  | 0 => recipeIn s mill2 (s.mill 1)
  | i + 1 => match runRecipe mill2 i (millVl mill2 i) (millRecipe (recipeIn s mill2 (s.mill 1)) mill2).zipIdx
      (inputsIn s mill2 i (millStates s i)) with
    | .ok m => m
    | .error _ => {}

/-- What a run answers, where it does not fail. -/
theorem ran {r : Except Word Mill} (h : (match r with | .ok _ => true | .error _ => false) = true) :
    r = .ok (match r with | .ok m => m | .error _ => {}) := by
  cases r with
  | error e => simp at h
  | ok m => rfl

theorem millReady_milling (l : List Byte) (h : l ∈ [addU16, lutOne, reserved]) : millReady (milling l) 1 onMill := by
  have hb : ∀ i, i < millIters mill2 → ∀ k, k < 2 → ∀ r ∈ inRuns mill2 k i,
      inRam {} (bitRun r.1 (fmtBits (strm mill2 k).fmt) r.2).1 (bitRun r.1 (fmtBits (strm mill2 k).fmt) r.2).2 = true ∧
      ∀ o ∈ outRuns mill2, o.1 < i →
        (bitRun r.1 (fmtBits (strm mill2 k).fmt) r.2).1 + (bitRun r.1 (fmtBits (strm mill2 k).fmt) r.2).2 ≤ o.2.2.1 ∨
        o.2.2.1 + o.2.2.2 ≤ (bitRun r.1 (fmtBits (strm mill2 k).fmt) r.2).1 := by decide +kernel
  have ho : ∀ o ∈ outRuns mill2, inRam {} o.2.2.1 o.2.2.2 = true := by decide +kernel
  refine ⟨?_, rfl, ?_, rfl, rfl, ?_, ?_, by decide, by decide, fun _ => rfl, fun i k r hi hk hr => ?_, ho,
    by decide +kernel⟩
  · revert l; unfold calm; decide +kernel
  · revert l; unfold isOn; decide +kernel
  · revert l; decide +kernel
  · revert l; decide +kernel
  · exact hb i hi k hk r hr

theorem witness_TheMillRunsItsRecipe_runs :
    millReady (milling addU16) 1 onMill ∧ df onMill.desc 6 16 7 ≠ 0 ∧
    recipeBad onMill.desc ((recipeWords (milling addU16) onMill.desc).take 8)
      (millRecipe (recipeIn (milling addU16) onMill.desc ((milling addU16).mill 1)) onMill.desc) = none ∧
    millStates (milling addU16) 0 = recipeIn (milling addU16) onMill.desc ((milling addU16).mill 1) ∧
    millIters onMill.desc = 2 ∧ ∀ i, i < millIters onMill.desc →
      runRecipe onMill.desc i (millVl onMill.desc i) (millRecipe (millStates (milling addU16) 0) onMill.desc).zipIdx
        (inputsIn (milling addU16) onMill.desc i (millStates (milling addU16) i)) = .ok (millStates (milling addU16) (i + 1)) := by
  refine ⟨millReady_milling _ (by simp), by decide, by decide +kernel, rfl, by decide, fun i hi => ran ?_⟩
  revert i; decide +kernel

theorem witness_TheMillRunsItsRecipe_stops :
    (millReady (milling lutOne) 1 onMill ∧ 0 < millIters onMill.desc ∧
      recipeBad onMill.desc ((recipeWords (milling lutOne) onMill.desc).take 8)
        (millRecipe (recipeIn (milling lutOne) onMill.desc ((milling lutOne).mill 1)) onMill.desc) = none ∧
      (match runRecipe onMill.desc 0 (millVl onMill.desc 0)
          (millRecipe (recipeIn (milling lutOne) onMill.desc ((milling lutOne).mill 1)) onMill.desc).zipIdx
          (inputsIn (milling lutOne) onMill.desc 0 (recipeIn (milling lutOne) onMill.desc ((milling lutOne).mill 1))) with
        | .ok _ => false | .error w => w == 0) = true) ∧
    millReady (milling reserved) 1 onMill ∧
    (recipeBad onMill.desc ((recipeWords (milling reserved) onMill.desc).take 8)
      (millRecipe (recipeIn (milling reserved) onMill.desc ((milling reserved).mill 1)) onMill.desc)).isSome = true := by
  refine ⟨⟨millReady_milling _ (by simp), by decide, by decide +kernel, by decide +kernel⟩, millReady_milling _ (by simp),
    by decide +kernel⟩

/-- A Mill descriptor that waits for a block of tile 3 in slot 1, with a timeout. -/
def accWait (t : Nat) : Flight :=
  { flight 2 0 (words [(0, 1 + 2 * 2 ^ 8), (5, 64), (6, 64), (8, 3), (11, 1 + 3 * 2 ^ 19)]) (.running (.mill 0 1 0)) with tmo := t }

theorem witness_TheMillRunsItsRecipe_waits :
    ∀ t ∈ [0, 0xFFFF], let s := withFlights [accWait t] hove
      s.capRuns = true ∧ s.current 2 0 = some (accWait t) ∧ (strm (accWait t).desc 1).kind = 1 ∧
      (strm (accWait t).desc 1).tile = 3 ∧ (s.mill 0).hold = [] ∧ (tileOf s (accWait t) 1).out = [] ∧
      ∀ who ∈ [0, 1], let u := { s with looms := [(3, { out := [⟨none, []⟩], asks := [who] })] }
        u.current 2 0 = some (accWait t) ∧ (tileOf u (accWait t) 1).out = [⟨none, []⟩] ∧
        (tileOf u (accWait t) 1).asks.head? = some who := by decide +kernel

/-- A Sheaf descriptor of 2 rows of 3 halves from t1 to t4, with lengths in t8 where `lenv`. -/
def sheaf2 (op summ lenv : Nat) : List Word :=
  words [(0, op + 3 * 2 ^ 8 + lenv * 2 ^ 12), (4, 1 + 2 ^ 5 + 4 * 2 ^ 8 + 8 * 2 ^ 21 + summ * 2 ^ 26), (5, 2 + 3 * 2 ^ 16), (6, 1)]
def sheafing (d : List Word) : State :=
  { withFlights [flight 3 1 d .queued] hove with mills := [(1, (({} : Mill).setGroupAt true 8 0 [3, 0xFFFFFFFF]))] }

theorem witness_TheSheafReducesItsRows :
    (∀ op ∈ [1, 2, 3, 4], ∀ summ ∈ [0, 1, 2],
      let d := sheaf2 op summ 0
      let f := flight 3 1 d .queued
      let s := sheafing d
      (sheafOpOf 1 op).isSome = true ∧ isOn s 3 1 op f ∧ f.out = [] ∧ s.liveOn 2 1 = none ∧ 0 < (sheafD d).nres ∧
      (∀ n ∈ sheafLens (s.mill 1) (sheafD d), 0 ≤ n ∧ n ≤ ((sheafD d).len : Int)) ∧ (sheafD d).sidx < (sheafD d).nres ∧
      (sheafD d).summ = summ) ∧
    (let d := sheaf2 1 0 1
     let s := sheafing d
     isOn s 3 1 1 (flight 3 1 d .queued) ∧ s.liveOn 2 1 = none ∧ (sheafLens (s.mill 1) (sheafD d))[1]? = some (-1) ∧
      (sheafLens (s.mill 1) (sheafD d))[0]? = some 3) ∧
    (∀ tmo ∈ [0, 1], let f := { flight 3 1 (sheaf2 1 1 0) (.running (.sheaf 0 [(1, 7, 8)])) with tmo := tmo }
     let s := withFlights [f] hove
     s.capRuns = true ∧ s.current 3 1 = some f ∧ (s.fifo 1).length < 16 ∧
      16 ≤ (State.fifo { s with fifos := [(1, List.replicate 16 (0, 0))] } 1).length) := by
  unfold isOn; refine ⟨?_, ?_, ?_⟩ <;> decide +kernel

/-! ### Witnesses: feeds and streams -/

/-- A CONV (or TCONV) of 4 rows of 4 pixels of 3 channels for tile 2, 3 x 3 with padding 1, and the Loom descriptor that it
feeds, of `n` positions. -/
def conv2 (op w0 : Nat) : List Word :=
  words [(0, op + 2 ^ 8 + w0), (4, 0x100), (5, 0x40), (7, 4 + 4 * 2 ^ 16), (8, 3 + 3 * 2 ^ 13 + 3 * 2 ^ 16 + 3 * 2 ^ 20),
    (9, 1 + 2 ^ 6 + 2 ^ 12 + 2 ^ 18 + 2 * 2 ^ 24), (11, 2 * 2 ^ 12)]
def fed2 (n : Nat) : List Word :=
  words [(0, 1 + 2 ^ 14), (4, 3 * 8), (5, 27 + 2 * 2 ^ 16), (6, n), (9, 0x400), (10, 0x500), (11, 0x600), (12, 8)]

/-- The pair has been judged: instance 0 offers windows to tile 2. -/
def pairOf (idx : Nat) (offered : Bool) : Loom :=
  { feed := some { inst := 0, ring := 3, idx := idx, lring := 4, c := 3, offered := offered } }

theorem witness_FeedsPairAndDeliverTheirWindows_conv :
    (∀ op ∈ [1, 2], let f := flight 1 0 (conv2 op 0) .queued
      let s := onEngine 1 0 (conv2 op 0) .queued [9]
      (feedOpOf 0 op).isSome = true ∧ calm s f ∧ f.rem = [] ∧ isOn s 1 0 op f ∧ (harrowD f.desc).role = 0 ∧
      (s.loom (harrowD f.desc).tile).feed = none ∧
      (State.loom { s with looms := [(2, pairOf 8 true)] } (harrowD f.desc).tile).feed = (pairOf 8 true).feed ∧ f.idx ≠ 8 ∧
      rowsLocal s f.desc (harrowD f.desc) ∧ (harrowD f.desc).sin = false) ∧
    (let f := flight 1 0 (conv2 1 (2 ^ 12)) .queued
     let s := { onEngine 1 0 (conv2 1 (2 ^ 12)) .queued [9] with harrows := [(0, { kept := some [⟨[], []⟩] })] }
     calm s f ∧ isOn s 1 0 1 f ∧ (harrowD f.desc).sin = true ∧ (s.harrow 0).kept = some [⟨[], []⟩] ∧
      (s.harrow 0).keptNum = f.cont) ∧
    ∀ b ∈ [false, true], let f := flight 1 0 (conv2 1 (2 ^ 13)) (.running (.harrow 3))
      let s := { onEngine 1 0 (conv2 1 (2 ^ 13)) (.running (.harrow 3)) [] with
        looms := [(2, pairOf 7 b)], harrows := [(0, { rows := List.replicate 4 ⟨[], []⟩ })] }
      calm s f ∧ f.rem = [] ∧ isOn s 1 0 1 f ∧ (s.loom (harrowD f.desc).tile).feed = (pairOf 7 b).feed ∧ (s.harrow 0).err = none ∧
      (s.harrow 0).rows.length = (harrowD f.desc).rows f.kept ∧ (harrowD f.desc).sout = true := by
  unfold calm isOn rowsLocal; refine ⟨?_, ?_, ?_⟩ <;> decide +kernel

/-- A Loom descriptor of tile 2 (ring 4, entry 0) and a Harrow descriptor that head its pairing order. -/
def pairing (n : Nat) : State :=
  { withFlights [{ flight 0 2 (fed2 n) (.running (.loom true 0)) with ring := 4, idx := 0, tmo := 5 },
      flight 1 0 (conv2 1 0) (.running (.harrow 3))] hove with
    looms := [(2, { looms := [⟨4, 0, false⟩], harrows := [⟨0, 3, 7, none⟩] })] }

/-- Halo parts of both Harrows. -/
def haloPart (inst role send recv : Nat) : Flight :=
  { flight 1 inst ((conv2 1 0).set 10 (Word.nat (role * 2 ^ 22)) |>.set 11 (Word.nat (send + recv * 2 ^ 6)))
    (.running (.harrow 0)) with idx := inst, tmo := 9 }
def haloing (role : Nat) : State :=
  { withFlights [haloPart 0 1 2 1, haloPart 1 role 1 2] hove with
    harrows := [(0, { halo := [⟨3, 0, false⟩] }), (1, { halo := [⟨3, 1, false⟩] })] }

/-- A Loom descriptor of tile 2 at a stage, with the places of its tile's pairing order, and another pair's feed. -/
def feeding (st : FlightSt) (tmo : Nat) (looms : List LoomEnt) (harrows : List HwEnt) : State :=
  { withFlights [{ flight 0 2 (fed2 16) st with tmo := tmo }] hove with
    looms := [(2, { pairOf 8 true with looms := looms, harrows := harrows })] }

theorem witness_FeedsPairAndDeliverTheirWindows_faults :
    let f := flight 0 2 (fed2 16) .queued
    let s := feeding .queued 0 [⟨4, 9, false⟩] [⟨0, 4, 1, none⟩, ⟨0, 4, 2, some (0x31, 5, 0)⟩]
    isOn s 0 2 1 f ∧ (loomD f.desc).feed = true ∧
      (s.loom 2).harrows[(s.loom 2).looms.length]? = some ⟨0, 4, 2, some (0x31, 5, 0)⟩ ∧
      (∀ g ∈ s.cap.flights, ¬ ∃ p, g.st = .running p) ∧ ∀ g, (s.loom 2).feed = some g → g.isOf f = false := by
  refine ⟨⟨by decide +kernel, by decide +kernel, by decide⟩, by decide +kernel, by decide +kernel, ?_, ?_⟩
  · simp [feeding, withFlights, flight]
  · intro g h; cases h; decide

theorem witness_FeedsPairAndDeliverTheirWindows_timeouts :
    ∀ tmo ∈ [0, 0xFFFF], ∀ hs ∈ [[⟨0, 4, 1, none⟩], ([⟨0, 4, 1, none⟩, ⟨0, 4, 2, none⟩] : List HwEnt)],
      let f := { flight 0 2 (fed2 16) (.running (.loom true 0)) with tmo := tmo }
      let s := feeding (.running (.loom true 0)) tmo [⟨4, 9, false⟩, ⟨3, 7, false⟩] hs
      s.capRuns = true ∧ s.current 0 2 = some f ∧ (loomD f.desc).feed = true ∧ placeOf (s.loom 2) f = 1 ∧
        (s.loom 2).looms.length = 2 ∧ (s.loom 2).harrows = hs ∧
        (s.loom 2).feed = (pairOf 8 true).feed ∧ ∀ g ∈ (s.loom 2).feed, g.isOf f = false := by decide +kernel

theorem pairing_heads (n : Nat) (h : n ∈ [16, 17]) : feedHeads (pairing n) 2 [] []
    { flight 0 2 (fed2 n) (.running (.loom true 0)) with ring := 4, idx := 0, tmo := 5 }
    (flight 1 0 (conv2 1 0) (.running (.harrow 3))) := by
  refine ⟨?_, ?_, ?_, ?_, ?_, ?_, ?_, ?_, ⟨_, rfl⟩, ⟨_, rfl⟩⟩ <;> revert n <;> decide +kernel

theorem witness_FeedsPairAndDeliverTheirWindows_pairs :
    (∀ n ∈ [16, 17], feedHeads (pairing n) 2 [] []
        { flight 0 2 (fed2 n) (.running (.loom true 0)) with ring := 4, idx := 0, tmo := 5 }
        (flight 1 0 (conv2 1 0) (.running (.harrow 3)))) ∧
    State.feedBad (harrowD (conv2 1 0)) 0 (loomD (fed2 16)) = none ∧
    State.feedBad (harrowD (conv2 1 0)) 0 (loomD (fed2 17)) = some 1 ∧
    (∀ r ∈ [1, 2], haloHeads (haloing r) [] [] (haloPart 0 1 2 1) (haloPart 1 r 1 2)) ∧
    State.haloBad (harrowD (haloPart 0 1 2 1).desc) (harrowD (haloPart 1 2 1 2).desc) = none ∧
    State.haloBad (harrowD (haloPart 0 1 2 1).desc) (harrowD (haloPart 1 1 1 2).desc) = some 0 ∧
    (let s := { haloing 2 with harrows := [(1, { halo := [⟨3, 1, false⟩] })] }
     s.capRuns = true ∧ s.current 1 1 = some (haloPart 1 2 1 2) ∧ (haloPart 1 2 1 2).tmo ≠ 0 ∧
      (s.harrow (1 - 1)).halo.length < (s.harrow 1).halo.length) ∧
    (haloing 2).current 1 0 = some (haloPart 0 1 2 1) ∧
    ((haloing 2).harrow 0).halo.length ≤ ((haloing 2).harrow (1 - 0)).halo.length := by
  refine ⟨pairing_heads, ?_, ?_, ?_, ?_, ?_, ?_, ?_, ?_⟩ <;> first | decide +kernel | (unfold haloHeads; decide +kernel)

/-- A stream descriptor for a SID, its range of 64 bytes at 0x200. -/
def streamDesc (op sid : Nat) : List Word := words [(0, op + 4 * 2 ^ 8), (4, 0x200), (5, 0x200), (6, sid), (7, 64)]
def streaming (op sid : Nat) (st : FlightSt) : State :=
  withFlights [flight 4 2 (streamDesc op sid) st] { hove with sw := { paired := true } }

theorem witness_StreamDescriptorsTakeAndGiveUnits :
    (let f := flight 4 2 (streamDesc 5 8) .queued
     let s := streaming 5 8 .queued
     isOn s 4 2 5 f ∧ flightSid f ∈ [1, 3, 4, 5, 6, 8] ∧ stoppedIdle s 8 ∧ s.streamStopped (flightSid f) = false) ∧
    (let f := flight 4 2 (streamDesc 5 1) .queued
     let s := streaming 5 1 .queued
     isOn s 4 2 5 f ∧ stoppedIdle s 1 ∧ s.units = [] ∧ s.streamStopped (flightSid f) = true ∧
      (s.cap.flights.filter fun g => g.cls == 4 && flightSid g == flightSid f) = [f]) ∧
    (let f := flight 4 2 (streamDesc 5 8) (.running .streamWait)
     let s := { streaming 5 8 (.running .streamWait) with units := [(1, [2]), (8, [3]), (8, [4])] }
     s.units.find? (fun u => u.1 == 8) = some (8, [3]) ∧ s.streamStopped 8 = false ∧ s.waiting 8 = some f ∧ calm s f ∧
      s.viewOut = [] ∧ inRam s.part (wordAt f.desc 5).toNat (min 1 (wordAt f.desc 7).toNat) = true) ∧
    (State.waiting { hove with units := [(8, [3])] } 8 = none ∧ lostField 8 = none ∧ (lostField 1).isSome = true ∧
      State.streamStopped ((hove.setReg LK_CTRL 3).setForce LK_CTRL 3) 1 = false) ∧
    (∀ u, u ∈ hove.units → u.1 ≠ 8) ∧
    ∀ n ∈ [0, 2], let f := flight 4 2 (streamDesc 6 7) .queued
      let s := { (streaming 6 7 .queued).setForce AU_CTRL 1 with audio := { queue := List.replicate n (.block [1]) } }
      let s := s.setForce AU_PLAY 1
      isOn s 4 2 6 f ∧ flightSid f = 7 ∧ s.streamStopped 7 = false ∧ s.audio.queue.length = n ∧ calm s f ∧ f.rem = [] ∧
      QBlock.reading f.ring f.idx ∉ s.audio.queue ∧
      (∀ g ∈ s.cap.flights, g.cls = 4 → (g.inst = 2 ∨ flightSid g = 7) → g = f) ∧
      s.viewOut = [] ∧ inRam s.part (wordAt f.desc 4).toNat (wordAt f.desc 7).toNat = true := by
  unfold calm isOn stoppedIdle; refine ⟨?_, ?_, ?_, ?_, ?_, ?_⟩ <;> decide +kernel

/-! ### Witnesses: Bosun -/

/-- Bosun is about to execute `i` at 0x6000_1000 from the copy `c`, with its stack in the DTCM; `l` stands at 0x6100_0000. -/
def bosun (c : Core) (i : BIns) (l : List Byte := []) : State :=
  { withMem 0x60001000 (leBytes 4 (encodeB i).toNat) hove with
    mem := Store.setRun 0 (Store.setRun 0 [] 0x60001000 (leBytes 4 (encodeB i).toNat)) 0x61000000 l
    bosun := { run := true, core := { c with pc := 0x60001000, w := Store.set 0 c.w 30 0x61008000 } } }
/-- A copy in Crew that may fetch everywhere. -/
def crewCore : Core := { csr := [(0, 1), (0x19, 0)] }
/-- A copy in the delay slot of a taken branch, and one in a mode-change shadow. -/
def slot : Core := { delay := some (0x60000FFC, some 0x60002000) }
def shade : Core := { shadow := 1 }

theorem witness_BosunArithmeticWritesItsResult :
    (∀ c ∈ [({} : Core), crewCore, slot, shade], ∀ i ∈ [BIns.r .div 31 1 2, .r .add 0 0 0, .sh .sari 3 4 31,
        .i .ltui 5 6 0xFFFF, .movh 7 0x8000], bosunAt (bosun c i) i ∧ (arithmetic (bosun c i) i).isSome = true) ∧
    bosunAt (bosun {} .nop) .nop := by
  unfold bosunAt; refine ⟨?_, ?_⟩ <;> decide +kernel

theorem witness_BosunBranchesJumpsAndLoops :
    (∀ i ∈ [BIns.br .beq 1 2 0x8000, .j 0x1FFFFFF, .jal 4, .jr 1, .jalr 2 1], bosunAt (bosun {} i) i) ∧
    ((bosun {} (.jr 1)).bw 1).toNat % 4 = 0 ∧
    (let s := bosun { w := [(1, 2)] } (.jr 1)
     bosunAt s (.jr 1) ∧ (s.bw 1).toNat % 4 ≠ 0 ∧ canEnter s 0x080) ∧
    (∀ i ∈ [BIns.lp true 1 4, .lpi false 0 4],
      let s := bosun {} i
      let le : Word := 0x60001014
      bosunAt s i ∧ ((loopOf s i).map fun x => x.2.2) = some le ∧ s.damaged le.toNat 4 = [] ∧
      s.damaged (le - 4).toNat 4 = []) ∧
    (let s := bosun {} (.lpi false 0 4)
     s.bsv (BS_LC 0) = 0 ∧ s.bsv (BS_LC 1) = 0 ∧ spaceOf s.part 0x60001014 = spaceOf s.part s.core.pc.toNat ∧
      decodeB (s.peekWord 0x60001014) = none ∧ decodeB (s.peekWord 0x60001010) = none) ∧
    (let s := bosun { csr := [(0x10, 9)] } (.lpi false 3 4)
     bosunAt s (.lpi false 3 4) ∧ s.bsv (BS_LC (b2n false)) ≠ 0 ∧ canEnter s 0x080) := by
  unfold bosunAt canEnter; refine ⟨?_, ?_, ?_, ?_, ?_, ?_⟩ <;> decide +kernel

/-- The checks of R608 all pass where no loop runs and no instruction stands at the body's end. -/
theorem loopFault_none (s : State) (le : Word) (a : s.bsv (BS_LC 0) = 0) (b : s.bsv (BS_LC 1) = 0)
    (c : spaceOf s.part le.toNat = spaceOf s.part s.core.pc.toNat) (d : decodeB (s.peekWord le.toNat) = none)
    (e : decodeB (s.peekWord (le - 4).toNat) = none) : loopFault s false le = none := by
  have a' : s.bsv (BS_LC (b2n false)) = 0 := a
  simp only [loopFault, a', b, c, d, e]
  simp

theorem loopFault_used (s : State) (le : Word) (a : s.bsv (BS_LC 0) ≠ 0) : loopFault s false le = some 1 := by
  have a' : s.bsv (BS_LC (b2n false)) ≠ 0 := a
  simp only [loopFault, if_pos a']

theorem witness_BosunBranchesJumpsAndLoops_form :
    loopFault (bosun {} (.lpi false 0 4)) false 0x60001014 = none ∧
    loopFault (bosun { csr := [(0x10, 9)] } (.lpi false 3 4)) false 0x60001014 = some 1 :=
  ⟨loopFault_none _ _ (by decide +kernel) (by decide +kernel) (by decide +kernel) (by decide +kernel) (by decide +kernel),
    loopFault_used _ _ (by decide +kernel)⟩

theorem witness_BosunLoadsStoresAndCsrAccesses_memory :
    (let i := BIns.ld .ldw 3 1 0xFFFC
     let s := bosun { w := [(1, 0x61000004)] } i [1, 2, 3, 4]
     bosunAt s i ∧ Memory.wf s.mem = true ∧ ea s 1 0xFFFC = 0x61000000 ∧
      s.dataBars (ea s 1 0xFFFC) LdOp.ldw.size false = none ∧ s.bosun.stores = [] ∧
      spaceOf s.part (ea s 1 0xFFFC) = .dtcm ∧ s.damaged (ea s 1 0xFFFC) LdOp.ldw.size = []) ∧
    (let i := BIns.ld .ldh 3 1 0
     let s := bosun { w := [(1, 0x50000000)] } i
     bosunAt s i ∧ s.dataBars (ea s 1 0) LdOp.ldh.size false = none ∧ State.inCn (ea s 1 0) = true ∧
      s.rbit CN_CTRL 0 = false ∧ s.rbit CN_CTRL 1 = false) ∧
    (let i := BIns.ld .ldw 3 1 2
     let s := bosun {} i
     bosunAt s i ∧ ea s 1 2 % LdOp.ldw.size ≠ 0 ∧ s.dataBars (ea s 1 2) LdOp.ldw.size false = some (5, 0) ∧ canEnter s 0x080) ∧
    (let i := BIns.st .stb 3 1 0
     let s := bosun { w := [(1, 0x61000005)] } i
     bosunAt s i ∧ s.dataBars (ea s 1 0) StOp.stb.size true = none ∧ spaceOf s.part (ea s 1 0) = .dtcm ∧
      s.damaged (ea s 1 0) StOp.stb.size = [] ∧ s.inject = none) ∧
    (let i := BIns.st .stw 3 1 0x100
     let s := bosun {} i
     bosunAt s i ∧ s.dataBars (ea s 1 0x100) StOp.stw.size true = none ∧ spaceOf s.part (ea s 1 0x100) = .pantry ∧
      s.bosun.stores.length < 4) ∧
    (let i := BIns.st .stw 3 1 0x100
     let s := bosun crewCore i
     bosunAt s i ∧ s.dataBars (ea s 1 0x100) StOp.stw.size true = some (6, 2) ∧ canEnter s 0x080) ∧
    (let s := bosun {} .fence
     bosunAt s .fence ∧ s.bosun.stores = [] ∧ inRam s.part 8 4 = true ∧ s.damaged 8 4 = [] ∧
      bosunAt { s with bosun := { s.bosun with stores := [(8, leBytes 4 7)] } } .fence) := by
  unfold bosunAt canEnter; refine ⟨?_, ?_, ?_, ?_, ?_, ?_, ?_⟩ <;> decide +kernel

theorem witness_BosunLoadsStoresAndCsrAccesses_csrs :
    (∀ x ∈ [(COp.csrrw, (1 : Reg), (0x025 : Nat)), (.csrrs, 0, 0), (.csrrc, 2, 8)],
      let i := BIns.csr x.1 3 x.2.1 (BitVec.ofNat 12 x.2.2)
      let s := bosun {} i
      bosunAt s i ∧ plainBs x.2.2 ∧ bsKnown x.2.2 = true ∧ s.crew = false) ∧
    (csrNew .csrrs 0 1 1 = none ∧ csrNew .csrrw 1 1 2 = some 2 ∧ bsRo 0x025 = false ∧ bsRo 8 = false ∧
      bsCrewRead 0x018 = true ∧ (bosun crewCore .nop).crew = true) ∧
    (let i := BIns.csr .csrrw 3 1 0x02F
     bosunAt (bosun {} i) i ∧ canEnter (bosun {} i) 0x080 ∧ bsKnown 0x02F = false ∧ bsRo 2 = true) ∧
    (let i := BIns.csr .csrrw 3 1 4
     bosunAt (bosun crewCore i) i ∧ canEnter (bosun crewCore i) 0x080 ∧ bsKnown 4 = true ∧ bsRo 4 = false ∧
      (bsCrewRead 4 = false ∨ bsCrewWrite 4 = false)) ∧
    (let s := { hove with bosun := { stores := [(8, leBytes 4 7), (12, [1])] } }
     s.bosun.stores = (8, leBytes 4 7) :: [(12, [1])] ∧ inRam s.part 8 4 = true ∧ s.damaged 8 4 = [] ∧
      Memory.wf s.mem = true) := by
  unfold bosunAt canEnter plainBs; refine ⟨?_, ?_, ?_, ?_, ?_⟩ <;> decide +kernel

/-- Bosun waits. -/
def waitingOn (c : Core) (w : BosunWait) : State :=
  { bosun c .nop with bosun := { (bosun c .nop).bosun with wait := some w } }

theorem witness_BosunReachesTheCapstan :
    (∀ i ∈ [BIns.post 1 2 3, .belladd 1 2, .bellset 1 2, .bellrd 1 2, .tack 1, .hsig 1, .waitge 1 2 3, .waiteq 1 2 3,
      .sumrd 1 2 true false, .sumrd 1 2 false true, .wfi], bosunAt (bosun {} i) i ∧ (bosun {} i).bosun.stores = []) ∧
    (let s := bosun {} (.tack 1)
     s.crew = false ∧ s.draining = false ∧ s.held = false ∧ ringsWf s ∧ (s.setRf CAP_EPOCH 9 1 1).held = true) ∧
    (bosunAt (bosun crewCore (.tack 1)) (.tack 1) ∧ (bosun crewCore (.tack 1)).crew = true ∧
      canEnter (bosun crewCore (.tack 1)) 0x080) ∧
    (State.bellHolds ((bosun {} .nop).bell 0) 0 false = true ∧ State.bellHolds ((bosun {} .nop).bell 0) 1 true = false) ∧
    ((bosun {} .nop).fifo 1 = [] ∧ State.fifo { bosun {} .nop with fifos := [(1, [(5, 6)])] } 1 = [(5, 6)]) ∧
    ((bosun {} .wfi).ienabled = 0 ∧
      State.ienabled { bosun { csr := [(5, 1)] } .wfi with
        bosun := { (bosun { csr := [(5, 1)] } .wfi).bosun with latHalt := true } } ≠ 0) ∧
    (∀ k ∈ [WaitKind.ge, .eq, .wfi, .sum], ∀ b ∈ [false, true],
      let w : BosunWait := { kind := k, sel := 1, rd := 31, rd2 := 1, sat := b }
      waiting (waitingOn {} w) w ∧ w.rd < 32 ∧ w.rd2 < 32 ∧ (waitingOn {} w).bsf BS_WAIT_TMO 0 16 = 0 ∧
        (waitingOn {} w).ienabled = 0 ∧ (waitingOn {} w).fifo w.sel = [] ∧
        waiting (waitingOn { csr := [(BS_WAIT_TMO, 3)] } w) w ∧
        (waitingOn { csr := [(BS_WAIT_TMO, 3)] } w).bsf BS_WAIT_TMO 0 16 ≠ 0) ∧ hove.bosun.wait = none := by
  unfold bosunAt canEnter ringsWf waiting; refine ⟨?_, ?_, ?_, ?_, ?_, ?_, ?_, ?_⟩ <;> decide +kernel

/-- An interrupt is pending and enabled; a CHECKPOINT is due. -/
def pendingInt : State :=
  { bosun { csr := [(0, 2), (5, 1)] } .nop with
    bosun := { (bosun { csr := [(0, 2), (5, 1)] } .nop).bosun with latHalt := true } }
def checkpointDue : State := { bosun {} .nop with bosun := { (bosun {} .nop).bosun with ckpt := true } }

theorem witness_BosunExceptionsAndReturns :
    (∀ i ∈ [BIns.syscall 5, .brk 0xFFFF, .mcrew, .eret], bosunAt (bosun {} i) i ∧ canEnter (bosun {} i) 0x080 ∧
      (bosun {} i).crew = false ∧ bosunAt (bosun crewCore i) i ∧ (bosun crewCore i).crew = true ∧
      canEnter (bosun crewCore i) 0x080) ∧
    (let s := bosun { csr := [(9, 0x61009000)] } (.syscall 1)
     bosunAt s (.syscall 1) ∧ s.esv = false ∧ s.frameOk (s.bw 30).toNat = false ∧
      spaceOf s.part (s.bsv BS_EVEC).toNat = .itcm) ∧
    ((bosun { csr := [(0, 128)] } .eret).esv = true ∧ bosunAt (bosun { csr := [(0, 128)] } .eret) .eret ∧
      (bosun {} .eret).frameOk (((bosun {} .eret).bw 30).toNat + 16) = true ∧
      (bosun {} .eret).damaged ((bosun {} .eret).bw 30).toNat 8 = []) ∧
    (let s := { bosun {} .nop with mem := [] }
     fetches s ∧ canEnter s 0x080 ∧ s.fetchBars s.core.pc = none ∧ decodeB (s.peekWord s.core.pc.toNat) = none) ∧
    (let s := bosun { csr := [(0, 1)] } .nop
     fetches s ∧ canEnter s 0x080 ∧ s.fetchBars s.core.pc = some (1, 0)) ∧
    (pendingInt.bosun.run = true ∧ pendingInt.capRuns = true ∧ pendingInt.bosun.ckpt = false ∧
      pendingInt.interrupts = true ∧ pendingInt.resyncDue = false ∧ canEnter pendingInt 0x100 ∧ pendingInt.bosun.wait = none ∧
      (bosun {} .nop).interrupts = false) ∧
    (checkpointDue.bosun.run = true ∧ checkpointDue.capRuns = true ∧ checkpointDue.bosun.ckpt = true ∧
      canEnter checkpointDue 0x180) := by
  unfold bosunAt canEnter fetches; refine ⟨?_, ?_, ?_, ?_, ?_, ?_, ?_⟩ <;> decide +kernel

theorem witness_SlotBarredInstructionsTrap :
    (∀ c ∈ [slot, shade], let i := BIns.waiteq 1 2 3
      let s := bosun c i
      issues s ∧ decodeB (s.peekWord s.core.pc.toNat) = some i ∧ i.barred = true ∧ (s.core.delay ≠ none ∨ s.core.shadow ≠ 0)) ∧
    ((bosun slot .nop).core.delay ≠ none ∧ (bosun slot .nop).bosun.trail = none) ∧
    (let i := BIns.jalr 2 1
     let s := bosun { w := [(1, 2)] } i
     issues s ∧ decodeB (s.peekWord s.core.pc.toNat) = some i ∧ s.core.delay = none ∧ s.core.shadow = 0 ∧
      (s.bw 1).toNat % 4 ≠ 0) ∧
    (let s := bosun {} (.jalr 1 1)
     issues s ∧ s.peekWord s.core.pc.toNat = encodeB (.jalr 1 1)) := by
  unfold issues canEnter fetches; refine ⟨?_, ?_, ?_, ?_⟩ <;> decide +kernel

theorem witness_FlushEmptiesTheSummaryFifo :
    let f := flight 3 0 (sheaf2 1 1 0) (.running (.sheaf 0 [(0, 7, 8)]))
    (withFlights [f] hove).capRuns = true ∧ (withFlights [f] hove).current 3 0 = some f := by decide +kernel

/-- The copies differ in w1. -/
def diverged : State := { hove with bosun := { trail := some { w := [(1, 1)] } } }

theorem witness_SweepsCompareTheCopies :
    (hove.counterRuns = true ∧ hove.rbit (bsAddr BS_LS_STAT) 8 = false ∧ signed hove.core = signed (trailing hove)) ∧
    (diverged.counterRuns = true ∧ (base .reefed).counterRuns = false ∧ signed diverged.core ≠ signed (trailing diverged) ∧
      diverged.dkbit DK_LATENT_POLICY 0 = false ∧
      (diverged.setDk DK_LATENT_POLICY 1).dkbit DK_LATENT_POLICY 0 = true ∧ diverged.bosun.stores = []) ∧
    (let s := diverged.setRf (bsAddr BS_LS_STAT) 8 1 1
     s.counterRuns = true ∧ s.rbit (bsAddr BS_LS_STAT) 8 = true ∧ s.bosun.run = false ∧ s.esv = false ∧
      s.interruptible = true ∧ State.esv { s with bosun := { core := { csr := [(0, 128)] } } } = true) ∧
    (let i := BIns.csr .csrrw 2 1 0x083
     let s := bosun { w := [(1, 0x8000001F)] } i
     bosunAt s i ∧ s.crew = false ∧ bit (s.bw 1) 31 = true ∧ fld (s.bw 1) 0 5 ≠ 0) := by
  unfold bosunAt; refine ⟨?_, ?_, ?_, ?_⟩ <;> decide +kernel

/-! ### Witnesses: the I/O dies -/

def framing (f : Frame) : State := { (hove.setForce LK_CTRL 0x3).setReg LK_CTRL 3 with lk := { frame := some f } }
def aFrame (dec : Bool) (live : Option Bool) : Frame :=
  { t0 := 5, e := 3, es := 1, gain := 0, etrim := false, dec := dec, strobe := false, live := live }

theorem witness_ImagerFramesAndTheirUnits :
    ((hove.setForce LK_CTRL 1).fbit LK_CTRL 0 = true ∧ (hove.setForce LK_CTRL 1).lk.frame = none ∧
      (hove.setForce LK_CTRL 1).dev.mode = .hoveTo) ∧
    ({ (base .reefed).setForce LK_CTRL 5 with lk := {} } : State).fbit LK_CTRL 2 = true ∧
    (hove.setForce LK_CTRL 0).fbit LK_CTRL 0 = false ∧
    (∀ live ∈ [none, some false, some true], let s := framing (aFrame true live)
     s.lk.frame = some (aFrame true live) ∧ s.rbit SW_FWD 1 = false ∧ s.fbit LK_CTRL 1 = true ∧
      s.damaged 0x50010000 0x20000 = [] ∧
      s.rbit CN_CTRL 1 = false ∧ (s.setReg CN_CTRL 2).rbit CN_CTRL 1 = true ∧ s.fbit LK_CTRL 9 = false ∧
      (s.setForce LK_CTRL 0x203).fbit LK_CTRL 9 = true ∧ s.lk.waiting = none ∧
      ({ s.lk with waiting := some ⟨100, 8, 1⟩ } : Lookout).waiting = some ⟨100, 8, 1⟩) := by decide +kernel

/-- The receiver runs; VC 1 is enabled for RAW10 lines of 4 pixels, two of them; a frame of VC `vc` is open. -/
def receiving (l : List (Nat × Option CsiFrame)) : State :=
  { (({ hove with dev := { hove.dev with straps := { phy := true } } }.setReg CSI_CTRL 1).setForce (CSI_VC 1) (Word.nat (1 + 1 * 2 + 4 * 2 ^ 5 + 2 * 2 ^ 16))).setForce (CSI_VC 0) 1 with
    csi := l }

theorem witness_CameraLinesBecomeUnits :
    (hears (receiving []) ∧ vcEnabled (receiving []) 1 ∧ (receiving []).csiOpen 1 = none ∧
      (receiving []).rbit SW_FWD 4 = false ∧
      (receiving []).rbit SW_FWD 3 = false ∧ vcEnabled (receiving []) 0) ∧
    (let s := receiving [(1, some ⟨[7], 1, 1, 9, true⟩)]
     hears s ∧ s.csiOpen 1 = some ⟨[7], 1, 1, 9, true⟩ ∧ csiType (s.ff (CSI_VC 1) 1 2) = 0x2B ∧ 1 < s.ff (CSI_VC 1) 16 10) ∧
    (¬ vcEnabled (receiving []) 2 ∧ csiType ((receiving []).ff (CSI_VC 1) 1 2) ≠ 0x30) ∧
    (let s := receiving [(0, some {})]
     hears s ∧ s.capRuns = true ∧ bit (0 : Word) 0 = false ∧ bit (0 : Word) 31 = false ∧ s.csiOpen 0 = some {} ∧ s.csiOpen 1 = none ∧
      s.rbit SW_FWD 3 = false ∧ s.cap.flights = []) := by
  unfold hears vcEnabled; decide +kernel

/-- Audio runs at 48 ticks a block, with DAC, GTRIM and captures on; `t` ticks of the block are done. -/
def playing (t : Nat) (a : Audio) : State :=
  { (((((hove.setForce AU_CTRL 1).setForce AU_RATE (Word.nat (48 * 2 ^ 16))).setForce AU_PLAY 1).setForce AU_CAP5 0x81).setForce
      AU_CAP6 6).setForce AU_GTRIM (Word.nat (1 + 10 * 2 + 60 * 2 ^ 8 + 10 * 2 ^ 16 + 3 * 2 ^ 24)) with
    audio := { a with ticks := t } }

theorem witness_AudioTicksAndBlocks :
    (ticking (playing 47 { playing := List.replicate 4 9 }) ∧ playBytes (playing 0 {}) = 4 ∧ ¬ ticking (playing 48 {}) ∧
      (∀ q ∈ [QBlock.block (List.replicate 4 9), .block [9], .reading 3 7], ticking (playing 0 { queue := [q] })) ∧
      ticking (playing 0 { played := true }) ∧
      ∀ b ∈ [1, 0x0F], ((playing 0 {}).setForce AU_I2S (Word.nat b)).fbit AU_I2S 0 = true ∧
        ticking ((playing 0 {}).setForce AU_I2S (Word.nat b))) ∧
    ((playing 0 {}).fbit AU_I2S 0 = false ∧ ((playing 0 {}).setForce AU_I2S 1).fbit AU_I2S 0 = true ∧
      (playing 0 {}).dev.mode = .hoveTo) ∧
    (let s := playing 48 {}
     s.fbit AU_CTRL 0 = true ∧ s.audio.ticks = s.ff AU_RATE 16 13 ∧ s.audio.ticks ≠ 0 ∧ s.rbit SW_FWD 5 = false ∧
      s.rbit SW_FWD 6 = false ∧ s.dieUp = true ∧ s.ff AU_CAP5 0 8 ≠ 0 ∧ s.auStopped 6 = false ∧
      s.fbit AU_GTRIM 0 = true ∧ s.fbit AU_CAP6 0 = false ∧ s.fbit AU_CAP6 1 = true ∧ s.fbit AU_CAP6 2 = true) ∧
    ((playing 0 {}).audio.ticks = 0 ∧ hove.fbit AU_CTRL 0 = false) := by
  unfold ticking; decide +kernel

/-- A transfer runs on I²C controller 1. -/
def transferring : State := { hove with i2c := [(1, some ⟨2, 8, 0x50, [1, 2]⟩)] }
/-- The QSPI reader may write the Granary through entry 0. -/
def qrdRegions : State :=
  (((hove.setForce (RG_BASE 0) 0x10000000).setForce (RG_LIMIT 0) 0x10FFFFFF).setForce (RG_ATTR 0) 0x1007).setReg
    MU_QRD_DST 0x10000000

theorem witness_SerialBusesTransferBytes :
    (drives hove 1 ∧ reached hove 1 ∧ drives hove 0 ∧ hove.i2cRun 1 = none ∧ reached (base .becalmed) 1 ∧
      ¬ drives (base .becalmed) 1 ∧ ¬ reached (base .reefed) 1 ∧ drives (base .reefed) 0 ∧ bit (0x80008800 : Word) 31 = true ∧
      fld (0x80008800 : Word) 8 4 ≤ 8 ∧ fld (0x80008800 : Word) 12 4 ≤ 8 ∧ 8 < fld (0x80000900 : Word) 8 4) ∧
    (transferring.i2cRun 1 = some ⟨2, 8, 0x50, [1, 2]⟩ ∧ (true && true && decide (2 ≤ 1) && (decide (8 = 0) || true)) = false ∧ 8 ≤ 8) ∧
    (hove.rbit MU_QRD_STAT 0 = false ∧ (base .reefed).dieUp = false ∧ hove.dieUp = true ∧
      fld (0x80000000 : Word) 0 16 = 0 ∧ qrdRegion hove 0x80000001 = none) ∧
    (qrdRegion qrdRegions 0x80000001 = some 0 ∧ bit (0x80000001 : Word) 21 = false ∧
      (qrdRegions.reg MU_QRD_FOFF).toNat + 4096 * 1 ≤ 2 ^ 24 ∧
      2 ^ 24 < ((qrdRegions.setReg MU_QRD_FOFF 0xFFF000).reg MU_QRD_FOFF).toNat + 4096 * 2) ∧
    (qrdRegions.dieUp = true ∧ (hove.setRf MU_QRD_STAT 0 1 1).rbit MU_QRD_STAT 0 = true ∧ spaceOf hove.part 0x10000000 ≠ .remote ∧
      inRam hove.part 0x10000000 (4096 * 0xFFF) = true ∧ hove.ecc = [] ∧ Memory.wf hove.mem = true) := by
  unfold reached drives; refine ⟨?_, ?_, ?_, ?_, ?_⟩ <;> decide +kernel

/-- The Crowsnest's memory with a block that passes for the keyword network, written sparsely. -/
def block : List (Nat × Byte) :=
  [(0x50000000, 1), (0x50000002, 0x57), (0x50000003, 0x4B)] ++ kwRecords.map fun r => (0x50000000 + r.1 + 2, (1 : Byte))
/-- Both networks are on, with an inference of `g` due. -/
def inferring (g : Bool) (hold : Nat) : State :=
  let n : Net := { due := [[]], hold := hold }
  { (hove.setReg CN_CTRL 3).setReg CN_KMASK 0xFFFFF with cn := if g then { gs := n } else { kw := n } }

theorem witness_TheCrowsnestListensAndWatches :
    (∀ g ∈ [false, true], hove.answers = true ∧ cnLives hove ∧ hove.rbit CN_CTRL (b2n g) = false ∧
      netOf hove g = {} ∧ ∀ h, hove.damaged (blockAt h).1 (blockAt h).2 = []) ∧
    (blockOk true (hove.peek (blockAt true).1 (blockAt true).2) = false ∧ Memory.wf block = true ∧
      blockOk false (State.peek { hove with mem := block } (blockAt false).1 (blockAt false).2) = true) ∧
    (let s := (hove.setReg CN_CTRL 5).setForce AU_CN 1
     cnLives s ∧ s.fbit AU_CN 0 = true ∧ s.rbit CN_CTRL 0 = true ∧ s.damaged 0x50010000 0x20000 = [] ∧
      (List.replicate 160 ((0, 0, 0) : Word × Word × Word)).length = 160 ∧
      s.rbit CN_CTRL 2 = true ∧ (hove.setReg CN_CTRL 1).rbit CN_CTRL 2 = false) ∧
    (cnLives hove ∧ hove.cn.fifo = [] ∧
      ({ hove with cn := { fifo := [⟨1, 0, 5, 9⟩] } } : State).cn.fifo = [⟨1, 0, 5, 9⟩] ∧ ¬ cnLives (base .muster)) ∧
    (∀ g ∈ [false, true], ∀ h ∈ [0, 3], let s := inferring g h
      cnLives s ∧ (g = true → s.cn.kw.due = []) ∧ (netOf s g).due = [[]] ∧ s.ecc = [] ∧ s.dkbit DK_CTRL 0 = false ∧
      (netOf s g).hold = h ∧ s.deck.cnFifo.length < 8 ∧ s.cn.fifo.length < 8 ∧ s.rbit CN_KMASK 19 = true) ∧
    (0x50000000 ≤ 0x50002184 ∧ 0x50002184 < (blockAt false).1 + (blockAt false).2) := by
  unfold cnLives; refine ⟨?_, ?_, ?_, ?_, ?_, ?_⟩ <;> decide +kernel

/-! ### Witnesses: Sweade -/

/-- The port is on and in a state, with a role strap. -/
def port (st : LinkSt) (role : BitVec 2 := 3) : State :=
  { hove.setReg SW_CTRL 1 with dev := { hove.dev with straps := { role := role, phy := true } }, sw := { st := st } }
/-- An ACTIVE port that is LINKED and idle. -/
def linked : State := { port .active with sw := { st := .active, linked := true } }
/-- A descriptor that waits for the response to its last remote write, and that write. -/
def remWrite : Flight := flight 4 0 (copy2 0) (.running (.remoteWrite 0 9 77))
def remOp : RemOp :=
  { owner := .flight 3 7 1, write := true, addr := 0x70000000, data := [1], len := 1, runAddr := 0x70000000, runLen := 1
    num := 4097, sent := true }
def writing : State := { withFlights [remWrite] linked with sw := { linked.sw with ops := [remOp] } }

theorem widest_of (m : List Nat) (c : Nat)
    (h : c < 16 ∧ ∀ k, k < 16 → m.getD k 0 ≤ m.getD c 0 ∧ (k < c → m.getD k 0 < m.getD c 0)) : widest m c := h

theorem witness_SweadeTrainsRecoversAndLeaves :
    (∀ st ∈ [LinkSt.detect, .equalise, .align, .config, .active], portIn (port st) st) ∧
    ((port .equalise).rbit SW_LTRIM 0 = true ∧ (port .equalise).rbit SW_LTRIM 1 = false ∧
      ((port .equalise).setReg SW_LTRIM 0).rbit SW_LTRIM 0 = false) ∧
    (roleRule 3 2 1 2 = some true ∧ roleRule 3 2 1 1 = none ∧ roleRule 1 0 0 0 = none ∧ roleRule 2 0 0 0 = some true) ∧
    widest [3, 9, 9, 2] 1 ∧ widest [] 0 ∧
    (¬ portIn (port .align) .detect ∧ ¬ portIn { port .detect with dev := hove.dev } .detect ∧ (port .config).sw.linked = false) ∧
    ((port .active).dev.vinOk = true ∧ (port .active).reg SW_CTRL = 1 ∧ (port .active).rf SW_CFG 0 8 ≠ 0 ∧
      ((port .active).setRf SW_CFG 0 8 0).rf SW_CFG 0 8 = 0) ∧
    (linked.sw.linked = true ∧ linkQuiet linked remWrite ∧ portIn linked .active) ∧
    (writing.sw.linked = true ∧ linkQuiet { writing with sw := { writing.sw with st := .detect } } remWrite ∧
      ({ writing.sw with st := .detect } : Sweade).st ≠ .active ∧ writing.sw.ops = [remOp] ∧ remWrite ∈ writing.cap.flights) ∧
    (portIn linked .active ∧ linked.rbit SW_LTRIM 0 = true ∧ linked.rbit SW_LTRIM 1 = false) := by
  have hq : ∀ o ∈ writing.sw.ops, o.answer = none ∧ ∃ r, o.owner = .flight remWrite.ring remWrite.idx r := by
    intro o h
    have : o = remOp := by simpa [writing] using h
    exact ⟨by rw [this]; rfl, 1, by rw [this]; rfl⟩
  refine ⟨?_, ?_, ?_, widest_of _ _ (by decide), widest_of _ _ (by decide), ?_, ?_,
    ⟨rfl, ⟨rfl, rfl, rfl, ?_, ?_, ?_, fun o h => nomatch h⟩, ?_⟩,
    ⟨rfl, ⟨rfl, rfl, rfl, ?_, ?_, ?_, hq⟩, ?_, rfl, ?_⟩, ?_⟩ <;> (try unfold portIn portOn) <;> decide +kernel

/-- Words 2 to 7 of a CONFIG that pairs with an own one of the same words. -/
def config : List Word := [0x02FF4200, 0x0000000C, 77, 0x1234, 0, 0]
/-- A port in ACTIVE whose own CONFIG is up to date. -/
def settled (x : Sweade) : State :=
  { port .active with sw := { x with st := .active, linked := true, own := State.ownConfig { port .active with sw := x } } }
/-- A flit in the replay buffer. -/
def sentFlit (seq sends : Nat) : TxFlit := { typ := 8, seq := seq, hdr := [0, 0, 0, 0], sends := sends }

theorem witness_SweadeFlitsAndTheirEffects_requests :
    (portIn linked .active ∧ linked.sw.rxSeq = 0 ∧ linked.ecc = [] ∧ linked.inject = none ∧ Memory.wf linked.mem = true ∧
      linked.capRuns = true ∧ linked.bindRuns = false) ∧
    ([1, 2, 3].length = fld (3 : Word) 0 8 ∧ refusal linked 0 3 true = 6 ∧
      refusal (qrdRegions.setRf (RG_ATTR 0) 0 1 1) 0 3 true = 6 ∧
      refusal (hove.setForce (RG_BASE 0) 0x10000000 |>.setForce (RG_LIMIT 0) 0x10FFFFFF |>.setForce (RG_ATTR 0) 0x27) 0 3 true = 0 ∧
      refusal (base .reefed) 0 3 true = 4 ∧ refusal linked 0xFFFFFFFF 3 false = 5) ∧
    (fld (0x02000000 : Word) 24 2 = 2 ∧ (base .reefed).capRuns = false) ∧
    (linked.sw.inbox = [] ∧ linked.waiting 8 = none ∧
      State.waiting (withFlights [flight 4 0 (streamDesc 5 8) (.running .streamWait)] linked) 8 =
        some (flight 4 0 (streamDesc 5 8) (.running .streamWait)) ∧
      bit (0x3000 : Word) 12 = true ∧ bit (0x3000 : Word) 13 = true) ∧
    (let g := flight 4 0 (streamDesc 5 8) (.running (.streamRecv 0 false))
     let m : Inbound := ⟨1, 5, 9, [1, 2], some (g.ring, g.idx, false)⟩
     bit (0x2103 : Word) 12 = false ∧ bit (0x2103 : Word) 13 = true ∧ m.sid = fld (0x2103 : Word) 8 4 ∧ flightSid g = 8 ∧
      inRam hove.part (wordAt g.desc 5).toNat
        (min (msgUnit 1 5 9 false (m.bytes ++ [3])).length (wordAt g.desc 7).toNat) = true) ∧
    (linked.sw.rxSeq ≠ 1 ∧ lastWrite writing remOp remWrite 1 0 9 77 ∧ remOp.num % 4096 = fld (0x100 : Word) 8 12 ∧
      portIn writing .active ∧ writing.rf SW_CFG 8 16 = 0 ∧ (writing.setRf SW_CFG 8 16 5).rf SW_CFG 8 16 ≠ 0) := by
  refine ⟨?_, ?_, ?_, ?_, ?_, ?_⟩ <;> (try unfold portIn portOn) <;> (try unfold lastWrite) <;> (try unfold refusal) <;> decide +kernel

/-- A port in CONFIG whose session a HOLD kept; a flit waits in its replay buffer. -/
def keptSession : State :=
  { port .config with sw := { st := .config, linked := true, peer := config, replay := [sentFlit 4095 1] } }
/-- The two ports' CONFIG words, with one image key, and ones that pair with no port. -/
def keyed (k : Nat) : List Word := [0x01014200, 0x0000000C, 77, Word.nat k, 0, 0]

theorem witness_SweadeFlitsAndTheirEffects_sessions :
    (portIn (port .config) .config ∧ (port .config).sw.linked = false ∧ (port .config).sw.paired = false) ∧
    (portIn keptSession .config ∧ keptSession.sw.linked = true ∧ linkQuiet keptSession remWrite ∧
      fld (wordAt (config.set 1 0x10C) 1) 8 8 ≠ fld (wordAt keptSession.sw.peer 1) 8 8) ∧
    (keptSession.sw.paired = false ∧ fld (wordAt config 1) 8 8 = fld (wordAt keptSession.sw.peer 1) 8 8 ∧
      keptSession.sw.replay = [] ++ [sentFlit 4095 1] ∧ (sentFlit 4095 1).seq = fld (wordAt (config.set 4 0xFFF) 4) 0 12) ∧
    (keptSession.sw.replay = [sentFlit 4095 1] ++ [] ∧ keptSession.sw.txSeq = fld (wordAt config 4) 0 12 ∧
      (sentFlit 4095 1).seq ≠ fld (wordAt config 4) 0 12) ∧
    (keptSession.sw.linked = true ∧ pairs (keyed 5) (keyed 5) ∧ ¬ pairs (keyed 5) (keyed 6) ∧ ¬ pairs [] []) := by
  refine ⟨?_, ⟨?_, rfl, ⟨rfl, rfl, rfl, ?_, ?_, ?_, fun o h => nomatch h⟩, ?_⟩, ?_, ?_, ?_⟩ <;>
    (try unfold portIn portOn) <;> (try unfold pairs) <;> decide +kernel

theorem witness_SweadeFlitsAndTheirEffects_slots :
    (∀ st ∈ [LinkSt.detect, .equalise, .align], portOn (port st) ∧ (port st).sw.st = st ∧ st ≠ .active ∧ st ≠ .config) ∧
    (let s := { port .config with sw := { st := .config, roleB := true } }
     portOn s ∧ s.sw.st = .config ∧ s.sw.roleB = true) ∧
    (let s := { port .equalise with sw := { st := .equalise, eqDone := true } }
     portOn s ∧ s.sw.eqDone = true) ∧
    (portIn (port .config) .config ∧ (port .config).sw.roleB = false ∧ (port .config).sw.paired = false) ∧
    ¬ portOn (base .reefed) ∧
    (portIn linked .active ∧ due linked ∧ linked.sw.paired = false) ∧
    (∀ x ∈ [({} : Sweade), { replay := [sentFlit 0 1, sentFlit 1 15], next := 1 }, { replay := [sentFlit 0 16] },
        { rspQ := [sentFlit 0 0] }, { paired := true, ops := [{ remOp with sent := false }] }],
      portIn (settled x) .active ∧ ¬ due (settled x)) ∧
    ((settled {}).sw.replay[(settled {}).sw.next]? = none ∧ (settled {}).sw.paired = false ∧ (settled {}).sw.rspQ = []) ∧
    (let s := settled { replay := [sentFlit 0 1, sentFlit 1 15], next := 1 }
     s.sw.replay[s.sw.next]? = some (sentFlit 1 15) ∧ (sentFlit 1 15).sends < 16) ∧
    (let s := settled { replay := [sentFlit 0 16] }
     s.sw.replay[s.sw.next]? = some (sentFlit 0 16) ∧ s.rf SW_CFG 0 8 ≠ 0) ∧
    (let s := settled { rspQ := [sentFlit 0 0] }
     s.sw.rspQ = [sentFlit 0 0] ∧ (sentFlit 0 0).typ ≠ 0xF ∧ s.sw.replay.length < 64 ∧
      (s.sw.crs.sent + 256 - s.sw.crs.peer) % 256 < 32) ∧
    (let s := settled { paired := true, ops := [{ remOp with sent := false }] }
     s.sw.paired = true ∧ s.sw.msgQ = [] ∧ s.sw.bellQ = [] ∧ s.sw.rspQ = [] ∧
      s.sw.ops = [{ remOp with sent := false }] ∧ remOp.answer = none ∧ (s.sw.crq.sent + 256 - s.sw.crq.peer) % 256 < 32) ∧
    (bit (0x800002FF : Word) 31 = true ∧ fld (0x800002FF : Word) 8 2 = 2 ∧ hove.part.iob = true ∧ hove.dieUp = true ∧
      hove.dev.vinOk = true) := by
  refine ⟨?_, ?_, ?_, ?_, ?_, ?_, ?_, ?_, ?_, ?_, ?_, ?_, ?_⟩ <;> (try unfold portIn) <;> (try unfold portOn) <;>
    (try unfold due) <;> decide +kernel

/-! ### Ill-formed commands -/

def badFlit : Flit := { seq := 4096, hdr := [0, 0, 0, 0] }
def shortFlit : Flit := { hdr := [3, 0, 0, 0], data := [1, 2] }
def emptyFlit : Flit := { hdr := [0, 0, 0, 0] }

theorem test_illformed_commands :
    ∀ c ∈ [Instr.musterStageEnd true 16 0, .musterStageEnd true 0 4096, .bootFlowEnd {}, .clockLoss 0, .clockLoss 5,
      .vtrimEval 10 true true, .vtrimStepDown 8, .vtrimStepUp 8, .replay 4, .deck8LowRead 64, .deck8HighRead 64,
      .deck8LowWrite 64 0, .deck8HighWrite 64 0, .pairLowRead 16, .rcRead 26, .badcmd 0x5A01, .registerWrite (.deck 1) 0,
      .registerWrite (.deck 128) 0, .registerWrite (.deck 0) 65536, .registerWrite (.csr 0x40000002) 0,
      .registerWrite (.csr 0x50000000) 0, .dapAccess 2 none, .rgCommit 64, .rgCommitApply 64, .rgCommitStale 64,
      .eccInjectArm 0, .eccInjectArm 3, .enable 16384, .disable 16384, .resumeRetry 16384, .resumeSkip 16384,
      .prio 16384 0, .prio 0 8, .ringOpBadarg 0 5, .bellTimeout 16384, .engineFinish 0 65536, .completionRecord 16384,
      .capBellWrite 256 0, .capBellAddWrite 256 0, .thresholdArm 256 1, .thresholdArm 0 0],
      c.wf = false := by decide

theorem test_illformed_engine_commands :
    ∀ c ∈ [Instr.copy 4, .fill 4, .gather 4, .relayout 4, .streamIn 4, .streamOut 4, .streamUnit 2, .streamUnit 7, .product 4,
      .feedPair 4, .feedTimeout 4, .accBlockTake 2, .accTimeout 2, .conv 2, .tconv 2, .poolMax 2, .poolAvg 2, .upNearest 2,
      .upBilinear 2, .s2d 2, .haloTimeout 2, .run 2, .reduce 2, .softmax 2, .lse 2, .norm 2, .summaryPush 2,
      .summaryTimeout 2, .summaryFlush 2, .lockMismatch 0 0, .lockMismatch 172 2, .delayParity false 32],
      c.wf = false := by decide

theorem test_illformed_io_commands :
    ∀ c ∈ [Instr.trCommit 0, .lkCommit 0, .auCommit 0, .csiCommit 0, .qrdGo 0, .swRbellSend 0, .featureFrame [],
      .csiFrameStart 4 0, .csiFrameStart 0 65536, .csiFrameEnd 4, .csiLongPacket 4 0 [] true, .csiLongPacket 0 64 [] true,
      .csiPacketDiscard 5, .i2cGo 2 0x80000000, .i2cGo 0 0, .i2cXferEnd 2 true true 0 true [], .i2cAbort 2, .i2cRecover 2,
      .linkEqualiseDone [] [], .linkAlignDone 3 0 false 0, .linkAlignDone 0 0 false 4,
      .ltrimAdapt 2 0 0 0, .flitNull badFlit, .flitConfig emptyFlit, .flitWr shortFlit, .flitWr emptyFlit, .flitRd emptyFlit,
      .flitBell badFlit, .flitMsg shortFlit, .flitWrrsp badFlit, .flitRdrsp badFlit, .remoteTimeout 4096],
      c.wf = false := by decide

theorem test_wellformed_commands :
    ∀ c ∈ [Instr.enable 16383, .prio 16383 7, .registerWrite (.deck 126) 65535, .registerWrite (.csr 0x4FFFFFFC) 1, .copy 3,
      .run 1, .flitWr { hdr := [2, 0, 0, 0], data := [1, 2] }, .thresholdArm 255 1, .porAssert], c.wf = true := by decide

/-! ### Words of Bosun, from 14 Tables 14.4, 14.5 and 14.10, and from 14's worked passage -/

theorem test_bosun_words_decode :
    decodeB 0x040208C1 = some (.r .add 3 1 2) ∧ decodeB 0x4CE008C1 = some (.sh .shli 3 1 7) ∧
    decodeB 0xFFFF1884 = some (.i .addi 2 3 0xFFFF) ∧ decodeB 0x1234008A = some (.movh 2 0x1234) ∧
    decodeB 0x00081894 = some (.ld .ldw 2 3 8) ∧ decodeB 0x0008189A = some (.st .stw 2 3 8) ∧
    decodeB 0xFFFC1060 = some (.br .beq 1 2 0xFFFC) ∧ decodeB 0x80001001 = some (.jr 2) ∧
    decodeB 0x00000428 = some (.j 0x10) ∧ decodeB 0x000409B1 = some (.lpi false 19 4) ∧
    decodeB 0x0050087C = some (.csr .csrrw 1 1 5) ∧ decodeB 0x04000003 = some .eret ∧
    decodeB 0x08000143 = some (.syscall 5) ∧ decodeB 0x00000FC1 = none ∧ decodeB 0x00000043 = none ∧ decodeB 0 = none := by
  decide +kernel

theorem test_bosun_worked_passage :
    decodeB 0x012C0244 = some (.i .addi 9 0 300) ∧ decodeB 0x040A4AC2 = some (.post 11 9 10) ∧
    decodeB 0x001D02E1 = some (.br .bne 11 0 29) ∧ decodeB 0x100D6382 = some (.waitge 14 12 13) ∧
    decodeB 0x201003C2 = some (.sumrd 15 16 false false) ∧ decodeB 0xFFFF8447 = some (.i .andi 17 16 0xFFFF) ∧
    decodeB 0x00369460 = some (.br .beq 17 18 54) ∧ decodeB 0x00000003 = some .nop ∧
    encodeB (.post 11 9 10) = 0x040A4AC2 ∧ encodeB (.sumrd 15 16 false false) = 0x201003C2 := by decide +kernel

/-! ### Values of the worked passages and tables -/

/-- 08 R363. -/
theorem test_crc32 : crc32 ([49, 50, 51, 52, 53, 54, 55, 56, 57] : List Byte) = 0xCBF43926 ∧ crc32 [] = 0 := by decide +kernel

/-- 07 R313's example of a wrap: 3 satisfies a wait for 0xFFFF_FFF0. -/
theorem test_bell_wraps : State.bellHolds 3 0xFFFFFFF0 false = true ∧ State.bellHolds 3 4 false = false := by decide

/-- 08's crop: 96 rows, the extents of source and destination. -/
theorem test_crop :
    let d := words [(0, 0x0C050401), (1, 3), (2, 0xD), (3, 1), (4, 0x1000B4C0), (5, 0x10200000), (6, 0x00050080), (7, 0x60),
      (9, 0x280), (12, 0x100)]
    (halRows d).length = 96 ∧ (halRows d).getLast? = some (0x1000B4C0 + 95 * 640, 0x10200000 + 95 * 256) ∧
    extent (wordAt d 4).toNat (df d 6 0 16) (2 ^ df d 6 16 2) ((halDims d).map fun x => (x.1, x.2.1)) =
      (0x1000B4C0, 0x1001A33F) ∧
    extent (wordAt d 5).toNat (df d 6 0 16) (2 ^ df d 6 16 2) ((halDims d).map fun x => (x.1, x.2.2)) =
      (0x10200000, 0x10205FFF) := by decide +kernel

/-- 09's group: the partial sum 1,113 with the unfolded and the folded scale, and the requantised code under RNE and RTZ. -/
theorem test_group :
    fma32 (Fp.ofInt 1113) (Fp.of16 0x1019) (Fp.of32 0) = 0x3F0E8588 ∧
    convert .fp32 .s32 0 0 true (fma32 (Fp.ofInt 1113) (Fp.of16 0x2A66) (Fp.of32 0)) = 56 ∧
    convert .fp32 .s32 2 0 true (fma32 (Fp.ofInt 1113) (Fp.of16 0x2A66) (Fp.of32 0)) = 55 := by decide +kernel

/-- 09 Table 9.3, rows by RNE, RNA and RTZ. -/
theorem test_fp32_to_fp16 :
    [(0x3F801000, 0), (0x3F801000, 1), (0x3F801000, 2), (0x477FF000, 0), (0x477FF000, 1), (0x477FF000, 2),
     (0x33800000, 0), (0x33000000, 0), (0x33000000, 1), (0x33000000, 2)].map (fun p => convert .fp32 .fp16 p.2 0 false p.1) =
    [0x3C00, 0x3C01, 0x3C00, 0x7C00, 0x7C00, 0x7BFF, 1, 0, 1, 0] := by decide +kernel

/-- 09 Table 9.2: 2.5, -2.5 and 2.25 to S8 under RNE, RNA, RTZ, and 2.25 under SR at the boundary. -/
theorem test_rounding :
    [0, 1, 2].map (fun rm => convert .fp32 .s8 rm 0 true 0x40200000) = [2, 3, 2] ∧
    [0, 1, 2].map (fun rm => convert .fp32 .s8 rm 0 true 0xC0200000) = [0xFE, 0xFD, 0xFE] ∧
    convert .fp32 .s8 3 16383 true 0x40100000 = 3 ∧ convert .fp32 .s8 3 16384 true 0x40100000 = 2 := by decide +kernel

/-- 10's counts: the backbone layer on a tile, and a piece of the chained layer. -/
theorem test_loom_counts :
    (loomD (words [(0, 1 + 2 ^ 14), (4, 3 + 3 * 8 + 2 ^ 8 + 2 * 2 ^ 10), (5, 576 + 64 * 2 ^ 16), (6, 2400)])).count = 29120 ∧
    (loomD (words [(0, 1), (4, 7 + 3 * 8 + 2 * 2 ^ 8), (5, 1536 + 64 * 2 ^ 16), (6, 1)])).count = 72 := by decide +kernel

/-- 11's bilinear passage: outputs (1, 1), (1, 2) and (0, 0) under RNE, RNA and RTZ. -/
theorem test_bilinear :
    [0, 1, 2].map (fun rm =>
      let x := harrowD (words [(0, 6 + 2 ^ 8 + 2 ^ 15), (7, 2 + 2 * 2 ^ 16), (8, 1 + 3 * 2 ^ 13), (9, rm * 2 ^ 27)])
      let rows : List HwRow := [⟨[10, 20], []⟩, ⟨[30, 24], []⟩]
      (pixelCode x rows 2 1 1 0, pixelCode x rows 2 1 2 0, pixelCode x rows 2 0 0 0)) =
    [(16, 20, 10), (17, 20, 10), (16, 19, 10)] := by decide +kernel

/-- 11's backbone layer: output height and width, K and the count of a Harrow. -/
theorem test_harrow_geometry :
    let x := harrowD (words [(0, 1 + 2 ^ 8), (7, 30 + 80 * 2 ^ 16), (8, 64 + 2 ^ 12 + 3 * 2 ^ 13 + 3 * 2 ^ 16 + 3 * 2 ^ 20),
      (9, 1 + 2 ^ 12 + 2 ^ 18), (10, 128 + 2 ^ 22), (11, 1 + 2 ^ 6)])
    (x.rows 0, x.oh 0, x.ow, x.k, x.count 0) = (31, 30, 80, 576, 7216) := by decide +kernel

/-- 12's recipes for the backbone layer: their counts, and the instruction of recipe B. -/
theorem test_mill_counts :
    let d := words [(0, 1 + 2 * 2 ^ 8), (5, 0x25800), (6, 0x10800), (8, 0x10200001), (11, 3), (14, 0x208), (15, 0x02580400)]
    let cvt := millIns 0x00101020 0x10000000
    let cvtS := millIns (0x20 + 8 * 2 ^ 9 + 6 * 2 ^ 19) 0x10000000
    let add := millIns (1 + 2 * 2 ^ 6 + 2 ^ 29) (10 + 0x10000000)
    (cvt.op, cvt.ty, cvt.d, cvt.b, cvt.vsrc) = (0x20, 0, 8, 2, true) ∧ millCount d [cvt] = 24166 ∧
    millCount d [cvtS, add, add, cvtS] = 53416 := by decide +kernel

/-- 13's class scores: the outputs, the summary entry and the count. -/
theorem test_class_scores :
    let x := sheafD (words [(0, 0x2302), (4, 0x04080C0E), (5, 0x00100001), (6, 0x002A0000)])
    let scores := (List.range 16).map fun i => if i = 3 ∨ i = 7 ∨ i = 9 then 0x40A00000 else 0xFF800000
    let m := (({} : Mill).setGroupAt true 14 0 scores).setMask 2 ((List.range 32).map fun i => some (decide (i < 12)))
    ((List.range 16).map fun p => ((sheafResult m x 0).writes.find? fun w => w.1 == p).map (·.2)) =
      (List.range 16).map (fun i => some (if i = 3 ∨ i = 7 ∨ i = 9 then 0x3EAAAAAB else 0)) ∧
    summaries m x = [(0, 0x3EAAAAAB, 0x042A0003)] ∧ x.count = 35 := by decide +kernel

/-! ### One step on a small state -/

/-- The state after a command; the state itself where it does not complete. -/
def after (c : Instr) (s : State) : State := match exec c s with | .next t => t | _ => s

/-- 03's Granary failure: stage 5 fails in stack 2, and the line that a becalmed device sends. -/
theorem test_granary_failure :
    let s := after (.musterStageEnd false 2 0xA40) (stageAt 5 2)
    s.dev.mode = .becalmed ∧ s.dkf DK_CAUSE 0 8 = 0x16 ∧ s.dk DK_STAGE = 0x8205 := by decide +kernel

theorem test_hail_line :
    let s := ((((((base .becalmed).setDkf DK_CAUSE 0 8 0x16).setDk DK_STAGE 0x8205).setDk DK_FAULT_HI 0x0416).setDk
      DK_FAULT_LO 0x2A40).setDk DK_FAULT_SEQ 1).setDkf DK_TEMP 0 12 152
    s.hailLine = ascii ("#GLK,BEC,16,8205,04162A40,0001,+038,00000*75".toList.map Char.toNat) ++ [13, 10] := by
  decide +kernel

/-- 07's Tack: the drain that no ring holds completes, Bell 9 goes from 4 to 5, and HELD is set. -/
theorem test_tack_drain :
    let s := after .tackDrainComplete
      { (hove.setRf CAP_EPOCH 8 1 1).setReg CAP_TACK_CFG 0x309 with cap := { bells := [(9, 4)] } }
    s.draining = false ∧ s.held = true ∧ s.bell 9 = 5 := by decide +kernel

/-- 07's posting after the Tack: tail 3 of ring 40 is accepted and tail 13 refused. -/
theorem test_tail_check :
    let s := withRings [(40, { size := 4, mask := 1, head := 0, tail := 0, done := 12, st := .enabled, epochs := [6, 6, 6, 6] })] hove
    (s.offerTail 40 3).2 = 0 ∧ ((s.offerTail 40 3).1.ring 40).tail = 3 ∧ (s.offerTail 40 13).2 ≠ 0 := by decide +kernel

/-- 15's summary interrupt: the frame, CAUSE, the stack pointer and the PC at entry; ERET restores them. -/
def interrupted : State :=
  after .interrupt { hove with
    fifos := [(0, [(1, 2)])]
    bosun := { run := true, core := { w := [(30, 0x6100F000)], csr := [(0, 3), (5, 8), (0x19, 0)], pc := 0x60000804 } } }

theorem test_interrupt_entry :
    (List.range 4).map (fun i => interrupted.peekWord (0x6100EFF0 + 4 * i)) = [0xC, 0x60000804, 0x00030010, 0] ∧
    interrupted.bw 30 = 0x6100EFF0 ∧ interrupted.bsv BS_STATUS = 0xC ∧ interrupted.core.pc = 0x60000100 := by decide +kernel

theorem test_interrupt_return :
    let s := after .eret { interrupted with mem := Store.setRun 0 interrupted.mem 0x60000100 (leBytes 4 0x04000003) }
    s.core.pc = 0x60000804 ∧ s.bw 30 = 0x6100F000 ∧ s.crew = true ∧ s.bsf BS_STATUS 1 1 = 1 := by decide +kernel

/-- 14's softmax: ADDI w9, w0, 300 and POST's tail check are above; BNE falls through into its delay slot. -/
theorem test_bne_falls_through :
    let s := after .bne (bosun {} (.br .bne 11 0 29))
    s.core.pc = 0x60001004 ∧ s.core.delay = some (0x60001000, none) := by decide +kernel

/-- 17's HDR stream: E_max, and the output pixel whose one bright node takes its short exposure. -/
theorem test_hdr :
    let s := (((hove.setForce LK_CTRL 0xC5F).setForce LK_PERIOD 33334).setForce LK_BLACK (Word.nat (64 + 896 * 65536))).setForce
      LK_WIN_Y (Word.nat (240 * 65536))
    let lo : PixelNode := { raw := ([1000, 955] ++ List.replicate 318 0 ++ [944, 934]).toArray, black := 64, bad := [] }
    let sh : PixelNode := { lo with raw := [300].toArray }
    s.lkEmax = 13106 ∧ s.shortOf 4000 = 1000 ∧ boxSum 0 0 2 2 (s.merged lo sh) = 3585 := by decide +kernel

/-- 18's capture unit: one of 256 ticks on two slots with a reference of 127 samples of history has 1,824 bytes. -/
theorem test_capture_unit :
    let s := { (hove.setForce AU_RATE (Word.nat (256 * 65536))).setForce AU_CAP5 (Word.nat (3 + 1 * 2 ^ 9 + 127 * 65536)) with
      audio := { block := 10, start := 2560, ticks := 256 } }
    let u := s.captureUnit 5 [] [] false
    u.length = 1824 ∧ (bytesWords 4 (u.drop 1792)) = [10, 0xA00, 0x100, 0x007F0103] := by decide +kernel

/-- 19's threshold under a fan, without it, and the event that 925 raises. -/
theorem test_threshold :
    let s := { (((hove.setReg CN_CTRL 5).setReg (CN_KTHR 2) 700).setReg CN_KCFG
      (Word.nat (25 + 64 * 256 + 3000 * 65536))).setReg CN_FLOOR 3800 with cn := { kw := { floorOn := true } } }
    s.threshold false 4 = 900 ∧ (s.setReg CN_FLOOR 3000).threshold false 4 = 700 := by decide +kernel

/-- 03's first command after reset: the release starts Muster at stage 1. -/
theorem test_reset_release :
    let s := after (.resetRelease {} false true true false) State.reset
    s.dev.mode = .muster ∧ s.dk DK_STAGE = 1 := by decide +kernel

end Sys2Proof.Tests
end

section
/-! PROOFS. What a write of a register stores and what a Deck read latches or clears (00 R17–R22; 05.1–05.4). -/

namespace Sys2Proof.Machine

/-! ### Access codes -/

/-- A field set to the value it holds. -/
theorem putFld_fld {n : Nat} (v : BitVec n) (lo w : Nat) : putFld v lo w (fld v lo w) = v := by
  have hle : fld v lo w * 2 ^ lo ≤ v.toNat :=
    (Nat.mul_le_mul_right _ (Nat.mod_le _ _)).trans (Nat.div_mul_le_self _ _)
  unfold putFld
  rw [Nat.mod_eq_of_lt (fld_lt v lo w), Nat.sub_add_cancel hle, BitVec.ofNat_toNat, BitVec.setWidth_eq]

/-- A field in the low 16 bits of a word is the field of its low half. -/
theorem fld_low (v : Word) {lo w : Nat} (h : lo + w ≤ 16) : fld (BitVec.ofNat 16 v.toNat) lo w = fld v lo w := by
  apply Nat.eq_of_testBit_eq
  intro i
  rw [testBit_fld, testBit_fld, BitVec.getLsbD_ofNat]
  by_cases hi : i < w
  · simp [hi, show lo + i < 16 by omega, BitVec.getLsbD]
  · simp [hi]

theorem bit_low (v : Word) {i : Nat} (h : i < 16) : bit (BitVec.ofNat 16 v.toNat) i = bit v i := by
  unfold bit
  rw [BitVec.getLsbD_ofNat, decide_eq_true h, Bool.true_and]
  rfl

/-- The value of a field that held `old` after `new` is written to it (00 Table 0.4, R20). -/
def Field.stored (f : Field) (old new : Nat) : Nat :=
  match f.acc with
  | .rw => if f.bad.contains new then old else new
  | .w1c => old - Nat.land old new
  | _ => old

theorem Field.stored_lt {f : Field} {old new : Nat} (ho : old < 2 ^ f.w) (hn : new < 2 ^ f.w) :
    f.stored old new < 2 ^ f.w := by
  unfold Field.stored
  cases f.acc with
  | rw =>
    dsimp only
    split
    · exact ho
    · exact hn
  | w1c => exact (Nat.sub_le _ _).trans_lt ho
  | ro => exact ho
  | rc => exact ho
  | wo => exact ho

@[simp] theorem storeFields_nil {n : Nat} (old new : BitVec n) : storeFields [] old new = old := rfl

/-- A write sets its fields one after the other, each to what its access code stores. -/
theorem storeFields_cons {n : Nat} (f : Field) (fs : List Field) (old new : BitVec n) :
    storeFields (f :: fs) old new =
      storeFields fs (putFld old f.lo f.w (f.stored (fld old f.lo f.w) (fld new f.lo f.w))) new := by
  obtain ⟨lo, w, acc, reset, bad⟩ := f
  have kept : storeFields fs old new = storeFields fs (putFld old lo w (fld old lo w)) new := by rw [putFld_fld]
  cases acc with
  | rw =>
    change storeFields fs (if bad.contains (fld new lo w) then old else putFld old lo w (fld new lo w)) new =
      storeFields fs (putFld old lo w (if bad.contains (fld new lo w) then fld old lo w else fld new lo w)) new
    split
    · exact kept
    · rfl
  | w1c => rfl
  | ro => exact kept
  | rc => exact kept
  | wo => exact kept

/-- A write leaves every bit outside its fields. -/
theorem getLsbD_storeFields_out {n : Nat} {fs : List Field} (old new : BitVec n) {i : Nat} (hi : i < n)
    (h : ∀ f ∈ fs, i < f.lo ∨ f.lo + f.w ≤ i) : (storeFields fs old new).getLsbD i = old.getLsbD i := by
  induction fs generalizing old with
  | nil => rfl
  | cons f fs ih =>
    obtain ⟨hf, hfs⟩ := List.forall_mem_cons.1 h
    rw [storeFields_cons, ih _ hfs, getLsbD_putFld, if_neg (by omega)]
    simp [hi]

/-- A write leaves every field apart from its own. -/
theorem fld_storeFields_out {n : Nat} {fs : List Field} (old new : BitVec n) {lo w : Nat}
    (h : ∀ f ∈ fs, lo + w ≤ f.lo ∨ f.lo + f.w ≤ lo) : fld (storeFields fs old new) lo w = fld old lo w := by
  induction fs generalizing old with
  | nil => rfl
  | cons f fs ih =>
    obtain ⟨hf, hfs⟩ := List.forall_mem_cons.1 h
    rw [storeFields_cons, ih _ hfs, fld_putFld_ne _ _ _ _ _ _ hf]

/-- A write leaves in each of its fields what the field's access code stores. -/
theorem fld_storeFields_mem {n : Nat} {fs : List Field} (old new : BitVec n) (hn : ∀ f ∈ fs, f.lo + f.w ≤ n)
    (hd : fs.Pairwise fun f g => f.lo + f.w ≤ g.lo ∨ g.lo + g.w ≤ f.lo) {f : Field} (hf : f ∈ fs) :
    fld (storeFields fs old new) f.lo f.w = f.stored (fld old f.lo f.w) (fld new f.lo f.w) := by
  induction fs generalizing old with
  | nil => cases hf
  | cons g fs ih =>
    obtain ⟨hgn, hfn⟩ := List.forall_mem_cons.1 hn
    obtain ⟨hg, hfs⟩ := List.pairwise_cons.1 hd
    rw [storeFields_cons]
    rcases List.mem_cons.1 hf with rfl | hf
    · rw [fld_storeFields_out _ _ hg, fld_putFld_self _ _ _ _ hgn,
        Nat.mod_eq_of_lt (Field.stored_lt (fld_lt _ _ _) (fld_lt _ _ _))]
    · rw [ih _ hfn hfs hf, fld_putFld_ne _ _ _ _ _ _ (hg f hf).symm]

/-- The fields of a register follow their access codes. -/
theorem codesHold_storeFields {n : Nat} {fs : List Field} (old new : BitVec n) (hn : ∀ f ∈ fs, f.lo + f.w ≤ n)
    (hd : fs.Pairwise fun f g => f.lo + f.w ≤ g.lo ∨ g.lo + g.w ≤ f.lo) :
    Spec.codesHold fs old new (storeFields fs old new) :=
  ⟨fun _ hf => fld_storeFields_mem old new hn hd hf, fun _ hi h => getLsbD_storeFields_out old new hi h⟩

end Sys2Proof.Machine

namespace Sys2Proof.Machine.Store

/-- Mapping the values of a table maps what it reads as, where the default is mapped to itself. -/
theorem get_map {α : Type} {d : α} {f : α → α} (hd : f d = d) (m : List (Nat × α)) (k : Nat) :
    get d (m.map fun (j, v) => (j, f v)) k = f (get d m k) := by
  induction m with
  | nil => exact hd.symm
  | cons e m ih =>
    obtain ⟨j, v⟩ := e
    simp only [List.map_cons, get, ih]
    split <;> rfl

end Sys2Proof.Machine.Store

namespace Sys2Proof.Machine.State

open Sys2Proof.Spec

/-! ### One Deck register set -/

@[simp] theorem dk_accessed (s : State) (o : Nat) : (accessed s).dk o = s.dk o := rfl
theorem clearTags_eq (s : State) : s.clearTags = accessed s := rfl

theorem setDk_frame (s : State) (o : Nat) (v : Half) : s.setDk o v = { s with deck := (s.setDk o v).deck } := rfl

theorem deckRegs_setDk (s : State) (o : Nat) (v : Half) : deckRegs s (s.setDk o v) [o] :=
  ⟨rfl, fun _ h => dk_setDk_ne s v (by simpa using h)⟩

/-- A Deck write where an access can start (05 R208). -/
theorem registerWrite_deck {s : State} (hf : s.deckFree = true) {o : Nat} (ho : o < 128) (he : o % 2 = 0) (v : Word) :
    exec (.registerWrite (.deck o) v) s = .next (s.deckWrite o (BitVec.ofNat 16 v.toNat)) := by
  change execRegisterWrite (.deck o) v s = _
  simp only [execRegisterWrite, hostWrite, ho, he, hf, and_self, if_true]

/-- A Deck write without an action stores its register's fields. -/
theorem deckWrite_plain (s : State) {o : Nat} {v : Half} (h : o ∉ deckActs ∨ (o = DK_HAIL_CFG ∧ bit v 15 = false)) :
    s.deckWrite o v = (accessed s).setDk o (storeFields (deckFields o) (s.dk o) v) := by
  rcases h with h | ⟨rfl, hv⟩
  · simp only [deckActs, List.mem_cons, List.not_mem_nil, or_false, not_or] at h
    obtain ⟨h1, h2, h3, h4, h5, h6, h7, h8, h9⟩ := h
    simp only [deckWrite, h1, h2, h3, h4, h5, h6, h7, h8, h9, if_false]
    rfl
  · simp only [deckWrite, hv]
    rfl

theorem deckWrite_irqStat (s : State) (v : Half) :
    s.deckWrite DK_IRQ_STAT v = (accessed s).setDk DK_IRQ_RAW (s.dk DK_IRQ_RAW &&& ~~~v) := rfl

/-- DK_WIN_CTRL stores INC, and clears ERR where bit 15 is written as 1 (05.6). -/
theorem deckWrite_winCtrl (s : State) (v : Half) :
    s.deckWrite DK_WIN_CTRL v =
      let t := (accessed s).setDk DK_WIN_CTRL (putFld (s.dk DK_WIN_CTRL) 0 1 (fld v 0 1))
      if bit v 15 then t.setDkf DK_WIN_CTRL 8 4 0 else t := by
  have hst : storeFields (deckFields DK_WIN_CTRL) (s.dk DK_WIN_CTRL) v = putFld (s.dk DK_WIN_CTRL) 0 1 (fld v 0 1) := by
    change storeFields [fRw 0 1 1, fRo 4 1, fRo 8 4, fWo 15 1] _ _ = _
    simp [storeFields_cons, Field.stored, fRw, fRo, fWo, putFld_fld]
  rw [← hst]
  rfl

/-- DK_CTRL stores its two fields, and the Bell waits are judged before and after (05.5; 07 R304, R313). -/
theorem deckWrite_ctrl (s : State) (v : Half) :
    s.deckWrite DK_CTRL v = ((accessed s).latchWaits.setDk DK_CTRL
      (putFld (putFld (s.dk DK_CTRL) 0 1 (fld v 0 1)) 1 1 (fld v 1 1))).latchWaits := by
  have hst : storeFields (deckFields DK_CTRL) (s.dk DK_CTRL) v =
      putFld (putFld (s.dk DK_CTRL) 0 1 (fld v 0 1)) 1 1 (fld v 1 1) := by
    change storeFields [fRw 0 1, fRw 1 1] _ _ = _
    simp [storeFields_cons, Field.stored, fRw]
  rw [← hst]
  rfl

/-! ### Bell waits judged -/

theorem latchOne_default (s : State) : s.latchOne {} = {} := if_neg fun h => nomatch h.1

theorem ring_latchWaits (s : State) (n : Nat) : s.latchWaits.ring n = s.latchOne (s.ring n) :=
  Store.get_map s.latchOne_default s.cap.rings n

/-- Judging a head's wait changes only what it has reached of its admission stages. -/
theorem sameRing_latchOne (s : State) (r : Ring) : sameRing r (s.latchOne r) := by
  unfold latchOne
  split
  · split
    · rfl
    · rfl
  · rfl

theorem sameRing_trans {r x y : Ring} (h : sameRing r x) (k : sameRing x y) : sameRing r y :=
  k.trans (congrArg (fun z : Ring => { z with reached := y.reached, waitOk := y.waitOk }) h)

theorem sameRing_latchWaits (s : State) (n : Nat) : sameRing (s.ring n) (s.latchWaits.ring n) := by
  rw [ring_latchWaits]
  exact sameRing_latchOne s _

/-! ### CSR writes -/

/-- A CSR whose write only stores has no case of its own in its block. -/
theorem csrWrite_plain (s : State) {a : Nat} (h : plainCsr a) (v : Word) : s.csrWrite a v = s.plainWrite a v := by
  obtain ⟨-, h⟩ := h
  rcases h with ⟨hb, hlt, hc⟩ | hb | ⟨hb, ho⟩ | ⟨hb, ho⟩ | ⟨hb, ho, hc⟩ <;> simp only [csrWrite, hb]
  · rw [if_neg (by omega), if_neg (by omega)]
  · rw [if_neg ho]
  · rw [if_neg ho]
  · rw [if_neg ho, if_neg hc]

theorem spaceOf_plainCsr (p : Part) {a : Nat} (h : plainCsr a) : spaceOf p a = .csr := by
  obtain ⟨-, h⟩ := h
  have hr : 0x40000000 ≤ a ∧ a < 0x50000000 := by omega
  have hp : slotPopulated p ((a - 0x40000000) / 0x10000) = true := by
    have hs : (a - 0x40000000) / 0x10000 ∈ [1, 0x20, 0x21, 0x82, 0x83] := by
      simp only [List.mem_cons, List.not_mem_nil, or_false]
      omega
    simp only [List.mem_cons, List.not_mem_nil, or_false] at hs
    rcases hs with hs | hs | hs | hs | hs <;> rw [hs] <;> rfl
  have hg : p.granary ≤ 0x4000000 := by
    unfold Part.granary Part.stackCount
    cases p.variant <;> decide
  unfold spaceOf
  rw [if_neg (by omega), if_neg (by omega), if_neg (by omega), if_neg (by omega), if_neg (by omega), if_pos hr.2, if_pos hp]

/-- A CSR write by an agent that reaches it (05 R222, R243). -/
theorem csrReach_of_inReach {s : State} {a : Nat} (h : csrInReach s a) (ha : a % 4 = 0) (hs : spaceOf s.part a = .csr)
    (v : Word) : s.csrReach a v = s.csrWrite a v := by
  obtain ⟨hans, hm, hr⟩ := h
  have hr : (s.onDieA a || (decide (s.dev.mode ≠ .reefed) && s.dev.vinOk)) = true := by simpa using hr
  unfold csrReach
  rw [hans, ha, hs, hr, decide_eq_true hm]
  rfl

theorem csrReach_of_not_inReach {s : State} {a : Nat} (h : ¬ csrInReach s a) (v : Word) : s.csrReach a v = s := by
  refine if_neg fun hc => h ?_
  simp only [Bool.and_eq_true, Bool.or_eq_true, decide_eq_true_eq] at hc
  obtain ⟨⟨⟨⟨hans, -⟩, -⟩, hm⟩, hr⟩ := hc
  exact ⟨hans, hm, hr⟩

theorem plainWrite_frame (s : State) (a : Nat) (v : Word) : s.plainWrite a v = { s with regs := (s.plainWrite a v).regs } := rfl

theorem csrKept_plainWrite (s : State) (a : Nat) (v : Word) : csrKept s (s.plainWrite a v) [a] :=
  fun _ h => reg_setReg_ne s _ (by simpa using h)

@[simp] theorem reg_plainWrite_self (s : State) (a : Nat) (v : Word) :
    (s.plainWrite a v).reg a = storeFields (csrFields a) (s.reg a) v := reg_setReg_self s a _

/-! ### What a write leaves -/

/-- A Deck write that sets one register alone. -/
theorem deckRegs_of_setDk {s t : State} {o : Nat} {x : Half} (h : t = (accessed s).setDk o x) :
    t = { accessed s with deck := t.deck } ∧ deckRegs (accessed s) t [o] ∧ t.dk o = x := by
  subst h
  exact ⟨rfl, deckRegs_setDk _ _ _, dk_setDk_self _ _ _⟩

theorem registerWrite_deckPlain (s : State) (v : Word) {o : Nat} (ho : o < 128) (he : o % 2 = 0) (hf : s.deckFree = true)
    (h : o ∉ deckActs ∨ (o = DK_HAIL_CFG ∧ bit v 15 = false)) :
    ∃ t, exec (.registerWrite (.deck o) v) s = .next t ∧ t = { accessed s with deck := t.deck } ∧
      deckRegs (accessed s) t [o] ∧ t.dk o = storeFields (deckFields o) (s.dk o) (BitVec.ofNat 16 v.toNat) :=
  have h' : o ∉ deckActs ∨ (o = DK_HAIL_CFG ∧ bit (BitVec.ofNat 16 v.toNat) 15 = false) := by
    rwa [bit_low v (by omega)]
  ⟨_, registerWrite_deck hf ho he v, deckRegs_of_setDk (deckWrite_plain s h')⟩

theorem registerWrite_irqStat (s : State) (v : Word) (hf : s.deckFree = true) :
    ∃ t, exec (.registerWrite (.deck DK_IRQ_STAT) v) s = .next t ∧ t = { accessed s with deck := t.deck } ∧
      deckRegs (accessed s) t [DK_IRQ_RAW] ∧ t.dk DK_IRQ_RAW = s.dk DK_IRQ_RAW &&& ~~~(BitVec.ofNat 16 v.toNat) :=
  ⟨_, registerWrite_deck hf (by decide) rfl v, deckRegs_of_setDk (deckWrite_irqStat s _)⟩

theorem registerWrite_winCtrl (s : State) (v : Word) (hf : s.deckFree = true) :
    ∃ t, exec (.registerWrite (.deck DK_WIN_CTRL) v) s = .next t ∧ t = { accessed s with deck := t.deck } ∧
      deckRegs (accessed s) t [DK_WIN_CTRL] ∧
      t.dk DK_WIN_CTRL = (if bit v 15 then putFld (putFld (s.dk DK_WIN_CTRL) 0 1 (fld v 0 1)) 8 4 0
        else putFld (s.dk DK_WIN_CTRL) 0 1 (fld v 0 1)) := by
  refine ⟨_, registerWrite_deck hf (by decide) rfl v, ?_⟩
  rw [deckWrite_winCtrl, bit_low v (by omega), fld_low v (by omega)]
  dsimp only
  split
  · refine ⟨rfl, ⟨rfl, fun o h => ?_⟩, ?_⟩
    · have ho : o ≠ DK_WIN_CTRL := by simpa using h
      rw [dk_setDkf_ne _ _ _ _ ho, dk_setDk_ne _ _ ho]
    · rw [setDkf, dk_setDk_self, dk_setDk_self]
  · exact deckRegs_of_setDk rfl

theorem registerWrite_ctrl (s : State) (v : Word) (hf : s.deckFree = true) :
    ∃ t, exec (.registerWrite (.deck DK_CTRL) v) s = .next t ∧
      t = { accessed s with deck := t.deck, cap := { s.cap with rings := t.cap.rings } } ∧
      deckRegs (accessed s) t [DK_CTRL] ∧ t.dk DK_CTRL = putFld (putFld (s.dk DK_CTRL) 0 1 (fld v 0 1)) 1 1 (fld v 1 1) ∧
      ∀ n, sameRing (s.ring n) (t.ring n) := by
  refine ⟨_, registerWrite_deck hf (by decide) rfl v, ?_⟩
  rw [deckWrite_ctrl, fld_low v (by omega), fld_low v (by omega)]
  refine ⟨rfl, ⟨rfl, (deckRegs_setDk (accessed s).latchWaits DK_CTRL _).2⟩, dk_setDk_self _ _ _, fun n => ?_⟩
  exact sameRing_trans (sameRing_latchWaits (accessed s) n) (sameRing_latchWaits _ n)

theorem registerWrite_csrPlain {s : State} {a : Nat} (hp : plainCsr a) (hr : csrInReach s a) (v : Word) :
    ∃ t, exec (.registerWrite (.csr a) v) s = .next t ∧ t = { s with regs := t.regs } ∧ csrKept s t [a] ∧
      t.reg a = storeFields (csrFields a) (s.reg a) v := by
  refine ⟨s.plainWrite a v, ?_, plainWrite_frame s a v, csrKept_plainWrite s a v, reg_plainWrite_self s a v⟩
  change Host.Outcome.next (s.csrReach a v) = _
  rw [csrReach_of_inReach hr hp.1 (spaceOf_plainCsr s.part hp), csrWrite_plain s hp]

end Sys2Proof.Machine.State

namespace Sys2Proof

open Machine Machine.State

/-- Settles O24: the fields by induction on the register's list, each write by the rule of its register. -/
theorem registerWritesFollowTheAccessCodes : Obligations.RegisterWritesFollowTheAccessCodes := by
  refine ⟨fun n fs old new hn hd => codesHold_storeFields old new hn hd, fun s v => ⟨?_, ?_, ?_, ?_⟩⟩
  · exact fun o ho he hf h => registerWrite_deckPlain s v ho he hf h
  · exact fun hf => ⟨registerWrite_irqStat s v hf, registerWrite_winCtrl s v hf, registerWrite_ctrl s v hf⟩
  · exact fun a hp hr => registerWrite_csrPlain hp hr v
  · exact fun a h => congrArg Host.Outcome.next (csrReach_of_not_inReach h v)

end Sys2Proof
end

section
/-! PROOFS. Deck reads that latch or clear (00 R19, R22; 05 R208, R214, R228, R230, R233). -/

namespace Sys2Proof.Machine.State

open Sys2Proof.Spec

/-! ### A read's return -/

theorem deckRegs_trans {s t u : State} {l m : List Nat} (h : deckRegs s t l) (k : deckRegs t u m) :
    deckRegs s u (l ++ m) := by
  obtain ⟨hd, hk⟩ := h
  obtain ⟨kd, kk⟩ := k
  refine ⟨kd.trans (congrArg (fun d : Deck => { d with regs := u.deck.regs }) hd), fun o ho => ?_⟩
  rw [List.mem_append, not_or] at ho
  rw [kk o ho.2, hk o ho.1]

theorem deckReturn_frame (s : State) (o : Nat) (v : Half) : s.deckReturn o v = { s with deck := (s.deckReturn o v).deck } := rfl

/-- A read's return after changes of the registers in `l`. -/
theorem deckGives_deckReturn {u x : State} {l : List Nat} (h : deckRegs u x l) (hd : x.dev = u.dev) (o : Nat) (v : Half) :
    deckGives u (x.deckReturn o v) o v l := by
  obtain ⟨hdeck, hk⟩ := h
  refine ⟨?_, fun p hp => (deckReturn_dk x o v p).trans (hk p hp)⟩
  unfold deckReturn
  rw [hd, hdeck]
  cases u.dev.straps.busw <;> rfl

/-! ### The reads, register by register -/

theorem pairLowRead_eq {s : State} (hf : s.deckFree = true) {k : Nat}
    (hk : 2 * k = DK_TIME_LO ∨ 2 * k = DK_BELL_VAL ∨ 2 * k = DK_WIN_DATA) :
    exec (.pairLowRead k) s = .next (s.deckRead (2 * k)) := by
  change execPairLowRead k s = _
  rw [execPairLowRead, if_pos hk, hostRead, if_pos hf]

theorem rcRead_eq {s : State} (hf : s.deckFree = true) {k : Nat}
    (hk : 2 * k = DK_TRIM_STAT ∨ 2 * k = DK_HALT_RING ∨ 2 * k = DK_CN_EVENT) :
    exec (.rcRead k) s = .next (s.deckRead (2 * k)) := by
  change execRcRead k s = _
  rw [execRcRead, if_pos hk, hostRead, if_pos hf]

theorem cnEventRead_eq {s : State} (hf : s.deckFree = true) : exec .dkCnEventRead s = .next (s.deckRead DK_CN_EVENT) := by
  change execDkCnEventRead s = _
  rw [execDkCnEventRead, hostRead, if_pos hf]

theorem deckRead_timeLo (s : State) : s.deckRead DK_TIME_LO =
    ((accessed s).setDk DK_TIME_HI (BitVec.ofNat 16 (s.deck.ms.toNat / 65536))).deckReturn DK_TIME_LO
      (BitVec.ofNat 16 s.deck.ms.toNat) := rfl

/-- The Bell value that a read of DK_BELL_VAL shows, and the state after the free choice it may need (05 R228). -/
def bellShown (s : State) : Word × State :=
  if s.bellDark then (0, s) else if s.dkbit DK_BELL_SEL 15 then (s.deck.bellMirror, s) else s.draw 32

theorem deckRead_bellVal (s : State) : s.deckRead DK_BELL_VAL =
    ((accessed s).bellShown.2.setDk DK_BELL_VAL_HI (BitVec.ofNat 16 ((accessed s).bellShown.1.toNat / 65536))).deckReturn
      DK_BELL_VAL (BitVec.ofNat 16 (accessed s).bellShown.1.toNat) := rfl

theorem bellShown_frame (s : State) : s.bellShown.2 = { s with free := s.bellShown.2.free } := by
  unfold bellShown
  split
  · rfl
  · split <;> rfl

theorem bellShown_dark {s : State} (h : s.bellDark = true) : s.bellShown = (0, s) := if_pos h

theorem bellShown_valid {s : State} (h : s.bellDark = false) (hv : s.dkbit DK_BELL_SEL 15 = true) :
    s.bellShown = (s.deck.bellMirror, s) := by
  rw [bellShown, h, hv]
  rfl

theorem deckRead_cnEvent_cons {s : State} {e : CnEvent} {l : List CnEvent} (h : s.deck.cnFifo = e :: l) :
    s.deckRead DK_CN_EVENT =
      ((({ accessed s with deck := { (accessed s).deck with cnFifo := l, cnOvf := false } } : State).setDk DK_CN_SCORE
        (BitVec.ofNat 16 e.score)).setDk DK_CN_TIME (BitVec.ofNat 16 e.time.toNat)).deckReturn DK_CN_EVENT
        (BitVec.ofNat 16 (e.cls % 32 + 32 * (e.net % 2) + 16384 + 32768 * b2n s.deck.cnOvf)) := by
  obtain ⟨_, _, _, _, deck⟩ := s
  obtain ⟨_, _, _, _, fifo⟩ := deck
  subst h
  rfl

theorem deckRead_cnEvent_nil {s : State} (h : s.deck.cnFifo = []) :
    s.deckRead DK_CN_EVENT =
      ({ accessed s with deck := { (accessed s).deck with cnOvf := false } } : State).deckReturn DK_CN_EVENT
        (BitVec.ofNat 16 (32768 * b2n s.deck.cnOvf)) := by
  have hv : s.dkCnEvent = 32768 * b2n s.deck.cnOvf := by rw [dkCnEvent, h, Nat.zero_add]
  rw [← hv]
  obtain ⟨_, _, _, _, deck⟩ := s
  obtain ⟨_, _, _, _, fifo⟩ := deck
  subst h
  rfl

/-- A read without an action of its own returns the register and clears its RC fields (00 R22). -/
theorem deckRead_plain (s : State) {o : Nat} (h : o ∉ [DK_STAGE, DK_WIN_DATA, DK_BELL_VAL, DK_CN_EVENT, DK_TIME_LO]) :
    s.deckRead o = ((accessed s).setDk o (clearRc (deckFields o) (s.dk o))).deckReturn o ((accessed s).deckValue o) := by
  simp only [List.mem_cons, List.not_mem_nil, or_false, not_or] at h
  obtain ⟨h1, h2, h3, h4, h5⟩ := h
  simp only [deckRead, h1, h2, h3, h4, h5, if_false]
  rfl

theorem plainGives_deckRead (s : State) {o : Nat} (h : o ∉ [DK_STAGE, DK_WIN_DATA, DK_BELL_VAL, DK_CN_EVENT, DK_TIME_LO]) :
    s.deckRead o = { accessed s with deck := (s.deckRead o).deck } ∧ plainGives (accessed s) (s.deckRead o) o := by
  rw [deckRead_plain s h]
  refine ⟨rfl, deckGives_deckReturn (deckRegs_setDk _ _ _) rfl _ _, ?_⟩
  rw [deckReturn_dk, dk_setDk_self]
  rfl

/-- A register set and returned: the Deck changes in what the read gives and in that register. -/
theorem deckGives_setDk {u x : State} (hx : deckRegs u x []) (hd : x.dev = u.dev) (o p : Nat) (v w : Half) :
    deckGives u ((x.setDk p w).deckReturn o v) o v [p] ∧ ((x.setDk p w).deckReturn o v).dk p = w :=
  ⟨deckGives_deckReturn (deckRegs_trans hx (deckRegs_setDk x p w)) hd o v, by rw [deckReturn_dk, dk_setDk_self]⟩

theorem deckRegs_refl (s : State) : deckRegs s s [] := ⟨rfl, fun _ _ => rfl⟩

/-! ### What a read leaves -/

theorem pairLowRead_timeLo {s : State} (hf : s.deckFree = true) :
    ∃ t, exec (.pairLowRead 38) s = .next t ∧ t = { accessed s with deck := t.deck } ∧
      deckGives (accessed s) t DK_TIME_LO (BitVec.ofNat 16 s.deck.ms.toNat) [DK_TIME_HI] ∧
      t.dk DK_TIME_HI = BitVec.ofNat 16 (s.deck.ms.toNat / 65536) := by
  refine ⟨_, pairLowRead_eq hf (.inl rfl), ?_⟩
  rw [show 2 * 38 = DK_TIME_LO from rfl, deckRead_timeLo]
  exact ⟨rfl, deckGives_setDk (deckRegs_refl _) rfl _ _ _ _⟩

theorem pairLowRead_bellVal {s : State} (hf : s.deckFree = true) :
    ∃ (v : Word) (t : State), exec (.pairLowRead 25) s = .next t ∧
      t = { accessed s with deck := t.deck, free := t.free } ∧
      deckGives (accessed s) t DK_BELL_VAL (BitVec.ofNat 16 v.toNat) [DK_BELL_VAL_HI] ∧
      t.dk DK_BELL_VAL_HI = BitVec.ofNat 16 (v.toNat / 65536) ∧
      (s.bellDark = true → v = 0 ∧ t.free = s.free) ∧
      (s.bellDark = false → s.dkbit DK_BELL_SEL 15 = true → v = s.deck.bellMirror ∧ t.free = s.free) := by
  refine ⟨(accessed s).bellShown.1, _, pairLowRead_eq hf (.inr (.inl rfl)), ?_⟩
  rw [show 2 * 25 = DK_BELL_VAL from rfl, deckRead_bellVal]
  have hfr := bellShown_frame (accessed s)
  have hx : deckRegs (accessed s) (accessed s).bellShown.2 [] := by rw [hfr]; exact deckRegs_refl _
  have hd : (accessed s).bellShown.2.dev = (accessed s).dev := by rw [hfr]
  obtain ⟨hg, hhi⟩ := deckGives_setDk hx hd DK_BELL_VAL DK_BELL_VAL_HI
    (BitVec.ofNat 16 (accessed s).bellShown.1.toNat) (BitVec.ofNat 16 ((accessed s).bellShown.1.toNat / 65536))
  refine ⟨?_, hg, hhi, fun h => ?_, fun h hv => ?_⟩
  · rw [deckReturn_frame, setDk_frame, hfr]
  · rw [bellShown_dark (s := accessed s) h]
    exact ⟨rfl, rfl⟩
  · rw [bellShown_valid (s := accessed s) h hv]
    exact ⟨rfl, rfl⟩

theorem rcRead_rc {s : State} (hf : s.deckFree = true) {k : Nat} (hk : k = 30 ∨ k = 35) :
    ∃ t, exec (.rcRead k) s = .next t ∧ t = { accessed s with deck := t.deck } ∧ plainGives (accessed s) t (2 * k) ∧
      (k = 30 → t.dkbit DK_TRIM_STAT 4 = false) ∧
      (k = 35 → t.dkbit DK_HALT_RING 14 = false ∧ t.dkbit DK_HALT_RING 15 = false ∧
        t.dkf DK_HALT_RING 0 14 = s.dkf DK_HALT_RING 0 14) := by
  have ho : 2 * k = DK_TRIM_STAT ∨ 2 * k = DK_HALT_RING ∨ 2 * k = DK_CN_EVENT := by
    rcases hk with rfl | rfl <;> decide
  have hp : 2 * k ∉ [DK_STAGE, DK_WIN_DATA, DK_BELL_VAL, DK_CN_EVENT, DK_TIME_LO] := by
    rcases hk with rfl | rfl <;> decide
  obtain ⟨hfr, hg⟩ := plainGives_deckRead s hp
  refine ⟨_, rcRead_eq hf ho, hfr, hg, ?_, ?_⟩
  · rintro rfl
    have hv : (s.deckRead (2 * 30)).dk DK_TRIM_STAT = putFld (s.dk DK_TRIM_STAT) 4 1 0 := hg.2
    rw [dkbit, dkf, hv, fld_putFld_self _ _ _ _ (by omega)]
    rfl
  · rintro rfl
    have hv : (s.deckRead (2 * 35)).dk DK_HALT_RING = putFld (putFld (s.dk DK_HALT_RING) 14 1 0) 15 1 0 := hg.2
    refine ⟨?_, ?_, ?_⟩
    · rw [dkbit, dkf, hv, fld_putFld_ne _ _ _ _ _ _ (by omega), fld_putFld_self _ _ _ _ (by omega)]
      rfl
    · rw [dkbit, dkf, hv, fld_putFld_self _ _ _ _ (by omega)]
      rfl
    · rw [dkf, hv, fld_putFld_ne _ _ _ _ _ _ (by omega), fld_putFld_ne _ _ _ _ _ _ (by omega)]
      rfl

theorem deckRead_cnEvent_cons_gives {s u : State} {e : CnEvent} {l : List CnEvent} (h : s.deck.cnFifo = e :: l)
    (hu : u = { accessed s with deck := { (accessed s).deck with cnFifo := l, cnOvf := false } }) :
    s.deckRead DK_CN_EVENT = { u with deck := (s.deckRead DK_CN_EVENT).deck } ∧
      deckGives u (s.deckRead DK_CN_EVENT) DK_CN_EVENT
        (BitVec.ofNat 16 (e.cls % 32 + 32 * (e.net % 2) + 16384 + 32768 * b2n s.deck.cnOvf)) [DK_CN_SCORE, DK_CN_TIME] ∧
      (s.deckRead DK_CN_EVENT).dk DK_CN_SCORE = BitVec.ofNat 16 e.score ∧
      (s.deckRead DK_CN_EVENT).dk DK_CN_TIME = BitVec.ofNat 16 e.time.toNat := by
  rw [deckRead_cnEvent_cons h, ← hu]
  refine ⟨rfl, deckGives_deckReturn (deckRegs_trans (deckRegs_setDk _ _ _) (deckRegs_setDk _ _ _)) rfl _ _, ?_, ?_⟩
  · rw [deckReturn_dk, dk_setDk_ne _ _ (by decide), dk_setDk_self]
  · rw [deckReturn_dk, dk_setDk_self]

theorem deckRead_cnEvent_nil_gives {s u : State} (h : s.deck.cnFifo = [])
    (hu : u = { accessed s with deck := { (accessed s).deck with cnOvf := false } }) :
    s.deckRead DK_CN_EVENT = { u with deck := (s.deckRead DK_CN_EVENT).deck } ∧
      deckGives u (s.deckRead DK_CN_EVENT) DK_CN_EVENT (BitVec.ofNat 16 (32768 * b2n s.deck.cnOvf)) [] := by
  rw [deckRead_cnEvent_nil h, ← hu]
  exact ⟨rfl, deckGives_deckReturn (deckRegs_refl u) rfl _ _⟩

end Sys2Proof.Machine.State

namespace Sys2Proof

open Machine Machine.State Spec

/-- Settles O26: each command is a Deck read of its register, and each register's read by its own rule. -/
theorem deckReadsWithEffects : Obligations.DeckReadsWithEffects := by
  intro s hf
  refine ⟨?_, pairLowRead_timeLo hf, pairLowRead_bellVal hf, fun k hk => rcRead_rc hf hk, fun c hc => ?_⟩
  · rfl
  · have hx : exec c s = .next (s.deckRead DK_CN_EVENT) := by
      rcases hc with rfl | rfl
      · exact cnEventRead_eq hf
      · exact rcRead_eq hf (.inr (.inr rfl))
    exact ⟨fun e l u h hu => ⟨_, hx, deckRead_cnEvent_cons_gives h hu⟩,
      fun h u hu => ⟨_, hx, deckRead_cnEvent_nil_gives h hu⟩⟩

end Sys2Proof
end

section
/-! PROOFS. What entry to BECALMED does, stage by stage (03 R145, R146; 05 R219; 16 R697–R699). -/

namespace Sys2Proof.Machine.State

open Sys2Proof.Spec

/-! ### The stages -/

/-- Bosun's cycles up to the fault. -/
def cyclesPassed (s : State) : State := if s.bosun.run then s.passCycles else s

/-- The fault record, and DK_CAUSE. -/
def faultNoted (s : State) (code : Nat) (d : Word) (addr : Nat) : State :=
  (s.cyclesPassed.recordFault 4 code false d none addr).setCause code

/-- The link, the window access to the peer, and the host's waiting operations end. -/
def hostLost (s : State) : State := s.linkDown.winDown.dropHost

/-- The islands are parked and the I²C transfers stop. -/
def parked (s : State) : State := (s.codes40.i2cStop 0).i2cStop 1

/-- The QSPI reader stops, and its destination holds free values (21 R865). -/
def readerStopped (s : State) : State :=
  match s.dev.reader with
  | some r =>
    let (l, s) := s.drawBytes (4096 * r.n)
    { (s.eccWrite srcHalyard r.dst l).1.setRf MU_QRD_STAT 0 1 0 with dev := { s.dev with reader := none } }
  | none => s

/-- Open CSI-2 frames end, and the outputs take their safe states (03 R146). -/
def outputsSafe (s : State) : State :=
  { s with
    csi := []
    lk := { s.lk with frame := s.lk.frame.map fun f => { f with strobe := false } }
    audio := { s.audio with dac := (0, 0), tx := [] } }

/-- The Capstan's descriptors are gone, Bosun is halted, the port waits for a peer, and nothing runs any more. -/
def halted (s : State) (pair : Bool) : State :=
  { s with
    cap := { s.cap with flights := [] }
    sw := { s.sw with st := .detect, ops := [], inbox := [], tx := none }
    bosun := { s.bosun with wait := none, run := false }
    dev := { s.dev with
      stopping := false, binding := false, bindDest := [], bindStale := false, waking := false, cold := false
      booting := false, wakeKept := false, coreEn := true, tie := some pair
      retained := s.dev.retained && !s.dev.reefing, reefing := false } }

/-- A command that runs finishes with FAILED. -/
def commandFailed (s : State) : State :=
  match s.dev.command with
  | some c => s.finishCmd c.op 5
  | none => s

/-- The device as it stands in BECALMED: halted, its state entered, and the command that ran finished. -/
def becalmedEnd (s : State) (pair : Bool) : State := ((s.halted pair).enter .becalmed).commandFailed

theorem becalm_moored {s : State} (h : s.dev.mode = .moored) (code : Nat) (multi : Bool) (d : Word) (addr : Nat) :
    s.becalm code multi d addr = s := if_pos h

theorem becalm_eq {s : State} (h : canBecalm s) (code : Nat) (d : Word) (addr : Nat) :
    s.becalm code false d addr =
      (s.faultNoted code d addr).hostLost.safeStates.spoilBind.becalmedEnd s.pairRuns := by
  unfold becalm
  rw [if_neg h.1, if_neg h.2]
  rfl

theorem safeStates_eq (s : State) : s.safeStates = s.parked.readerStopped.outputsSafe := rfl

/-! ### The fault is noted -/

theorem deckRegs_of_deck_eq {s t : State} (h : t.deck = s.deck) : deckRegs s t [] :=
  ⟨by rw [h], fun o _ => dk_of_deck_eq h o⟩

theorem cyclesPassed_frame (s : State) : s.cyclesPassed = { s with
    bosun := { s.bosun with cycle := s.cyclesPassed.bosun.cycle }, free := s.cyclesPassed.free } := by
  unfold cyclesPassed
  split
  · exact passCycles_frame s
  · rfl
theorem cyclesPassed_halted {s : State} (h : s.bosun.run = false) : s.cyclesPassed = s := by
  rw [cyclesPassed, h]; rfl
@[simp] theorem cyclesPassed_dev (s : State) : s.cyclesPassed.dev = s.dev := by rw [cyclesPassed_frame]
@[simp] theorem cyclesPassed_deck (s : State) : s.cyclesPassed.deck = s.deck := by rw [cyclesPassed_frame]
@[simp] theorem cyclesPassed_dk (s : State) (o : Nat) : s.cyclesPassed.dk o = s.dk o :=
  dk_of_deck_eq s.cyclesPassed_deck o
@[simp] theorem cyclesPassed_reg (s : State) (a : Nat) : s.cyclesPassed.reg a = s.reg a := by
  rw [cyclesPassed_frame]; rfl

/-- The record of a class F fault without MULTI. -/
theorem recordFault_fatal {s : State} (h : s.dev.mode ≠ .becalmed) (code : Nat) (d : Word) (addr : Nat) :
    s.recordFault 4 code false d none addr =
      ((((((((s.setReg (FT_REC 0) (Word.nat (code + 4 * 256 + (s.dkf DK_FAULT_SEQ 0 16 + 1) % 65536 * 65536))).setReg
        (FT_REC 1) d).setReg (FT_REC 2) 0).setReg (FT_REC 3) (Word.nat addr)).setReg (FT_REC 4) s.deck.ms).setDk
        DK_FAULT_LO (BitVec.ofNat 16 d.toNat)).setDk DK_FAULT_HI (BitVec.ofNat 16 (code + 4 * 256))).setDk
        DK_FAULT_SEQ (BitVec.ofNat 16 ((s.dkf DK_FAULT_SEQ 0 16 + 1) % 65536))) := if_neg h

/-- The registers of a class F fault record. -/
theorem recordFault_fatal_reg {s : State} (h : s.dev.mode ≠ .becalmed) (code : Nat) (d : Word) (addr : Nat) :
    let t := s.recordFault 4 code false d none addr
    t.reg (FT_REC 0) = Word.nat (code + 4 * 256 + (s.dkf DK_FAULT_SEQ 0 16 + 1) % 65536 * 65536) ∧
    t.reg (FT_REC 1) = d ∧ csrKept s t ((List.range 5).map FT_REC) := by
  rw [recordFault_fatal h]
  have hne : ∀ {j k : Nat}, j ≠ k → FT_REC j ≠ FT_REC k := by intro j k; unfold FT_REC; omega
  refine ⟨?_, ?_, fun a ha => ?_⟩
  · simp only [reg_setDk]
    rw [reg_setReg_ne _ _ (hne (by decide)), reg_setReg_ne _ _ (hne (by decide)), reg_setReg_ne _ _ (hne (by decide)),
      reg_setReg_ne _ _ (hne (by decide)), reg_setReg_self]
  · simp only [reg_setDk]
    rw [reg_setReg_ne _ _ (hne (by decide)), reg_setReg_ne _ _ (hne (by decide)), reg_setReg_ne _ _ (hne (by decide)),
      reg_setReg_self]
  · have hk : ∀ k, k < 5 → a ≠ FT_REC k := by
      rintro k hk rfl
      exact ha (List.mem_map_of_mem (List.mem_range.2 hk))
    simp only [reg_setDk]
    rw [reg_setReg_ne _ _ (hk 4 (by decide)), reg_setReg_ne _ _ (hk 3 (by decide)),
      reg_setReg_ne _ _ (hk 2 (by decide)), reg_setReg_ne _ _ (hk 1 (by decide)), reg_setReg_ne _ _ (hk 0 (by decide))]

theorem mirrors_deckRegs (u : State) (x y z : Half) :
    deckRegs u (((u.setDk DK_FAULT_LO x).setDk DK_FAULT_HI y).setDk DK_FAULT_SEQ z)
      [DK_FAULT_LO, DK_FAULT_HI, DK_FAULT_SEQ] :=
  deckRegs_trans (deckRegs_trans (deckRegs_setDk u _ x) (deckRegs_setDk _ _ y)) (deckRegs_setDk _ _ z)

theorem recordFault_fatal_deckRegs {s : State} (h : s.dev.mode ≠ .becalmed) (code : Nat) (d : Word) (addr : Nat) :
    deckRegs s (s.recordFault 4 code false d none addr) [DK_FAULT_LO, DK_FAULT_HI, DK_FAULT_SEQ] := by
  rw [recordFault_fatal h]
  refine deckRegs_trans (l := []) (deckRegs_of_deck_eq ?_) (mirrors_deckRegs _ _ _ _)
  simp only [setReg_deck]

theorem faultNoted_eq {s : State} (h : s.dev.mode ≠ .becalmed) (code : Nat) (d : Word) (addr : Nat) :
    s.faultNoted code d addr = (s.cyclesPassed.recordFault 4 code false d none addr).setDkf DK_CAUSE 0 8 code := by
  have hm : s.cyclesPassed.dev.mode ≠ .becalmed := by rwa [cyclesPassed_dev]
  rw [faultNoted, recordFault_fatal hm]
  exact if_neg hm

theorem faultNoted_frame {s : State} (h : s.dev.mode ≠ .becalmed) (code : Nat) (d : Word) (addr : Nat) :
    s.faultNoted code d addr = { s with
      regs := (s.faultNoted code d addr).regs, deck := (s.faultNoted code d addr).deck
      free := (s.faultNoted code d addr).free
      bosun := { s.bosun with cycle := (s.faultNoted code d addr).bosun.cycle } } := by
  have hu := cyclesPassed_frame s
  have hr := recordFault_frame s.cyclesPassed 4 code false d none addr
  rw [faultNoted_eq h]
  generalize s.cyclesPassed.recordFault 4 code false d none addr = v at *
  rw [hu] at hr
  rw [hr]
  rfl

/-- Bosun's cycles pass only where it executes. -/
theorem faultNoted_cycle {s : State} (h : s.dev.mode ≠ .becalmed) (code : Nat) (d : Word) (addr : Nat)
    (hr : s.bosun.run = false) : (s.faultNoted code d addr).bosun.cycle = s.bosun.cycle := by
  rw [faultNoted_eq h, cyclesPassed_halted hr, recordFault_fatal h]
  rfl

theorem faultNoted_deck {s : State} (h : s.dev.mode ≠ .becalmed) {code : Nat} (hc : code < 256) (d : Word)
    (addr : Nat) :
    let t := s.faultNoted code d addr
    deckRegs s t [DK_FAULT_LO, DK_FAULT_HI, DK_FAULT_SEQ, DK_CAUSE] ∧ t.dkf DK_CAUSE 0 8 = code ∧
    t.dk DK_FAULT_LO = BitVec.ofNat 16 d.toNat ∧ t.dk DK_FAULT_HI = BitVec.ofNat 16 (code + 4 * 256) ∧
    t.dk DK_FAULT_SEQ = BitVec.ofNat 16 ((s.dkf DK_FAULT_SEQ 0 16 + 1) % 65536) := by
  have hm : s.cyclesPassed.dev.mode ≠ .becalmed := by rwa [cyclesPassed_dev]
  have hd := deckRegs_trans (deckRegs_of_deck_eq s.cyclesPassed_deck) (recordFault_fatal_deckRegs hm code d addr)
  obtain ⟨hlo, hhi, hseq⟩ := recordFault_mirror s.cyclesPassed 4 code false d none addr hm
  rw [dkf, cyclesPassed_dk] at hseq
  rw [faultNoted_eq h]
  generalize s.cyclesPassed.recordFault 4 code false d none addr = v at *
  refine ⟨deckRegs_trans hd (deckRegs_setDk _ _ _), ?_, ?_, ?_, ?_⟩
  · rw [dkf_setDkf_self _ _ _ _ _ (by decide)]
    exact Nat.mod_eq_of_lt hc
  · rw [dk_setDkf_ne _ _ _ _ (by decide), hlo]
  · rw [dk_setDkf_ne _ _ _ _ (by decide), hhi]
  · rw [dk_setDkf_ne _ _ _ _ (by decide), hseq]
    rfl

theorem faultNoted_reg {s : State} (h : s.dev.mode ≠ .becalmed) (code : Nat) (d : Word) (addr : Nat) :
    let t := s.faultNoted code d addr
    t.reg (FT_REC 0) = Word.nat (code + 4 * 256 + (s.dkf DK_FAULT_SEQ 0 16 + 1) % 65536 * 65536) ∧
    t.reg (FT_REC 1) = d ∧ csrKept s t ((List.range 5).map FT_REC) := by
  have hm : s.cyclesPassed.dev.mode ≠ .becalmed := by rwa [cyclesPassed_dev]
  obtain ⟨h0, h1, hk⟩ := recordFault_fatal_reg hm code d addr
  rw [dkf, cyclesPassed_dk] at h0
  rw [faultNoted_eq h]
  exact ⟨h0, h1, fun a ha => (hk a ha).trans (cyclesPassed_reg s a)⟩

/-! ### The host's side ends -/

theorem linkDown_deckRegs (s : State) : deckRegs s s.linkDown [DK_IRQ_RAW] := by
  refine ⟨?_, fun o ho => linkDown_dk s (by simpa using ho)⟩
  by_cases hl : s.sw.linked = true
  · rw [linkDown_deck s hl]
    rfl
  · rw [linkDown_of_not s hl]

/-- The port after the link is down and the operations in hand have gone (20 R814, R836). -/
theorem linkDown_port (s : State) :
    ({ s.linkDown.sw with st := .detect, ops := [], inbox := [], tx := none } : Sweade) = portDropped s.sw := by
  unfold linkDown portDropped
  by_cases hl : s.sw.linked = true
  · rw [if_pos hl, if_pos hl]
    rfl
  · rw [if_neg hl, if_neg hl]

theorem winDown_deck (s : State) : s.winDown.deck = { s.deck with
    regs := s.winDown.deck.regs, win := s.winDown.deck.win, data := s.winDown.deck.data
    readHold := s.winDown.deck.readHold } := by
  unfold winDown
  split
  · split
    · dsimp only
      split
      · rfl
      · unfold winReturn deckReturn
        dsimp only
        split <;> rfl
    · rfl
  · rfl

theorem winDown_idle {s : State} (h : s.deck.win = none) : s.winDown = s := by
  rw [winDown, h]

theorem hostLost_frame (s : State) :
    s.hostLost = { s with regs := s.linkDown.regs, deck := s.hostLost.deck, sw := s.linkDown.sw } := by
  have h1 := linkDown_frame s
  have h2 := winDown_frame s.linkDown
  have h3 := dropHost_frame s.linkDown.winDown
  unfold hostLost
  generalize s.linkDown.winDown.dropHost = w at *
  generalize s.linkDown.winDown = v at *
  generalize s.linkDown = u at *
  rw [h2, h1] at h3
  exact h3

theorem hostLost_deck (s : State) :
    s.hostLost.deck = { s.deck with
      regs := s.hostLost.deck.regs, win := s.hostLost.deck.win, doors := s.hostLost.deck.doors
      data := s.hostLost.deck.data, readHold := s.hostLost.deck.readHold } ∧
    s.hostLost.deck.doors = s.deck.doors.filter fun d => match d with | .door _ _ => true | _ => false := by
  have h1 := (linkDown_deckRegs s).1
  have h2 := winDown_deck s.linkDown
  unfold hostLost dropHost
  dsimp only
  rw [h1] at h2
  generalize s.linkDown.winDown.deck = k at *
  rw [h2]
  exact ⟨rfl, rfl⟩

theorem hostLost_dk (s : State) {o : Nat} (h : o ∉ [DK_WIN_DATA, DK_WIN_DATA_HI, DK_WIN_CTRL, DK_IRQ_RAW]) :
    s.hostLost.dk o = s.dk o :=
  (winDown_dk s.linkDown h).trans (linkDown_dk s (by simp only [List.mem_cons, not_or] at h; tauto))

/-- Without a window access, the link's latch alone changes among the Deck's registers. -/
theorem hostLost_idle {s : State} (h : s.deck.win = none) :
    s.hostLost.deck.win = none ∧ s.hostLost.deck.data = s.deck.data ∧ s.hostLost.deck.readHold = s.deck.readHold ∧
    deckKept s s.hostLost [DK_IRQ_RAW] := by
  obtain ⟨hd, hk⟩ := linkDown_deckRegs s
  have hw : s.linkDown.deck.win = none := by rw [hd]; exact h
  unfold hostLost
  rw [winDown_idle hw]
  refine ⟨?_, ?_, ?_, fun o ho => (dropHost_dk _ o).trans (hk o ho)⟩
  · change s.linkDown.deck.win.map _ = none
    rw [hw]
    rfl
  · change s.linkDown.deck.data = _
    rw [hd]
  · change s.linkDown.deck.readHold = _
    rw [hd]

theorem hostLost_csrKept (s : State) : csrKept s s.hostLost [SW_CNT1] := fun a ha => by
  rw [reg_of_regs_eq (t := s.hostLost) (s := s.linkDown) (by rw [hostLost_frame]) a, linkDown_reg s (by simpa using ha)]

/-! ### The islands are parked and I²C stops -/

/-- One island goes to code 40. -/
def parkIsland (s : State) (i : Nat) : State :=
  { s.setReg (TR_ISL i) (putFld (putFld (s.reg (TR_ISL i)) 0 6 40) 8 2 0) with
    trim := { s.trim with
      islands := Store.set {} s.trim.islands i { Store.get {} s.trim.islands i with streak := 0, low := 0 } } }

theorem codes40_eq (s : State) : s.codes40 = (List.range 8).foldl parkIsland s := rfl

theorem codes40_trim (s : State) : s.codes40.trim = { s.trim with islands := s.codes40.trim.islands } := by
  rw [codes40_eq]
  refine foldl_keeps (fun t : State => t.trim = { s.trim with islands := t.trim.islands }) _ (fun t i h => ?_) _ _ rfl
  exact congrArg (fun x : Trim => { x with islands := (t.parkIsland i).trim.islands }) h

/-- After the first `n` islands are parked, these and no others read code 40. -/
theorem parkIslands_isl (s : State) (n i : Nat) :
    ((List.range n).foldl parkIsland s).reg (TR_ISL i) =
      if i < n then putFld (putFld (s.reg (TR_ISL i)) 0 6 40) 8 2 0 else s.reg (TR_ISL i) := by
  induction n with
  | zero => rfl
  | succ n ih =>
    rw [List.range_succ, List.foldl_append, List.foldl_cons, List.foldl_nil]
    generalize (List.range n).foldl parkIsland s = u at ih ⊢
    rcases eq_or_ne i n with rfl | hne
    · rw [if_neg (lt_irrefl i)] at ih
      rw [if_pos (Nat.lt_succ_self i), ← ih]
      exact reg_setReg_self u _ _
    · have hu : (u.parkIsland n).reg (TR_ISL i) = u.reg (TR_ISL i) := reg_setReg_ne u _ (by unfold TR_ISL; omega)
      rw [hu, ih]
      exact if_congr (by omega) rfl rfl

theorem codes40_isl (s : State) {i : Nat} (hi : i < 8) :
    s.codes40.reg (TR_ISL i) = putFld (putFld (s.reg (TR_ISL i)) 0 6 40) 8 2 0 :=
  (parkIslands_isl s 8 i).trans (if_pos hi)

theorem i2cStop_frame (s : State) (c : Nat) : s.i2cStop c = { s with
    regs := (s.i2cStop c).regs, i2c := (s.i2cStop c).i2c, i2cOut := (s.i2cStop c).i2cOut
    free := (s.i2cStop c).free } :=
  (i2cStop_spec s c).1

theorem i2cCut_idle {s : State} {c : Nat} (h : s.i2cRun c = none) (stop : Bool) : s.i2cCut c stop = (0, s) := by
  rw [i2cCut, h]

theorem i2cCut_regs (s : State) (c : Nat) (stop : Bool) : (s.i2cCut c stop).2.regs = s.regs := by
  unfold i2cCut
  split <;> rfl

/-- A controller that stops has no transfer. -/
theorem i2cCut_run (s : State) (c : Nat) (stop : Bool) : (s.i2cCut c stop).2.i2cRun c = none := by
  cases h : s.i2cRun c with
  | none => rw [i2cCut_idle h, h]
  | some r =>
    rw [i2cCut, h]
    exact Store.get_set_self _ _ _ _

theorem i2cCut_other (s : State) {c e : Nat} (he : e ≠ c) (stop : Bool) :
    (s.i2cCut c stop).2.i2cRun e = s.i2cRun e ∧
    Store.get [] (s.i2cCut c stop).2.i2cOut e = Store.get [] s.i2cOut e := by
  cases h : s.i2cRun c with
  | none => rw [i2cCut_idle h]; exact ⟨rfl, rfl⟩
  | some r =>
    rw [i2cCut, h]
    exact ⟨Store.get_set_ne _ _ _ he, Store.get_set_ne _ _ _ he⟩

/-- A controller that stops does not read BUSY, and one without a transfer leaves its lines. -/
theorem i2cStop_self (s : State) (c : Nat) :
    (s.i2cStop c).i2cRun c = none ∧ (s.i2cStop c).rbit (I2C c + 0x18) 0 = false ∧
    (s.i2cRun c = none → Store.get [] (s.i2cStop c).i2cOut c = Store.get [] s.i2cOut c) := by
  obtain ⟨u, hu, hbit, hrun, hout⟩ : ∃ u : State, s.i2cStop c = (u.i2cCut c false).2 ∧
      u.rbit (I2C c + 0x18) 0 = false ∧ u.i2cRun c = s.i2cRun c ∧ u.i2cOut = s.i2cOut := by
    refine ⟨_, rfl, ?_, ?_, ?_⟩
    · split
      · rw [rbit, rf_setRf_self _ _ _ _ _ (by decide)]
        rfl
      · next h => simpa using h
    · split <;> rfl
    · split <;> rfl
  rw [hu]
  refine ⟨i2cCut_run u c false, ?_, fun h => ?_⟩
  · rw [rbit, rf, reg_of_regs_eq (i2cCut_regs u c false)]
    exact hbit
  · rw [i2cCut_idle (hrun.trans h), hout]

theorem i2cStop_other (s : State) {c e : Nat} (he : e ≠ c) :
    (s.i2cStop c).i2cRun e = s.i2cRun e ∧ Store.get [] (s.i2cStop c).i2cOut e = Store.get [] s.i2cOut e := by
  unfold i2cStop
  dsimp only
  split
  · exact i2cCut_other _ he false
  · exact i2cCut_other s he false

theorem parked_frame (s : State) : s.parked = { s with
    regs := s.parked.regs, free := s.parked.free, trim := { s.trim with islands := s.parked.trim.islands }
    i2c := s.parked.i2c, i2cOut := s.parked.i2cOut } := by
  have ht := codes40_trim s
  have h0 := (codes40_spec s).2.2
  have h1 := i2cStop_frame s.codes40 0
  have h2 := i2cStop_frame (s.codes40.i2cStop 0) 1
  unfold parked
  generalize (s.codes40.i2cStop 0).i2cStop 1 = v at *
  generalize s.codes40.i2cStop 0 = u at *
  generalize s.codes40 = c at *
  rw [ht] at h0
  rw [h0] at h1
  rw [h1] at h2
  rw [h2]

/-- Parking leaves every register but those of the islands and the I²C status. -/
theorem parked_csrKept (s : State) :
    csrKept s s.parked ((List.range 8).map TR_ISL ++ [I2C 0 + 0x18, I2C 1 + 0x18]) := by
  intro a ha
  simp only [List.mem_append, List.mem_cons, List.not_mem_nil, or_false, not_or] at ha
  obtain ⟨hisl, h0, h1⟩ := ha
  have hi : ∀ i, i < 8 → a ≠ TR_ISL i := by
    rintro i hi rfl
    exact hisl (List.mem_map_of_mem (List.mem_range.2 hi))
  unfold parked
  rw [(i2cStop_spec _ 1).2 a h1, (i2cStop_spec _ 0).2 a h0, (codes40_spec s).2.1 a hi]

theorem parked_isl (s : State) {i : Nat} (hi : i < 8) :
    s.parked.reg (TR_ISL i) = putFld (putFld (s.reg (TR_ISL i)) 0 6 40) 8 2 0 := by
  have hne : ∀ c, TR_ISL i ≠ I2C c + 0x18 := by
    intro c
    unfold TR_ISL I2C
    split <;> omega
  unfold parked
  rw [(i2cStop_spec _ 1).2 _ (hne 1), (i2cStop_spec _ 0).2 _ (hne 0), codes40_isl s hi]

theorem parked_i2c (s : State) {c : Nat} (hc : c < 2) :
    s.parked.i2cRun c = none ∧ s.parked.rbit (I2C c + 0x18) 0 = false ∧
    (s.i2cRun c = none → Store.get [] s.parked.i2cOut c = Store.get [] s.i2cOut c) := by
  have h0 := (codes40_spec s).2.2
  have hi2c : s.codes40.i2c = s.i2c := by rw [h0]
  have hrun : ∀ e, s.codes40.i2cRun e = s.i2cRun e := fun e => congrArg (Store.get none · e) hi2c
  have hout : s.codes40.i2cOut = s.i2cOut := by rw [h0]
  unfold parked
  obtain rfl | rfl : c = 0 ∨ c = 1 := by omega
  · obtain ⟨h1, h2, h3⟩ := i2cStop_self s.codes40 0
    obtain ⟨k1, k3⟩ := i2cStop_other (s.codes40.i2cStop 0) (c := 1) (e := 0) (by decide)
    refine ⟨k1.trans h1, ?_, fun h => ?_⟩
    · rw [rbit, rf, (i2cStop_spec _ 1).2 _ (by decide)]
      exact h2
    · rw [k3, h3 ((hrun 0).trans h), hout]
  · obtain ⟨h1, h2, h3⟩ := i2cStop_self (s.codes40.i2cStop 0) 1
    obtain ⟨k1, k3⟩ := i2cStop_other s.codes40 (c := 0) (e := 1) (by decide)
    refine ⟨h1, h2, fun h => ?_⟩
    rw [h3 (k1.trans ((hrun 1).trans h)), k3, hout]

/-! ### What the reader and BIND were placing -/

/-- A write of free values changes memory, its code words, their registers and those of the write's refusal alone. -/
def PlaceStep (s t : State) : Prop :=
  t = { s with mem := t.mem, ecc := t.ecc, regs := t.regs, free := t.free, inject := t.inject } ∧
  ∀ a, eccReg a = false → a ∉ [CN_STAT, MU_QRD_STAT] → t.reg a = s.reg a

theorem PlaceStep.refl (s : State) : PlaceStep s s := ⟨rfl, fun _ _ _ => rfl⟩

theorem PlaceStep.trans {s t u : State} (h : PlaceStep s t) (k : PlaceStep t u) : PlaceStep s u := by
  obtain ⟨h1, h2⟩ := h
  obtain ⟨k1, k2⟩ := k
  refine ⟨?_, fun a ha hc => (k2 a ha hc).trans (h2 a ha hc)⟩
  rw [h1] at k1
  exact k1

theorem MemStep.place {s t : State} (h : MemStep s t) : PlaceStep s t := ⟨h.1, fun a ha _ => h.2 a ha⟩

theorem PlaceStep.eccWrite (s : State) (src a : Nat) (l : List Byte) : PlaceStep s (s.eccWrite src a l).1 :=
  ⟨eccWrite_frame s src a l, fun _ hb hc => eccWrite_reg s src a l hb fun h => hc (h ▸ List.mem_cons_self)⟩

theorem PlaceStep.drawn (s : State) (src a n : Nat) :
    PlaceStep s ((s.drawBytes n).2.eccWrite src a (s.drawBytes n).1).1 :=
  (MemStep.drawBytes s n).place.trans (.eccWrite _ src a _)

theorem PlaceStep.qrdStat (s : State) (x : Nat) : PlaceStep s (s.setRf MU_QRD_STAT 0 1 x) :=
  ⟨rfl, fun _ _ hc => reg_setRf_ne s 0 1 x fun h => hc (h ▸ by simp)⟩

theorem readerStopped_idle {s : State} (h : s.dev.reader = none) : s.readerStopped = s := by
  rw [readerStopped, h]

theorem readerStopped_place (s : State) :
    ∃ u, PlaceStep s u ∧ s.readerStopped = { u with dev := { s.dev with reader := none } } := by
  cases h : s.dev.reader with
  | none =>
    refine ⟨s, .refl s, ?_⟩
    rw [readerStopped_idle h, ← h]
  | some r =>
    have hd := congrArg State.dev (MemStep.drawBytes s (4096 * r.n)).1
    have hp := PlaceStep.drawn s srcHalyard r.dst (4096 * r.n)
    rw [readerStopped, h]
    dsimp only at hd ⊢
    generalize s.drawBytes (4096 * r.n) = x at hd hp ⊢
    rw [← hd]
    exact ⟨_, hp.trans (.qrdStat _ 0), rfl⟩

theorem spoilBind_idle {s : State} (h : s.dev.bindDest = []) : s.spoilBind = s := (spoilBind_spec s).2.2 h

theorem spoilBind_place (s : State) : PlaceStep s s.spoilBind :=
  foldl_keeps (PlaceStep s) _ (fun u e h => h.trans (.drawn u srcBind e.1 e.2)) _ _ (.refl s)

/-- The units stopped: `u` holds what the writes of free values leave, the parked state itself where there are none. -/
theorem unitsStopped_spec (s : State) :
    ∃ u, PlaceStep s.parked u ∧ (s.dev.reader = none → s.dev.bindDest = [] → u = s.parked) ∧
      s.safeStates.spoilBind = { u with
        csi := [], lk := { s.lk with frame := s.lk.frame.map fun f => { f with strobe := false } }
        audio := { s.audio with dac := (0, 0), tx := [] }, dev := { s.dev with reader := none } } := by
  have hpf := parked_frame s
  have hdev : s.parked.dev = s.dev := by rw [hpf]
  have hlk : s.parked.lk = s.lk := by rw [hpf]
  have haudio : s.parked.audio = s.audio := by rw [hpf]
  obtain ⟨v, ⟨hv, hvr⟩, hread⟩ := readerStopped_place s.parked
  obtain ⟨hx, hxr⟩ := spoilBind_place s.safeStates
  have hidle : s.dev.reader = none → s.dev.bindDest = [] → s.safeStates.spoilBind = s.parked.outputsSafe := by
    intro hr hb
    rw [← hdev] at hr hb
    have he : s.safeStates = s.parked.outputsSafe := by rw [safeStates_eq, readerStopped_idle hr]
    rw [he]
    exact spoilBind_idle hb
  have hw : s.safeStates = ({ v with dev := { s.dev with reader := none } } : State).outputsSafe := by
    rw [safeStates_eq, hread, hdev]
  have hreg : ∀ a, s.safeStates.reg a = v.reg a := fun a => by rw [hw]; rfl
  generalize s.safeStates.spoilBind = x at *
  refine ⟨{ s.parked with mem := x.mem, ecc := x.ecc, regs := x.regs, free := x.free, inject := x.inject },
    ⟨rfl, fun a ha hc => ?_⟩, fun hr hb => ?_, ?_⟩
  · exact (hxr a ha hc).trans ((hreg a).trans (hvr a ha hc))
  · rw [hidle hr hb]
    rfl
  · rw [hw, hv] at hx
    rw [← hlk, ← haudio]
    exact hx

/-! ### The device is halted -/

theorem enter_becalmed (s : State) : s.enter .becalmed = ({ s with
    dev := { s.dev with mode := .becalmed, hail := { s.dev.hail with count := 0 } }
    lk := { s.lk with frame := s.lk.frame.map fun f => frameEnters f .becalmed } } : State).raise irqSTATE := by
  unfold enter
  simp

/-- A latch that is set stays set as a source is raised. -/
theorem dkbit_raise_of_set {s : State} {i j : Nat} (hi : i < 16) (h : s.dkbit DK_IRQ_RAW j = true) :
    (s.raise i).dkbit DK_IRQ_RAW j = true := by
  rcases eq_or_ne i j with rfl | hne
  · exact dkbit_raise s i hi
  · rw [dkbit, raise, dkf_setDkf_ne _ _ _ _ _ _ _ (by omega)]
    exact h

theorem deckRegs_raise (s : State) (i : Nat) : deckRegs s (s.raise i) [DK_IRQ_RAW] := deckRegs_setDk s _ _

theorem commandFailed_none {s : State} (h : s.dev.command = none) : s.commandFailed = s := by
  rw [commandFailed, h]

theorem commandFailed_some {s : State} {c : Command} (h : s.dev.command = some c) :
    s.commandFailed = s.finishCmd c.op 5 := by
  rw [commandFailed, h]

theorem commandFailed_frame (s : State) :
    s.commandFailed = { s with dev := { s.dev with command := none }, deck := s.commandFailed.deck } := by
  cases h : s.dev.command with
  | none => rw [commandFailed_none h, ← h]
  | some c => rw [commandFailed_some h]; exact finishCmd_frame s c.op 5

theorem finishCmd_deckRegs (s : State) (op r : Nat) : deckRegs s (s.finishCmd op r) [DK_CMDSTAT, DK_IRQ_RAW] :=
  deckRegs_trans (deckRegs_setDk ({ s with dev := { s.dev with command := none } } : State) DK_CMDSTAT _)
    (deckRegs_raise _ _)

theorem commandFailed_deckRegs (s : State) : deckRegs s s.commandFailed [DK_CMDSTAT, DK_IRQ_RAW] := by
  cases h : s.dev.command with
  | none =>
    rw [commandFailed_none h]
    exact ⟨rfl, fun _ _ => rfl⟩
  | some c => rw [commandFailed_some h]; exact finishCmd_deckRegs s c.op 5

theorem commandFailed_latch {s : State} {i : Nat} (h : s.dkbit DK_IRQ_RAW i = true) :
    s.commandFailed.dkbit DK_IRQ_RAW i = true := by
  cases hc : s.dev.command with
  | none => rwa [commandFailed_none hc]
  | some c =>
    rw [commandFailed_some hc, finishCmd]
    refine dkbit_raise_of_set (by decide) ?_
    rw [dkbit, dkf, dk_setDk_ne _ _ (by decide)]
    exact h

theorem becalmedEnd_frame (s : State) (pair : Bool) : s.becalmedEnd pair = { s with
    cap := { s.cap with flights := [] }
    sw := { s.sw with st := .detect, ops := [], inbox := [], tx := none }
    bosun := { s.bosun with wait := none, run := false }
    dev := { s.dev with
      mode := .becalmed, hail := { s.dev.hail with count := 0 }, stopping := false, binding := false, bindDest := []
      bindStale := false, waking := false, cold := false, booting := false, wakeKept := false, coreEn := true
      tie := some pair, retained := s.dev.retained && !s.dev.reefing, reefing := false, command := none }
    lk := { s.lk with frame := s.lk.frame.map fun f => frameEnters f .becalmed }
    deck := (s.becalmedEnd pair).deck } := by
  have h := commandFailed_frame ((s.halted pair).enter .becalmed)
  unfold becalmedEnd
  generalize ((s.halted pair).enter .becalmed).commandFailed = t at *
  rw [enter_becalmed] at h
  exact h

theorem enter_halted_deckRegs (s : State) (pair : Bool) :
    deckRegs s ((s.halted pair).enter .becalmed) [DK_IRQ_RAW] := by
  rw [enter_becalmed]
  exact deckRegs_raise _ _

theorem becalmedEnd_deckRegs (s : State) (pair : Bool) : deckRegs s (s.becalmedEnd pair) [DK_CMDSTAT, DK_IRQ_RAW] := by
  obtain ⟨hd, hk⟩ := deckRegs_trans (enter_halted_deckRegs s pair) (commandFailed_deckRegs _)
  exact ⟨hd, fun o ho => hk o (by simp only [List.mem_cons, List.mem_append] at ho ⊢; tauto)⟩

theorem becalmedEnd_state (s : State) (pair : Bool) : (s.becalmedEnd pair).dkbit DK_IRQ_RAW irqSTATE = true := by
  unfold becalmedEnd
  rw [enter_becalmed]
  exact commandFailed_latch (dkbit_raise _ _ (by decide))

/-- A command that ran reports FAILED (05 R219; log 31). -/
theorem becalmedEnd_some {s : State} {c : Command} (h : s.dev.command = some c) (pair : Bool) :
    (s.becalmedEnd pair).dk DK_CMDSTAT = BitVec.ofNat 16 (0x52 + c.op * 256) ∧
    (s.becalmedEnd pair).dkbit DK_IRQ_RAW irqCMD = true := by
  have hc : ((s.halted pair).enter .becalmed).dev.command = some c := (enter_command _ _).trans h
  rw [becalmedEnd, commandFailed_some hc]
  exact ⟨finishCmd_stat _ _ _, dkbit_raise _ _ (by decide)⟩

theorem becalmedEnd_none {s : State} (h : s.dev.command = none) (pair : Bool) :
    (s.becalmedEnd pair).dk DK_CMDSTAT = s.dk DK_CMDSTAT := by
  have hc : ((s.halted pair).enter .becalmed).dev.command = none := (enter_command _ _).trans h
  rw [becalmedEnd, commandFailed_none hc]
  exact (enter_halted_deckRegs s pair).2 _ (by decide)

/-! ### Entry to BECALMED as a whole -/

theorem becalm_frame {s : State} (h : canBecalm s) (code : Nat) (d : Word) (addr : Nat) :
    let t := s.becalm code false d addr
    t = { s with
      regs := t.regs, deck := t.deck, mem := t.mem, ecc := t.ecc, inject := t.inject, free := t.free
      cap := { s.cap with flights := [] }, bosun := { s.bosun with cycle := t.bosun.cycle, wait := none, run := false }
      dev := { s.dev with
        mode := .becalmed, hail := { s.dev.hail with count := 0 }, stopping := false, binding := false, bindDest := []
        bindStale := false, waking := false, cold := false, booting := false, wakeKept := false, coreEn := true
        tie := some s.pairRuns, retained := s.dev.retained && !s.dev.reefing, reefing := false, reader := none
        command := none }
      sw := portDropped s.sw
      trim := { s.trim with islands := t.trim.islands }, i2c := t.i2c, i2cOut := t.i2cOut, csi := []
      lk := { s.lk with frame := s.lk.frame.map fun f => frameEnters { f with strobe := false } .becalmed }
      audio := { s.audio with dac := (0, 0), tx := [] } } := by
  have hu := faultNoted_frame h.2 code d addr
  rw [becalm_eq h]
  generalize s.faultNoted code d addr = u at *
  have hv := hostLost_frame u
  have hport := linkDown_port u
  generalize u.hostLost = v at *
  have hk := parked_frame v
  obtain ⟨p, ⟨hp, -⟩, -, hx⟩ := unitsStopped_spec v
  generalize v.safeStates.spoilBind = x at *
  have ht := becalmedEnd_frame x s.pairRuns
  generalize x.becalmedEnd s.pairRuns = t at *
  generalize v.parked = k at *
  have hsw : u.sw = s.sw := by rw [hu]
  rw [hsw] at hport
  generalize u.linkDown = w at *
  rw [hu] at hv
  rw [hv] at hk
  rw [hk] at hp
  rw [hp, hv] at hx
  rw [hx] at ht
  rw [← hport]
  simp only [Option.map_map] at ht
  rw [ht]
  rfl

/-- Bosun's cycles pass only where it executes (14 R613). -/
theorem becalm_cycle {s : State} (h : canBecalm s) (code : Nat) (d : Word) (addr : Nat) (hr : s.bosun.run = false) :
    (s.becalm code false d addr).bosun.cycle = s.bosun.cycle := by
  have hu := faultNoted_cycle h.2 code d addr hr
  rw [becalm_eq h]
  generalize s.faultNoted code d addr = u at *
  have hv : u.hostLost.bosun = u.bosun := by rw [hostLost_frame]
  generalize u.hostLost = v at *
  have hk : v.parked.bosun = v.bosun := by rw [parked_frame]
  obtain ⟨p, ⟨hp, -⟩, -, hx⟩ := unitsStopped_spec v
  have hxb : v.safeStates.spoilBind.bosun = v.bosun := by rw [hx, hp, hk]
  have ht := congrArg (fun t : State => t.bosun.cycle) (becalmedEnd_frame v.safeStates.spoilBind s.pairRuns)
  dsimp only at ht
  rw [ht, hxb, hv, hu]

/-- The Deck's part and its marks of the fault (05 R219, R234). -/
theorem becalm_deck {s : State} (h : canBecalm s) {code : Nat} (hc : code < 256) (d : Word) (addr : Nat) :
    let t := s.becalm code false d addr
    (t.deck = { s.deck with regs := t.deck.regs, win := t.deck.win, doors := t.deck.doors
                            data := t.deck.data, readHold := t.deck.readHold } ∧
      t.deck.doors = s.deck.doors.filter fun d => match d with | .door _ _ => true | _ => false) ∧
    (s.deck.win = none → t.deck.win = none ∧ t.deck.data = s.deck.data ∧ t.deck.readHold = s.deck.readHold ∧
      deckKept s t [DK_CAUSE, DK_FAULT_LO, DK_FAULT_HI, DK_FAULT_SEQ, DK_CMDSTAT, DK_IRQ_RAW]) ∧
    t.dkf DK_CAUSE 0 8 = code ∧ t.dk DK_FAULT_LO = BitVec.ofNat 16 d.toNat ∧
    t.dk DK_FAULT_HI = BitVec.ofNat 16 (code + 4 * 256) ∧
    t.dk DK_FAULT_SEQ = BitVec.ofNat 16 ((s.dkf DK_FAULT_SEQ 0 16 + 1) % 65536) := by
  obtain ⟨⟨hu, huk⟩, hcause, hlo, hhi, hseq⟩ := faultNoted_deck h.2 hc d addr
  rw [becalm_eq h]
  generalize s.faultNoted code d addr = u at *
  obtain ⟨hv, hdoors⟩ := hostLost_deck u
  have hidle := @hostLost_idle u
  have hvk := fun o => @hostLost_dk u o
  generalize u.hostLost = v at *
  obtain ⟨p, ⟨hp, -⟩, -, hx⟩ := unitsStopped_spec v
  have hxd : v.safeStates.spoilBind.deck = v.deck := by rw [hx, hp, parked_frame]
  generalize v.safeStates.spoilBind = x at *
  obtain ⟨ht, htk⟩ := becalmedEnd_deckRegs x s.pairRuns
  generalize x.becalmedEnd s.pairRuns = t at *
  have hk : ∀ o, o ∉ [DK_CMDSTAT, DK_IRQ_RAW] → t.dk o = v.dk o := fun o ho => (htk o ho).trans (dk_of_deck_eq hxd o)
  have hm : ∀ o, o ∉ [DK_CMDSTAT, DK_IRQ_RAW, DK_WIN_DATA, DK_WIN_DATA_HI, DK_WIN_CTRL] → t.dk o = u.dk o := by
    intro o ho
    simp only [List.mem_cons, List.not_mem_nil, or_false, not_or] at ho hk hvk
    rw [hk o (by tauto), hvk o (by tauto)]
  rw [hxd] at ht
  refine ⟨⟨?_, ?_⟩, fun hw => ?_, ?_, ?_, ?_, ?_⟩
  · rw [hu] at hv
    rw [hv] at ht
    rw [ht]
  · rw [ht, hdoors, hu]
  · obtain ⟨hwin, hdata, hhold, hikept⟩ := hidle (by rw [hu]; exact hw)
    refine ⟨by rw [ht]; exact hwin, by rw [ht]; exact hdata.trans (by rw [hu]),
      by rw [ht]; exact hhold.trans (by rw [hu]), fun o ho => ?_⟩
    simp only [deckKept, List.mem_cons, List.not_mem_nil, or_false, not_or] at ho hk hikept huk
    rw [hk o (by tauto), hikept o (by tauto), huk o (by tauto)]
  · rw [dkf, hm _ (by decide)]
    exact hcause
  · rw [hm _ (by decide), hlo]
  · rw [hm _ (by decide), hhi]
  · rw [hm _ (by decide), hseq]

/-- A command that runs finishes with FAILED, and the STATE source is raised (03 R134; 05 R219; log 31). -/
theorem becalm_command {s : State} (h : canBecalm s) {code : Nat} (hc : code < 256) (d : Word) (addr : Nat) :
    let t := s.becalm code false d addr
    t.dkbit DK_IRQ_RAW irqSTATE = true ∧
    (match s.dev.command with
      | some c => t.dk DK_CMDSTAT = BitVec.ofNat 16 (0x52 + c.op * 256) ∧ t.dkbit DK_IRQ_RAW irqCMD = true
      | none => t.dk DK_CMDSTAT = s.dk DK_CMDSTAT) := by
  have hu := faultNoted_frame h.2 code d addr
  obtain ⟨⟨-, huk⟩, -⟩ := faultNoted_deck h.2 hc d addr
  rw [becalm_eq h]
  generalize s.faultNoted code d addr = u at *
  have hv := hostLost_frame u
  have hvk := hostLost_dk u (o := DK_CMDSTAT) (by decide)
  generalize u.hostLost = v at *
  obtain ⟨p, ⟨hp, -⟩, -, hx⟩ := unitsStopped_spec v
  have hxd : v.safeStates.spoilBind.deck = v.deck := by rw [hx, hp, parked_frame]
  have hxc : v.safeStates.spoilBind.dev.command = s.dev.command := by rw [hx, hv, hu]
  generalize v.safeStates.spoilBind = x at *
  refine ⟨becalmedEnd_state x s.pairRuns, ?_⟩
  cases hcmd : s.dev.command with
  | none =>
    rw [hcmd] at hxc
    exact (becalmedEnd_none hxc _).trans ((dk_of_deck_eq hxd _).trans (hvk.trans (huk _ (by decide))))
  | some c =>
    rw [hcmd] at hxc
    exact becalmedEnd_some hxc _

/-! ### The registers -/

/-- The fault record lies apart from what the link, parking and a write of free values change. -/
theorem ftRec_apart {k : Nat} (hk : k < 5) :
    (eccReg (FT_REC k) = false ∧ FT_REC k ∉ [CN_STAT, MU_QRD_STAT]) ∧ FT_REC k ≠ SW_CNT1 ∧
    FT_REC k ∉ (List.range 8).map TR_ISL ++ [I2C 0 + 0x18, I2C 1 + 0x18] := by
  interval_cases k <;> decide

theorem trIsl_apart {i : Nat} (hi : i < 8) :
    (eccReg (TR_ISL i) = false ∧ TR_ISL i ∉ [CN_STAT, MU_QRD_STAT]) ∧ TR_ISL i ≠ SW_CNT1 ∧
    TR_ISL i ∉ (List.range 5).map FT_REC := by
  interval_cases i <;> decide

theorem i2cStat_apart {c : Nat} (hc : c < 2) :
    eccReg (I2C c + 0x18) = false ∧ I2C c + 0x18 ∉ [CN_STAT, MU_QRD_STAT] := by
  interval_cases c <;> decide

/-- The device with its units stopped, before it is halted: the last state of its registers and memory. -/
theorem becalmedEnd_units (v : State) (pair : Bool) : let t := v.safeStates.spoilBind.becalmedEnd pair
    (∀ a, eccReg a = false ∧ a ∉ [CN_STAT, MU_QRD_STAT] → t.reg a = v.parked.reg a) ∧
    t.i2c = v.parked.i2c ∧ t.i2cOut = v.parked.i2cOut ∧
    (v.dev.reader = none → v.dev.bindDest = [] →
      t.mem = v.mem ∧ t.ecc = v.ecc ∧ t.inject = v.inject ∧ t.regs = v.parked.regs) := by
  obtain ⟨p, ⟨hp, hpr⟩, hidle, hx⟩ := unitsStopped_spec v
  have ht := becalmedEnd_frame v.safeStates.spoilBind pair
  have hk := parked_frame v
  generalize v.safeStates.spoilBind.becalmedEnd pair = t at *
  generalize v.safeStates.spoilBind = x at *
  rw [hx] at ht
  have htr : t.regs = p.regs := by rw [ht]
  refine ⟨fun a ⟨ha, hc⟩ => (reg_of_regs_eq htr a).trans (hpr a ha hc), by rw [ht, hp], by rw [ht, hp], fun hr hb => ?_⟩
  rw [ht, hidle hr hb, hk]
  exact ⟨rfl, rfl, rfl, rfl⟩

theorem becalm_reg {s : State} (h : canBecalm s) (code : Nat) (d : Word) (addr : Nat) :
    let t := s.becalm code false d addr
    t.reg (FT_REC 0) = Word.nat (code + 4 * 256 + (s.dkf DK_FAULT_SEQ 0 16 + 1) % 65536 * 65536) ∧
    t.reg (FT_REC 1) = d ∧
    (∀ i, i < 8 → t.reg (TR_ISL i) = putFld (putFld (s.reg (TR_ISL i)) 0 6 40) 8 2 0) ∧
    (∀ c, c < 2 → t.i2cRun c = none ∧ t.rbit (I2C c + 0x18) 0 = false ∧
      (s.i2cRun c = none → Store.get [] t.i2cOut c = Store.get [] s.i2cOut c)) ∧
    (s.dev.reader = none → s.dev.bindDest = [] →
      t.mem = s.mem ∧ t.ecc = s.ecc ∧ t.inject = s.inject ∧ csrKept s t becalmRegs) := by
  have hu := faultNoted_frame h.2 code d addr
  obtain ⟨hrec0, hrec1, huk⟩ := faultNoted_reg h.2 code d addr
  rw [becalm_eq h]
  generalize s.faultNoted code d addr = u at *
  have hv := hostLost_frame u
  have hvk : ∀ a, a ≠ SW_CNT1 → u.hostLost.reg a = u.reg a := fun a ha => hostLost_csrKept u a (by simpa using ha)
  generalize u.hostLost = v at *
  obtain ⟨htr, hti, hto, hidle⟩ := becalmedEnd_units v s.pairRuns
  generalize v.safeStates.spoilBind.becalmedEnd s.pairRuns = t at *
  rw [hu] at hv
  have hrec : ∀ k, k < 5 → t.reg (FT_REC k) = u.reg (FT_REC k) := fun k hk => by
    obtain ⟨hecc, hsw, hpark⟩ := ftRec_apart hk
    rw [htr _ hecc, parked_csrKept v _ hpark, hvk _ hsw]
  refine ⟨(hrec 0 (by decide)).trans hrec0, (hrec 1 (by decide)).trans hrec1, fun i hi => ?_, fun c hc => ?_,
    fun hr hb => ?_⟩
  · obtain ⟨hecc, hsw, hft⟩ := trIsl_apart hi
    rw [htr _ hecc, parked_isl v hi, hvk _ hsw, huk _ hft]
  · obtain ⟨hrun, hbit, hout⟩ := parked_i2c v hc
    refine ⟨?_, ?_, fun hn => ?_⟩
    · rw [i2cRun, hti]
      exact hrun
    · rw [rbit, rf, htr _ (i2cStat_apart hc)]
      exact hbit
    · rw [hto, hout (by rw [hv]; exact hn), hv]
  · obtain ⟨hmem, hecc, hinj, hregs⟩ := hidle (by rw [hv]; exact hr) (by rw [hv]; exact hb)
    refine ⟨by rw [hmem, hv], by rw [hecc, hv], by rw [hinj, hv], fun a ha => ?_⟩
    simp only [becalmRegs, List.mem_append, List.mem_cons, List.not_mem_nil, or_false, not_or] at ha
    obtain ⟨⟨hft, hisl⟩, hsw, hi0, hi1⟩ := ha
    have hpark : a ∉ (List.range 8).map TR_ISL ++ [I2C 0 + 0x18, I2C 1 + 0x18] := by
      simp only [List.mem_append, List.mem_cons, List.not_mem_nil, or_false, not_or]
      exact ⟨hisl, hi0, hi1⟩
    rw [reg_of_regs_eq hregs, parked_csrKept v a hpark, hvk a hsw, huk a hft]

/-- What entry to BECALMED does, from every state where it is entered (03 R145). -/
theorem becalmedBy_becalm {s : State} (h : canBecalm s) {code : Nat} (hc : code < 256) (d : Word) (addr : Nat) :
    becalmedBy s (s.becalm code false d addr) code d := by
  have hframe := becalm_frame h code d addr
  obtain ⟨hdeck, hidle, hcause, hlo, hhi, hseq⟩ := becalm_deck h hc d addr
  obtain ⟨hstate, hcommand⟩ := becalm_command h hc d addr
  obtain ⟨hrec0, hrec1, hisl, hi2c, hkept⟩ := becalm_reg h code d addr
  exact ⟨hframe, hdeck, hidle, becalm_cycle h code d addr, hcause, hlo, hhi, hseq, hstate, hcommand, hrec0, hrec1, hisl,
    hi2c, hkept⟩

end Sys2Proof.Machine.State
end

section
/-! PROOFS. What a supply that goes or comes does (02 R105; 03 R111, R139, R140; 16 R697). -/

namespace Sys2Proof.Machine.State

open Sys2Proof.Spec

/-! ### What a supply takes with it -/

/-- A written byte turns into a free value. -/
def spoilByte (s : State) (e : Nat × Byte) : State :=
  { (s.draw 8).2 with mem := Store.set 0 s.mem e.1 (s.draw 8).1 }

theorem byteAt_spoilByte_ne (s : State) {e : Nat × Byte} {a : Nat} (h : e.1 ≠ a) :
    (s.spoilByte e).byteAt a = s.byteAt a := by
  unfold byteAt
  split
  · rfl
  · exact Store.get_set_ne _ _ _ h.symm

theorem spoilBytes_spec (l : List (Nat × Byte)) (s : State) :
    let t := l.foldl spoilByte s
    t = { s with mem := t.mem, free := t.free } ∧ ∀ a, (∀ e ∈ l, e.1 ≠ a) → t.byteAt a = s.byteAt a := by
  induction l generalizing s with
  | nil => exact ⟨rfl, fun _ _ => rfl⟩
  | cons e l ih =>
    obtain ⟨hf, hb⟩ := ih (s.spoilByte e)
    refine ⟨hf, fun a ha => ?_⟩
    obtain ⟨hne, hl⟩ := List.forall_mem_cons.1 ha
    exact (hb a hl).trans (byteAt_spoilByte_ne s hne)

theorem spoilRam_spec (s : State) (q : Nat → Bool) :
    s.spoilRam q = { s with mem := (s.spoilRam q).mem, free := (s.spoilRam q).free } ∧ memLost s (s.spoilRam q) q := by
  obtain ⟨hf, hb⟩ := spoilBytes_spec (s.mem.filter fun e => q e.1) s
  refine ⟨hf, fun a ha => hb a fun e he => ?_⟩
  obtain ⟨hmem, hq⟩ := List.mem_filter.1 he
  rcases ha with ha | ha
  · rintro rfl
    exact Bool.noConfusion (hq.symm.trans ha)
  · exact ha e hmem

/-- Pantry, TCM and Granary lose what they held, with its code words and the armed injection. -/
theorem loseRam_spec (s : State) :
    s.loseRam = { s with mem := s.loseRam.mem, free := s.loseRam.free
                         ecc := s.ecc.filter fun e => State.inCn e.1, inject := none } ∧
    memLost s s.loseRam (fun a => !State.inCn a) := by
  obtain ⟨hf, hm⟩ := spoilRam_spec s fun a => !inCn a
  refine ⟨?_, hm⟩
  unfold loseRam
  generalize s.spoilRam (fun a => !inCn a) = t at *
  rw [hf]

/-- A register of the fault block takes a free value in its fields. -/
def loseReg (s : State) (e : Nat × Nat) : State := (s.draw 32).2.setReg e.1 ((s.draw 32).1 &&& Word.nat e.2)

theorem loseRegs_spec (l : List (Nat × Nat)) (s : State) :
    let t := l.foldl loseReg s
    t = { s with regs := t.regs, free := t.free } ∧ csrKept s t (l.map Prod.fst) := by
  induction l generalizing s with
  | nil => exact ⟨rfl, fun _ _ => rfl⟩
  | cons e l ih =>
    obtain ⟨hf, hr⟩ := ih (s.loseReg e)
    refine ⟨hf, fun a ha => ?_⟩
    rw [List.map_cons, List.mem_cons, not_or] at ha
    exact (hr a ha.2).trans (reg_setReg_ne _ _ ha.1)

theorem loseFt_spec (s : State) :
    s.loseFt = { s with regs := s.loseFt.regs, free := s.loseFt.free } ∧ csrKept s s.loseFt ftRegs :=
  loseRegs_spec _ s

/-- VDD_GR is gone: the retention area, the memories and the fault block. -/
def grGone (s : State) (grOk : Bool) : State :=
  ({ s with dev := { s.dev with grOk := grOk, retained := false } } : State).loseRam.loseFt

theorem grLost_grGone (s : State) (grOk : Bool) : grLost s (s.grGone grOk) grOk := by
  obtain ⟨hm, hl⟩ := loseRam_spec { s with dev := { s.dev with grOk := grOk, retained := false } }
  unfold grGone
  generalize State.loseRam _ = u at *
  obtain ⟨hf, hr⟩ := loseFt_spec u
  have hmem : u.loseFt.mem = u.mem := by rw [hf]
  refine ⟨?_, fun a ha => (byteAt_of_mem_eq hmem a).trans (hl a ha), fun a ha => (hr a ha).trans ?_⟩
  · generalize u.loseFt = t at *
    rw [hm] at hf
    rw [hf]
  · rw [hm]
    rfl

/-! ### The commands -/

/-- The loss of VIN_CORE, a class F fault where the rail was in range. -/
theorem supplyLoss_core {s : State} (h : s.dev.mode ≠ .reefed) :
    exec (.supplyLoss false) s =
      let u := if s.dev.vinOk then s.becalm 0x28 false 0 else s
      .next { u with dev := { u.dev with vinOk := false } } := by
  have hif : s.supplyLoss false =
      let u := if s.dev.vinOk = true ∧ s.dev.mode ≠ .reefed then s.becalm 0x28 false 0 else s
      { u with dev := { u.dev with vinOk := false } } := if_neg fun k => h k.1
  change Host.Outcome.next (s.supplyLoss false) = _
  simp only [hif, ne_eq, h, not_false_eq_true, and_true]

/-- In MOORED, and where the rail was out of range, the loss of VIN_CORE is no fault. -/
theorem supplyLoss_core_unfelt {s : State} (h : s.dev.mode ≠ .reefed)
    (hv : s.dev.vinOk = false ∨ s.dev.mode = .moored) :
    exec (.supplyLoss false) s = .next { s with dev := { s.dev with vinOk := false } } := by
  rw [supplyLoss_core h]
  rcases hv with hv | hm
  · rw [hv]
    rfl
  · rw [becalm_moored hm, ite_self]

/-- In REEFED the loss of VIN_CORE is VIN_CORE_REMOVAL's. -/
theorem supplyLoss_core_reefed {s : State} (h : s.dev.mode = .reefed) : exec (.supplyLoss false) s = .next s :=
  congrArg Host.Outcome.next (if_pos ⟨h, rfl⟩)

/-- The loss of VDD_GR, a class F fault outside REEFED where the rail was in range. -/
theorem supplyLoss_gr (s : State) :
    exec (.supplyLoss true) s =
      .next ((if s.dev.grOk ∧ s.dev.mode ≠ .reefed then s.becalm 0x28 false 1 else s).grGone false) :=
  congrArg Host.Outcome.next (if_neg fun k => Bool.noConfusion k.2)

/-- In REEFED, in MOORED, and where the rail was out of range, the loss of VDD_GR is no fault. -/
theorem supplyLoss_gr_unfelt {s : State} (h : s.dev.mode = .reefed ∨ s.dev.grOk = false ∨ s.dev.mode = .moored) :
    exec (.supplyLoss true) s = .next (s.grGone false) := by
  rw [supplyLoss_gr]
  rcases h with hr | hg | hm
  · rw [if_neg fun k => k.2 hr]
  · rw [if_neg fun k => Bool.noConfusion (hg.symm.trans k.1)]
  · rw [becalm_moored hm, ite_self]

theorem vddGrDip_reefed {s : State} (h : s.dev.mode = .reefed) : exec .vddGrDip s = .next (s.grGone s.dev.grOk) :=
  congrArg Host.Outcome.next (if_pos h)

/-- In REEFED the removal of VIN_CORE keeps the memories where the retention area is valid (03 R139). -/
theorem vinCoreRemoval_reefed {s : State} (h : s.dev.mode = .reefed) :
    exec .vinCoreRemoval s =
      let u : State := { s with dev := { s.dev with vinOk := false } }
      .next (if s.dev.retained then u else u.loseRam) :=
  congrArg Host.Outcome.next (if_pos h)

/-- A supply in range that is lost outside MOORED, REEFED and BECALMED is a class F fault (03 R111). -/
theorem supplyLoss_becalms {s : State} (h : canBecalm s) (hr : s.dev.mode ≠ .reefed) :
    (s.dev.vinOk = true → ∃ u, becalmedBy s u 0x28 0 ∧
      exec (.supplyLoss false) s = .next { u with dev := { u.dev with vinOk := false } }) ∧
    (s.dev.grOk = true → ∃ u t, becalmedBy s u 0x28 1 ∧ exec (.supplyLoss true) s = .next t ∧ grLost u t false) := by
  refine ⟨fun hv => ⟨_, becalmedBy_becalm h (by decide) 0 0, ?_⟩,
    fun hg => ⟨_, _, becalmedBy_becalm h (by decide) 1 0, ?_, grLost_grGone _ false⟩⟩
  · rw [supplyLoss_core hr, if_pos hv]
  · rw [supplyLoss_gr, if_pos ⟨hg, hr⟩]

theorem reefed_supplies {s : State} (h : s.dev.mode = .reefed) :
    exec (.supplyLoss false) s = .next s ∧ (∃ t, exec .vddGrDip s = .next t ∧ grLost s t s.dev.grOk) ∧
    (s.dev.retained = true → exec .vinCoreRemoval s = .next { s with dev := { s.dev with vinOk := false } }) ∧
    (s.dev.retained = false → ∃ t, exec .vinCoreRemoval s = .next t ∧
      t = { s with dev := { s.dev with vinOk := false }, mem := t.mem, free := t.free
                   ecc := s.ecc.filter fun e => State.inCn e.1, inject := none } ∧
      memLost s t fun a => !State.inCn a) := by
  refine ⟨supplyLoss_core_reefed h, ⟨_, vddGrDip_reefed h, grLost_grGone s _⟩, fun hr => ?_, fun hr => ?_⟩
  · rw [vinCoreRemoval_reefed h, hr]
    rfl
  · obtain ⟨hf, hl⟩ := loseRam_spec { s with dev := { s.dev with vinOk := false } }
    refine ⟨_, ?_, hf, hl⟩
    rw [vinCoreRemoval_reefed h, hr]
    rfl

end Sys2Proof.Machine.State

namespace Sys2Proof

open Machine Machine.State Spec

/-- Settles O13: a fault is what entry to BECALMED does, and VDD_GR takes with it what `grGone` says; elsewhere each
command is its own rule. -/
theorem suppliesAndTheRetentionArea : Obligations.SuppliesAndTheRetentionArea := by
  intro s
  refine ⟨fun hm hr hb => supplyLoss_becalms ⟨hm, hb⟩ hr, fun hr hv => supplyLoss_core_unfelt hr hv,
    fun h => ⟨_, supplyLoss_gr_unfelt h, grLost_grGone s false⟩, fun h => reefed_supplies h, fun h => ⟨?_, ?_⟩, ?_⟩
  · exact congrArg Host.Outcome.next (if_neg h)
  · exact congrArg Host.Outcome.next (if_neg h)
  · rfl

end Sys2Proof
end

section
/-! PROOFS. What a raised source, a finished command and an entered state leave (03 R134, R150–R152; 05 R219, R231). -/

namespace Sys2Proof.Machine.State

open Sys2Proof.Spec

/-! ### Latches -/

theorem dkbit_raise_eq (s : State) {i j : Nat} (hi : i < 16) :
    (s.raise i).dkbit DK_IRQ_RAW j = (decide (j = i) || s.dkbit DK_IRQ_RAW j) := by
  rcases eq_or_ne j i with rfl | hne
  · rw [dkbit_raise s j hi, decide_eq_true rfl, Bool.true_or]
  · rw [dkbit, raise, dkf_setDkf_ne _ _ _ _ _ _ _ (by omega), decide_eq_false hne, Bool.false_or]
    rfl

theorem raised_raise (s : State) {i : Nat} (hi : i < 16) : raised s (s.raise i) [i] := fun j _ => by
  rw [dkbit_raise_eq s hi]
  congr 2
  exact propext List.mem_singleton.symm

/-- Latches are a matter of DK_IRQ_RAW alone. -/
theorem raised_congr {s s' t t' : State} {l : List Nat} (h : raised s t l) (hs : s'.dk DK_IRQ_RAW = s.dk DK_IRQ_RAW)
    (ht : t'.dk DK_IRQ_RAW = t.dk DK_IRQ_RAW) : raised s' t' l := fun i hi => by
  have := h i hi
  unfold dkbit dkf at this ⊢
  rw [hs, ht, this]

theorem raised_nil {s t : State} (h : t.dk DK_IRQ_RAW = s.dk DK_IRQ_RAW) : raised s t [] :=
  raised_congr (s := s) (t := s) (fun i _ => by simp) rfl h

theorem raised_trans {s t u : State} {l m : List Nat} (h : raised s t l) (k : raised t u m) : raised s u (l ++ m) :=
  fun i hi => by
    rw [k i hi, h i hi, ← Bool.or_assoc, ← Bool.decide_or]
    congr 2
    rw [List.mem_append, or_comm]

theorem deckRegs_mono {s t : State} {l m : List Nat} (h : deckRegs s t l) (hlm : ∀ o ∈ l, o ∈ m) : deckRegs s t m :=
  ⟨h.1, fun o ho => h.2 o fun hl => ho (hlm o hl)⟩

theorem raised_finishCmd (s : State) (op r : Nat) : raised s (s.finishCmd op r) [irqCMD] :=
  raised_congr (raised_raise (({ s with dev := { s.dev with command := none } } : State).setDk DK_CMDSTAT _) (by decide))
    (dk_setDk_ne _ _ (by decide)).symm rfl

/-! ### HAIL lines -/

/-- DK_STAGE is sampled as it stands where no stage of several units runs (03 R120). -/
theorem testUnit_still {s : State} (h : s.mustering = false ∨ stageUnits s.stage ≤ 1) : s.testUnit = s := by
  unfold testUnit
  rcases h with h | h
  · rw [h]; rfl
  · have hn : ¬ 1 < stageUnits (s.dkf DK_STAGE 0 8) := Nat.not_lt.2 h
    simp only [hn, decide_false, Bool.and_false, Bool.false_eq_true, if_false]

/-- A line shows these registers, the state and the count alone (03 R150). -/
theorem hailLine_congr {s t : State}
    (hd : ∀ o ∈ [DK_TEMP, DK_CAUSE, DK_STAGE, DK_FAULT_HI, DK_FAULT_LO, DK_FAULT_SEQ], t.dk o = s.dk o)
    (hm : t.dev.mode = s.dev.mode) (hc : t.dev.hail.count = s.dev.hail.count) : t.hailLine = s.hailLine := by
  simp only [List.forall_mem_cons] at hd
  obtain ⟨h1, h2, h3, h4, h5, h6, -⟩ := hd
  unfold hailLine dkf
  rw [h1, h2, h3, h4, h5, h6, hm, hc]

theorem hailStart_still {s : State} (h : s.mustering = false ∨ stageUnits s.stage ≤ 1) :
    s.hailStart = { s with dev := { s.dev with hail := { s.dev.hail with
      sending := s.hailLine, count := (s.dev.hail.count + 1) % 100000 } } } := by
  rw [hailStart, testUnit_still h]

theorem hailDue_idle {s : State} (h : s.dev.hail.sending = []) : s.hailDue = s.hailStart := if_pos h

theorem hailDue_busy {s : State} (h : s.dev.hail.sending ≠ []) :
    s.hailDue = { s with dev := { s.dev with hail := { s.dev.hail with
      waiting := some (decide (s.dev.hail.waiting = some true ∨ s.dev.mode = .becalmed)) } } } := by
  unfold hailDue
  dsimp only
  rw [if_neg h]
  rcases s.dev.hail.waiting with _ | b
  · simp
  · cases b <;> simp

/-- The lines are counted afresh as a state is entered with `h` before it (03 R151). -/
def countedAfresh (s : State) (h : Hail) : State := { s with dev := { s.dev with hail := { h with count := 0 } } }

theorem countedAfresh_self {s : State} {h : Hail} (hh : s.dev.hail = { h with count := 0 }) : s.countedAfresh h = s := by
  rw [countedAfresh, ← hh]

/-- A line that falls due on entry to a state other than BECALMED. -/
theorem hailDue_enters {u : State} {h : Hail} (hs : u.mustering = false ∨ stageUnits u.stage ≤ 1)
    (hm : u.dev.mode ≠ .becalmed) (hh : u.dev.hail = { h with count := 0 }) :
    u.hailDue = { u with dev := { u.dev with hail := u.hailDue.dev.hail } } ∧ hailEnters u.hailDue h true := by
  have hsend : u.dev.hail.sending = h.sending := by rw [hh]
  by_cases hi : h.sending = []
  · rw [hailDue_idle (hsend.trans hi), hailStart_still hs]
    refine ⟨rfl, nofun, fun _ _ => ?_, fun _ hn => absurd hi hn⟩
    change _ = { h with sending := (u.countedAfresh h).hailLine, count := 1 }
    rw [countedAfresh_self hh]
    dsimp only
    rw [hh]
    rfl
  · rw [hailDue_busy (by rw [hsend]; exact hi)]
    refine ⟨rfl, nofun, fun _ hn => absurd hn hi, fun _ _ => ?_⟩
    dsimp only
    rw [hh]
    simp [hm]

/-- Which line starts is a matter of what the line shows. -/
theorem hailEnters_congr {t t' : State} {h : Hail} {on : Bool} (k : hailEnters t h on) (hh : t'.dev.hail = t.dev.hail)
    (hm : t'.dev.mode = t.dev.mode)
    (hd : ∀ o ∈ [DK_TEMP, DK_CAUSE, DK_STAGE, DK_FAULT_HI, DK_FAULT_LO, DK_FAULT_SEQ], t'.dk o = t.dk o) :
    hailEnters t' h on := by
  obtain ⟨hoff, hsend, hwait⟩ := k
  refine ⟨fun h => hh.trans (hoff h), fun ho hi => ?_, fun ho hi => hh.trans (hwait ho hi)⟩
  have hline : (t'.countedAfresh h).hailLine = (t.countedAfresh h).hailLine := hailLine_congr hd hm rfl
  exact hh.trans ((hsend ho hi).trans (congrArg (fun l => { h with sending := l, count := 1 }) hline.symm))

/-! ### States entered -/

/-- The device in a state it enters, before the STATE source and the HAIL line. -/
def entered (s : State) (m : Mode) : State :=
  { s with dev := { s.dev with mode := m, hail := { s.dev.hail with count := 0 } }
           lk := { s.lk with frame := s.lk.frame.map fun f => frameEnters f m } }

/-- The transitions between HOVE_TO and UNDERWAY, which raise no source (03 R134). -/
def shifts (old m : Mode) : Bool := decide (old = .hoveTo ∧ m = .underway) || decide (old = .underway ∧ m = .hoveTo)

/-- Whether DK_HAIL_CFG makes a line due (05 R235). -/
def enterLine (s : State) (m : Mode) : Bool :=
  match m with
  | .muster => s.dkbit DK_HAIL_CFG 0
  | .hoveTo => if s.dev.mode = .underway then s.dkbit DK_HAIL_CFG 4 else s.dkbit DK_HAIL_CFG 1
  | .reefed => s.dkbit DK_HAIL_CFG 2
  | .underway => s.dkbit DK_HAIL_CFG 3
  | _ => false

/-- The device in a state it has entered, with the STATE source. -/
def announced (s : State) (m : Mode) : State :=
  if shifts s.dev.mode m then s.entered m else (s.entered m).raise irqSTATE

theorem announced_spec (s : State) (m : Mode) :
    s.announced m = { s.entered m with deck := (s.announced m).deck } ∧ deckRegs s (s.announced m) [DK_IRQ_RAW] ∧
    raised s (s.announced m) (if shifts s.dev.mode m then [] else [irqSTATE]) ∧
    (shifts s.dev.mode m = true → (s.announced m).deck = s.deck) := by
  unfold announced
  split
  · exact ⟨rfl, ⟨rfl, fun _ _ => rfl⟩, raised_nil rfl, fun _ => rfl⟩
  · next h => exact ⟨rfl, deckRegs_raise (s.entered m) irqSTATE, raised_raise (s.entered m) (by decide), fun k => absurd k h⟩

theorem dkbit_announced (s : State) (m : Mode) {o : Nat} (i : Nat) (h : o ≠ DK_IRQ_RAW) :
    (s.announced m).dkbit o i = s.dkbit o i := by
  rw [dkbit, dkf, (announced_spec s m).2.1.2 o (by simpa using h)]
  rfl

theorem enter_eq (s : State) (m : Mode) :
    s.enter m = if s.enterLine m then (s.announced m).hailDue else s.announced m := by
  have hline : (match m with
      | .muster => (s.announced m).dkbit DK_HAIL_CFG 0
      | .hoveTo => if decide (s.dev.mode = .underway ∧ m = .hoveTo) then (s.announced m).dkbit DK_HAIL_CFG 4
          else (s.announced m).dkbit DK_HAIL_CFG 1
      | .reefed => (s.announced m).dkbit DK_HAIL_CFG 2
      | .underway => (s.announced m).dkbit DK_HAIL_CFG 3
      | _ => false) = s.enterLine m := by
    cases m <;> simp [enterLine, dkbit_announced _ _ _ (show DK_HAIL_CFG ≠ DK_IRQ_RAW by decide)]
  rw [← hline]
  rfl

/-- A state other than BECALMED entered with no stage of several units running: the mode, the mark of the frame in progress,
the STATE source, and the HAIL line (03 R134, R150, R151). -/
theorem enter_spec {s : State} {m : Mode} (hb : m ≠ .becalmed)
    (hs : (s.entered m).mustering = false ∨ stageUnits s.stage ≤ 1) :
    let t := s.enter m
    t = { s with dev := { s.dev with mode := m, hail := t.dev.hail }, deck := t.deck
                 lk := { s.lk with frame := s.lk.frame.map fun f => frameEnters f m } } ∧
    deckRegs s t [DK_IRQ_RAW] ∧ raised s t (if shifts s.dev.mode m then [] else [irqSTATE]) ∧
    (shifts s.dev.mode m = true → t.deck = s.deck) ∧ hailEnters t s.dev.hail (s.enterLine m) := by
  obtain ⟨hf, hd, hr, hq⟩ := announced_spec s m
  have hdev : (s.announced m).dev = (s.entered m).dev := by rw [hf]
  have hstage : (s.announced m).dk DK_STAGE = s.dk DK_STAGE := hd.2 _ (by decide)
  have hs' : (s.announced m).mustering = false ∨ stageUnits (s.announced m).stage ≤ 1 := by
    unfold mustering stage dkf at hs ⊢
    rw [hdev, hstage]
    exact hs
  rw [enter_eq]
  generalize s.announced m = u at *
  cases hl : s.enterLine m with
  | false =>
    refine ⟨?_, hd, hr, hq, fun _ => by rw [if_neg nofun, hdev]; rfl, nofun, nofun⟩
    rw [if_neg nofun, hdev]
    exact hf
  | true =>
    obtain ⟨hu, hh⟩ := hailDue_enters (h := s.dev.hail) hs' (by rw [hdev]; exact hb) (by rw [hdev]; rfl)
    rw [if_pos rfl]
    have hdeck : u.hailDue.deck = u.deck := by rw [hu]
    have hk : ∀ o, u.hailDue.dk o = u.dk o := dk_of_deck_eq hdeck
    refine ⟨?_, ⟨by rw [hdeck]; exact hd.1, fun o ho => (hk o).trans (hd.2 o ho)⟩, raised_congr hr rfl (hk _),
      fun h => hdeck.trans (hq h), hh⟩
    generalize u.hailDue = t at *
    rw [hf] at hu
    rw [hu]
    rfl

end Sys2Proof.Machine.State

namespace Sys2Proof

/-- Settles O3: at reset every table is empty, so that each register reads its reset value. -/
theorem resetState : Obligations.ResetState := by
  refine ⟨rfl, by decide, fun _ => rfl, fun _ => rfl, fun _ => rfl, fun _ => rfl, fun _ => rfl, rfl, rfl, rfl, fun w => ?_,
    fun _ => rfl, rfl, fun _ => rfl, rfl, rfl, rfl, rfl, by decide, by decide, by decide, by decide⟩
  exact ite_self _

end Sys2Proof
end

section
/-! PROOFS. The resets, and how MOORED is left (03 R116–R120, Table 3.3). -/

namespace Sys2Proof.Machine.Store

/-- A table without the entries of some keys reads the default there. -/
theorem get_filter_eq {α : Type} (d : α) (m : List (Nat × α)) (p : Nat → Bool) (k : Nat) :
    get d (m.filter fun e => p e.1) k = if p k then get d m k else d := by
  cases hk : p k with
  | true => exact get_filter d m p hk
  | false =>
    have hne : ∀ e ∈ m.filter (fun e => p e.1), e.1 ≠ k := by
      rintro e he rfl
      exact Bool.noConfusion (hk.symm.trans (List.mem_filter.1 he).2)
    simpa [get] using get_append d (b := []) hne

end Sys2Proof.Machine.Store

namespace Sys2Proof.Machine.State

open Sys2Proof.Spec

/-! ### Resets -/

/-- The cause that a reset leaves in DK_CAUSE. -/
def resetCause : Hold → Nat
  | .pin => 2
  | .soft => 3
  | _ => 1

/-- A Deck register that pin and soft reset keep (03 Table 3.3). -/
def resetKeeps (o : Nat) : Bool :=
  o == DK_FAULT_LO || o == DK_FAULT_HI || o == DK_FAULT_SEQ || (decide (DK_SCRATCH0 ≤ o) && decide (o < 0x58))

/-- The device as a reset is asserted, before its memory is lost and the cause is noted. -/
def cleared (s : State) (hold : Hold) : State :=
  let por := decide (resetCause hold = 1)
  { part := s.part, pending := s.pending, free := s.free
    dev := { hold := hold, straps := s.dev.straps, vhsel := s.dev.vhsel, testen := s.dev.testen, vinOk := s.dev.vinOk
             grOk := s.dev.grOk, dap := if por then 0 else s.dev.dap
             hail := { sending := if por then [] else s.dev.hail.sending } }
    mem := s.mem
    deck := { regs := if por then [] else s.deck.regs.filter fun e => resetKeeps e.1 }
    regs := if por then [] else s.regs.filter fun e => isFt e.1 }

theorem resetTo_eq (s : State) (hold : Hold) :
    s.resetTo hold = ((s.cleared hold).spoilRam fun _ => true).setDkf DK_CAUSE 0 8 (resetCause hold) := rfl

/-- What a reset leaves of the state it meets, memory and registers aside. -/
theorem resetTo_spec (s : State) (hold : Hold) :
    let t := s.resetTo hold
    t = { s.cleared hold with mem := t.mem, free := t.free, deck := { regs := t.deck.regs } } ∧
    memLost s t (fun _ => true) ∧ t.dkf DK_CAUSE 0 8 = resetCause hold ∧ (∀ a, t.reg a = (s.cleared hold).reg a) ∧
    ∀ o, o ≠ DK_CAUSE → t.dk o = (s.cleared hold).dk o := by
  obtain ⟨hf, hm⟩ := spoilRam_spec (s.cleared hold) fun _ => true
  rw [resetTo_eq]
  generalize State.spoilRam (s.cleared hold) _ = u at *
  refine ⟨?_, hm, ?_, fun a => ?_, fun o ho => ?_⟩
  · rw [hf]
    rfl
  · rw [dkf_setDkf_self _ _ _ _ _ (by decide)]
    cases hold <;> rfl
  · rw [reg_setDkf, hf]
    rfl
  · rw [dk_setDkf_ne _ _ _ _ ho, hf]
    rfl

theorem wiped_resetTo (s : State) {hold : Hold} (h : hold = .powerOn ∨ hold = .pin ∨ hold = .soft) :
    wiped s (s.resetTo hold) hold := by
  obtain ⟨hf, hm, -, hr, -⟩ := resetTo_spec s hold
  refine ⟨hf.trans ?_, hm⟩
  have hregs : (s.resetTo hold).regs = (s.cleared hold).regs := by rw [hf]
  rw [hregs]
  rcases h with rfl | rfl | rfl <;> rfl

theorem powerOn_registers (s : State) (a : Nat) : (s.resetTo .powerOn).reg a = csrReset a :=
  (resetTo_spec s .powerOn).2.2.2.1 a

theorem warm_resetTo (s : State) {hold : Hold} (h : hold = .pin ∨ hold = .soft) :
    warm s (s.resetTo hold) (resetCause hold) := by
  obtain ⟨-, -, hc, hr, hk⟩ := resetTo_spec s hold
  have hregs : (s.cleared hold).regs = s.regs.filter fun e => isFt e.1 := by rcases h with rfl | rfl <;> rfl
  have hdeck : (s.cleared hold).deck.regs = s.deck.regs.filter fun e => resetKeeps e.1 := by rcases h with rfl | rfl <;> rfl
  refine ⟨hc, fun a => (hr a).trans ?_, fun o ho => (hk o ho).trans ?_⟩
  · rw [reg, hregs, Store.get_filter_eq]
    exact if_congr (by simp [isFt]) rfl rfl
  · rw [dk, hdeck, Store.get_filter_eq]
    refine if_congr ?_ rfl rfl
    simp only [resetKeeps, Bool.or_eq_true, beq_iff_eq, Bool.and_eq_true, decide_eq_true_eq, List.mem_cons,
      List.not_mem_nil, or_false, or_assoc]
    exact Iff.rfl

/-! ### MOORED is left -/

/-- Muster starts: its first stage has one unit, so that nothing is sampled at random. -/
theorem mustersFrom_release {s : State} (h : s.dev.testen = false) : mustersFrom s s.release s.dev := by
  have hd := deckRegs_setDk ({ s with dev := { s.dev with hold := .none } } : State) DK_STAGE 1
  have hst : (({ s with dev := { s.dev with hold := .none } } : State).setDk DK_STAGE 1).dk DK_STAGE = 1 := dk_setDk_self _ _ _
  have hrel : s.release = (({ s with dev := { s.dev with hold := .none } } : State).setDk DK_STAGE 1).enter .muster := by
    rw [release, h]
    rfl
  have hdev : (({ s with dev := { s.dev with hold := .none } } : State).setDk DK_STAGE 1).dev = { s.dev with hold := .none } := rfl
  rw [hrel]
  generalize hu : ({ s with dev := { s.dev with hold := .none } } : State).setDk DK_STAGE 1 = u at *
  obtain ⟨hf, hk, hr, -, hh⟩ := enter_spec (s := u) (m := .muster) nofun (.inr (by rw [stage, dkf, hst]; decide))
  have hshift : shifts u.dev.mode .muster = false := by simp [shifts]
  rw [hshift] at hr
  refine ⟨hf.trans ?_, deckRegs_trans hd hk, (hk.2 _ (by decide)).trans hst, ?_, ?_⟩
  · rw [hdev, ← hu]
    rfl
  · exact raised_congr hr (hd.2 _ (by decide)).symm rfl
  · rw [hdev] at hh
    rw [← show u.dkbit DK_HAIL_CFG 0 = s.dkbit DK_HAIL_CFG 0 by rw [dkbit, dkf, hd.2 _ (by decide)]; rfl]
    exact hh

theorem release_testen {s : State} (h : s.dev.testen = true) :
    s.release = { s with dev := { s.dev with hold := .testen } } := if_pos h

/-- The levels that a release of the reset samples (02 R62). -/
def sampled (s : State) (straps : Straps) (vhsel vinOk grOk testen : Bool) : State :=
  { s with dev := { s.dev with
      straps := straps, vhsel := vhsel, vinOk := vinOk, grOk := grOk, testen := testen } }

/-- Where VDD_GR is out of range at the release, what it keeps is lost (02 R105). -/
theorem resetRelease_moored {s : State} (hm : s.dev.mode = .moored) (hh : s.dev.hold = .powerOn ∨ s.dev.hold = .pin)
    (straps : Straps) (vhsel vinOk grOk testen : Bool) :
    exec (.resetRelease straps vhsel vinOk grOk testen) s =
      .next ((if grOk then s else s.grGone false).sampled straps vhsel vinOk grOk testen).release := by
  have hloss : s.supplyLoss true = s.grGone false := by
    have := supplyLoss_gr_unfelt (s := s) (.inr (.inr hm))
    injection this
  rw [← hloss]
  exact congrArg Host.Outcome.next (if_pos ⟨hm, hh⟩)

end Sys2Proof.Machine.State

namespace Sys2Proof

open Machine Machine.State Spec

/-- Settles O8: each reset is the same clearing, and differs in what of the registers it keeps. -/
theorem resetsPutTheDeviceInMoored : Obligations.ResetsPutTheDeviceInMoored := by
  intro s
  refine ⟨⟨s.resetTo .powerOn, rfl, wiped_resetTo s (.inl rfl), (resetTo_spec s .powerOn).2.2.1, powerOn_registers s,
    (resetTo_spec s .powerOn).2.2.2.2⟩, fun h => ?_, fun hm hh => ?_, fun h => ?_, fun h => ?_, rfl⟩
  · refine ⟨s.resetTo .pin, ?_, wiped_resetTo s (.inr (.inl rfl)), warm_resetTo s (.inl rfl)⟩
    exact congrArg Host.Outcome.next (if_neg fun k => h.elim (absurd k.1) (absurd k.2))
  · exact congrArg Host.Outcome.next (if_pos ⟨hm, hh⟩)
  · exact ⟨s.resetTo .soft, congrArg Host.Outcome.next (if_pos h), wiped_resetTo s (.inr (.inr rfl)),
      warm_resetTo s (.inr rfl)⟩
  · exact congrArg Host.Outcome.next (if_neg (ne_true_of_eq_false h))

/-- Settles O9: every release is `State.release` of the state it meets. -/
theorem releaseStartsMuster : Obligations.ReleaseStartsMuster := by
  intro s straps vhsel vinOk grOk
  refine ⟨fun hm hh => ?_, fun hm hh => ⟨fun ht => ?_, fun ht => ?_⟩, fun hm hh => ?_, fun h => ?_, fun hm => ⟨?_, fun testen => ?_⟩⟩
  · refine ⟨if grOk then s else s.grGone false, ?_,
      ⟨_, resetRelease_moored hm hh straps vhsel vinOk grOk false, mustersFrom_release rfl⟩,
      resetRelease_moored hm hh straps vhsel vinOk grOk true⟩
    cases grOk with
    | true => rfl
    | false => exact grLost_grGone s false
  · exact ⟨_, congrArg Host.Outcome.next (if_pos ⟨hm, hh⟩), mustersFrom_release ht⟩
  · exact congrArg Host.Outcome.next ((if_pos ⟨hm, hh⟩).trans (release_testen ht))
  · exact ⟨_, congrArg Host.Outcome.next (if_pos ⟨hm, hh⟩),
      mustersFrom_release (s := { s with dev := { s.dev with testen := false } }) rfl⟩
  · exact congrArg Host.Outcome.next (if_neg fun k => h.elim (absurd k.1) (absurd k.2))
  · exact congrArg Host.Outcome.next (if_neg fun k => hm k.1)
  · exact congrArg Host.Outcome.next (if_neg fun k => hm k.1)

end Sys2Proof
end

section
/-! PROOFS. Muster: its stages, how they fail, and HOVE_TO (03 R120–R127, R143; 05 Table 5.2). -/

namespace Sys2Proof.Machine.State

open Sys2Proof.Spec

/-! ### HOVE_TO is reached -/

/-- A WAKE that runs finishes with a result. -/
def wakeFinished (s : State) (r : Nat) : State :=
  match s.dev.command with
  | some c => if c.op = 2 then s.finishCmd 2 r else s
  | none => s

theorem wakeFinished_wake {s : State} (h : s.dev.command.map Command.op = some 2) (r : Nat) :
    s.wakeFinished r = s.finishCmd 2 r := by
  obtain ⟨c, hc, hop⟩ := Option.map_eq_some_iff.1 h
  rw [wakeFinished, hc]
  exact if_pos hop

theorem wakeFinished_other {s : State} (h : s.dev.command.map Command.op ≠ some 2) (r : Nat) : s.wakeFinished r = s := by
  cases hc : s.dev.command with
  | none => rw [wakeFinished, hc]
  | some c =>
    rw [hc] at h
    rw [wakeFinished, hc]
    exact if_neg fun hop => h (congrArg some hop)

theorem wakeFinished_frame (s : State) (r : Nat) :
    s.wakeFinished r = { s with dev := { s.dev with command := (s.wakeFinished r).dev.command }
                                deck := (s.wakeFinished r).deck } ∧
    deckRegs s (s.wakeFinished r) [DK_CMDSTAT, DK_IRQ_RAW] := by
  by_cases h : s.dev.command.map Command.op = some 2
  · rw [wakeFinished_wake h]
    exact ⟨rfl, finishCmd_deckRegs s 2 r⟩
  · rw [wakeFinished_other h]
    exact ⟨rfl, ⟨rfl, fun _ _ => rfl⟩⟩

/-- HOVE_TO as it is entered, before a WAKE that runs finishes. -/
def hoves (s : State) : State :=
  let u := ({ s with dev := { s.dev with booting := false, waking := false, cold := false } } : State).enter .hoveTo
  { u with sw := { u.sw with txde := u.rf SW_LTRIM 6 2 } }

theorem reachHoveTo_eq (s : State) : s.reachHoveTo = s.hoves.wakeFinished 0 := rfl

theorem hoves_spec {s : State} (h : bootMode s) :
    s.hoves = { s with
      dev := { s.dev with mode := .hoveTo, booting := false, waking := false, cold := false, hail := s.hoves.dev.hail }
      deck := s.hoves.deck, lk := { s.lk with frame := s.lk.frame.map fun f => frameEnters f .hoveTo }
      sw := { s.sw with txde := s.rf SW_LTRIM 6 2 } } ∧
    deckRegs s s.hoves [DK_IRQ_RAW] ∧ raised s s.hoves [irqSTATE] ∧
    hailEnters s.hoves s.dev.hail (s.dkbit DK_HAIL_CFG 1) := by
  have hw : s.dev.mode ≠ .underway := by rcases h with h | h <;> rw [h] <;> decide
  obtain ⟨hf, hd, hr, -, hh⟩ := enter_spec
    (s := { s with dev := { s.dev with booting := false, waking := false, cold := false } }) (m := .hoveTo) nofun
    (.inl (by simp [mustering, entered]))
  have hshift : shifts s.dev.mode .hoveTo = false := by simp [shifts, hw]
  have hline : enterLine { s with dev := { s.dev with booting := false, waking := false, cold := false } } .hoveTo =
      s.dkbit DK_HAIL_CFG 1 := if_neg hw
  rw [hline] at hh
  dsimp only at hr
  rw [hshift] at hr
  unfold hoves
  generalize State.enter _ _ = u at *
  refine ⟨?_, hd, hr, hailEnters_congr hh rfl rfl fun _ _ => rfl⟩
  rw [hf]
  rfl

theorem reachesHoveTo_reachHoveTo {s : State} (h : bootMode s) : reachesHoveTo s s.reachHoveTo := by
  obtain ⟨hf, hd, hr, hh⟩ := hoves_spec h
  obtain ⟨kf, kd⟩ := wakeFinished_frame s.hoves 0
  have hcmd : s.hoves.dev.command = s.dev.command := by rw [hf]
  have hline : ∀ o ∈ [DK_TEMP, DK_CAUSE, DK_STAGE, DK_FAULT_HI, DK_FAULT_LO, DK_FAULT_SEQ],
      (s.hoves.wakeFinished 0).dk o = s.hoves.dk o := fun o ho =>
    kd.2 o (by revert o; decide)
  rw [reachHoveTo_eq]
  refine ⟨?_, deckRegs_mono (deckRegs_trans hd kd) (by decide), hailEnters_congr hh (by rw [kf]) (by rw [kf]) hline, ?_⟩
  · generalize s.hoves.wakeFinished 0 = t at *
    rw [hf] at kf
    rw [kf]
  · by_cases hop : s.dev.command.map Command.op = some 2
    · rw [if_pos hop, wakeFinished_wake (by rw [hcmd]; exact hop)]
      exact ⟨rfl, finishCmd_stat _ _ _, raised_trans hr (raised_finishCmd _ _ _)⟩
    · rw [if_neg hop, wakeFinished_other (by rw [hcmd]; exact hop)]
      exact ⟨hcmd, hd.2 _ (by decide), hr⟩

/-! ### Stages -/

theorem mustering_bootMode {s : State} (h : s.mustering = true) : bootMode s := by
  simp only [mustering, Bool.and_eq_true, Bool.or_eq_true, decide_eq_true_eq] at h
  obtain ⟨⟨⟨-, h⟩, -⟩, -⟩ := h
  exact h.imp_right fun h => h.1.1

theorem mustering_stage {s : State} (h : s.mustering = true) : 1 ≤ s.stage ∧ s.stage ≤ 10 := by
  simp only [mustering, Bool.and_eq_true, decide_eq_true_eq] at h
  exact ⟨h.1.2, h.2⟩

theorem bootMode_canBecalm {s : State} (h : bootMode s) : canBecalm s := by
  rcases h with h | h <;> exact ⟨by rw [h]; decide, by rw [h]; decide⟩

/-- A stage set, with no failure, changes DK_STAGE alone. -/
theorem setStage_spec (s : State) {st unit : Nat} (hu : unit < 16) (fail : Bool) :
    s.setStage st unit fail = { s with deck := (s.setStage st unit fail).deck } ∧
    deckRegs s (s.setStage st unit fail) [DK_STAGE] ∧
    (s.setStage st unit fail).dk DK_STAGE = BitVec.ofNat 16 (st + unit * 256 + b2n fail * 32768) := by
  refine ⟨rfl, deckRegs_setDk _ _ _, ?_⟩
  rw [setStage, dk_setDk_self, Nat.mod_eq_of_lt hu]

theorem stageEnd_pass {s : State} (h : s.mustering = true) (unit detail : Nat) :
    exec (.musterStageEnd true unit detail) s = .next (
      if s.stage = 3 then (if s.dev.vinOk then ({ s with dev := { s.dev with grOk := true } } : State).setStage 4 0 false else s)
      else if s.stage = 5 ∧ s.dkf DK_STAGE 8 4 + 1 < s.part.stackCount then s.setStage 5 (s.dkf DK_STAGE 8 4 + 1) false
      else if s.stage = 10 ∨ (s.dev.cold ∧ s.stage = 8) then s.mustered
      else s.setStage (s.stage + 1) 0 false) := by
  change Host.Outcome.next (s.stageEnd true unit detail) = _
  unfold stageEnd
  rw [h]
  rfl

theorem stageEnd_last {s : State} (h : s.mustering = true) (hend : s.stage = 10 ∨ (s.dev.cold = true ∧ s.stage = 8))
    (unit detail : Nat) : exec (.musterStageEnd true unit detail) s = .next s.mustered := by
  have hs : s.stage ≠ 3 ∧ s.stage ≠ 5 := by omega
  rw [stageEnd_pass h, if_neg hs.1, if_neg fun k => hs.2 k.1, if_pos hend]

theorem stageEnd_fail {s : State} (h : s.mustering = true) (unit detail : Nat) :
    exec (.musterStageEnd false unit detail) s =
      .next (s.failStage (if s.stage = 5 then s.dkf DK_STAGE 8 4 else unit) detail) := by
  change Host.Outcome.next (s.stageEnd false unit detail) = _
  unfold stageEnd
  rw [h]
  rfl

theorem stackCount_le (p : Part) : p.stackCount ≤ 4 := by
  unfold Part.stackCount
  cases p.variant <;> decide

/-! ### Muster ends -/

/-- A cold wake notes its cause. -/
def coldNoted (s : State) : State := if s.dev.cold then s.setCause 0x38 else s

/-- The stages have passed: DK_STAGE and DK_CAUSE as Muster leaves them. -/
def passed (s : State) : State := s.coldNoted.setStage 0xFF 0 false

/-- Where the boot strap leads (03 R126, R127). -/
def strapped (s : State) (boot : Nat) : State :=
  match boot with
  | 0 => (s.setStage 0xFF 0 false).reachHoveTo
  | 3 => (s.setStage 0xFF 0 false).becalm 0x1D false 0
  | _ => { s.setStage 0x0B 0 false with dev := { s.dev with booting := true }, bosun := { s.bosun with run := true } }

theorem coldNoted_spec {s : State} (h : bootMode s) :
    s.coldNoted = { s with deck := s.coldNoted.deck } ∧ deckRegs s s.coldNoted [DK_CAUSE] ∧
    s.coldNoted.dkf DK_CAUSE 0 8 = (if s.dev.cold then 0x38 else s.dkf DK_CAUSE 0 8) ∧
    s.coldNoted.dkf DK_CAUSE 8 8 = s.dkf DK_CAUSE 8 8 := by
  unfold coldNoted
  cases s.dev.cold with
  | false => exact ⟨rfl, deckRegs_mono (deckRegs_refl s) (by decide), rfl, rfl⟩
  | true =>
    have hc : s.setCause 0x38 = s.setDkf DK_CAUSE 0 8 0x38 := if_neg (bootMode_canBecalm h).2
    rw [if_pos rfl, if_pos rfl, hc]
    exact ⟨rfl, deckRegs_setDk _ _ _, dkf_setDkf_self _ _ _ _ _ (by decide), dkf_setDkf_ne _ _ _ _ _ _ _ (by decide)⟩

theorem mustered_eq {s : State} (h : bootMode s) : s.mustered = s.coldNoted.strapped s.dev.straps.boot.toNat := by
  have hb : s.coldNoted.dev.straps.boot = s.dev.straps.boot := by rw [(coldNoted_spec h).1]
  rw [← hb]
  rfl

theorem passed_spec {s : State} (h : bootMode s) :
    s.passed = { s with deck := s.passed.deck } ∧ deckRegs s s.passed [DK_STAGE, DK_CAUSE] ∧ s.passed.dk DK_STAGE = 0xFF ∧
    s.passed.dkf DK_CAUSE 0 8 = (if s.dev.cold then 0x38 else s.dkf DK_CAUSE 0 8) ∧
    s.passed.dkf DK_CAUSE 8 8 = s.dkf DK_CAUSE 8 8 := by
  obtain ⟨hf, hd, hlo, hhi⟩ := coldNoted_spec h
  obtain ⟨kf, kd, kst⟩ := setStage_spec s.coldNoted (st := 0xFF) (unit := 0) (by decide) false
  have hk : s.passed.dk DK_CAUSE = s.coldNoted.dk DK_CAUSE := kd.2 _ (by decide)
  refine ⟨deck_trans hf kf, deckRegs_mono (deckRegs_trans hd kd) (by decide), kst, ?_, ?_⟩
  · rw [dkf, hk, ← hlo]
    rfl
  · rw [dkf, hk, ← hhi]
    rfl

/-- The last stage passes, as the boot strap has it (03 R126, R127, R143). -/
theorem mustered_spec {s : State} (h : bootMode s) : ∃ u : State,
    u = { s with deck := u.deck } ∧ deckRegs s u [DK_STAGE, DK_CAUSE] ∧ u.dk DK_STAGE = 0xFF ∧
    u.dkf DK_CAUSE 0 8 = (if s.dev.cold then 0x38 else s.dkf DK_CAUSE 0 8) ∧
    u.dkf DK_CAUSE 8 8 = s.dkf DK_CAUSE 8 8 ∧
    (s.dev.straps.boot = 0 → reachesHoveTo u s.mustered) ∧
    (s.dev.straps.boot = 1 ∨ s.dev.straps.boot = 2 →
      s.mustered = { u with dev := { s.dev with booting := true }, bosun := { s.bosun with run := true }
                            deck := s.mustered.deck } ∧
      deckRegs u s.mustered [DK_STAGE] ∧ s.mustered.dk DK_STAGE = 0x0B) ∧
    (s.dev.straps.boot = 3 → s.mustered = u.becalm 0x1D false 0) := by
  obtain ⟨hf, hd, hst, hlo, hhi⟩ := passed_spec h
  refine ⟨s.passed, hf, hd, hst, hlo, hhi, fun hb => ?_, fun hb => ?_, fun hb => ?_⟩
  · have hm : bootMode s.passed := by rw [bootMode, hf]; exact h
    have he : s.mustered = s.passed.reachHoveTo := by rw [mustered_eq h, hb]; rfl
    rw [he]
    exact reachesHoveTo_reachHoveTo hm
  · obtain ⟨cf, cd, -, -⟩ := coldNoted_spec h
    obtain ⟨-, kd, kst⟩ := setStage_spec s.coldNoted (st := 0x0B) (unit := 0) (by decide) false
    have he : s.mustered = { s.coldNoted.setStage 0x0B 0 false with
        dev := { s.coldNoted.dev with booting := true }, bosun := { s.coldNoted.bosun with run := true } } := by
      rw [mustered_eq h]
      rcases hb with hb | hb <;> rw [hb] <;> rfl
    rw [he]
    refine ⟨?_, ⟨?_, fun o ho => ?_⟩, kst⟩
    · rw [hf, cf]
      rfl
    · change (s.coldNoted.setStage 0x0B 0 false).deck = _
      rw [kd.1]
      rfl
    · have ho' : o ≠ DK_STAGE := by simpa using ho
      exact (dk_setDk_ne _ _ ho').trans (dk_setDk_ne s.coldNoted _ ho').symm
  · rw [mustered_eq h, hb]
    rfl

/-! ### Stages that fail -/

theorem stageCause_lt {st : Nat} (h : st ≤ 10) (unit : Nat) : stageCause st unit < 256 := by
  unfold stageCause
  split
  · decide
  · decide
  · split
    · decide
    · split <;> decide
  · omega

/-- Entry to BECALMED leaves DK_STAGE. -/
theorem becalm_dkStage {s : State} (h : canBecalm s) (code : Nat) (d : Word) :
    (s.becalm code false d).dk DK_STAGE = s.dk DK_STAGE := by
  obtain ⟨-, -, -, -, -, -, -, -, -, -, -, -, -, hk⟩ := becalm_spec s code false d 0 (by
    rintro (hb | hm)
    · exact h.2 hb
    · exact h.1 hm)
  exact hk _ (by decide)

/-- A failure noted in DK_STAGE enters BECALMED with it (03 R121, R124). -/
theorem stageFails_becalm {s v : State} (h : bootMode s) (hv : v = { s with deck := v.deck, free := v.free })
    (hd : deckRegs s v [DK_STAGE]) {unit cause : Nat} (hu : unit < 16) (hc : cause < 256) (detail : Nat) :
    stageFails s ((v.setStage s.stage unit true).becalm cause false (Word.nat (unit * 4096 + detail))) unit cause detail := by
  obtain ⟨kf, kd, kst⟩ := setStage_spec v (st := s.stage) hu true
  have hf : v.setStage s.stage unit true =
      { s with deck := (v.setStage s.stage unit true).deck, free := (v.setStage s.stage unit true).free } := by
    generalize v.setStage s.stage unit true = u at *
    rw [kf, hv]
  have hb : canBecalm (v.setStage s.stage unit true) := by
    rw [canBecalm, hf]
    exact bootMode_canBecalm h
  exact ⟨_, hf, deckRegs_mono (deckRegs_trans hd kd) (by decide), kst, becalmedBy_becalm hb hc _ 0, becalm_dkStage hb cause _⟩

theorem stageFails_failStage {s : State} (h : s.mustering = true) {unit : Nat} (hu : unit < 16) (detail : Nat) :
    stageFails s (s.failStage unit detail) unit (stageCause s.stage unit)
      (if s.stage = 4 ∨ s.stage = 5 ∨ s.stage = 7 then detail % 4096 else 0) := by
  have hs := stageFails_becalm (mustering_bootMode h) (v := s) rfl ⟨rfl, fun _ _ => rfl⟩ hu
    (stageCause_lt (mustering_stage h).2 unit) (if s.stage = 4 ∨ s.stage = 5 ∨ s.stage = 7 then detail % 4096 else 0)
  rw [failStage, Nat.mod_eq_of_lt hu]
  exact hs

/-- A supply absent at REG_CHK's limit: CORE_SUPPLY or GR_SUPPLY (03 R123). -/
theorem regChkTimeout_absent {s : State} (h : s.mustering = true) (hst : s.stage = 3) {gr : Bool}
    (ha : (if gr then s.dev.grOk else s.dev.vinOk) = false) :
    ∃ t, exec (.regChkSupplyTimeout gr) s = .next t ∧ stageFails s t (b2n gr) (0x13 + b2n gr) 0 := by
  refine ⟨s.failStage (b2n gr) 0, congrArg Host.Outcome.next (if_pos ?_), ?_⟩
  · simp only [h, hst, ha]
    rfl
  · have hu : b2n gr < 16 := by cases gr <;> decide
    have hs := stageFails_failStage h hu 0
    have hc : stageCause 3 (b2n gr) = 0x13 + b2n gr := by cases gr <;> rfl
    rw [hst, hc] at hs
    exact hs

/-- What sampling DK_STAGE changes (03 R120). -/
theorem testUnit_deckRegs (s : State) : deckRegs s s.testUnit [DK_STAGE] := by
  unfold testUnit
  dsimp only
  split
  · exact deckRegs_setDk _ _ _
  · exact ⟨rfl, fun _ _ => rfl⟩

theorem testUnit_stage (s : State) : s.testUnit.stage = s.stage := by
  unfold testUnit
  dsimp only
  split
  · exact dkf_setDkf_ne _ _ _ _ _ _ _ (by decide)
  · rfl

theorem musterTime_eq {s : State} (h : s.mustering = true) : s.musterTime =
    (s.testUnit.setStage s.stage (s.testUnit.dkf DK_STAGE 8 4) true).becalm 0x1C false
      (Word.nat (s.testUnit.dkf DK_STAGE 8 4 * 4096)) := by
  rw [← testUnit_stage s]
  exact if_pos h

end Sys2Proof.Machine.State

namespace Sys2Proof

open Machine Machine.State Spec

/-- Settles O10: the stage that runs selects the next; the last one leads where `mustered_spec` says. -/
theorem musterRunsItsStagesInOrder : Obligations.MusterRunsItsStagesInOrder := by
  intro s unit detail h
  have hunit : s.dkf DK_STAGE 8 4 < 16 := fld_lt _ _ _
  refine ⟨fun h3 h5 h10 h8 => ?_, fun h3 hv => ?_, fun h3 hv => ?_, fun h5 => ?_, fun hend => ?_⟩
  · have hn : ¬ (s.stage = 10 ∨ s.dev.cold = true ∧ s.stage = 8) := by
      rintro (h | ⟨hc, hs⟩)
      · exact h10 h
      · exact h8.elim (fun k => Bool.noConfusion (k.symm.trans hc)) (absurd hs)
    rw [stageEnd_pass h, if_neg h3, if_neg fun k => h5 k.1, if_neg hn]
    exact ⟨_, rfl, setStage_spec s (by decide) false⟩
  · rw [stageEnd_pass h, if_pos h3, if_pos hv]
    exact ⟨_, rfl, setStage_spec { s with dev := { s.dev with grOk := true } } (st := 4) (unit := 0) (by decide) false⟩
  · rw [stageEnd_pass h, if_pos h3, hv]
    rfl
  · rw [stageEnd_pass h, if_neg (by omega)]
    have := stackCount_le s.part
    by_cases hu : s.dkf DK_STAGE 8 4 + 1 < s.part.stackCount
    · rw [if_pos ⟨h5, hu⟩, if_pos hu]
      exact ⟨_, rfl, setStage_spec s (by omega) false⟩
    · rw [if_neg fun k => hu k.2, if_neg hu, if_neg (by omega), h5]
      exact ⟨_, rfl, setStage_spec s (by decide) false⟩
  · rw [stageEnd_last h hend]
    obtain ⟨u, hf, hd, hst, hlo, hhi, hhost, hqspi, hres⟩ := mustered_spec (mustering_bootMode h)
    exact ⟨u, hf, hd, hst, hlo, hhi, fun hb => ⟨_, rfl, hhost hb⟩, fun hb => ⟨_, rfl, hqspi hb⟩,
      fun hb => congrArg Host.Outcome.next (hres hb)⟩

/-- Settles O11: what entry to BECALMED leaves is `becalmedBy_becalm`, and each failure notes its stage first. -/
theorem musterFailuresBecalm : Obligations.MusterFailuresBecalm := by
  refine ⟨fun u hu code detail hc => becalmedBy_becalm hu hc detail 0, fun s unit detail h hu => ?_⟩
  have hunit : s.dkf DK_STAGE 8 4 < 16 := fld_lt _ _ _
  refine ⟨fun h5 => ⟨_, stageEnd_fail h unit detail, ?_⟩, fun h5 => ⟨_, stageEnd_fail h unit detail, ?_⟩,
    fun h3 hv => regChkTimeout_absent (gr := false) h h3 hv, fun h3 hg => regChkTimeout_absent (gr := true) h h3 hg, ?_⟩
  · have hs := stageFails_failStage h hu detail
    rw [if_neg h5]
    simpa only [h5, false_or] using hs
  · have hs := stageFails_failStage h hunit detail
    rw [if_pos h5]
    rw [if_pos (.inr (.inl h5)), h5] at hs
    exact hs
  · refine ⟨s.musterTime, s.testUnit.dkf DK_STAGE 8 4, fld_lt _ _ _, rfl, ?_, fun hn => by rw [testUnit_still (.inr hn)]⟩
    rw [musterTime_eq h, ← Nat.add_zero (_ * 4096)]
    exact stageFails_becalm (mustering_bootMode h) (testUnit_frame s) (testUnit_deckRegs s) (fld_lt _ _ _) (by decide) 0

end Sys2Proof
end

section
/-! PROOFS. HAIL lines, the temperature, the millisecond count, and the accesses of 8-bit mode (03 R150–R152; 05 R211, R212,
R216, R217, R235). -/

namespace Sys2Proof.Machine.State

open Sys2Proof.Spec

/-! ### Lines -/

theorem testUnit_idle {s : State} (h : s.mustering = false) : s.testUnit = s := testUnit_still (.inl h)

/-- Sampling DK_STAGE names one of the units of the running stage (log 20). -/
theorem stageSampled_testUnit (s : State) : stageSampled s s.testUnit := by
  refine ⟨testUnit_idle, testUnit_frame s, testUnit_deckRegs s, testUnit_stage s, ?_, ?_⟩
  · unfold testUnit
    dsimp only
    split
    · rw [dkbit, dkf_setDkf_ne _ _ _ _ _ _ _ (by decide)]
      rfl
    · rfl
  · unfold testUnit
    dsimp only
    split
    · next h =>
      right
      have hn : stageUnits (s.dkf DK_STAGE 0 8) ≠ 0 := by
        simp only [Bool.and_eq_true, decide_eq_true_eq] at h
        omega
      rw [dkf_setDkf_self _ _ _ _ _ (by decide)]
      exact (Nat.mod_le _ _).trans_lt (Nat.mod_lt _ (Nat.pos_of_ne_zero hn))
    · exact .inl rfl

theorem lineStarts_hailStart (s : State) : lineStarts s s.hailStart s.dev.hail := by
  have hd : s.testUnit.dev = s.dev := by rw [testUnit_frame]
  refine ⟨s.testUnit, stageSampled_testUnit s, ?_⟩
  rw [← hd]
  rfl

/-- What DK_STAGE samples is no matter of HAIL. -/
theorem testUnit_hail (s : State) (h : Hail) : ({ s with dev := { s.dev with hail := h } } : State).testUnit =
    { s.testUnit with dev := { s.testUnit.dev with hail := h } } := by
  cases hc : s.mustering && decide (1 < stageUnits (s.dkf DK_STAGE 0 8)) with
  | false =>
    have hs : s.testUnit = s := if_neg (by rw [hc]; decide)
    rw [hs]
    exact if_neg (fun k => Bool.noConfusion (hc.symm.trans k))
  | true =>
    have hs : s.testUnit = (s.draw 8).2.setDkf DK_STAGE 8 4 ((s.draw 8).1.toNat % stageUnits (s.dkf DK_STAGE 0 8)) :=
      if_pos hc
    rw [hs]
    exact if_pos hc

/-- The line that waits starts as the line before it ends (03 R152). -/
theorem lineStarts_hailEnd {s : State} (h : s.dev.hail.waiting ≠ none) :
    lineStarts s s.hailEnd { s.dev.hail with waiting := none } := by
  have hd : s.testUnit.dev = s.dev := by rw [testUnit_frame]
  have hs : s.hailEnd =
      ({ s with dev := { s.dev with hail := { s.dev.hail with sending := [], waiting := none } } } : State).hailStart := by
    obtain ⟨b, hb⟩ := Option.ne_none_iff_exists'.1 h
    rw [hailEnd, hb]
  refine ⟨s.testUnit, stageSampled_testUnit s, ?_⟩
  rw [hs, hailStart, testUnit_hail]
  have hl : ({ s.testUnit with dev := { s.testUnit.dev with hail := { s.dev.hail with sending := [], waiting := none } } } :
      State).hailLine = s.testUnit.hailLine := hailLine_congr (fun _ _ => rfl) rfl (by rw [hd])
  dsimp only
  rw [hl]

theorem hailEnd_last {s : State} (h : s.dev.hail.waiting = none) :
    s.hailEnd = { s with dev := { s.dev with hail := { s.dev.hail with sending := [] } } } := by
  rw [hailEnd, h]
  dsimp only
  rw [← h]

theorem becalmed_idle {s : State} (h : s.dev.mode = .becalmed) : s.mustering = false := by
  simp [mustering, h]

/-- In BECALMED a line falls due with no stage to sample (03 R151). -/
theorem hailLineStart_becalmed {s : State} (h : s.dev.mode = .becalmed) :
    exec .hailLineStart s = .next s.closeTie.hailDue := congrArg Host.Outcome.next (if_pos h)

theorem closeTie_hailDue_idle {s : State} (h : s.dev.mode = .becalmed) (hi : s.dev.hail.sending = []) :
    s.closeTie.hailDue = { s with dev := { s.dev with
      tie := none, hail := { s.dev.hail with sending := s.hailLine, count := (s.dev.hail.count + 1) % 100000 } } } := by
  rw [hailDue_idle (s := s.closeTie) hi, hailStart_still (s := s.closeTie) (.inl (becalmed_idle (s := s.closeTie) h))]
  rfl

theorem closeTie_hailDue_busy {s : State} (h : s.dev.mode = .becalmed) (hi : s.dev.hail.sending ≠ []) :
    s.closeTie.hailDue = { s with dev := { s.dev with tie := none, hail := { s.dev.hail with waiting := some true } } } := by
  rw [hailDue_busy (s := s.closeTie) hi, decide_eq_true (.inr h)]
  rfl

/-- A write of DK_HAIL_CFG with SEND: the other fields as they are (05 R235). -/
theorem hailSend_fields (v : Half) : storeFields (deckFields DK_HAIL_CFG) v (putFld v 15 1 1) = v := by
  change storeFields [fRw 0 1 1, fRw 1 1 1, fRw 2 1, fRw 3 1, fRw 4 1, fWo 15 1] _ _ = _
  simp [storeFields_cons, Field.stored, fRw, fWo, fld_putFld_ne, putFld_fld]

theorem hailSend_eq {s : State} (hf : s.deckFree = true) :
    exec .hailSend s = .next ((accessed s).setDk DK_HAIL_CFG (s.dk DK_HAIL_CFG)).hailDue := by
  have hb : bit (putFld (s.dk DK_HAIL_CFG) 15 1 1) 15 = true := by
    rw [bit, getLsbD_putFld]
    rfl
  have hw : s.deckWrite DK_HAIL_CFG (putFld (s.dk DK_HAIL_CFG) 15 1 1) =
      ((accessed s).setDk DK_HAIL_CFG (storeFields (deckFields DK_HAIL_CFG) (s.dk DK_HAIL_CFG)
        (putFld (s.dk DK_HAIL_CFG) 15 1 1))).hailDue := if_pos hb
  rw [hailSend_fields] at hw
  exact congrArg Host.Outcome.next ((if_pos hf).trans hw)

/-- A Deck register set to what it holds. -/
theorem deckRegs_setDk_same (s : State) (o : Nat) : deckRegs s (s.setDk o (s.dk o)) [] := by
  refine ⟨rfl, fun p _ => ?_⟩
  rcases eq_or_ne p o with rfl | h
  · exact dk_setDk_self _ _ _
  · exact dk_setDk_ne _ _ h

/-! ### The temperature and the time -/

theorem tempSample_eq {s : State} (h : s.dev.mode ≠ .moored) (code : BitVec 12) :
    exec (.tempSample code) s = .next
      ((if decide (408 < code.toInt) && !s.dkbit DK_TEMP 13 then s.raise irqTEMP else s).setDk DK_TEMP (BitVec.ofNat 16
        (code.toNat + 4096 * b2n (!s.dev.vinOk) + 8192 * b2n (decide (408 < code.toInt)) + 16384))) := by
  have ha : s.answers = true := decide_eq_true h
  have hv : (if decide (408 < code.toInt) && !s.dkbit DK_TEMP 13 then s.raise irqTEMP else s).dev.vinOk = s.dev.vinOk := by
    split <;> rfl
  rw [← hv]
  exact congrArg Host.Outcome.next (if_pos ha)

theorem tempSample_spec (s : State) (hot : Bool) (v : Half) :
    let t := (if hot then s.raise irqTEMP else s).setDk DK_TEMP v
    t = { s with deck := t.deck } ∧ deckRegs s t [DK_TEMP, DK_IRQ_RAW] ∧ t.dk DK_TEMP = v ∧
    raised s t (if hot then [irqTEMP] else []) := by
  cases hot with
  | false =>
    exact ⟨rfl, deckRegs_mono (deckRegs_setDk s DK_TEMP v) (by decide), dk_setDk_self _ _ _,
      raised_nil (dk_setDk_ne _ _ (by decide))⟩
  | true =>
    exact ⟨rfl, deckRegs_mono (deckRegs_trans (deckRegs_raise s irqTEMP) (deckRegs_setDk _ DK_TEMP v)) (by decide),
      dk_setDk_self _ _ _, raised_congr (raised_raise s (by decide)) rfl (dk_setDk_ne _ _ (by decide))⟩

/-! ### 8-bit mode -/

theorem byteRead_low {s : State} (hf : s.deckFree = true) (hb : s.dev.straps.busw = true) {k : Nat} (hk : k < 64) :
    exec (.deck8LowRead k) s = .next (s.deckRead (2 * k)) := by
  refine congrArg Host.Outcome.next ((if_pos hk).trans ?_)
  rw [byteRead, hf, hb]
  rfl

/-- The byte that a high-byte read returns: the held one of its slot, or the register's (05 R211). -/
def highByte (s : State) (k : Nat) : Nat :=
  match s.deck.readHold with
  | some (j, b) => if j = k then b.toNat else (s.deckValue (2 * k)).toNat / 256
  | none => (s.deckValue (2 * k)).toNat / 256

theorem highByte_held {s : State} {k : Nat} {b : Byte} (h : s.deck.readHold = some (k, b)) : s.highByte k = b.toNat := by
  rw [highByte, h]
  exact if_pos rfl

theorem highByte_fresh {s : State} {k : Nat} (h : ∀ b, s.deck.readHold ≠ some (k, b)) :
    s.highByte k = (s.deckValue (2 * k)).toNat / 256 := by
  unfold highByte
  split
  · next j b hj => exact if_neg fun e => h b (by rw [hj, e])
  · rfl

theorem byteRead_high {s : State} (hf : s.deckFree = true) (hb : s.dev.straps.busw = true) {k : Nat} (hk : k < 64) :
    exec (.deck8HighRead k) s =
      .next { accessed s with deck := { (accessed s).deck with data := BitVec.ofNat 16 (s.highByte k) } } := by
  refine congrArg Host.Outcome.next ((if_pos hk).trans ?_)
  rw [byteRead, hf, hb]
  rfl

theorem byteWrite_low {s : State} (hf : s.deckFree = true) (hb : s.dev.straps.busw = true) {k : Nat} (hk : k < 64) (b : Byte) :
    exec (.deck8LowWrite k b) s = .next { accessed s with deck := { (accessed s).deck with writeHold := some (k, b) } } := by
  refine congrArg Host.Outcome.next ((if_pos hk).trans ?_)
  rw [byteWrite, hf, hb]
  rfl

theorem byteWrite_high {s : State} (hf : s.deckFree = true) (hb : s.dev.straps.busw = true) {k : Nat} (hk : k < 64) (b : Byte) :
    exec (.deck8HighWrite k b) s = .next (match s.deck.writeHold with
      | some (j, l) => if j = k then s.deckWrite (2 * k) (BitVec.ofNat 16 (l.toNat + 256 * b.toNat)) else accessed s
      | none => accessed s) := by
  refine congrArg Host.Outcome.next ((if_pos hk).trans ?_)
  rw [byteWrite, hf, hb]
  rfl

/-- A read of DK_STAGE samples it first (03 R120). -/
theorem deckRead_stage (s : State) : s.deckRead DK_STAGE =
    ((accessed s).testUnit.setDk DK_STAGE (clearRc (deckFields DK_STAGE) ((accessed s).testUnit.dk DK_STAGE))).deckReturn
      DK_STAGE ((accessed s).testUnit.deckValue DK_STAGE) := rfl

theorem plainGives_stage (s : State) :
    s.deckRead DK_STAGE = { (accessed s).testUnit with deck := (s.deckRead DK_STAGE).deck } ∧
    plainGives (accessed s).testUnit (s.deckRead DK_STAGE) DK_STAGE := by
  rw [deckRead_stage]
  generalize (accessed s).testUnit = u
  refine ⟨rfl, deckGives_deckReturn (deckRegs_setDk _ _ _) rfl _ _, ?_⟩
  rw [deckReturn_dk, dk_setDk_self]

/-- A stage of several units shows one of them, a free choice (log 20). -/
theorem testUnit_several {s : State} (h : s.mustering = true) (hn : 1 < stageUnits (s.dkf DK_STAGE 0 8)) :
    ∃ unit, unit < stageUnits (s.dkf DK_STAGE 0 8) ∧ s.testUnit.dk DK_STAGE = putFld (s.dk DK_STAGE) 8 4 unit := by
  have ht : s.testUnit = (s.draw 8).2.setDkf DK_STAGE 8 4 ((s.draw 8).1.toNat % stageUnits (s.dkf DK_STAGE 0 8)) := by
    refine if_pos ?_
    rw [h, decide_eq_true hn]
    rfl
  refine ⟨(s.draw 8).1.toNat % stageUnits (s.dkf DK_STAGE 0 8), Nat.mod_lt _ (by omega), ?_⟩
  rw [ht]
  exact dk_setDk_self _ _ _

end Sys2Proof.Machine.State

namespace Sys2Proof

open Machine Machine.State Spec

/-- Settles O16: a line that starts samples DK_STAGE and shows what it finds; the rest are single updates. -/
theorem hailTemperatureAndTime : Obligations.HailTemperatureAndTime := by
  intro s
  refine ⟨⟨_, rfl⟩, fun h => ⟨fun hi => ?_, fun hi => ?_⟩, fun h => congrArg Host.Outcome.next (if_neg h),
    fun hi hw => ?_, fun hi hw => ⟨_, congrArg Host.Outcome.next (if_neg hi), lineStarts_hailEnd hw⟩,
    fun hi => congrArg Host.Outcome.next (if_pos hi), fun hf => ?_, fun h code => ?_, fun h => ?_, fun h => ⟨?_, fun code => ?_⟩⟩
  · rw [hailLineStart_becalmed h, closeTie_hailDue_idle h hi]
  · rw [hailLineStart_becalmed h, closeTie_hailDue_busy h hi]
  · exact congrArg Host.Outcome.next ((if_neg hi).trans (hailEnd_last hw))
  · refine ⟨(accessed s).setDk DK_HAIL_CFG (s.dk DK_HAIL_CFG), _, hailSend_eq hf, rfl,
      ⟨rfl, (deckRegs_setDk_same (accessed s) DK_HAIL_CFG).2⟩, fun hi => ?_, fun hi => hailDue_busy hi⟩
    rw [hailDue_idle (s := (accessed s).setDk DK_HAIL_CFG (s.dk DK_HAIL_CFG)) hi]
    exact lineStarts_hailStart ((accessed s).setDk DK_HAIL_CFG (s.dk DK_HAIL_CFG))
  · exact ⟨_, tempSample_eq h code, tempSample_spec s _ _⟩
  · exact congrArg Host.Outcome.next (if_pos (decide_eq_true h))
  · exact congrArg Host.Outcome.next (if_neg (by simp [answers, h]))
  · exact congrArg Host.Outcome.next (if_neg (by simp [answers, h]))

/-- Settles O25: a byte read is a Deck read of its slot or the byte it held, a byte write holds or makes a Deck write. -/
theorem eightBitAccessesPairTheirBytes : Obligations.EightBitAccessesPairTheirBytes := by
  intro s k b hk hf hb
  refine ⟨fun ho hs => ⟨_, byteRead_low hf hb hk, ?_⟩, fun ho hm hn => ?_, ⟨_, byteRead_high hf hb hk, rfl, fun x hx => ?_,
    fun hx => ?_⟩, byteWrite_low hf hb hk b, fun l hl => ?_, fun hl => ?_⟩
  · by_cases h : 2 * k = DK_STAGE
    · have hu : (accessed s).testUnit = accessed s := testUnit_still (s := accessed s) (hs h)
      have hg := plainGives_stage s
      rw [hu] at hg
      rw [h]
      exact hg
    · refine plainGives_deckRead s fun hin => ?_
      simp only [List.mem_cons] at hin ho
      tauto
  · obtain ⟨hx, hg⟩ := plainGives_stage s
    refine ⟨(accessed s).testUnit, _, testUnit_frame _, testUnit_deckRegs _, testUnit_several (s := accessed s) hm hn,
      byteRead_low hf hb hk, ?_⟩
    rw [ho]
    exact ⟨hx, hg⟩
  · rw [highByte_held hx]
  · rw [highByte_fresh hx]
  · have hv : BitVec.ofNat 16 (Word.nat (l.toNat + 256 * b.toNat)).toNat = BitVec.ofNat 16 (l.toNat + 256 * b.toNat) := by
      apply BitVec.eq_of_toNat_eq
      simp only [Word.nat, BitVec.toNat_ofNat]
      omega
    have ho : 2 * k < 128 ∧ 2 * k % 2 = 0 := by omega
    rw [byteWrite_high hf hb hk, registerWrite_deck hf ho.1 ho.2, hv, hl]
    exact congrArg Host.Outcome.next (if_pos rfl)
  · rw [byteWrite_high hf hb hk]
    split
    · next j l hj => exact congrArg Host.Outcome.next (if_neg fun e => hl l (by rw [hj, e]))
    · rfl

end Sys2Proof
end

section
/-! PROOFS. REEF, with a drain that completes as it is accepted (03 R138, R139; 07 R295, R318). -/

namespace Sys2Proof.Machine.State

open Sys2Proof.Spec

/-- A device in HOVE_TO with a Tack drain that nothing holds: ring 0, enabled and empty, is still cut for it, and the state
words of its descriptor in memory say so (07 Table 7.1). -/
def cutRingDrains : State :=
  { dev := { mode := .hoveTo }
    regs := [(CAP_EPOCH, 0x100)]
    mem := [(0x380016, 1), (0x38001E, 1)]
    cap := { rings := [(0, { size := 2, st := .enabled, cutV := true })] } }

/-- Memory holds what the ring table says of ring 0. -/
theorem cutRingDrains_mirrored :
    (wordsBytes (ringWords (cutRingDrains.ring 0))).zipIdx.all
      (fun p => Store.get 0 cutRingDrains.mem (ringAddr 0 + 16 + p.2) == p.1) = true := by decide

theorem canReef_cutRingDrains : canReef cutRingDrains := ⟨rfl, .inl rfl, rfl⟩

/-- As the REEF is accepted the drain completes, the ring is no longer cut, and its descriptor says so: the memory differs
(07 R295). -/
theorem cutRingDrains_reef :
    (match exec (.cmdReef false) cutRingDrains with
      | .next t => t.mem
      | _ => cutRingDrains.mem) = [(0x380016, 1)] := by decide

end Sys2Proof.Machine.State

namespace Sys2Proof

open Machine Machine.State Spec

/-- Refutes O14: an accepted REEF does not leave memory as it was where a drain that nothing holds completes with it: the ring
that was cut for the drain is cut no longer, which the state words of its descriptor in memory mirror. -/
theorem not_reefStopsSavesAndTurnsOff : ¬ Obligations.ReefStopsSavesAndTurnsOff := by
  intro h
  obtain ⟨-, -, haccepted, -⟩ := h cutRingDrains false
  obtain ⟨t, ht, -, -, -, -, -, -, -, hmem, -⟩ := haccepted canReef_cutRingDrains rfl rfl rfl (by decide)
  have hreef := cutRingDrains_reef
  rw [ht] at hreef
  exact absurd (hmem.symm.trans hreef) (by decide)

end Sys2Proof
end

section
/-! PROOFS. DK_CMD: what is judged before a command starts, and how one ends (03 R136; 05 R218, R219). -/

namespace Sys2Proof.Machine.State

open Sys2Proof.Spec

theorem hostWrite_cmd {s : State} (hf : s.deckFree = true) (v : Half) : s.hostWrite DK_CMD v = (accessed s).cmdWrite v :=
  if_pos hf

/-- A write of DK_CMD with its KEY and one of OP 1 to 5 (05 Table 5.2). -/
def cmdWord (v : Half) (op : Nat) : Prop := fld v 0 4 = op ∧ fld v 8 8 = 0x5A ∧ 1 ≤ op ∧ op ≤ 5

theorem cmdWrite_word (s : State) {v : Half} {op : Nat} (h : cmdWord v op) : s.cmdWrite v =
    if !s.cmdState op then s.cmdRefuse op 1
    else if s.dkbit DK_CMDSTAT 0 then s.cmdRefuse op 2
    else if !s.cmdArgOk op then s.cmdRefuse op 4
    else s.cmdStart op (bit v 4) (bit v 5) := by
  obtain ⟨rfl, hkey, h1, h5⟩ := h
  have hsoft : ¬ (fld v 0 4 = 6 ∧ fld v 8 8 = 0x5A) := by omega
  have hbad : ¬ (fld v 8 8 ≠ 0x5A ∨ fld v 0 4 = 0 ∨ 5 < fld v 0 4) := by omega
  exact (if_neg hsoft).trans (if_neg hbad)

/-- An accepted command, before its effect: BUSY is 1 (05 R219). -/
def begun (s : State) (c : Command) : State :=
  { s.setDkf DK_CMDSTAT 0 1 1 with dev := { s.dev with command := some c } }

/-- A command that passes the checks starts. -/
theorem hostWrite_accepted {s : State} {v : Half} {op : Nat} (h : cmdWord v op) (hf : s.deckFree = true)
    (hs : s.cmdState op = true) (hb : s.dkbit DK_CMDSTAT 0 = false) (ha : s.cmdArgOk op = true) :
    s.hostWrite DK_CMD v = (accessed s).cmdStart op (bit v 4) (bit v 5) := by
  have hs' : (accessed s).cmdState op = true := hs
  have hb' : (accessed s).dkbit DK_CMDSTAT 0 = false := hb
  have ha' : (accessed s).cmdArgOk op = true := ha
  rw [hostWrite_cmd hf, cmdWrite_word _ h, hs', hb', ha']
  rfl

theorem begun_deckAccess (s : State) (c : Command) : deckAccess s ((accessed s).begun c) [DK_CMDSTAT] :=
  ⟨rfl, (deckRegs_setDk (accessed s) DK_CMDSTAT _).2⟩

theorem begun_stat (s : State) (c : Command) : (s.begun c).dk DK_CMDSTAT = putFld (s.dk DK_CMDSTAT) 0 1 1 :=
  dk_setDk_self _ _ _

end Sys2Proof.Machine.State
end

section
/-! PROOFS. Wakes: the dies that REEF turned off start again (03 R139, R141–R143, R883; log 29). -/

namespace Sys2Proof.Machine.State

open Sys2Proof.Spec

theorem reg_restart (s : State) (retained : Bool) (a : Nat) :
    (s.restart retained).reg a = if wakeKeeps retained a && a != bsAddr BS_LS_STAT then s.reg a else csrReset a :=
  Store.get_filter_eq _ _ (fun a => wakeKeeps retained a && a != bsAddr BS_LS_STAT) a

theorem force_restart (s : State) (retained : Bool) (a : Nat) :
    (s.restart retained).force a = if wakeKeeps retained a || a == CK_KA_CFG then s.force a else csrReset a :=
  Store.get_filter_eq _ _ (fun a => wakeKeeps retained a || a == CK_KA_CFG) a

/-- A cold wake keeps no register of Bosun. -/
theorem wakeKeeps_cold (a : Nat) : (wakeKeeps false a && a != bsAddr BS_LS_STAT) = wakeKeeps false a := by
  rcases eq_or_ne a (bsAddr BS_LS_STAT) with rfl | h
  · decide
  · rw [bne_iff_ne.2 h, Bool.and_true]

theorem coldFrom_coldStart (s : State) : coldFrom s s.coldStart := by
  obtain ⟨hf, hm⟩ := loseRam_spec (s.restart false)
  have hreg : ∀ a, (s.restart false).loseRam.reg a = (s.restart false).reg a := fun a => by rw [hf]; rfl
  have hforce : ∀ a, (s.restart false).loseRam.force a = (s.restart false).force a := fun a => by rw [hf]; rfl
  have hdeck : (s.restart false).loseRam.deck = s.deck := by rw [hf]; rfl
  unfold coldStart
  generalize (s.restart false).loseRam = u at *
  have hk := deckRegs_setDk { u with dev := { u.dev with cold := true, image := none } } DK_STAGE 1
  refine ⟨?_, ⟨?_, fun o ho => ?_⟩, dk_setDk_self _ _ _, hm, fun a => ?_, fun a => ?_⟩
  · rw [hf]
    rfl
  · rw [← hdeck]
    rfl
  · exact (hk.2 o ho).trans (dk_of_deck_eq hdeck o)
  · exact (hreg a).trans (by rw [reg_restart, wakeKeeps_cold])
  · exact (hforce a).trans (force_restart s false a)

/-- A retained wake: the dies start again with the saved items, Bosun executing where an image is bound (03 R141). -/
def restored (s : State) : State :=
  { s.restart true with bosun := { (s.restart true).bosun with run := s.dev.image.isSome } }

theorem restoredFrom_restored (s : State) : restoredFrom s s.restored :=
  ⟨rfl, reg_restart s true, force_restart s true⟩

/-- The wake that its command starts from (03 R141). -/
def waked (s : State) : State := { s with dev := { s.dev with waking := true, coreEn := true } }

theorem startWake_reefed {s : State} (hm : s.dev.mode = .reefed) (hw : s.dev.waking = false) :
    s.startWake = if s.dev.retained then s.waked else s.waked.coldStart := if_pos ⟨hm, hw⟩

theorem wakeDone_vin {s : State} (hm : s.dev.mode = .reefed) (hw : s.dev.waking = true) (hc : s.dev.cold = false)
    (hv : s.dev.vinOk = true) :
    exec .wakeRestoreDone s = .next (if s.dev.retained then s.restored.reachHoveTo else s.coldStart) :=
  congrArg Host.Outcome.next (if_pos (by rw [hw, hc, hv, hm]; rfl))

/-- The wake is given up: CORE_EN low, no boot flow. -/
def unwoken (s : State) : State :=
  { s with dev := { s.dev with waking := false, cold := false, booting := false, coreEn := false }
           bosun := { s.bosun with run := s.bosun.run && !s.dev.booting } }

theorem wakeTimeout_noVin {s : State} (hm : s.dev.mode = .reefed) (hw : s.dev.waking = true) (hv : s.dev.vinOk = false) :
    exec .wakeSupplyTimeout s = .next (((s.unwoken.setDkf DK_CAUSE 0 8 0x39).raise irqSTATE).wakeFinished 5) := by
  have hc : s.unwoken.setCause 0x39 = s.unwoken.setDkf DK_CAUSE 0 8 0x39 := if_neg (by change s.dev.mode ≠ _; rw [hm]; decide)
  rw [← hc]
  exact congrArg Host.Outcome.next (if_pos (by rw [hw, hv, hm]; rfl))

theorem unwoken_noted (s : State) :
    let u := (s.unwoken.setDkf DK_CAUSE 0 8 0x39).raise irqSTATE
    deckRegs s u [DK_CAUSE, DK_IRQ_RAW] ∧ u.dk DK_CAUSE = putFld (s.dk DK_CAUSE) 0 8 0x39 ∧ raised s u [irqSTATE] :=
  ⟨deckRegs_trans (deckRegs_setDk s.unwoken DK_CAUSE _) (deckRegs_raise _ _),
    (dk_setDk_ne _ _ (by decide)).trans (dk_setDk_self _ _ _),
    raised_congr (raised_raise _ (by decide)) (dk_setDk_ne s.unwoken _ (by decide)).symm rfl⟩

end Sys2Proof.Machine.State

namespace Sys2Proof

open Machine Machine.State Spec

/-- Settles O15: every wake is `restart`, with the memories lost or the saved items kept. -/
theorem wakesLeaveReefed : Obligations.WakesLeaveReefed := by
  intro s hm
  refine ⟨fun hf hb hw => ?_, fun hw hc hv => ⟨fun hr => ⟨s.restored, s.restored.reachHoveTo, ?_, restoredFrom_restored s,
    reachesHoveTo_reachHoveTo (.inr hm)⟩, fun hr => ⟨s.coldStart, ?_, coldFrom_coldStart s⟩⟩, fun hw hv => ?_⟩
  · have hgo : s.hostWrite DK_CMD 0x5A02 = ((accessed s).begun ⟨2, false, s.cmdArg, false⟩).startWake :=
      hostWrite_accepted (op := 2) (by unfold cmdWord; decide) hf (decide_eq_true hm) hb rfl
    refine ⟨((accessed s).begun ⟨2, false, s.cmdArg, false⟩).waked, _, congrArg Host.Outcome.next hgo, rfl,
      begun_deckAccess s ⟨2, false, s.cmdArg, false⟩,
      begun_stat (accessed s) ⟨2, false, s.cmdArg, false⟩, ?_⟩
    rw [startWake_reefed (by exact hm) (by exact hw)]
    cases hr : s.dev.retained with
    | true => exact if_pos hr
    | false => exact (if_neg (ne_true_of_eq_false hr)).symm ▸ coldFrom_coldStart _
  · rw [wakeDone_vin hm hw hc hv, if_pos hr]
  · rw [wakeDone_vin hm hw hc hv, if_neg (ne_true_of_eq_false hr)]
  · refine ⟨_, wakeTimeout_noVin hm hw hv, ?_⟩
    obtain ⟨hd, hc, hr⟩ := unwoken_noted s
    obtain ⟨kf, kd⟩ := wakeFinished_frame ((s.unwoken.setDkf DK_CAUSE 0 8 0x39).raise irqSTATE) 5
    refine ⟨?_, deckRegs_mono (deckRegs_trans hd kd) (by decide), (kd.2 _ (by decide)).trans hc, ?_⟩
    · generalize wakeFinished _ _ = t at *
      rw [kf]
      rfl
    · by_cases hop : s.dev.command.map Command.op = some 2
      · rw [if_pos hop, wakeFinished_wake (by exact hop)]
        exact ⟨rfl, finishCmd_stat _ _ _, raised_trans hr (raised_finishCmd _ _ _)⟩
      · rw [if_neg hop, wakeFinished_other (by exact hop)]
        exact ⟨rfl, hd.2 _ (by decide), hr⟩

end Sys2Proof
end

section
/-! PROOFS. The boot flow (03 R127–R131; 21 R859). -/

namespace Sys2Proof.Machine.State

open Sys2Proof.Spec

/-! ### What a failed image leaves undefined -/

theorem scramble_place (s : State) (ws : List (Nat × Nat)) : PlaceStep s (s.scramble ws) :=
  foldl_keeps (PlaceStep s) _ (fun u e h => h.trans (.drawn u srcCapstan e.1 e.2)) _ _ (.refl s)

theorem scramble_dev (s : State) (ws : List (Nat × Nat)) : (s.scramble ws).dev = s.dev := by rw [(scramble_place s ws).1]

theorem setCause_dev (s : State) (c : Nat) : (s.setCause c).dev = s.dev := by
  unfold setCause
  split <;> rfl

theorem bootFailed_dev (s u : State) (image : List Byte) (first : Bool) (c : Nat) :
    (bootFailed s u image first c).dev = u.dev := by
  cases first
  · exact scramble_dev u _
  · exact (setCause_dev _ c).trans (scramble_dev u _)

/-! ### One attempt -/

def bootBlock (fl : Flash) (second : Bool) : List Word := if second then fl.blockB else fl.blockA
def bootImage (fl : Flash) (second : Bool) : List Byte := if second then fl.imageB else fl.imageA

/-- How far into the flash an attempt reads (03 R129). -/
def bootReach (block : List Word) (image : List Byte) : Nat :=
  (wordAt block 1).toNat + (if wordAt (bytesWords 3 image) 0 = 0x31545246 then (wordAt (bytesWords 3 image) 2).toNat else 32)

/-- It would read beyond the addresses of the strap or beyond the flash. -/
def bootFar (s : State) (fl : Flash) (reach : Nat) : Bool :=
  decide (s.dev.straps.boot = 1 ∧ 0x1000000 < reach) ||
    (match fl.sfdp with | some (n, _, _) => decide (n < reach) | none => false)

/-- An attempt by the serial lines. -/
theorem bootTry_serial (s : State) (fl : Flash) (first : Bool) {block : List Word} (image : List Byte)
    (h : fld (wordAt block 2) 3 2 < 2) : s.bootTry fl first block image =
      if s.bootFar fl (bootReach block image) then (s.bootCause first 0x32, false)
      else match bindImage (.flash image) s with
        | (u, .ok ()) => (u, true)
        | (u, .error c) => if u.dev.mode = .becalmed then (u, false) else (bootFailed s u image first c, false) := by
  have hquad : ∀ quad : Bool, ¬ (2 ≤ fld (wordAt block 2) 3 2 ∧ quad = false) := fun _ k => Nat.not_lt.2 k.1 h
  unfold bootTry
  simp only [hquad, if_false]
  rfl

/-- An attempt whose reads the part and the flash allow is the binding of its image (03 R129, R131). -/
theorem bootTry_reads {s : State} {fl : Flash} {b : Bool} (h : bootReads s fl b) (first : Bool) :
    s.bootTry fl first (bootBlock fl b) (bootImage fl b) =
      match bindImage (.flash (bootImage fl b)) s with
      | (u, .ok ()) => (u, true)
      | (u, .error c) => if u.dev.mode = .becalmed then (u, false) else (bootFailed s u (bootImage fl b) first c, false) := by
  obtain ⟨-, hserial, hstrap, hsfdp⟩ := h
  have hnear : s.bootFar fl (bootReach (bootBlock fl b) (bootImage fl b)) = false := by
    refine Bool.or_eq_false_iff.2 ⟨decide_eq_false fun k => Nat.not_lt.2 (hstrap k.1) k.2, ?_⟩
    split
    · next hx => exact decide_eq_false (Nat.not_lt.2 (hsfdp _ hx))
    · rfl
  rw [bootTry_serial s fl first (block := bootBlock fl b) _ hserial, hnear]
  rfl

theorem bootTry_bound {s u : State} {fl : Flash} {b : Bool} (h : bootReads s fl b) (first : Bool)
    (hb : bindImage (.flash (bootImage fl b)) s = (u, .ok ())) :
    s.bootTry fl first (bootBlock fl b) (bootImage fl b) = (u, true) := by
  rw [bootTry_reads h, hb]

theorem bootTry_failed {s u : State} {fl : Flash} {b : Bool} {c : Nat} (h : bootReads s fl b) (first : Bool)
    (hb : bindImage (.flash (bootImage fl b)) s = (u, .error c)) (hm : bootMode u) :
    s.bootTry fl first (bootBlock fl b) (bootImage fl b) = (bootFailed s u (bootImage fl b) first c, false) := by
  rw [bootTry_reads h, hb]
  exact if_neg (bootMode_canBecalm hm).2

/-! ### The flow -/

/-- The boot flow ends in HOVE_TO (03 R129, R130). -/
def booted (s : State) (ok : Bool) : State :=
  let w := (s.setStage 0xFF 0 false).reachHoveTo
  if ok then w else w.raise irqBOOT

/-- It ends there where no attempt has met a class F fault. -/
def flowDone (s : State) (ok : Bool) : State := if s.dev.mode = .becalmed then s else s.booted ok

/-- Bosun stops with the boot flow. -/
def flowStopped (s : State) : State := { s with bosun := { s.bosun with run := false } }

theorem flowDone_bootMode {s : State} (h : bootMode s) (ok : Bool) : s.flowDone ok = s.booted ok :=
  if_neg (bootMode_canBecalm h).2

theorem bootEnds_booted {s : State} (h : bootMode s) (ok : Bool) : bootEnds s (s.booted ok) ok := by
  obtain ⟨hf, hd, hst⟩ := setStage_spec s (st := 0xFF) (unit := 0) (by decide) false
  refine ⟨_, _, hf, hd, hst, reachesHoveTo_reachHoveTo (by exact h), ?_⟩
  cases ok with
  | true => rfl
  | false => exact ⟨rfl, deckRegs_raise _ _, raised_raise _ (by decide)⟩

theorem bootEnd_noBlock {s : State} {fl : Flash} (hs : s.dev.booting = true) (ha : blockValid (bootBlock fl false) = false)
    (hb : blockValid (bootBlock fl true) = false) :
    exec (.bootFlowEnd fl) s = .next ((s.flowStopped.setCause 0x30).flowDone false) := by
  have ha' : blockValid fl.blockA = false := ha
  have hb' : blockValid fl.blockB = false := hb
  change Host.Outcome.next (s.bootEnd fl) = _
  unfold bootEnd
  rw [hs, ha', hb']
  rfl

/-- The valid block, the newer of two, is tried first; where its image is not bound, another valid block's is (03 R129). -/
theorem bootEnd_blocks {s : State} {fl : Flash} {b : Bool} (hs : s.dev.booting = true)
    (hv : blockValid (bootBlock fl b) = true)
    (hn : blockValid (bootBlock fl (!b)) = true → newer fl.blockA fl.blockB = b) :
    exec (.bootFlowEnd fl) s = .next
      (let r := s.flowStopped.bootTry fl true (bootBlock fl b) (bootImage fl b)
       if r.2 then r.1.flowDone true
       else if blockValid (bootBlock fl (!b)) && decide (r.1.dev.mode ≠ .becalmed) then
         let q := r.1.bootTry fl false (bootBlock fl (!b)) (bootImage fl (!b))
         q.1.flowDone q.2
       else r.1.flowDone false) := by
  change Host.Outcome.next (s.bootEnd fl) = _
  unfold bootEnd
  rw [hs]
  cases b with
  | false =>
    have ha : blockValid fl.blockA = true := hv
    have huse : (blockValid fl.blockB && newer fl.blockA fl.blockB) = false := by
      cases hB : blockValid fl.blockB with
      | false => rfl
      | true => exact hn hB
    simp only [ha, Bool.not_true, Bool.false_and, Bool.false_or, huse, Bool.true_and]
    rfl
  | true =>
    have hB : blockValid fl.blockB = true := hv
    have huse : (!blockValid fl.blockA || newer fl.blockA fl.blockB) = true := by
      cases ha : blockValid fl.blockA with
      | false => rfl
      | true => exact hn ha
    simp only [hB, Bool.not_true, Bool.and_false, huse, Bool.and_true]
    rfl

end Sys2Proof.Machine.State

namespace Sys2Proof

open Machine Machine.State Spec

/-- Settles O17: each attempt is the binding of its image, and the flow ends as its last attempt has. -/
theorem theBootFlowEndsInHoveTo : Obligations.TheBootFlowEndsInHoveTo := by
  intro s fl hs hm
  refine ⟨fun ha hb => ?_, fun b u hr hn => ?_⟩
  · have hmode : bootMode (s.flowStopped.setCause 0x30) := by rw [bootMode, setCause_dev]; exact hm
    have hc : s.flowStopped.setCause 0x30 = s.flowStopped.setDkf DK_CAUSE 0 8 0x30 := if_neg (bootMode_canBecalm hm).2
    refine ⟨s.flowStopped.setCause 0x30, _, bootEnd_noBlock hs ha hb, ?_⟩
    rw [flowDone_bootMode hmode]
    refine ⟨?_, ?_, ?_, bootEnds_booted hmode false⟩
    · rw [hc]
      rfl
    · rw [hc]
      exact deckRegs_setDk s.flowStopped DK_CAUSE _
    · rw [hc]
      exact dk_setDk_self _ _ _
  · have hflow := bootEnd_blocks hs hr.1 hn
    have hr0 : bootReads s.flowStopped fl b := hr
    refine ⟨fun hbind hu => ?_, fun c hbind hu => ?_⟩
    · rw [bootTry_bound hr0 true hbind] at hflow
      exact ⟨_, hflow.trans (congrArg Host.Outcome.next (flowDone_bootMode hu true)), bootEnds_booted hu true⟩
    · have hv : bootMode (bootFailed s.flowStopped u (bootImage fl b) true c) := by rw [bootMode, bootFailed_dev]; exact hu
      rw [bootTry_failed hr0 true hbind hu] at hflow
      refine ⟨fun halone => ?_, fun hr' w => ?_⟩
      · have ha : blockValid (bootBlock fl (!b)) = false := halone
        rw [ha] at hflow
        exact ⟨_, hflow.trans (congrArg Host.Outcome.next (flowDone_bootMode hv false)), bootEnds_booted hv false⟩
      · have hr1 : bootReads (bootFailed s.flowStopped u (bootImage fl b) true c) fl (!b) := hr'
        have ha : blockValid (bootBlock fl (!b)) = true := hr1.1
        rw [ha] at hflow
        dsimp only at hflow
        rw [if_neg nofun, decide_eq_true (bootMode_canBecalm hv).2, Bool.and_true, if_pos rfl] at hflow
        refine ⟨fun hbind' hw => ?_, fun c' hbind' hw => ?_⟩
        · rw [bootTry_bound hr1 false hbind'] at hflow
          exact ⟨_, hflow.trans (congrArg Host.Outcome.next (flowDone_bootMode hw true)), bootEnds_booted hw true⟩
        · have hw' : bootMode (bootFailed (bootFailed s.flowStopped u (bootImage fl b) true c) w (bootImage fl (!b)) false c') := by
            rw [bootMode, bootFailed_dev]
            exact hw
          rw [bootTry_failed hr1 false hbind' hw] at hflow
          exact ⟨_, hflow.trans (congrArg Host.Outcome.next (flowDone_bootMode hw' false)), bootEnds_booted hw' false⟩

end Sys2Proof
end

section
/-! PROOFS. A ring's state words under ECC (06 R269, R275; 07 R295), and the host's place beside them. -/

namespace Sys2Proof.Machine.Store

variable {α : Type} [DecidableEq α]

theorem mem_of_mem_set {d : α} {m : List (Nat × α)} {k : Nat} {v : α} {e : Nat × α} (h : e ∈ set d m k v) :
    e ∈ m ∨ (e = (k, v) ∧ v ≠ d) := by
  simp only [set, List.mem_append, List.mem_filter] at h
  rcases h with (h | h) | h
  · exact .inl h.1
  · split at h
    · cases h
    · next hv => exact .inr ⟨List.mem_singleton.1 h, hv⟩
  · exact .inl h.1

/-- A run read where it was written, whatever the form of the table. -/
theorem getRun_setRun_self (d : α) (m : List (Nat × α)) (k : Nat) (vs : List α) :
    getRun d (setRun d m k vs) k vs.length = vs := by
  have hcells : slice (setRun d m k vs) k vs.length = cells d k vs := by
    have hlow : (m.filter fun e => decide (e.1 < k)).filter
        (fun e => decide (k ≤ e.1) && decide (e.1 < k + vs.length)) = [] := by
      simp only [List.filter_filter, List.filter_eq_nil_iff, Bool.and_eq_true, decide_eq_true_eq]
      omega
    have hhigh : (m.filter fun e => decide (k + vs.length ≤ e.1)).filter
        (fun e => decide (k ≤ e.1) && decide (e.1 < k + vs.length)) = [] := by
      simp only [List.filter_filter, List.filter_eq_nil_iff, Bool.and_eq_true, decide_eq_true_eq]
      omega
    have hmid : (cells d k vs).filter (fun e => decide (k ≤ e.1) && decide (e.1 < k + vs.length)) = cells d k vs :=
      List.filter_eq_self.2 fun e he => by
        have := mem_cells d he
        simp only [Bool.and_eq_true, decide_eq_true_eq]
        exact this
    rw [slice, setRun, List.filter_append, List.filter_append, hlow, hmid, hhigh, List.nil_append, List.append_nil]
  rw [getRun, hcells]
  apply List.ext_getElem?
  intro i
  by_cases hi : i < vs.length
  · rw [get_expand d _ (wfFrom_cells d k vs) i hi, get_cells d k vs i hi, List.getElem?_eq_getElem hi]
  · rw [List.getElem?_eq_none (by rw [length_expand]; omega), List.getElem?_eq_none (by omega)]

end Sys2Proof.Machine.Store

namespace Sys2Proof.Machine.State

open Sys2Proof.Spec

/-! ### A write under ECC -/

/-- One damaged word under a write of the `n` bytes from `a` (06 R269). -/
def mendOne (src a n : Nat) (x : State × List Nat) (e : Nat × Ecc) : State × List Nat :=
  if decide (a ≤ e.1) && decide (e.1 + wordSize e.1 ≤ a + n) then (x.1.setEcc e.1 .ok, x.2)
  else match e.2 with
    | .single => ((x.1.noteEcc src e.1 false).setEcc e.1 .ok, x.2)
    | .double => (x.1.noteEcc src e.1 true, x.2 ++ [e.1])
    | .ok => x

/-- The damaged words mended, and those that cannot be. -/
def mended (s : State) (src a n : Nat) : State × List Nat := (s.damaged a n).foldl (mendOne src a n) (s, [])

/-- What is written once the words of `bad` are left out: where it starts, and its bytes. -/
def spared (bad : List Nat) (a : Nat) (l : List Byte) : Nat × List Byte :=
  let size := max (wordSize a) 1
  let first := a / size * size
  let last := (a + l.length - 1) / size * size
  let p := if bad.contains first then (first + size, l.drop (first + size - a)) else (a, l)
  (p.1, if bad.contains last ∧ last ≠ first then p.2.take (last - p.1) else p.2)

theorem eccPut_eq (s : State) (src a : Nat) {l : List Byte} (hl : l ≠ []) : s.eccPut src a l =
    let x := s.mended src a l.length
    let p := spared x.2 a l
    ((x.1.poke p.1 p.2).injectOn p.1 p.2.length, x.2.head?) :=
  if_neg (by simpa using hl)

theorem spared_within (bad : List Nat) (a : Nat) (l : List Byte) :
    a ≤ (spared bad a l).1 ∧ ((spared bad a l).2 = [] ∨ (spared bad a l).1 + (spared bad a l).2.length ≤ a + l.length) := by
  have hsize : 0 < max (wordSize a) 1 := by omega
  have hfirst : a < a / max (wordSize a) 1 * max (wordSize a) 1 + max (wordSize a) 1 := Nat.lt_div_mul_add hsize
  unfold spared
  dsimp only
  split <;> split <;> simp only [← List.length_eq_zero_iff, List.length_take, List.length_drop] <;> omega

theorem noteEcc_ecc (s : State) (src a : Nat) (ue : Bool) : (s.noteEcc src a ue).ecc = s.ecc := by
  unfold noteEcc noteCnEcc
  dsimp only
  repeat' split
  all_goals rfl

/-- Mending writes no byte and damages no word. -/
theorem mended_keeps (s : State) (src a n : Nat) :
    (s.mended src a n).1.mem = s.mem ∧ ∀ e ∈ (s.mended src a n).1.ecc, e ∈ s.ecc := by
  refine foldl_keeps (fun x : State × List Nat => x.1.mem = s.mem ∧ ∀ e ∈ x.1.ecc, e ∈ s.ecc) _ ?_ _ _ ⟨rfl, fun _ h => h⟩
  rintro ⟨t, bad⟩ ⟨w, k⟩ ⟨hm, he⟩
  have hset : ∀ u : State, u.ecc = t.ecc → ∀ e ∈ (u.setEcc w .ok).ecc, e ∈ s.ecc := fun u hu e h => by
    rcases Store.mem_of_mem_set h with h | h
    · exact he e (hu ▸ h)
    · exact absurd rfl h.2
  unfold mendOne
  dsimp only
  split
  · exact ⟨hm, hset t rfl⟩
  · cases k with
    | ok => exact ⟨hm, he⟩
    | single => exact ⟨(noteEcc_mem t src w false).trans hm, hset _ (noteEcc_ecc t src w false)⟩
    | double => exact ⟨(noteEcc_mem t src w true).trans hm, fun e h => he e (noteEcc_ecc t src w true ▸ h)⟩

/-- Where every damaged word lies within the write, it mends them without an error. -/
theorem mended_whole {s : State} {a n : Nat} (h : wholeWords s a n) (src : Nat) :
    (s.mended src a n).2 = [] ∧ (s.mended src a n).1 = { s with ecc := (s.mended src a n).1.ecc } := by
  have hall : ∀ (l : List (Nat × Ecc)), (∀ e ∈ l, a ≤ e.1 ∧ e.1 + wordSize e.1 ≤ a + n) → ∀ t : State,
      (l.foldl (mendOne src a n) (t, [])).2 = [] ∧
      (l.foldl (mendOne src a n) (t, [])).1 = { t with ecc := (l.foldl (mendOne src a n) (t, [])).1.ecc } := by
    intro l
    induction l with
    | nil => exact fun _ _ => ⟨rfl, rfl⟩
    | cons e l ih =>
      intro hl t
      obtain ⟨he, hl⟩ := List.forall_mem_cons.1 hl
      have hone : mendOne src a n (t, []) e = (t.setEcc e.1 .ok, []) := if_pos (by simpa using he)
      rw [List.foldl_cons, hone]
      exact ih hl (t.setEcc e.1 .ok)
  exact hall _ h s

/-- An armed injection damages a word that the write touches, or nothing. -/
theorem mem_injectOn_ecc {s : State} {a n : Nat} {e : Nat × Ecc} (h : e ∈ (s.injectOn a n).ecc) :
    e ∈ s.ecc ∨ (n ≠ 0 ∧ e.1 < a + n ∧ a < e.1 + wordSize e.1) := by
  unfold injectOn at h
  split at h
  · exact .inl h
  · split at h
    · next hi =>
      rcases Store.mem_of_mem_set h with h | h
      · exact .inl h
      · rw [h.1]
        exact .inr hi
    · exact .inl h

theorem injectOn_frame (s : State) (a n : Nat) :
    (s.injectOn a n).free = s.free ∧ csrKept s (s.injectOn a n) [RG_ECC_INJ] := by
  unfold injectOn
  split
  · exact ⟨rfl, fun _ _ => rfl⟩
  · split
    · exact ⟨rfl, fun b hb => reg_setReg_ne _ _ (by simpa using hb)⟩
    · exact ⟨rfl, fun _ _ => rfl⟩

theorem eccPut_memKeptBut (s : State) (src a : Nat) {l : List Byte} (hl : l ≠ []) :
    memKeptBut s (s.eccPut src a l).1 a l.length := fun b hb => by
  obtain ⟨hlo, hhi⟩ := spared_within (s.mended src a l.length).2 a l
  have hmem : (s.eccPut src a l).1.mem = Store.setRun 0 s.mem (spared (s.mended src a l.length).2 a l).1
      (spared (s.mended src a l.length).2 a l).2 := by
    rw [eccPut_eq s src a hl]
    dsimp only
    rw [injectOn_mem, poke_mem, (mended_keeps s src a l.length).1]
  unfold byteAt
  rw [hmem, Store.get_setRun_out]
  rcases hhi with hnil | hhi
  · rw [hnil, List.length_nil]
    omega
  · omega

theorem mem_eccPut_ecc {s : State} {src a : Nat} {l : List Byte} (hl : l ≠ []) {e : Nat × Ecc}
    (h : e ∈ (s.eccPut src a l).1.ecc) : e ∈ s.ecc ∨ (e.1 < a + l.length ∧ a < e.1 + wordSize e.1) := by
  obtain ⟨hlo, hhi⟩ := spared_within (s.mended src a l.length).2 a l
  rw [eccPut_eq s src a hl] at h
  rcases mem_injectOn_ecc h with h | ⟨hn, hlt, hgt⟩
  · exact .inl ((mended_keeps s src a l.length).2 e h)
  · rcases hhi with hnil | hhi
    · rw [hnil] at hn
      exact absurd rfl hn
    · exact .inr ⟨by omega, by omega⟩

/-- A write of whole damaged words stores its bytes. -/
theorem eccPut_whole {s : State} {a : Nat} {l : List Byte} (hl : l ≠ []) (h : wholeWords s a l.length) (src : Nat) :
    (s.eccPut src a l).1.mem = Store.setRun 0 s.mem a l ∧ (s.eccPut src a l).1.free = s.free ∧
    csrKept s (s.eccPut src a l).1 [RG_ECC_INJ] := by
  obtain ⟨hbad, hs⟩ := mended_whole h src
  have hsp : spared [] a l = (a, l) := rfl
  rw [eccPut_eq s src a hl]
  dsimp only
  rw [hbad, hsp]
  dsimp only
  generalize (s.mended src a l.length).1 = t at *
  obtain ⟨hfree, hreg⟩ := injectOn_frame (t.poke a l) a l.length
  refine ⟨?_, hfree.trans ?_, fun b hb => (hreg b hb).trans ?_⟩
  · rw [injectOn_mem, poke_mem, hs]
  · rw [hs]; rfl
  · rw [hs]; rfl

/-! ### A ring and its state words -/

theorem ringBytes_length (r : Ring) : (wordsBytes (ringWords r)).length = 16 := length_wordsBytes _

theorem ringBytes_ne_nil (r : Ring) : wordsBytes (ringWords r) ≠ [] := List.ne_nil_of_length_pos (by rw [ringBytes_length]; omega)

/-- A ring in the table, before its words follow. -/
def ringPut (s : State) (n : Nat) (r : Ring) : State := { s with cap := { s.cap with rings := Store.set {} s.cap.rings n r } }

/-- No descriptor of the ring table lies in the Crowsnest SRAM. -/
theorem setRing_eq (s : State) {n : Nat} (r : Ring) (h : n < 16384) :
    s.setRing n r = ((s.ringPut n r).eccPut srcCapstan (ringAddr n + 16) (wordsBytes (ringWords r))).1 := by
  have hshut : ((List.range (wordsBytes (ringWords r)).length).any fun i =>
      (s.ringPut n r).cnShut (ringAddr n + 16 + i)) = false := by
    rw [List.any_eq_false]
    intro i hi
    have hi : i < 16 := ringBytes_length r ▸ List.mem_range.1 hi
    have hcn : inCn (ringAddr n + 16 + i) = false := by
      unfold inCn ringAddr
      simp only [Bool.and_eq_false_iff, decide_eq_false_iff_not]
      omega
    rw [cnShut, hcn]
    exact nofun
  exact congrArg Prod.fst (if_neg (ne_true_of_eq_false hshut))

theorem setRing_frame (s : State) (n : Nat) (r : Ring) :
    s.setRing n r = { s with cap := { s.cap with rings := Store.set {} s.cap.rings n r }, mem := (s.setRing n r).mem
                             ecc := (s.setRing n r).ecc, inject := (s.setRing n r).inject, regs := (s.setRing n r).regs
                             free := (s.setRing n r).free } :=
  eccWrite_frame (s.ringPut n r) srcCapstan (ringAddr n + 16) (wordsBytes (ringWords r))

theorem ring_setRing_self (s : State) (n : Nat) (r : Ring) : (s.setRing n r).ring n = r := by
  rw [ring, setRing_frame]
  exact Store.get_set_self _ _ _ _

theorem ring_setRing_ne (s : State) {n m : Nat} (r : Ring) (h : m ≠ n) : (s.setRing n r).ring m = s.ring m := by
  rw [ring, setRing_frame]
  exact Store.get_set_ne _ _ _ h

theorem reg_setRing (s : State) (n : Nat) (r : Ring) {a : Nat} (h : eccReg a = false) (hc : a ≠ CN_STAT) :
    (s.setRing n r).reg a = s.reg a :=
  eccWrite_reg (s.ringPut n r) srcCapstan (ringAddr n + 16) (wordsBytes (ringWords r)) h hc

theorem ringSet_setRing (s : State) {n : Nat} (r : Ring) (h : n < 16384) : ringSet s (s.setRing n r) n r := by
  refine ⟨?_, rfl, ring_setRing_self s n r, fun m hm => ring_setRing_ne s r hm, ?_, fun _ hw => ?_⟩
  · have hf := setRing_frame s n r
    generalize s.setRing n r = t at *
    rw [hf]
  · rw [setRing_eq s r h, ← ringBytes_length r]
    exact eccPut_memKeptBut (s.ringPut n r) srcCapstan (ringAddr n + 16) (ringBytes_ne_nil r)
  · have hw' : wholeWords (s.ringPut n r) (ringAddr n + 16) (wordsBytes (ringWords r)).length := by
      rw [ringBytes_length]
      exact hw
    obtain ⟨hmem, hfree, hreg⟩ := eccPut_whole (ringBytes_ne_nil r) hw' srcCapstan
    rw [setRing_eq s r h]
    refine ⟨hfree, hreg, ?_⟩
    have hrom : ¬ 0xF0000000 ≤ ringAddr n + 16 := by unfold ringAddr; omega
    rw [peek, if_neg hrom, hmem, ← ringBytes_length r]
    exact Store.getRun_setRun_self 0 _ _ _

theorem wordSize_le (a : Nat) : wordSize a ≤ 8 := by
  unfold wordSize
  repeat' split
  all_goals omega

/-- A ring's words damage no other's. -/
theorem wholeWords_setRing {s : State} {n m : Nat} (r : Ring) (hn : n < 16384) (hm : m ≠ n)
    (h : wholeWords s (ringAddr m + 16) 16) : wholeWords (s.setRing n r) (ringAddr m + 16) 16 := by
  intro e he
  have hd : ∀ t : State, t.damaged (ringAddr m + 16) 16 =
      t.ecc.filter fun e => decide (e.1 < ringAddr m + 16 + 16) && decide (ringAddr m + 16 < e.1 + wordSize e.1) :=
    fun _ => if_neg (by decide)
  rw [hd, List.mem_filter, Bool.and_eq_true, decide_eq_true_eq, decide_eq_true_eq] at he
  obtain ⟨he, hlt, hgt⟩ := he
  rw [setRing_eq s r hn] at he
  rcases mem_eccPut_ecc (ringBytes_ne_nil r) he with he | ⟨hlt', hgt'⟩
  · refine h e ?_
    rw [hd, List.mem_filter, Bool.and_eq_true, decide_eq_true_eq, decide_eq_true_eq]
    exact ⟨he, hlt, hgt⟩
  · have := wordSize_le e.1
    rw [ringBytes_length] at hlt'
    unfold ringAddr at hlt hgt hlt' hgt'
    omega

end Sys2Proof.Machine.State
end

section
/-! PROOFS. TACK: the epoch advances and the rings keep its place (07 R317–R319). -/

namespace Sys2Proof.Machine.State

open Sys2Proof.Spec

/-! ### The rings cut at their tails -/

/-- A ring with an entry of the old epoch, as a Tack finds it (07 R318). -/
def cutAt (old : Nat) (r : Ring) : Ring :=
  if r.st ≠ .disabled ∧ r.efree = false ∧ r.epochs.contains old then { r with cut := r.tail, cutV := true } else r

def cutOne (old : Nat) (s : State) (e : Nat × Ring) : State :=
  if e.2.st ≠ .disabled ∧ e.2.efree = false ∧ e.2.epochs.contains old then
    s.setRing e.1 { e.2 with cut := e.2.tail, cutV := true }
  else s

/-- One ring, and what its words follow. -/
theorem cutOne_spec (old : Nat) (s : State) {e : Nat × Ring} (hn : e.1 < 16384) :
    let t := s.cutOne old e
    t = { s with cap := { s.cap with rings := t.cap.rings }, mem := t.mem, ecc := t.ecc, inject := t.inject, regs := t.regs
                 free := t.free } ∧
    (∀ a, eccReg a = false → a ≠ CN_STAT → t.reg a = s.reg a) ∧
    (∀ a, a < 0x380000 ∨ 0x400000 ≤ a → t.byteAt a = s.byteAt a) ∧
    (s.ring e.1 = e.2 → t.ring e.1 = cutAt old e.2) ∧ (∀ m, m ≠ e.1 → t.ring m = s.ring m) ∧
    (wholeWords s (ringAddr e.1 + 16) 16 → t.free = s.free ∧ csrKept s t [RG_ECC_INJ]) ∧
    ∀ m, m ≠ e.1 → wholeWords s (ringAddr m + 16) 16 → wholeWords t (ringAddr m + 16) 16 := by
  unfold cutOne cutAt
  dsimp only
  split
  · obtain ⟨hf, -, hself, hne, hmem, hwhole⟩ := ringSet_setRing s { e.2 with cut := e.2.tail, cutV := true } hn
    refine ⟨hf, fun a => reg_setRing s e.1 _, fun a ha => hmem a ?_, fun _ => hself, hne, fun hw => ?_,
      fun m hm => wholeWords_setRing _ hn hm⟩
    · unfold ringAddr
      omega
    · obtain ⟨hfree, hreg, -⟩ := hwhole hn hw
      exact ⟨hfree, hreg⟩
  · exact ⟨rfl, fun _ _ _ => rfl, fun _ _ => rfl, id, fun _ _ => rfl, fun _ => ⟨rfl, fun _ _ => rfl⟩, fun _ _ => id⟩

/-- Every ring of a table with its numbers distinct. -/
theorem cutRings_spec (old : Nat) (l : List (Nat × Ring)) (s : State) (hn : ∀ e ∈ l, e.1 < 16384)
    (hd : l.Pairwise fun e f => e.1 ≠ f.1) (hl : ∀ e ∈ l, s.ring e.1 = e.2) :
    let t := l.foldl (cutOne old) s
    t = { s with cap := { s.cap with rings := t.cap.rings }, mem := t.mem, ecc := t.ecc, inject := t.inject, regs := t.regs
                 free := t.free } ∧
    (∀ a, eccReg a = false → a ≠ CN_STAT → t.reg a = s.reg a) ∧
    (∀ a, a < 0x380000 ∨ 0x400000 ≤ a → t.byteAt a = s.byteAt a) ∧
    (∀ n, t.ring n = if n ∈ l.map Prod.fst then cutAt old (s.ring n) else s.ring n) ∧
    ((∀ e ∈ l, wholeWords s (ringAddr e.1 + 16) 16) → t.free = s.free ∧ csrKept s t [RG_ECC_INJ]) := by
  induction l generalizing s with
  | nil => exact ⟨rfl, fun _ _ _ => rfl, fun _ _ => rfl, fun _ => rfl, fun _ => ⟨rfl, fun _ _ => rfl⟩⟩
  | cons e l ih =>
    obtain ⟨hne, hn⟩ := List.forall_mem_cons.1 hn
    obtain ⟨hde, hd⟩ := List.pairwise_cons.1 hd
    obtain ⟨hle, hl⟩ := List.forall_mem_cons.1 hl
    obtain ⟨hf, hr, hb, hself, hother, hw, hwo⟩ := cutOne_spec old s hne
    obtain ⟨kf, kr, kb, kring, kw⟩ := ih (s.cutOne old e) hn hd fun f hf => (hother f.1 (hde f hf).symm).trans (hl f hf)
    rw [List.foldl_cons]
    generalize s.cutOne old e = u at *
    refine ⟨?_, fun a h hc => (kr a h hc).trans (hr a h hc), fun a h => (kb a h).trans (hb a h), fun n => ?_, fun hwhole => ?_⟩
    · generalize l.foldl (cutOne old) u = t at *
      rw [hf] at kf
      exact kf
    · rw [kring n]
      simp only [List.map_cons, List.mem_cons]
      rcases eq_or_ne n e.1 with rfl | hn
      · have hnot : e.1 ∉ l.map Prod.fst := by
          rw [List.mem_map]
          rintro ⟨f, hf, hfe⟩
          exact hde f hf hfe.symm
        rw [if_neg hnot, if_pos (.inl rfl), hself hle, hle]
      · rw [hother n hn]
        simp only [hn, false_or]
    · obtain ⟨hwe, hwl⟩ := List.forall_mem_cons.1 hwhole
      obtain ⟨hfree, hreg⟩ := hw hwe
      obtain ⟨kfree, kreg⟩ := kw fun f hf => hwo f.1 (hde f hf).symm (hwl f hf)
      exact ⟨kfree.trans hfree, fun a ha => (kreg a ha).trans (hreg a ha)⟩

/-! ### The Tack -/

/-- The epoch advances and a drain starts. -/
def turned (s : State) : State :=
  ((s.latchWaits.setRf CAP_EPOCH 0 8 (s.epochCur + 1)).setRf CAP_EPOCH 8 1 1).setRf CAP_EPOCH 30 1 0

/-- The same, before the rings keep its place. -/
def advanced (s : State) : State :=
  { s.turned with cap := { s.turned.cap with dice := s.cap.dice.filter fun k => k / 256 != (s.epochCur + 1) % 2 } }

theorem tack_eq {s : State} (hd : s.draining = false) (hh : s.held = false) :
    s.tack = (s.advanced.cap.rings.foldl (cutOne s.epochCur) s.advanced, true) :=
  if_neg (by rw [hd, hh]; decide)

theorem tack_pending {s : State} (h : s.draining = true ∨ s.held = true) : s.tack = (s, false) :=
  if_pos (by rcases h with h | h <;> simp [h])

theorem reg_advanced_turned (s : State) (a : Nat) : s.advanced.reg a = s.turned.reg a :=
  congrArg (fun l => Store.get (csrReset a) l a) (rfl : s.advanced.regs = s.turned.regs)

theorem reg_advanced (s : State) : s.advanced.reg CAP_EPOCH =
    putFld (putFld (putFld (s.reg CAP_EPOCH) 0 8 (s.epochCur + 1)) 8 1 1) 30 1 0 := by
  have hl : s.latchWaits.reg CAP_EPOCH = s.reg CAP_EPOCH := rfl
  rw [reg_advanced_turned, turned, setRf, reg_setReg_self, setRf, reg_setReg_self, setRf, reg_setReg_self, hl]

theorem csrKept_advanced (s : State) : csrKept s s.advanced [CAP_EPOCH] := fun a ha => by
  have ha : a ≠ CAP_EPOCH := by simpa using ha
  have hl : s.latchWaits.reg a = s.reg a := rfl
  rw [reg_advanced_turned, turned, reg_setRf_ne _ _ _ _ ha, reg_setRf_ne _ _ _ _ ha, reg_setRf_ne _ _ _ _ ha, hl]

theorem turned_frame (s : State) : s.turned = { s with regs := s.turned.regs, cap := s.latchWaits.cap } := by
  unfold turned
  generalize s.epochCur + 1 = e
  rfl

theorem advanced_frame (s : State) : s.advanced = { s with
    regs := s.advanced.regs
    cap := { s.cap with
      rings := s.latchWaits.cap.rings, dice := s.cap.dice.filter fun k => k / 256 != (s.epochCur + 1) % 2 } } := by
  have hf := turned_frame s
  unfold advanced
  generalize s.turned = t at *
  rw [hf]
  rfl

theorem ring_advanced (s : State) (n : Nat) : s.advanced.ring n = s.latchOne (s.ring n) := by
  rw [advanced_frame]
  exact ring_latchWaits s n

/-- The rings of a table in order, each listed once. -/
theorem pairwise_of_wf {d : Ring} {m : List (Nat × Ring)} {lo : Nat} (h : Store.wfFrom d lo m = true) :
    (m.Pairwise fun e f => e.1 ≠ f.1) ∧ ∀ e ∈ m, lo ≤ e.1 ∧ Store.get d m e.1 = e.2 := by
  induction m generalizing lo with
  | nil => exact ⟨.nil, List.forall_mem_nil _⟩
  | cons e m ih =>
    obtain ⟨j, v⟩ := e
    simp only [Store.wfFrom, Bool.and_eq_true, decide_eq_true_eq] at h
    obtain ⟨⟨hj, -⟩, hm⟩ := h
    obtain ⟨hp, hg⟩ := ih hm
    refine ⟨List.pairwise_cons.2 ⟨fun f hf he => ?_, hp⟩, List.forall_mem_cons.2 ⟨⟨hj, if_pos rfl⟩, fun f hf => ?_⟩⟩
    · have := (hg f hf).1
      dsimp only at he
      omega
    · obtain ⟨hlo, hget⟩ := hg f hf
      exact ⟨by omega, (if_neg (by omega)).trans hget⟩

theorem get_of_not_mem {d : Ring} {m : List (Nat × Ring)} {k : Nat} (h : k ∉ m.map Prod.fst) : Store.get d m k = d := by
  have hne : ∀ e ∈ m, e.1 ≠ k := by
    rintro e he rfl
    exact h (List.mem_map_of_mem he)
  simpa [Store.get] using Store.get_append d (b := []) hne

/-- Latching changes no ring but in what its head has reached, and leaves the order of the table. -/
theorem advanced_rings (s : State) (h : ringsWf s) :
    (∀ e ∈ s.advanced.cap.rings, e.1 < 16384) ∧ (s.advanced.cap.rings.Pairwise fun e f => e.1 ≠ f.1) ∧
    (∀ e ∈ s.advanced.cap.rings, s.advanced.ring e.1 = e.2) ∧
    s.advanced.cap.rings.map Prod.fst = s.cap.rings.map Prod.fst := by
  obtain ⟨hwf, hlt⟩ := h
  obtain ⟨hp, hg⟩ := pairwise_of_wf hwf
  have hr : s.advanced.cap.rings = s.cap.rings.map fun e => (e.1, s.latchOne e.2) := by
    rw [advanced_frame]
    rfl
  refine ⟨?_, ?_, ?_, ?_⟩
  · rw [hr, List.forall_mem_map]
    exact hlt
  · rw [hr, List.pairwise_map]
    exact hp
  · rw [hr, List.forall_mem_map]
    exact fun e he => (ring_advanced s e.1).trans (congrArg s.latchOne (hg e he).2)
  · rw [hr, List.map_map]
    rfl

theorem sameRing_cutAt (s : State) {old : Nat} (r : Ring) :
    sameRing (if r.st ≠ .disabled ∧ r.efree = false ∧ old ∈ r.epochs then { r with cut := r.tail, cutV := true } else r)
      (cutAt old (s.latchOne r)) := by
  have hs := sameRing_latchOne s r
  generalize s.latchOne r = x at *
  have hc : (x.st ≠ .disabled ∧ x.efree = false ∧ x.epochs.contains old) ↔
      (r.st ≠ .disabled ∧ r.efree = false ∧ old ∈ r.epochs) := by
    rw [show x.st = r.st by rw [hs], show x.efree = r.efree by rw [hs], show x.epochs = r.epochs by rw [hs],
      List.contains_iff_mem]
  unfold cutAt
  by_cases h : r.st ≠ .disabled ∧ r.efree = false ∧ old ∈ r.epochs
  · rw [if_pos h, if_pos (hc.2 h)]
    unfold sameRing at hs ⊢
    rw [hs]
  · rw [if_neg h, if_neg fun k => h (hc.1 k)]
    exact hs

/-- A Tack with no drain pending or held (07 R317, R318). -/
theorem tacked_tack {s : State} (hd : s.draining = false) (hh : s.held = false) (hwf : ringsWf s) :
    s.tack.2 = true ∧ tacked s s.tack.1 false := by
  obtain ⟨hlt, hp, hg, hkeys⟩ := advanced_rings s hwf
  obtain ⟨hf, hr, hb, hring, hw⟩ := cutRings_spec s.epochCur _ s.advanced hlt hp hg
  have hreg := reg_advanced s
  have hkept := csrKept_advanced s
  have hr0 := ring_advanced s
  have hu := advanced_frame s
  rw [tack_eq hd hh]
  dsimp only
  generalize List.foldl (cutOne s.epochCur) s.advanced s.advanced.cap.rings = t at *
  generalize s.advanced = u at *
  have hmem : u.mem = s.mem := by rw [hu]
  refine ⟨rfl, ?_, (hr CAP_EPOCH (by decide) (by decide)).trans hreg, fun htab => ?_,
    fun a ha => (hb a ha).trans (byteAt_of_mem_eq hmem a), fun n => ?_⟩
  · rw [Bool.or_false]
    generalize s.epochCur = old at *
    rw [hu] at hf
    exact hf
  · have hecc : u.ecc = s.ecc := by rw [hu]
    obtain ⟨hfree, hkeeps⟩ := hw fun e he => by
      rw [wholeWords, damaged, hecc]
      exact htab e.1 (hlt e he)
    refine ⟨fun a ha => ?_, hfree.trans (by rw [hu])⟩
    simp only [List.mem_cons, List.not_mem_nil, or_false, not_or] at ha
    exact (hkeeps a (by simpa using ha.2)).trans (hkept a (by simpa using ha.1))
  · rw [hring n, hkeys, hr0]
    by_cases hn : n ∈ s.cap.rings.map Prod.fst
    · rw [if_pos hn]
      exact sameRing_cutAt s (s.ring n)
    · have hdef : s.ring n = {} := get_of_not_mem hn
      rw [if_neg hn, hdef, latchOne_default]
      simp only [ne_eq, not_true_eq_false, false_and, if_false]
      rfl

end Sys2Proof.Machine.State
end

section
/-! PROOFS. The commands of the host that end at once: TACK and RESUME (05 R218, R219, R227; 07 R302, R317, R326, R328). -/

namespace Sys2Proof.Machine.State

open Sys2Proof.Spec

/-! ### The host's side of the state -/

/-- The state with another Deck and another command running. Nothing that a ring operation does depends on either. -/
def withHost (s : State) (d : Deck) (c : Option Command) : State := { s with deck := d, dev := { s.dev with command := c } }

/-- An error counted (06 R274). -/
def eccCounted (s : State) (a : Nat) (ue : Bool) : State :=
  let u := s.bump (RG_ECC_CNT (memNumber s.part a)) (if ue then 16 else 0) 16
  if ue then u else u.bump FT_CE_ECC 0 32

/-- Whether the record of an error before it stands (06 R274). -/
def eccHeld (s : State) (ue : Bool) : Bool := s.rbit RG_ECC_INFO 31 && !(ue && !s.rbit RG_ECC_INFO 4)

/-- An error recorded, with its syndrome. -/
def eccNoted (s : State) (src a : Nat) (ue : Bool) (syn : Byte) : State :=
  (s.setReg RG_ECC_ADDR (Word.nat a)).setReg RG_ECC_INFO
    (Word.nat (memNumber s.part a + b2n ue * 16 + src * 256 + syn.toNat * 65536 + 2 ^ 31))

theorem noteEcc_eq (s : State) (src a : Nat) (ue : Bool) : s.noteEcc src a ue =
    if inCn a then s.noteCnEcc a ue
    else if (s.eccCounted a ue).eccHeld ue then s.eccCounted a ue
    else ((s.eccCounted a ue).draw 8).2.eccNoted src a ue ((s.eccCounted a ue).draw 8).1 := by
  cases ue <;> rfl

theorem bump_withHost (s : State) (d : Deck) (c : Option Command) (a lo w : Nat) :
    (s.withHost d c).bump a lo w = (s.bump a lo w).withHost d c := rfl

theorem setReg_withHost (s : State) (d : Deck) (c : Option Command) (a : Nat) (v : Word) :
    (s.withHost d c).setReg a v = (s.setReg a v).withHost d c := rfl

theorem part_withHost (s : State) (d : Deck) (c : Option Command) : (s.withHost d c).part = s.part := rfl

theorem noteEcc_withHost (s : State) (d : Deck) (c : Option Command) (src a : Nat) (ue : Bool) :
    (s.withHost d c).noteEcc src a ue = (s.noteEcc src a ue).withHost d c := by
  have hcn : (s.withHost d c).noteCnEcc a ue = (s.noteCnEcc a ue).withHost d c := by
    unfold noteCnEcc
    rw [apply_ite (fun x : State => x.withHost d c), bump_withHost, bump_withHost, bump_withHost, setReg_withHost]
  have hcount : (s.withHost d c).eccCounted a ue = (s.eccCounted a ue).withHost d c := by
    unfold eccCounted
    dsimp only
    rw [apply_ite (fun x : State => x.withHost d c), part_withHost, bump_withHost, bump_withHost]
  have hheld : ∀ t : State, (t.withHost d c).eccHeld ue = t.eccHeld ue := fun _ => rfl
  have hdraw : ∀ t : State, (t.withHost d c).draw 8 = ((t.draw 8).1, (t.draw 8).2.withHost d c) := fun _ => rfl
  have hnote : ∀ (t : State) (x : Byte), (t.withHost d c).eccNoted src a ue x = (t.eccNoted src a ue x).withHost d c :=
    fun t x => by rw [eccNoted, part_withHost, setReg_withHost, setReg_withHost, eccNoted]
  rw [noteEcc_eq, noteEcc_eq, hcn, hcount, hheld, hdraw, hnote, apply_ite (fun x : State => x.withHost d c),
    apply_ite (fun x : State => x.withHost d c)]

theorem mendOne_withHost (d : Deck) (c : Option Command) (src a n : Nat) (x : State × List Nat) (e : Nat × Ecc) :
    mendOne src a n (x.1.withHost d c, x.2) e = ((mendOne src a n x e).1.withHost d c, (mendOne src a n x e).2) := by
  obtain ⟨w, k⟩ := e
  unfold mendOne
  split
  · rfl
  · cases k with
    | ok => rfl
    | single =>
      dsimp only
      rw [noteEcc_withHost]
      rfl
    | double =>
      dsimp only
      rw [noteEcc_withHost]

theorem mended_withHost (s : State) (d : Deck) (c : Option Command) (src a n : Nat) :
    (s.withHost d c).mended src a n = ((s.mended src a n).1.withHost d c, (s.mended src a n).2) :=
  List.foldl_hom (fun x : State × List Nat => (x.1.withHost d c, x.2)) (l := s.damaged a n) (init := (s, []))
    (mendOne_withHost d c src a n)

theorem injectOn_withHost (s : State) (d : Deck) (c : Option Command) (a n : Nat) :
    (s.withHost d c).injectOn a n = (s.injectOn a n).withHost d c := by
  have hi : (s.withHost d c).inject = s.inject := rfl
  unfold injectOn
  rw [hi]
  cases s.inject with
  | none => rfl
  | some i =>
    dsimp only
    rw [apply_ite (fun x : State => x.withHost d c)]
    rfl

theorem setRing_withHost (s : State) (d : Deck) (c : Option Command) {n : Nat} (r : Ring) (h : n < 16384) :
    (s.withHost d c).setRing n r = (s.setRing n r).withHost d c := by
  have hput : (s.withHost d c).ringPut n r = (s.ringPut n r).withHost d c := rfl
  rw [setRing_eq _ r h, setRing_eq s r h, eccPut_eq _ _ _ (ringBytes_ne_nil r), eccPut_eq _ _ _ (ringBytes_ne_nil r), hput,
    mended_withHost]
  generalize (s.ringPut n r).mended srcCapstan (ringAddr n + 16) _ = x
  exact injectOn_withHost (x.1.poke _ _) d c _ _

theorem updateHolder_withHost (s : State) (d : Deck) (c : Option Command) :
    (s.withHost d c).updateHolder = s.updateHolder.withHost d c := by
  have hh : (s.withHost d c).holders = s.holders := rfl
  unfold updateHolder
  rw [hh, apply_ite (fun x : State => x.withHost d c)]
  cases s.holders with
  | nil => rfl
  | cons n l => rfl

/-! ### What follows a change of a ring -/

theorem holderFollows_updateHolder (s : State) : holderFollows s s.updateHolder := by
  refine ⟨fun h m l hl => ?_, fun h => ?_⟩
  · have hu : s.updateHolder = s.setRf CAP_EPOCH 16 14 m := by
      rw [updateHolder, hl]
      exact if_pos (by rw [h.1, h.2]; rfl)
    rw [hu]
    exact ⟨rfl, fun a ha => reg_setRf_ne _ _ _ _ (by simpa using ha), reg_setReg_self _ _ _⟩
  · unfold updateHolder
    rcases h with h | h | h
    · rw [h]; rfl
    · rw [h, Bool.and_false]; rfl
    · rw [h]
      exact ite_self _

/-- HOVE_TO and UNDERWAY follow the work, also as seen with another Deck whose registers agree but for DK_CMDSTAT. -/
theorem workFollows_updateWork (s : State) {d : Deck} (c : Option Command)
    (hd : ∀ o, o ≠ DK_CMDSTAT → (s.withHost d c).dk o = s.dk o) :
    workFollows (s.withHost d c) (s.updateWork.withHost d c) := by
  have hgo : ∀ (m : Mode) (on : Bool), shifts s.dev.mode m = true → s.enterLine m = on →
      (s.enter m).withHost d c = { s.withHost d c with
        dev := { (s.withHost d c).dev with mode := m, hail := (s.enter m).dev.hail }
        lk := { s.lk with frame := s.lk.frame.map fun f => frameEnters f m } } ∧
      hailEnters ((s.enter m).withHost d c) s.dev.hail on := by
    intro m on hs hon
    have hm : m ≠ .becalmed ∧ (s.entered m).mustering = false := by
      simp only [shifts, Bool.or_eq_true, decide_eq_true_eq] at hs
      rcases hs with ⟨-, rfl⟩ | ⟨-, rfl⟩
      · exact ⟨nofun, by simp [mustering, entered]⟩
      · exact ⟨nofun, by simp [mustering, entered]⟩
    obtain ⟨hf, -, -, hdeck, hh⟩ := enter_spec hm.1 (.inl hm.2)
    rw [hon] at hh
    have hdk : ∀ o, (s.enter m).dk o = s.dk o := dk_of_deck_eq (hdeck hs)
    generalize s.enter m = t at *
    refine ⟨?_, hailEnters_congr hh rfl rfl fun o ho => ?_⟩
    · rw [hf]
      rfl
    · have hne : o ≠ DK_CMDSTAT := by revert o; decide
      exact (hd o hne).trans (hdk o).symm
  have hbit : ∀ i, (s.withHost d c).dkbit DK_HAIL_CFG i = s.dkbit DK_HAIL_CFG i := fun i => by
    rw [dkbit, dkf, hd _ (by decide)]
    rfl
  have hwork : (s.withHost d c).working = s.working := rfl
  have hmode : (s.withHost d c).dev.mode = s.dev.mode := rfl
  unfold workFollows updateWork
  dsimp only
  rw [hwork, hmode, hbit, hbit]
  cases hm : s.dev.mode with
  | hoveTo =>
    cases s.working with
    | true => exact hgo .underway _ (by rw [hm]; decide) rfl
    | false => rfl
  | underway =>
    cases s.working with
    | true => rfl
    | false => exact hgo .hoveTo _ (by rw [hm]; decide) (if_pos hm)
  | moored => rfl
  | muster => rfl
  | reefed => rfl
  | becalmed => rfl

/-! ### Commands behind the host operations -/

/-- An accepted TACK or RESUME takes its place (05 R219, R227). -/
def queued (s : State) (c : Command) : State :=
  { s.begun c with deck := { (s.begun c).deck with doors := s.deck.doors ++ [.cmd] } }

theorem cmdStart_queued (s : State) {op : Nat} (h : op = 4 ∨ op = 5) (retain skip : Bool) :
    s.cmdStart op retain skip = (s.queued ⟨op, retain, s.cmdArg, skip⟩).drainHost := by
  rcases h with rfl | rfl <;> rfl

/-- Nothing of the queue goes while a window write holds it or a doorbell is at its front (07 R302). -/
theorem drainHost_waits {s : State} (h : s.winHolds = true ∨ ∃ m k l, s.deck.doors = .door m k :: l) : s.drainHost = s := by
  refine List.foldl_fixed' (fun _ => ?_) _
  rcases h with h | ⟨m, k, l, h⟩
  · rw [h]
    split <;> rfl
  · rw [h]

theorem drainHost_cmd {s : State} (hw : s.winHolds = false) (h : s.deck.doors = [.cmd]) :
    s.drainHost = s.popHost.hostCmd := by
  rw [drainHost]
  conv_lhs => rw [h]
  rw [List.foldl_cons, List.foldl_nil, h, hw]
  rfl

/-- The command at the front of the queue, about to take effect. -/
def taken (s : State) (c : Command) : State := ((accessed s).queued c).popHost

/-- Before the host operations, a command takes effect at once. -/
theorem cmdStart_taken {s : State} (hd : s.deck.doors = []) (hw : s.winHolds = false) {op : Nat} (h : op = 4 ∨ op = 5)
    (retain skip : Bool) :
    (accessed s).cmdStart op retain skip = (s.taken ⟨op, retain, s.cmdArg, skip⟩).hostCmd := by
  have hdoors : ((accessed s).queued ⟨op, retain, s.cmdArg, skip⟩).deck.doors = [.cmd] := by
    change s.deck.doors ++ _ = _
    rw [hd]
    rfl
  exact (cmdStart_queued _ h retain skip).trans (drainHost_cmd hw hdoors)

theorem queued_frame (s : State) (c : Command) :
    s.queued c = { s with deck := (s.queued c).deck, dev := { s.dev with command := some c } } := rfl

theorem popHost_frame (s : State) : s.popHost = { s with deck := popped s.deck } := rfl

theorem taken_frame (s : State) (c : Command) :
    s.taken c = { s with deck := popped ((accessed s).queued c).deck, dev := { s.dev with tie := none, command := some c } } := by
  have hf := queued_frame (accessed s) c
  unfold taken
  generalize (accessed s).queued c = y at *
  rw [popHost_frame, hf]
  rfl

/-- The state the command finds, as the host sees it. -/
theorem taken_deckRegs {s : State} (hd : s.deck.doors = []) (c : Command) :
    deckRegs ((s.taken c).withHost (popped (accessed s).deck) s.dev.command) (s.taken c) [DK_CMDSTAT] := by
  have hdoors : (accessed s).deck.doors.drop 1 = ((accessed s).deck.doors ++ [HostOp.cmd]).drop 1 := by
    change s.deck.doors.drop 1 = (s.deck.doors ++ _).drop 1
    rw [hd]
    rfl
  have hregs := (deckRegs_setDk (accessed s) DK_CMDSTAT (putFld ((accessed s).dk DK_CMDSTAT) 0 1 1)).2
  have hdeck : ((accessed s).queued c).deck = { (accessed s).deck with
      regs := ((accessed s).queued c).deck.regs, doors := (accessed s).deck.doors ++ [HostOp.cmd] } := rfl
  rw [taken_frame]
  refine ⟨?_, hregs⟩
  change popped ((accessed s).queued c).deck =
    { popped (accessed s).deck with regs := (popped ((accessed s).queued c).deck).regs }
  generalize ((accessed s).queued c).deck = d at *
  rw [hdeck]
  unfold popped
  rw [hdoors]

theorem deckRegs_withHost {y z : State} {d : Deck} {c : Option Command} {l : List Nat} (h : deckRegs (y.withHost d c) y l)
    (hz : z.deck = y.deck) : deckRegs (z.withHost d c) z l := by
  obtain ⟨hd, hk⟩ := h
  refine ⟨?_, fun o ho => (dk_of_deck_eq hz o).trans (hk o ho)⟩
  rw [hz]
  exact hd

/-- A command finishes, as the host sees it. -/
theorem cmdDone_finishCmd {z : State} {d : Deck} {c : Option Command} (h : deckRegs (z.withHost d c) z [DK_CMDSTAT])
    (op r : Nat) : cmdDone (z.withHost d c) (z.finishCmd op r) op r :=
  ⟨rfl, deckRegs_mono (deckRegs_trans h (finishCmd_deckRegs z op r)) (by decide), finishCmd_stat z op r,
    raised_congr (raised_finishCmd z op r) (h.2 _ (by decide)).symm rfl⟩

/-! ### TACK -/

/-- The command latches Bosun's DECK source. -/
def deckLatched (s : State) : State := { s with bosun := { s.bosun with latDeck := true } }

theorem hostCmd_tack {s : State} {c : Command} (hc : s.dev.command = some c) (ho : c.op = 4) :
    s.hostCmd = if s.tack.2 then s.tack.1.deckLatched.finishCmd 4 0 else s.tack.1.finishCmd 4 2 := by
  rw [hostCmd, hc]
  refine (if_pos ho).trans ?_
  dsimp only
  cases s.tack.2 <;> rfl

theorem tacked_withHost {s t : State} (h : tacked s t false) (d : Deck) (c : Option Command) :
    tacked (s.withHost d c) (t.deckLatched.withHost d c) true := by
  obtain ⟨hf, hreg, htab, hb, hring⟩ := h
  refine ⟨?_, hreg, htab, hb, hring⟩
  rw [Bool.or_true]
  rw [hf]
  rfl

/-! ### RESUME -/

/-- CAP_RING_OPSTAT of an operation that has ended with OK. -/
def opOk (op n : Nat) : Word := Word.nat (2 + op * 256 + n * 65536)

theorem opStat_ok {s : State} (hm : s.dev.mode ≠ .becalmed) {op n : Nat} (ho : op < 8) (hn : n < 16384) :
    opStat (s, 0) op n = s.setReg CAP_OPSTAT (opOk op n) := by
  refine (if_neg hm).trans ?_
  rw [Nat.zero_mul, Nat.add_zero, Nat.mod_eq_of_lt ho, Nat.mod_eq_of_lt hn]
  rfl

theorem fld_opOk (op n : Nat) : fld (opOk op n) 4 3 = 0 := by
  simp only [opOk, Word.nat, fld, BitVec.toNat_ofNat]
  omega

theorem opStat_spec {s : State} (hm : s.dev.mode ≠ .becalmed) (r op n : Nat) :
    opStat (s, r) op n = { s with regs := (opStat (s, r) op n).regs } ∧ csrKept s (opStat (s, r) op n) [CAP_OPSTAT] := by
  have he : opStat (s, r) op n =
      s.setReg CAP_OPSTAT (Word.nat (2 + r * 16 + op % 8 * 256 + n % 16384 * 65536)) := if_neg hm
  rw [he]
  exact ⟨rfl, fun a ha => reg_setReg_ne _ _ (by simpa using ha)⟩

/-- A ring operation that runs ends, and reports (07 R328). -/
theorem ringEnd_spec {s : State} (hm : s.dev.mode ≠ .becalmed) :
    s.ringEnd = { s with regs := s.ringEnd.regs, cap := { s.cap with op := none, refused := s.ringEnd.cap.refused } } ∧
    csrKept s s.ringEnd [CAP_OPSTAT] ∧ (s.cap.op = none → s.ringEnd = s) ∧
    (s.cap.op ≠ none → s.ringEnd.cap.refused = none) := by
  cases hp : s.cap.op with
  | none =>
    have he : s.ringEnd = s := by rw [ringEnd, hp]
    rw [he, ← hp]
    exact ⟨rfl, fun _ _ => rfl, fun _ => rfl, fun h => absurd rfl h⟩
  | some p =>
    obtain ⟨hf, hk⟩ := opStat_spec (s := { s with cap := { s.cap with op := none, refused := none } }) hm p.result p.op p.ring
    generalize ht : opStat ({ s with cap := { s.cap with op := none, refused := none } }, p.result) p.op p.ring = t at hf hk
    cases hq : s.cap.refused with
    | none =>
      have he : s.ringEnd = t := by
        simp only [ringEnd, hp, hq]
        exact ht
      rw [he]
      refine ⟨?_, hk, nofun, fun _ => by rw [hf]⟩
      rw [hf]
    | some q =>
      obtain ⟨op, n⟩ := q
      have he : s.ringEnd = opStat (t, 2) op n := by
        simp only [ringEnd, hp, hq]
        rw [ht]
      have htm : t.dev.mode ≠ .becalmed := by rw [hf]; exact hm
      obtain ⟨kf, kk⟩ := opStat_spec htm 2 op n
      rw [he]
      generalize opStat (t, 2) op n = w at *
      rw [hf] at kf
      refine ⟨?_, fun a ha => (kk a ha).trans (hk a ha), nofun, fun _ => by rw [kf]⟩
      rw [kf]

theorem opStat_withHost (s : State) (d : Deck) (c : Option Command) (r op n : Nat) :
    opStat (s.withHost d c, r) op n = (opStat (s, r) op n).withHost d c := by
  unfold opStat
  rw [apply_ite (fun x : State => x.withHost d c)]
  rfl

theorem ringEnd_withHost (s : State) (d : Deck) (c : Option Command) :
    (s.withHost d c).ringEnd = s.ringEnd.withHost d c := by
  have hc : (s.withHost d c).cap = s.cap := rfl
  have ho : ({ s.withHost d c with cap := { s.cap with op := none, refused := none } } : State) =
      ({ s with cap := { s.cap with op := none, refused := none } } : State).withHost d c := rfl
  unfold ringEnd
  rw [hc]
  cases s.cap.op with
  | none => rfl
  | some p =>
    dsimp only
    rw [ho, opStat_withHost]
    cases s.cap.refused with
    | none => rfl
    | some q => exact opStat_withHost _ d c 2 q.1 q.2

theorem updateHolder_dev (s : State) : s.updateHolder.dev = s.dev ∧ s.updateHolder.deck = s.deck := by
  unfold updateHolder
  split
  · split <;> exact ⟨rfl, rfl⟩
  · exact ⟨rfl, rfl⟩

/-- HOVE_TO and UNDERWAY follow the work with no word of it on the Deck. -/
theorem updateWork_dieUp {s : State} (h : s.dev.mode ≠ .becalmed) :
    s.updateWork.dev.mode ≠ .becalmed ∧ s.updateWork.deck = s.deck := by
  have hgo : ∀ m : Mode, m = .underway ∨ m = .hoveTo → shifts s.dev.mode m = true →
      (s.enter m).dev.mode ≠ .becalmed ∧ (s.enter m).deck = s.deck := by
    intro m hm hs
    have hb : m ≠ .becalmed := by rcases hm with rfl | rfl <;> decide
    have hi : (s.entered m).mustering = false := by rcases hm with rfl | rfl <;> simp [mustering, entered]
    obtain ⟨hf, -, -, hdeck, -⟩ := enter_spec hb (.inl hi)
    refine ⟨?_, hdeck hs⟩
    rw [hf]
    exact hb
  unfold updateWork
  split
  · next hm =>
    split
    · exact hgo .underway (.inl rfl) (by rw [hm]; decide)
    · exact ⟨h, rfl⟩
  · next hm =>
    split
    · exact ⟨h, rfl⟩
    · exact hgo .hoveTo (.inr rfl) (by rw [hm]; decide)
  · exact ⟨h, rfl⟩

/-- The ring operation's report, and the DECK source. -/
def opReported (s : State) (op n : Nat) : State := (s.setReg CAP_OPSTAT (opOk op n)).deckLatched

theorem hostCmd_resume {s : State} {c : Command} (hc : s.dev.command = some c) (ho : c.op = 5) :
    s.hostCmd =
      let w := if c.skip then opStat (s.ringEnd.ringSkip c.arg.toNat) 4 c.arg.toNat
        else opStat (s.ringEnd.ringRetry c.arg.toNat) 3 c.arg.toNat
      w.deckLatched.finishCmd 5 (if w.deckLatched.rf CAP_OPSTAT 4 3 = 0 then 0 else 5) := by
  rw [hostCmd, hc]
  refine (if_neg ?_).trans (if_pos ho)
  rw [ho]
  decide

/-- An operation that has ended with OK ends its RESUME with OK. -/
theorem finishCmd_opReported (s : State) (op n : Nat) :
    (s.setReg CAP_OPSTAT (opOk op n)).deckLatched.finishCmd 5
      (if (s.setReg CAP_OPSTAT (opOk op n)).deckLatched.rf CAP_OPSTAT 4 3 = 0 then 0 else 5) =
    (s.opReported op n).finishCmd 5 0 := by
  have hr : (s.setReg CAP_OPSTAT (opOk op n)).deckLatched.reg CAP_OPSTAT = opOk op n := reg_setReg_self _ _ _
  rw [rf, hr, fld_opOk]
  rfl

theorem opShown_opReported (s : State) (d : Deck) (c : Option Command) (op n : Nat) :
    opShown (s.withHost d c) ((s.opReported op n).withHost d c) op n :=
  ⟨rfl, fun a ha => reg_setReg_ne _ _ (by simpa using ha), reg_setReg_self _ _ _⟩

end Sys2Proof.Machine.State
end

section
/-! PROOFS. DK_CMD as the host writes it: refused, kept waiting, or taken at once (03 R136; 05 R218, R219; 07 R302). -/

namespace Sys2Proof.Machine.State

open Sys2Proof.Spec

/-! ### What is judged -/

theorem cmdState_iff (s : State) (op : Nat) : s.cmdState op = true ↔ cmdPasses s op := by
  by_cases h : op = 2
  · subst h
    exact decide_eq_true_iff
  · rw [cmdPasses, if_neg h]
    unfold cmdState
    split
    · exact absurd rfl h
    · exact decide_eq_true_iff

theorem inRam_one (p : Part) (a : Nat) :
    inRam p a 1 = true ↔ a < 0x380000 ∨ (0x10000000 ≤ a ∧ a < 0x10000000 + p.granary) := by
  simp only [inRam, Bool.or_eq_true, Bool.and_eq_true, decide_eq_true_eq]
  omega

theorem cmdArgOk_iff (s : State) (op : Nat) : s.cmdArgOk op = true ↔ argPasses s op := by
  unfold cmdArgOk argPasses
  dsimp only
  split
  · simp [inRam_one]
  · simp
  · next h1 h5 => exact iff_of_true rfl ⟨fun h => absurd h h1, fun h => absurd h h5⟩

theorem cmdRefused_cmdRefuse (s : State) (op r : Nat) : cmdRefused s ((accessed s).cmdRefuse op r) op r :=
  ⟨rfl, deckRegs_mono (deckRegs_trans (deckRegs_setDk (accessed s) DK_CMDSTAT _) (deckRegs_raise _ irqCMD)) (by decide),
    (dk_setDk_ne _ _ (by decide)).trans (dk_setDk_self _ _ _),
    raised_congr (raised_raise _ (by decide)) (dk_setDk_ne (accessed s) _ (by decide)).symm rfl⟩

/-- A wrong KEY or a reserved OP (05 R218). -/
theorem cmdWrite_bad (s : State) {v : Half} (h : fld v 8 8 ≠ 0x5A ∨ fld v 0 4 = 0 ∨ 6 < fld v 0 4) :
    s.cmdWrite v = s.cmdRefuse (fld v 0 4) 3 :=
  (if_neg (by omega)).trans (if_pos (by omega))

/-- The commands of OP 1 to 5 are writes of DK_CMD (05 Table 5.2). -/
theorem exec_cmdWord {c : Instr} {op : Nat} (s : State) (h : (c, op) ∈ [(Instr.cmdBind, 1), (.cmdWake, 2), (.cmdReef true, 3),
    (.cmdReef false, 3), (.cmdTack, 4), (.cmdResumeRetry, 5), (.cmdResumeSkip, 5)]) :
    ∃ v, exec c s = .next (s.hostWrite DK_CMD v) ∧ cmdWord v op := by
  unfold cmdWord
  simp only [List.mem_cons, Prod.mk.injEq, List.not_mem_nil, or_false] at h
  rcases h with ⟨rfl, rfl⟩ | ⟨rfl, rfl⟩ | ⟨rfl, rfl⟩ | ⟨rfl, rfl⟩ | ⟨rfl, rfl⟩ | ⟨rfl, rfl⟩ | ⟨rfl, rfl⟩
  · exact ⟨0x5A01, rfl, by decide⟩
  · exact ⟨0x5A02, rfl, by decide⟩
  · exact ⟨0x5A13, rfl, by decide⟩
  · exact ⟨0x5A03, rfl, by decide⟩
  · exact ⟨0x5A04, rfl, by decide⟩
  · exact ⟨0x5A05, rfl, by decide⟩
  · exact ⟨0x5A25, rfl, by decide⟩

/-- TACK and RESUME that pass the checks start (05 R218). -/
theorem hostWrite_started {s : State} {v : Half} {op : Nat} (h : cmdWord v op) (hf : s.deckFree = true)
    (hs : cmdPasses s op) (hb : s.dkbit DK_CMDSTAT 0 = false) (ha : argPasses s op) :
    s.hostWrite DK_CMD v = (accessed s).cmdStart op (bit v 4) (bit v 5) :=
  hostWrite_accepted h hf ((cmdState_iff s op).2 hs) hb ((cmdArgOk_iff s op).2 ha)

/-- The words of TACK and RESUME, which hold SKIP in bit 5. -/
theorem exec_hostCmd {c : Instr} {op : Nat} (s : State)
    (h : (c, op) ∈ [(Instr.cmdTack, 4), (.cmdResumeRetry, 5), (.cmdResumeSkip, 5)]) :
    (op = 4 ∨ op = 5) ∧ ∃ v, exec c s = .next (s.hostWrite DK_CMD v) ∧ cmdWord v op ∧ bit v 4 = false ∧
      bit v 5 = decide (c = .cmdResumeSkip) := by
  unfold cmdWord
  simp only [List.mem_cons, Prod.mk.injEq, List.not_mem_nil, or_false] at h
  rcases h with ⟨rfl, rfl⟩ | ⟨rfl, rfl⟩ | ⟨rfl, rfl⟩
  · exact ⟨.inl rfl, 0x5A04, rfl, by decide, by decide, rfl⟩
  · exact ⟨.inr rfl, 0x5A05, rfl, by decide, by decide, rfl⟩
  · exact ⟨.inr rfl, 0x5A25, rfl, by decide, by decide, rfl⟩

/-- One that a host operation holds waits behind it (07 R302). -/
theorem hostCmd_waits {c : Instr} {op : Nat} {s : State} (hf : s.deckFree = true)
    (h : (c, op) ∈ [(Instr.cmdTack, 4), (.cmdResumeRetry, 5), (.cmdResumeSkip, 5)]) (hs : cmdPasses s op)
    (hb : s.dkbit DK_CMDSTAT 0 = false) (ha : argPasses s op)
    (hw : s.winHolds = true ∨ ∃ m k l, s.deck.doors = .door m k :: l) :
    exec c s = .next ((accessed s).queued ⟨op, false, s.cmdArg, decide (c = .cmdResumeSkip)⟩) := by
  obtain ⟨hop, v, hv, hword, h4, h5⟩ := exec_hostCmd s h
  have hq : ((accessed s).queued ⟨op, false, s.cmdArg, decide (c = .cmdResumeSkip)⟩).drainHost =
      (accessed s).queued ⟨op, false, s.cmdArg, decide (c = .cmdResumeSkip)⟩ := by
    refine drainHost_waits (hw.imp_right ?_)
    rintro ⟨m, k, l, hl⟩
    exact ⟨m, k, l ++ [HostOp.cmd], congrArg (· ++ [HostOp.cmd]) hl⟩
  rw [hv, hostWrite_started hword hf hs hb ha, cmdStart_queued _ hop, h4, h5]
  exact congrArg Host.Outcome.next hq

/-! ### The commands that take effect at once -/

/-- The state as the host's operation meets it, seen before the command. -/
def hostView (s : State) : State := { accessed s with deck := popped (accessed s).deck }

theorem hostView_eq (s : State) (c : Command) :
    s.hostView = (s.taken c).withHost (popped (accessed s).deck) s.dev.command := by
  rw [taken_frame]
  rfl

/-- Nothing of the host stands before its next command, and none runs. -/
def hostReady (s : State) : Prop :=
  s.deckFree = true ∧ s.dieUp = true ∧ s.dkbit DK_CMDSTAT 0 = false ∧ s.deck.doors = [] ∧ s.winHolds = false

theorem hostWrite_taken {s : State} {v : Half} {op : Nat} (h : hostReady s) (hv : cmdWord v op) (hop : op = 4 ∨ op = 5)
    (h4 : bit v 4 = false) (ha : argPasses s op) :
    s.hostWrite DK_CMD v = (s.taken ⟨op, false, s.cmdArg, bit v 5⟩).hostCmd := by
  obtain ⟨hf, hup, hb, hd, hw⟩ := h
  have hs : cmdPasses s op := by
    rw [cmdPasses, if_neg (by omega)]
    exact of_decide_eq_true hup
  rw [hostWrite_started hv hf hs hb ha, h4, cmdStart_taken hd hw hop]

theorem exec_cmdTack {s : State} (h : hostReady s) :
    exec .cmdTack s = .next (s.taken ⟨4, false, s.cmdArg, false⟩).hostCmd :=
  congrArg Host.Outcome.next
    (hostWrite_taken (v := 0x5A04) h (by unfold cmdWord; decide) (.inl rfl) (by decide) ⟨nofun, nofun⟩)

theorem exec_cmdResumeRetry {s : State} (h : hostReady s) (ha : argPasses s 5) :
    exec .cmdResumeRetry s = .next (s.taken ⟨5, false, s.cmdArg, false⟩).hostCmd :=
  congrArg Host.Outcome.next (hostWrite_taken (v := 0x5A05) h (by unfold cmdWord; decide) (.inr rfl) (by decide) ha)

theorem exec_cmdResumeSkip {s : State} (h : hostReady s) (ha : argPasses s 5) :
    exec .cmdResumeSkip s = .next (s.taken ⟨5, false, s.cmdArg, true⟩).hostCmd :=
  congrArg Host.Outcome.next (hostWrite_taken (v := 0x5A25) h (by unfold cmdWord; decide) (.inr rfl) (by decide) ha)

theorem cmdTack_tacks {s : State} (h : hostReady s) (hdr : s.draining = false) (hh : s.held = false) (hwf : ringsWf s) :
    ∃ x t, tacked s.hostView x true ∧ exec .cmdTack s = .next t ∧ cmdDone x t 4 0 := by
  rw [exec_cmdTack h]
  obtain ⟨-, -, -, hd, -⟩ := h
  have hv := taken_deckRegs hd ⟨4, false, s.cmdArg, false⟩
  have hgo : (s.taken ⟨4, false, s.cmdArg, false⟩).hostCmd = _ := hostCmd_tack (c := ⟨4, false, s.cmdArg, false⟩) rfl rfl
  have hdr' : (s.taken ⟨4, false, s.cmdArg, false⟩).draining = false := hdr
  have hh' : (s.taken ⟨4, false, s.cmdArg, false⟩).held = false := hh
  have hwf' : ringsWf (s.taken ⟨4, false, s.cmdArg, false⟩) := hwf
  rw [hostView_eq s ⟨4, false, s.cmdArg, false⟩, hgo]
  generalize s.taken ⟨4, false, s.cmdArg, false⟩ = y at *
  obtain ⟨hok, htack⟩ := tacked_tack hdr' hh' hwf'
  have hdeck : y.tack.1.deckLatched.deck = y.deck := by
    change y.tack.1.deck = _
    rw [htack.1]
  rw [if_pos hok]
  exact ⟨_, _, tacked_withHost htack _ _, rfl, cmdDone_finishCmd (deckRegs_withHost hv hdeck) 4 0⟩

theorem cmdTack_busy {s : State} (h : hostReady s) (hp : s.draining = true ∨ s.held = true) :
    ∃ t, exec .cmdTack s = .next t ∧ cmdDone s.hostView t 4 2 := by
  rw [exec_cmdTack h]
  obtain ⟨-, -, -, hd, -⟩ := h
  have hv := taken_deckRegs hd ⟨4, false, s.cmdArg, false⟩
  have hgo : (s.taken ⟨4, false, s.cmdArg, false⟩).hostCmd = _ := hostCmd_tack (c := ⟨4, false, s.cmdArg, false⟩) rfl rfl
  have hp' : (s.taken ⟨4, false, s.cmdArg, false⟩).draining = true ∨ (s.taken ⟨4, false, s.cmdArg, false⟩).held = true := hp
  rw [hostView_eq s ⟨4, false, s.cmdArg, false⟩, hgo]
  generalize s.taken ⟨4, false, s.cmdArg, false⟩ = y at *
  rw [tack_pending hp']
  exact ⟨_, rfl, cmdDone_finishCmd hv 4 2⟩

/-- A ring enabled again at FIDX (07 R326). -/
def retried (r : Ring) : Ring := { r with head := r.fidx, st := .enabled, reached := false, waitOk := false }

/-- A ring's RESUME from `v`, the host's view of the state whose ring operation has ended (07 R326). -/
theorem resumed_retry {z : State} {d : Deck} {c : Option Command} (hz : deckRegs (z.withHost d c) z [DK_CMDSTAT])
    (hm : z.dev.mode ≠ .becalmed) {n : Nat} {r : Ring} (hn : n < 16384) (hr : r = z.ring n) (hh : r.st = .halted) :
    ∃ x y, ringSet (z.withHost d c) x n { r with head := r.fidx, st := .enabled, reached := false, waitOk := false } ∧
      opShown x y 3 n ∧
      cmdDone y ((opStat (z.ringRetry n) 3 n).deckLatched.finishCmd 5
        (if (opStat (z.ringRetry n) 3 n).deckLatched.rf CAP_OPSTAT 4 3 = 0 then 0 else 5)) 5 0 := by
  subst hr
  have hretry : z.ringRetry n =
      (z.setRing n (retried (z.ring n)), 0) :=
    if_neg fun k => k hh
  have hset := ringSet_setRing (z.withHost d c) (retried (z.ring n)) hn
  have hf := setRing_frame z n (retried (z.ring n))
  rw [setRing_withHost z d c _ hn] at hset
  rw [hretry]
  generalize z.setRing n _ = w at *
  have hwm : w.dev.mode ≠ .becalmed := by rw [hf]; exact hm
  have hdeck : w.deck = z.deck := by rw [hf]
  rw [opStat_ok hwm (by decide) hn, finishCmd_opReported]
  exact ⟨_, _, hset, opShown_opReported w d c 3 n, cmdDone_finishCmd (z := w.opReported 3 n) (deckRegs_withHost hz hdeck) 5 0⟩

theorem resumed_skip {z : State} {d : Deck} {c : Option Command} (hz : deckRegs (z.withHost d c) z [DK_CMDSTAT])
    (hm : z.dev.mode ≠ .becalmed) {n : Nat} {r : Ring} (hn : n < 16384) (hr : r = z.ring n) (hh : r.st = .halted) :
    ∃ w x y, ringSet (z.withHost d c) w n { r with
        head := r.succ r.fidx, done := r.succ r.fidx, phase := (if r.succ r.fidx = 0 then !r.phase else r.phase)
        st := .enabled, epochs := r.epochs.drop 1, reached := false, waitOk := false } ∧
      ringFollows w x ∧ opShown x y 4 n ∧
      cmdDone y ((opStat (z.ringSkip n) 4 n).deckLatched.finishCmd 5
        (if (opStat (z.ringSkip n) 4 n).deckLatched.rf CAP_OPSTAT 4 3 = 0 then 0 else 5)) 5 0 := by
  subst hr
  have hskip : z.ringSkip n = ((z.setRing n (skipped (z.ring n))).updateHolder.updateWork, 0) :=
    if_neg fun k => k hh
  have hset := ringSet_setRing (z.withHost d c) (skipped (z.ring n)) hn
  have hf := setRing_frame z n (skipped (z.ring n))
  rw [setRing_withHost z d c _ hn] at hset
  rw [hskip]
  generalize z.setRing n _ = w at *
  have hwm : w.dev.mode ≠ .becalmed := by rw [hf]; exact hm
  obtain ⟨hdev, hdeck⟩ := updateHolder_dev w
  have hdeck' : w.updateHolder.deck = z.deck := by rw [hdeck, hf]
  have hholder := holderFollows_updateHolder (w.withHost d c)
  rw [updateHolder_withHost] at hholder
  have hview := deckRegs_withHost hz hdeck'
  generalize w.updateHolder = a at *
  obtain ⟨ham, hadeck⟩ := updateWork_dieUp (s := a) (by rw [hdev]; exact hwm)
  have hwork := workFollows_updateWork a (d := d) c fun o ho => (hview.2 o (by simpa using ho)).symm
  have hview' := deckRegs_withHost hview hadeck
  generalize a.updateWork = b at *
  rw [opStat_ok ham (by decide) hn, finishCmd_opReported]
  exact ⟨_, _, _, hset, ⟨_, hholder, hwork⟩, opShown_opReported b d c 4 n,
    cmdDone_finishCmd (z := b.opReported 4 n) (deckRegs_withHost hview' rfl) 5 0⟩

/-- The state a RESUME acts on: the ring operation that runs has ended. -/
theorem taken_ringEnd {s : State} (h : hostReady s) (c : Command) :
    s.hostView.ringEnd = (s.taken c).ringEnd.withHost (popped (accessed s).deck) s.dev.command ∧
    deckRegs ((s.taken c).ringEnd.withHost (popped (accessed s).deck) s.dev.command) (s.taken c).ringEnd [DK_CMDSTAT] ∧
    (s.taken c).ringEnd.dev.mode ≠ .becalmed ∧ ∀ n, (s.taken c).ringEnd.ring n = s.ring n := by
  obtain ⟨-, hup, -, hd, -⟩ := h
  have hm : (s.taken c).dev.mode ≠ .becalmed := by
    have hmode : (s.taken c).dev.mode = s.dev.mode := rfl
    rw [hmode]
    rcases of_decide_eq_true hup with h | h <;> exact fun k => nomatch h.symm.trans k
  have hv := taken_deckRegs hd c
  have hr : ∀ n, (s.taken c).ring n = s.ring n := fun _ => rfl
  rw [hostView_eq s c, ringEnd_withHost]
  obtain ⟨hf, -, -, -⟩ := ringEnd_spec hm
  generalize s.taken c = y at *
  refine ⟨rfl, deckRegs_withHost hv (by rw [hf]), by rw [hf]; exact hm, fun n => ?_⟩
  rw [ring, hf]
  exact hr n

/-- RESUME of a HALTED ring, at FIDX and behind it (07 R317, R326). -/
theorem cmdResume_resumes {s : State} (h : hostReady s) {r : Ring} (hn : s.cmdArg.toNat < 16384) (hr : r = s.ring s.cmdArg.toNat)
    (hst : r.st = .halted) :
    (∃ x y t, ringSet s.hostView.ringEnd x s.cmdArg.toNat (retried r) ∧ opShown x y 3 s.cmdArg.toNat ∧
      exec .cmdResumeRetry s = .next t ∧ cmdDone y t 5 0) ∧
    ∃ w x y t, ringSet s.hostView.ringEnd w s.cmdArg.toNat (skipped r) ∧ ringFollows w x ∧ opShown x y 4 s.cmdArg.toNat ∧
      exec .cmdResumeSkip s = .next t ∧ cmdDone y t 5 0 := by
  have ha : argPasses s 5 := ⟨nofun, fun _ => ⟨hn, hr ▸ hst⟩⟩
  rw [exec_cmdResumeRetry h ha, exec_cmdResumeSkip h ha]
  refine ⟨?_, ?_⟩
  · obtain ⟨hview, hz, hm, hring⟩ := taken_ringEnd h ⟨5, false, s.cmdArg, false⟩
    have hgo : (s.taken ⟨5, false, s.cmdArg, false⟩).hostCmd = _ := hostCmd_resume (c := ⟨5, false, s.cmdArg, false⟩) rfl rfl
    obtain ⟨x, y, hx, hy, hdone⟩ := resumed_retry hz hm hn (hr.trans (hring _).symm) hst
    rw [hview, hgo]
    exact ⟨x, y, _, hx, hy, rfl, hdone⟩
  · obtain ⟨hview, hz, hm, hring⟩ := taken_ringEnd h ⟨5, false, s.cmdArg, true⟩
    have hgo : (s.taken ⟨5, false, s.cmdArg, true⟩).hostCmd = _ := hostCmd_resume (c := ⟨5, false, s.cmdArg, true⟩) rfl rfl
    obtain ⟨w, x, y, hw, hx, hy, hdone⟩ := resumed_skip hz hm hn (hr.trans (hring _).symm) hst
    rw [hview, hgo]
    exact ⟨w, x, y, _, hw, hx, hy, rfl, hdone⟩

end Sys2Proof.Machine.State

namespace Sys2Proof

open Machine Machine.State Spec

/-- Settles O31: `cmdWrite` judges in the order of 05 R218; a command that waits joins the queue, and one that does not is
`hostCmd`. -/
theorem commandsAreJudgedInOrder : Obligations.CommandsAreJudgedInOrder := by
  intro s hf
  refine ⟨fun v h => ?_, fun c op hmem => ?_, ?_, fun c op hmem hp hb ha hwait => ?_, fun hup hb hd hw u hu => ?_⟩
  · refine ⟨(accessed s).cmdRefuse (fld v 0 4) 3, congrArg Host.Outcome.next ((if_pos h).trans ?_), cmdRefused_cmdRefuse s _ 3⟩
    rw [hostWrite_cmd hf, cmdWrite_bad _ h]
  · obtain ⟨v, hv, hword⟩ := exec_cmdWord s hmem
    have hs : (accessed s).cmdState op = true ↔ cmdPasses s op := cmdState_iff s op
    have ha : (accessed s).cmdArgOk op = true ↔ argPasses s op := cmdArgOk_iff s op
    have hb : (accessed s).dkbit DK_CMDSTAT 0 = s.dkbit DK_CMDSTAT 0 := rfl
    rw [hv, hostWrite_cmd hf, cmdWrite_word _ hword, hb]
    refine ⟨fun hn => ⟨_, ?_, cmdRefused_cmdRefuse s op 1⟩, fun hp hbusy => ⟨_, ?_, cmdRefused_cmdRefuse s op 2⟩,
      fun hp hbusy hn => ⟨_, ?_, cmdRefused_cmdRefuse s op 4⟩⟩
    · rw [eq_false_of_ne_true fun k => hn (hs.1 k)]
      rfl
    · rw [hs.2 hp, hbusy]
      rfl
    · rw [hs.2 hp, hbusy, eq_false_of_ne_true fun k => hn (ha.1 k)]
      rfl
  · exact congrArg Host.Outcome.next (hostWrite_cmd hf _)
  · exact ⟨_, hostCmd_waits hf hmem hp hb ha hwait, rfl, rfl,
      (begun_deckAccess s ⟨op, false, s.cmdArg, decide (c = .cmdResumeSkip)⟩).2,
      begun_stat (accessed s) ⟨op, false, s.cmdArg, decide (c = .cmdResumeSkip)⟩⟩
  · have hready : hostReady s := ⟨hf, hup, hb, hd, hw⟩
    have hm : s.hostView.dev.mode ≠ .becalmed := by
      rcases of_decide_eq_true hup with h | h <;> exact fun k => nomatch h.symm.trans k
    have hu : u = s.hostView := hu
    subst hu
    refine ⟨cmdTack_tacks hready, cmdTack_busy hready, fun n r hn hlt hr hst => ?_⟩
    subst hn
    obtain ⟨hend, hkept, hidle, hran⟩ := ringEnd_spec hm
    exact ⟨_, hend, hkept, hidle, hran, cmdResume_resumes hready hlt hr hst⟩

end Sys2Proof
end

section
/-! PROOFS. BIND: how it starts, and the checks of an image (03 R138; 05 R218, R219; 21 R855). -/

namespace Sys2Proof.Machine.State

open Sys2Proof.Spec

/-! ### Bosun stops -/

theorem deckAccess_then {s t u : State} {l m : List Nat} (h : deckAccess s t l) (k : deckRegs t u m) :
    deckAccess s u (l ++ m) := by
  obtain ⟨hd, hk⟩ := h
  obtain ⟨kd, kk⟩ := k
  refine ⟨?_, fun o ho => ?_⟩
  · rw [kd, hd]
  · rw [List.mem_append, not_or] at ho
    exact (kk o ho.2).trans (hk o ho.1)

/-- Bosun stands at its boundary, its wait over (03 R138). -/
def stood (s : State) : State :=
  { s.cyclesPassed with
    dev := { s.cyclesPassed.dev with stopping := false }, bosun := { s.cyclesPassed.bosun with wait := none } }

theorem stood_frame (s : State) : s.stood = { s with
    dev := { s.dev with stopping := false }, bosun := { s.bosun with wait := none, cycle := s.stood.bosun.cycle }
    free := s.stood.free } := by
  have hf := cyclesPassed_frame s
  unfold stood
  generalize s.cyclesPassed = t at *
  rw [hf]

theorem stood_halted {s : State} (h : s.bosun.run = false) :
    s.stood.bosun.cycle = s.bosun.cycle ∧ s.stood.free = s.free := by
  rw [stood, cyclesPassed_halted h]
  exact ⟨rfl, rfl⟩

theorem tryStop_waits {s : State} (h : s.atBoundary = false) (c : Command) :
    s.tryStop c = { s with dev := { s.dev with stopping := true } } := if_pos (by rw [h]; rfl)

/-- The idle condition, judged as Bosun stops (05 R242). -/
def idleJudged (s : State) (c : Command) : State :=
  if s.dev.mode = .becalmed then s
  else if s.dev.mode ≠ .hoveTo ∨ s.idleForCmd = false then s.finishCmd c.op 2
  else if c.op = 3 then s.reefAccept c.retain
  else { s with
    dev := { s.dev with binding := true, bindDest := bindPlaces s c.arg.toNat }, bosun := { s.bosun with run := false } }

/-- At the boundary, with no store queued, the idle condition decides. -/
theorem tryStop_stands {s : State} (h : s.atBoundary = true) (hq : s.bosun.stores = []) (c : Command) :
    s.tryStop c = s.stood.idleJudged c := by
  have hdrain : s.stood.drainStores = s.stood := by
    have hn : s.stood.bosun.stores = [] := by rw [stood_frame]; exact hq
    rw [drainStores, hn]
    rfl
  have he : s.tryStop c = s.stood.drainStores.idleJudged c := if_neg (by rw [h]; decide)
  rw [he, hdrain]

theorem idleJudged_busy {s : State} (hm : s.dev.mode ≠ .becalmed) (h : s.dev.mode ≠ .hoveTo ∨ s.idleForCmd = false)
    (c : Command) : s.idleJudged c = s.finishCmd c.op 2 := (if_neg hm).trans (if_pos h)

/-- What an accepted BIND leaves (05 R219; 21 R858). -/
def bindStarted (s : State) (a : Nat) : State :=
  { s with dev := { s.dev with binding := true, bindDest := bindPlaces s a }, bosun := { s.bosun with run := false } }

theorem idleJudged_bind {s : State} (hm : s.dev.mode = .hoveTo) (h : s.idleForCmd = true) {c : Command} (hc : c.op = 1) :
    s.idleJudged c = s.bindStarted c.arg.toNat := by
  refine (if_neg (by rw [hm]; decide)).trans ((if_neg ?_).trans (if_neg (by rw [hc]; decide)))
  rw [hm, h]
  decide

/-- BIND is accepted (05 R219). -/
def bindCmd (s : State) : Command := ⟨1, false, s.cmdArg, false⟩

theorem exec_cmdBind {s : State} (h : canReef s) (ha : s.cmdArg.toNat % 4096 = 0) (hr : inRam s.part s.cmdArg.toNat 1 = true) :
    exec .cmdBind s = .next (((accessed s).begun s.bindCmd).tryStop s.bindCmd) := by
  obtain ⟨hf, hm, hb⟩ := h
  have harg : s.cmdArgOk 1 = true := by
    change (s.cmdArg.toNat % 4096 == 0 && inRam s.part s.cmdArg.toNat 1) = true
    rw [hr, ha]
    rfl
  exact congrArg Host.Outcome.next (hostWrite_accepted (v := 0x5A01) (op := 1) (by unfold cmdWord; decide) hf
    (decide_eq_true hm) hb harg)

theorem foundBusy_finishCmd (s : State) (c : Command) : foundBusy s (((accessed s).begun c).stood.finishCmd c.op 2) c.op := by
  have hacc := begun_deckAccess s c
  have hf := stood_frame ((accessed s).begun c)
  have hhalt := stood_halted (s := (accessed s).begun c)
  have hdeck : ((accessed s).begun c).stood.deck = ((accessed s).begun c).deck := by rw [hf]
  have hbosun : ((accessed s).begun c).stood.bosun = { s.bosun with
      wait := none, cycle := ((accessed s).begun c).stood.bosun.cycle } := by rw [hf]; rfl
  have hraw : ((accessed s).begun c).stood.dk DK_IRQ_RAW = s.dk DK_IRQ_RAW :=
    (dk_of_deck_eq hdeck _).trans (hacc.2 _ (by decide))
  have hstood : ((accessed s).begun c).stood = { s with
      deck := ((accessed s).begun c).deck, dev := { s.dev with tie := none, stopping := false, command := some c }
      bosun := { s.bosun with wait := none, cycle := ((accessed s).begun c).stood.bosun.cycle }
      free := ((accessed s).begun c).stood.free } := by rw [hf]; rfl
  have hacc' : deckAccess s ((accessed s).begun c).stood [DK_CMDSTAT] := by
    refine ⟨hdeck.trans ?_, fun o ho => (dk_of_deck_eq hdeck o).trans (hacc.2 o ho)⟩
    rw [hdeck]
    exact hacc.1
  generalize ((accessed s).begun c).stood = t at *
  refine ⟨?_, fun h => hhalt h, ?_, finishCmd_stat t c.op 2, raised_congr (raised_finishCmd t c.op 2) hraw.symm rfl⟩
  · rw [hstood]
    rfl
  · obtain ⟨hd, hk⟩ := deckAccess_then hacc' (finishCmd_deckRegs t c.op 2)
    exact ⟨hd, fun o ho => hk o (by simpa using ho)⟩

/-- The state in which a command finds Bosun at its boundary (03 R138). -/
theorem begun_stood (s : State) (c : Command) : ((accessed s).begun c).stood = { s with
    deck := ((accessed s).begun c).deck, dev := { s.dev with tie := none, stopping := false, command := some c }
    bosun := { s.bosun with wait := none, cycle := ((accessed s).begun c).stood.bosun.cycle }
    free := ((accessed s).begun c).stood.free } := by
  have hf := stood_frame ((accessed s).begun c)
  generalize ((accessed s).begun c).stood = t at *
  rw [hf]
  rfl

/-- CMD_BIND, as Bosun and the idle condition meet it. -/
theorem cmdBind_starts {s : State} (h : canReef s) (ha : s.cmdArg.toNat % 4096 = 0)
    (hr : inRam s.part s.cmdArg.toNat 1 = true) :
    (s.atBoundary = false → ∃ t, exec .cmdBind s = .next t ∧ waitsToStop s t 1 false) ∧
    (s.atBoundary = true → s.bosun.stores = [] → s.dev.mode = .underway ∨ s.idleForCmd = false →
      ∃ t, exec .cmdBind s = .next t ∧ foundBusy s t 1) ∧
    (s.atBoundary = true → s.bosun.stores = [] → s.dev.mode = .hoveTo → s.idleForCmd = true →
      exec .cmdBind s = .next (((accessed s).begun s.bindCmd).stood.bindStarted s.cmdArg.toNat)) := by
  rw [exec_cmdBind h ha hr]
  have hf := begun_stood s s.bindCmd
  have hm : s.dev.mode ≠ .becalmed := by rcases h.2.1 with h | h <;> rw [h] <;> decide
  have hbound : ((accessed s).begun s.bindCmd).atBoundary = s.atBoundary := rfl
  have hmode : ((accessed s).begun s.bindCmd).stood.dev.mode = s.dev.mode := by rw [hf]
  have hidle : ((accessed s).begun s.bindCmd).stood.idleForCmd = s.idleForCmd := by rw [hf]; rfl
  refine ⟨fun hb => ?_, fun hb hq hbusy => ?_, fun hb hq ht hi => ?_⟩
  · rw [tryStop_waits (hbound.trans hb)]
    exact ⟨_, rfl, rfl, begun_deckAccess s s.bindCmd, begun_stat (accessed s) s.bindCmd⟩
  · refine ⟨_, congrArg Host.Outcome.next ?_, foundBusy_finishCmd s s.bindCmd⟩
    rw [tryStop_stands (hbound.trans hb) hq]
    refine idleJudged_busy (by rw [hmode]; exact hm) ?_ _
    rw [hmode, hidle]
    exact hbusy.imp_left fun h => by rw [h]; decide
  · rw [tryStop_stands (hbound.trans hb) hq, idleJudged_bind (hmode.trans ht) (hidle.trans hi) rfl]
    rfl

/-- An accepted BIND: Bosun stopped, BUSY and BINDING set, its destinations noted (05 R219; 21 R858). -/
theorem bindStarted_spec (s : State) :
    let t := ((accessed s).begun s.bindCmd).stood.bindStarted s.cmdArg.toNat
    t = { s with deck := t.deck, free := t.free
                 bosun := { s.bosun with wait := none, run := false, cycle := t.bosun.cycle }
                 dev := { s.dev with tie := none, stopping := false, binding := true
                                     bindDest := t.dev.bindDest, command := some ⟨1, false, s.cmdArg, false⟩ } } ∧
    t.dev.bindDest = bindPlaces { t with dev := { t.dev with binding := s.dev.binding, bindDest := s.dev.bindDest }
                                         bosun := { t.bosun with run := s.bosun.run } } s.cmdArg.toNat ∧
    deckAccess s t [DK_CMDSTAT] ∧ t.dk DK_CMDSTAT = putFld (s.dk DK_CMDSTAT) 0 1 1 := by
  have hf := begun_stood s s.bindCmd
  have hacc := begun_deckAccess s s.bindCmd
  have hst : ((accessed s).begun s.bindCmd).dk DK_CMDSTAT = putFld (s.dk DK_CMDSTAT) 0 1 1 := begun_stat (accessed s) s.bindCmd
  unfold bindStarted
  generalize ((accessed s).begun s.bindCmd).stood = t at *
  generalize (accessed s).begun s.bindCmd = u at *
  have hdeck : t.deck = u.deck := by rw [hf]
  refine ⟨?_, ?_, ⟨?_, fun o ho => (dk_of_deck_eq hdeck o).trans (hacc.2 o ho)⟩, (dk_of_deck_eq hdeck _).trans hst⟩
  · dsimp only
    rw [hf]
    rfl
  · dsimp only
    have hb : t = { t with dev := { t.dev with binding := s.dev.binding, bindDest := s.dev.bindDest }
                           bosun := { t.bosun with run := s.bosun.run } } := by rw [hf]
    exact congrArg (fun x => bindPlaces x s.cmdArg.toNat) hb
  · dsimp only
    rw [hdeck]
    exact hacc.1

end Sys2Proof.Machine.State
end

section
/-! PROOFS. BIND: the checks of an image and its commit (21 R855, R856, R858). -/

namespace Sys2Proof.Machine

open Sys2Proof.Spec

/-! ### What checks keep -/

/-- A property of the state that each of two checks keeps. -/
theorem Chk.next_keeps {α β : Type} {P : State → Prop} {r : Chk α} {f : State → α → Chk β} (hr : P r.1)
    (hf : ∀ t a, P t → P (f t a).1) : P (r.next f).1 := by
  obtain ⟨t, e⟩ := r
  cases e with
  | error c => exact hr
  | ok a => exact hf t a hr

section Checks

variable {P : State → Prop} {src : ImgSrc} (hread : ∀ t off n, P t → P (readImage src t off n).1)
include hread

theorem checkHeader_keeps {s : State} (h : P s) : P (checkHeader src s).1 :=
  Chk.next_keeps (hread s 0 32 h) fun _ _ ht => Chk.next_keeps ht fun u _ hu => Chk.next_keeps (hread u _ _ hu)
    fun _ _ hv => Chk.next_keeps hv fun _ _ hw => hw

theorem checkFootprint_keeps {s : State} (h : P s) (bytes : Nat) (sects : List Sect) :
    P (checkFootprint src s bytes sects).1 :=
  Chk.next_keeps h fun _ _ ht => Chk.next_keeps (hread _ _ _ ht) fun _ _ hu => Chk.next_keeps hu fun _ _ hv =>
    Chk.next_keeps hv fun _ _ hw => Chk.next_keeps hw fun _ _ hx => Chk.next_keeps hx fun _ _ hy => hy

theorem checkSects_keeps (f : Footprint) (bytes tableEnd : Nat) (before l : List Sect) {s : State} (h : P s) :
    P (checkSects src f bytes tableEnd before l s).1 := by
  induction l generalizing before s with
  | nil => exact h
  | cons x l ih =>
    refine Chk.next_keeps h fun t _ ht => ?_
    dsimp only
    split
    · exact Chk.next_keeps (hread t _ _ ht) fun _ _ hu => Chk.next_keeps hu fun _ _ hv => ih _ hv
    · exact ih _ ht

theorem checkCrcs_keeps (l : List Sect) {s : State} (h : P s) : P (checkCrcs src l s).1 := by
  induction l generalizing s with
  | nil => exact h
  | cons x l ih =>
    unfold checkCrcs
    split
    · exact ih h
    · exact Chk.next_keeps (hread s _ _ h) fun _ _ ht => Chk.next_keeps ht fun _ _ hu => ih hu

theorem checkSignature_keeps (sects : List Sect) {s : State} (h : P s) : P (checkSignature src sects s).1 := by
  unfold checkSignature
  split
  · split
    · exact h
    · exact Chk.next_keeps (hread s _ _ h) fun t _ ht => Chk.next_keeps (hread t _ _ ht) fun _ _ hu => hu
  · exact h

theorem readSect_keeps (sects : List Sect) (typ : Nat) {s : State} (h : P s) : P (readSect src sects typ s).1 := by
  unfold readSect
  split
  · exact h
  · exact hread s _ _ h

theorem checkRecords_keeps (sects : List Sect) {s : State} (h : P s) : P (checkRecords src sects s).1 :=
  Chk.next_keeps (readSect_keeps hread sects 4 h) fun _ _ ht => Chk.next_keeps (readSect_keeps hread sects 5 ht)
    fun _ _ hu => Chk.next_keeps hu fun _ _ hv => hv

theorem checkImage_keeps {s : State} (h : P s) : P (checkImage src s).1 :=
  Chk.next_keeps (checkHeader_keeps hread h) fun _ a ht => Chk.next_keeps (checkFootprint_keeps hread ht a.1 a.2.2)
    fun _ _ hu => Chk.next_keeps (checkSects_keeps hread _ _ _ _ _ hu) fun _ _ hv =>
      Chk.next_keeps (checkCrcs_keeps hread _ hv) fun _ _ hw => Chk.next_keeps (checkSignature_keeps hread _ hw)
        fun _ _ hx => Chk.next_keeps (checkRecords_keeps hread _ hx) fun _ _ hy => Chk.next_keeps hy fun _ _ hz => hz

end Checks

namespace State

theorem recordEcc_fault (s : State) (src a : Nat) :
    ∃ (u : State) (d : Word), u = { s with free := u.free } ∧ s.recordEcc src a = u.recordFault 3 0x30 false d none a := by
  unfold recordEcc
  cases inCn a with
  | false => exact ⟨s, _, rfl, rfl⟩
  | true => exact ⟨(s.draw 3).2, _, rfl, rfl⟩

/-- The class E record of an ECC error changes the fault block and its mirrors (16 R698). -/
theorem recordEcc_frame (s : State) (src a : Nat) : s.recordEcc src a = { s with
    regs := (s.recordEcc src a).regs, deck := (s.recordEcc src a).deck, free := (s.recordEcc src a).free } := by
  obtain ⟨u, d, hu, he⟩ := recordEcc_fault s src a
  rw [he]
  have hf := recordFault_frame u 3 0x30 false d none a
  generalize u.recordFault 3 0x30 false d none a = t at *
  rw [hf, hu]

theorem readImage_frame (src : ImgSrc) (s : State) (off n : Nat) : (readImage src s off n).1 = { s with
    regs := (readImage src s off n).1.regs, deck := (readImage src s off n).1.deck, ecc := (readImage src s off n).1.ecc
    inject := (readImage src s off n).1.inject, free := (readImage src s off n).1.free } := by
  unfold readImage
  cases src with
  | flash l => rfl
  | mem b =>
    dsimp only
    have hr := (MemStep.eccRead s srcBind (b + off) n).1
    have hm := eccRead_mem s srcBind (b + off) n
    rw [hm] at hr
    generalize s.eccRead srcBind (b + off) n = x at *
    obtain ⟨t, ue⟩ := x
    cases ue with
    | none =>
      dsimp only at hr ⊢
      rw [hr]
    | some a =>
      have he := recordEcc_frame t srcBind a
      dsimp only at hr ⊢
      generalize t.recordEcc srcBind a = u at *
      rw [he, hr]

/-- The checks of an image leave the device, the Capstan, memory and Bosun (21 R855). -/
theorem checkImage_frame (src : ImgSrc) (s : State) :
    (checkImage src s).1.dev = s.dev ∧ (checkImage src s).1.cap = s.cap ∧ (checkImage src s).1.mem = s.mem ∧
    (checkImage src s).1.bosun = s.bosun := by
  refine checkImage_keeps (P := fun t => t.dev = s.dev ∧ t.cap = s.cap ∧ t.mem = s.mem ∧ t.bosun = s.bosun) ?_
    ⟨rfl, rfl, rfl, rfl⟩
  rintro t off n ⟨hd, hc, hm, hb⟩
  rw [readImage_frame]
  exact ⟨hd, hc, hm, hb⟩

/-! ### A command that a class F fault has ended -/

/-- In BECALMED no BIND is under way (05 Table 5.2). -/
def bindSettled (s : State) : Prop :=
  s.dev.mode = .becalmed → s.dev.binding = false ∧ s.dev.bindStale = false ∧ s.dev.command = none

theorem bindSettled_of_dev {s t : State} (h : bindSettled s) (hd : t.dev = s.dev) : bindSettled t := by
  unfold bindSettled
  rw [hd]
  exact h

theorem bindSettled_of_mode {s : State} (h : s.dev.mode ≠ .becalmed) : bindSettled s := fun k => absurd k h

theorem mergeFault_dev (s : State) (code : Nat) (d : Word) (a : Nat) : (s.mergeFault code d a).dev = s.dev := by
  unfold mergeFault
  dsimp only
  repeat' split
  all_goals rfl

theorem bindSettled_becalm {s : State} (h : bindSettled s) (code : Nat) (d : Word) (a : Nat) :
    bindSettled (s.becalm code false d a) := by
  by_cases hm : s.dev.mode = .moored
  · rw [becalm_moored hm]
    exact h
  · by_cases hb : s.dev.mode = .becalmed
    · have he : s.becalm code false d a = if s.dev.tie.isSome then s.mergeFault code d a else s :=
        (if_neg hm).trans (if_pos hb)
      rw [he]
      split
      · exact bindSettled_of_dev h (mergeFault_dev s code d a)
      · exact h
    · intro _
      rw [becalm_frame ⟨hm, hb⟩]
      exact ⟨rfl, rfl, rfl⟩

theorem eccWrite_dev (s : State) (src a : Nat) (l : List Byte) : (s.eccWrite src a l).1.dev = s.dev := by
  rw [eccWrite_frame]

theorem setRing_dev (s : State) (n : Nat) (r : Ring) : (s.setRing n r).dev = s.dev := by rw [setRing_frame]

theorem bindSettled_clearSize {s : State} (h : bindSettled s) (n : Nat) : bindSettled (s.clearSize n) := by
  unfold clearSize
  have hd := eccWrite_dev s srcCapstan (ringAddr n) (leBytes 4 (putFld (s.peekWord (ringAddr n)) 0 5 0).toNat)
  dsimp only
  generalize s.eccWrite srcCapstan (ringAddr n) _ = x at *
  obtain ⟨t, ue⟩ := x
  cases ue with
  | none => exact bindSettled_of_dev h hd
  | some a => exact bindSettled_becalm (bindSettled_of_dev h hd) _ _ _

theorem bindSettled_updateWork {s : State} (h : bindSettled s) : bindSettled s.updateWork := by
  by_cases hb : s.dev.mode = .becalmed
  · have he : s.updateWork = s := by rw [updateWork, hb]
    rw [he]
    exact h
  · exact bindSettled_of_mode (updateWork_dieUp hb).1

theorem bindSettled_ringDisable {s : State} (h : bindSettled s) (n : Nat) : bindSettled (s.ringDisable n).1 := by
  unfold ringDisable
  dsimp only
  split
  · exact bindSettled_clearSize h n
  · split
    · exact h
    · refine bindSettled_updateWork (bindSettled_of_dev ?_ (updateHolder_dev (unbindRing _ n)).1)
      exact bindSettled_clearSize (bindSettled_of_dev h (setRing_dev s n _)) n

theorem bindSettled_disableAll {s : State} (h : bindSettled s) : bindSettled s.disableAll :=
  foldl_keeps bindSettled _ (fun t n ht => by
    split
    · exact ht
    · exact bindSettled_ringDisable ht n) _ _ h

/-! ### What a commit keeps of the device -/

theorem readImage_dev (src : ImgSrc) (s : State) (off n : Nat) : (readImage src s off n).1.dev = s.dev := by
  rw [readImage_frame]

theorem recordEcc_dev (s : State) (src a : Nat) : (s.recordEcc src a).dev = s.dev := by rw [recordEcc_frame]

theorem placeSect_dev (src : ImgSrc) (x : Sect) (s : State) : (placeSect src x s).1.dev = s.dev := by
  have hput : ∀ (t : State) (l : List Byte), t.dev = s.dev →
      (match (t.eccWrite srcBind x.dest l).2 with
        | some a => ((t.eccWrite srcBind x.dest l).1.recordEcc srcBind a, (.error causeCRC : Except Nat Unit))
        | none => ((t.eccWrite srcBind x.dest l).1, .ok ())).1.dev = s.dev := by
    intro t l ht
    split
    · exact (recordEcc_dev _ _ _).trans ((eccWrite_dev t _ _ _).trans ht)
    · exact (eccWrite_dev t _ _ _).trans ht
  unfold placeSect
  split
  · exact hput s _ rfl
  · split
    · exact Chk.next_keeps (P := fun t => t.dev = s.dev) (readImage_dev src s _ _) fun t l ht => hput t l ht
    · rfl

theorem placeSects_dev (src : ImgSrc) (l : List Sect) (s : State) : (placeSects src l s).1.dev = s.dev := by
  induction l generalizing s with
  | nil => rfl
  | cons x l ih =>
    exact Chk.next_keeps (P := fun t => t.dev = s.dev) (placeSect_dev src x s) fun t _ ht => (ih t).trans ht

theorem noteCnEcc_dev (s : State) (a : Nat) (ue : Bool) : (s.noteCnEcc a ue).dev = s.dev := by
  unfold noteCnEcc
  split <;> rfl

theorem datapathWords_dev (s : State) (gesture : Bool) (ws : List (Nat × Ecc)) :
    (s.datapathWords gesture ws).1.dev = s.dev := by
  unfold datapathWords
  generalize hx : List.foldl _ _ _ = x
  have hd : x.1.dev = s.dev := by
    rw [← hx]
    refine foldl_keeps (fun x : State × Bool => x.1.dev = s.dev) _ ?_ _ _ rfl
    rintro ⟨t, ok⟩ ⟨w, e⟩ h
    dsimp only
    split
    · exact (noteCnEcc_dev t w false).trans h
    · exact (noteCnEcc_dev t w true).trans h
    · exact h
  obtain ⟨t, ok⟩ := x
  dsimp only
  split <;> exact hd

theorem netEnable_dev (s : State) (gesture : Bool) : (s.netEnable gesture).dev = s.dev := by
  unfold netEnable
  have hd := datapathWords_dev s gesture (s.checkedWords gesture)
  generalize s.datapathWords gesture (s.checkedWords gesture) = x at *
  obtain ⟨t, ok⟩ := x
  dsimp only at hd ⊢
  split
  · exact hd
  · split
    · split <;> exact hd
    · exact hd

theorem eccPut_dev (s : State) (src a : Nat) (l : List Byte) : (s.eccPut src a l).1.dev = s.dev := by
  rw [(MemStep.eccPut s src a l).1]

theorem placeNet_dev (src : ImgSrc) (sects : List Sect) (gesture : Bool) (s : State) :
    (placeNet src sects gesture s).1.dev = s.dev := by
  unfold placeNet
  split
  · rfl
  · next x _ =>
    refine Chk.next_keeps (P := fun t => t.dev = s.dev) (readImage_dev src s _ _) fun t l ht => ?_
    have hd := eccPut_dev (t.netOff gesture) srcBind x.dest l
    generalize (t.netOff gesture).eccPut srcBind x.dest l = y at *
    obtain ⟨u, ue⟩ := y
    have hu : u.dev = s.dev := hd.trans ht
    cases ue with
    | some a => exact (noteCnEcc_dev u a true).trans hu
    | none =>
      dsimp only
      split
      · exact (netEnable_dev u gesture).trans hu
      · exact hu

/-- Steps 2 and 3 of the commit (21 R856). -/
def placedImage (src : ImgSrc) (sects : List Sect) (s : State) : Chk Unit :=
  (placeSects src sects s).next fun s _ => (placeNet src sects false s).next fun s _ => placeNet src sects true s

theorem placedImage_dev (src : ImgSrc) (sects : List Sect) (s : State) : (placedImage src sects s).1.dev = s.dev :=
  Chk.next_keeps (P := fun t => t.dev = s.dev) (placeSects_dev src sects s) fun t _ ht =>
    Chk.next_keeps (P := fun t => t.dev = s.dev) ((placeNet_dev src sects false t).trans ht) fun u _ hu =>
      (placeNet_dev src sects true u).trans hu

theorem voidBind_dev (s s0 : State) (x : Fratitha) : (s.voidBind s0 x).dev = { s.dev with image := none } := by
  have hd := scramble_dev s ((x.sects.filter fun y => y.placed && !inCn y.dest).map fun y => (y.dest, y.len))
  change { (s.scramble _).dev with image := none } = _
  rw [hd]

end State

end Sys2Proof.Machine
end

section
/-! PROOFS. What a bound image leaves, and how BIND ends (05 R219; 14 R591; 21 R855, R856, R858, R869). -/

namespace Sys2Proof.Machine.State

open Sys2Proof.Spec

/-! ### The region table loaded -/

/-- A register of the region table (06 Table 6.3). -/
def regionReg (a : Nat) : Bool := decide (0x40010000 ≤ a) && decide (a < 0x40010400)

/-- The copies in force follow the registers committed. -/
theorem commit_spec (l : List Nat) (s : State) :
    s.commit l = { s with inForce := (s.commit l).inForce } ∧
    ∀ a, (s.commit l).force a = if a ∈ l then s.reg a else s.force a := by
  induction l generalizing s with
  | nil => exact ⟨rfl, fun _ => rfl⟩
  | cons b l ih =>
    obtain ⟨hf, hg⟩ := ih (s.setForce b (s.reg b))
    refine ⟨hf, fun a => (hg a).trans ?_⟩
    have hreg : (s.setForce b (s.reg b)).reg a = s.reg a := rfl
    rw [hreg]
    by_cases ha : a ∈ l
    · rw [if_pos ha, if_pos (List.mem_cons_of_mem b ha)]
    · rw [if_neg ha]
      rcases eq_or_ne a b with rfl | hne
      · rw [if_pos List.mem_cons_self]
        exact Store.get_set_self _ _ _ _
      · rw [if_neg (by simp [hne, ha])]
        exact Store.get_set_ne' _ _ _ _ hne

/-- The addresses of the 64 entries. -/
def regionAddrs : List Nat := (List.range 64).flatMap fun n => [RG_BASE n, RG_LIMIT n, RG_ATTR n]

theorem mem_regionAddrs {n : Nat} (h : n < 64) :
    RG_BASE n ∈ regionAddrs ∧ RG_LIMIT n ∈ regionAddrs ∧ RG_ATTR n ∈ regionAddrs := by
  simp only [regionAddrs, List.mem_flatMap, List.mem_range]
  exact ⟨⟨n, h, by simp⟩, ⟨n, h, by simp⟩, ⟨n, h, by simp⟩⟩

theorem regionReg_of_mem {a : Nat} (h : a ∈ regionAddrs) : regionReg a = true := by
  simp only [regionAddrs, List.mem_flatMap, List.mem_range, List.mem_cons, List.not_mem_nil, or_false] at h
  obtain ⟨n, hn, rfl | rfl | rfl⟩ := h
  · unfold RG_BASE
    exact Bool.and_eq_true_iff.2 ⟨decide_eq_true (by omega), decide_eq_true (by omega)⟩
  · unfold RG_LIMIT
    exact Bool.and_eq_true_iff.2 ⟨decide_eq_true (by omega), decide_eq_true (by omega)⟩
  · unfold RG_ATTR
    exact Bool.and_eq_true_iff.2 ⟨decide_eq_true (by omega), decide_eq_true (by omega)⟩

/-- Every region is in force as staged, with no commit pending, and the device is as it was (06 R265). -/
theorem loadRegions_spec (s : State) (rs : List (Nat × Word × Word × Word)) :
    (s.loadRegions rs).dev = s.dev ∧ (s.loadRegions rs).rgPend = [] ∧
    ∀ a ∈ regionAddrs, (s.loadRegions rs).force a = (s.loadRegions rs).reg a := by
  have hset : ∀ t : State, t.dev = s.dev →
      (rs.foldl (fun s (e : Nat × Word × Word × Word) =>
        ((s.setReg (RG_BASE e.1) e.2.1).setReg (RG_LIMIT e.1) e.2.2.1).setReg (RG_ATTR e.1) e.2.2.2) t).dev = s.dev :=
    fun t ht => by
      refine foldl_keeps (fun t : State => t.dev = s.dev) _ ?_ rs t ht
      exact fun _ _ h => h
  have hreset : (regionAddrs.foldl (fun s a => s.setReg a (csrReset a)) s).dev = s.dev := by
    generalize regionAddrs = l
    refine foldl_keeps (fun t : State => t.dev = s.dev) _ ?_ l s rfl
    exact fun _ _ h => h
  have he : s.loadRegions rs = State.commit (State.syncPend { rs.foldl (fun s (e : Nat × Word × Word × Word) =>
      ((s.setReg (RG_BASE e.1) e.2.1).setReg (RG_LIMIT e.1) e.2.2.1).setReg (RG_ATTR e.1) e.2.2.2)
      (regionAddrs.foldl (fun s a => s.setReg a (csrReset a)) s) with rgPend := [] }) regionAddrs := rfl
  have hdev := hset _ hreset
  rw [he]
  generalize rs.foldl _ _ = t at *
  obtain ⟨hf, hforce⟩ := commit_spec regionAddrs (State.syncPend { t with rgPend := [] })
  generalize State.commit _ regionAddrs = u at *
  refine ⟨?_, ?_, fun a ha => ?_⟩
  · rw [hf]
    exact hdev
  · rw [hf]
    rfl
  · rw [hforce a, if_pos ha, hf]
    rfl

/-! ### The rings loaded -/

/-- The region table stands as it was. -/
def regionsKept (s t : State) : Prop :=
  t.rgPend = s.rgPend ∧ t.inForce = s.inForce ∧ ∀ a, regionReg a = true → t.reg a = s.reg a

theorem regionsKept_trans {s t u : State} (h : regionsKept s t) (k : regionsKept t u) : regionsKept s u :=
  ⟨k.1.trans h.1, k.2.1.trans h.2.1, fun a ha => (k.2.2 a ha).trans (h.2.2 a ha)⟩

theorem regionReg_plain {a : Nat} (h : regionReg a = true) : eccReg a = false ∧ a ≠ CN_STAT := by
  simp only [regionReg, Bool.and_eq_true, decide_eq_true_eq] at h
  refine ⟨?_, ?_⟩
  · unfold eccReg FT_CE_ECC CN_ECC CN_ECC_ADDR
    simp only [Bool.or_eq_false_iff, Bool.and_eq_false_iff, decide_eq_false_iff_not, beq_eq_false_iff_ne]
    omega
  · unfold CN_STAT
    omega

theorem regionsKept_eccWrite (s : State) (src a : Nat) (l : List Byte) : regionsKept s (s.eccWrite src a l).1 := by
  refine ⟨by rw [eccWrite_frame], by rw [eccWrite_frame], fun b hb => ?_⟩
  obtain ⟨he, hc⟩ := regionReg_plain hb
  exact eccWrite_reg s src a l he hc

theorem regionsKept_eccRead (s : State) (src a n : Nat) : regionsKept s (s.eccRead src a n).1 := by
  obtain ⟨hf, hr⟩ := MemStep.eccRead s src a n
  exact ⟨by rw [hf], by rw [hf], fun b hb => hr b (regionReg_plain hb).1⟩

theorem regionsKept_setRing (s : State) (n : Nat) (r : Ring) : regionsKept s (s.setRing n r) :=
  regionsKept_eccWrite (s.ringPut n r) srcCapstan (ringAddr n + 16) (wordsBytes (ringWords r))

/-- One ring preset (07 R299). -/
def loadRing (s : State) (e : Nat × List Word) : State :=
  if s.dev.mode = .becalmed then s
  else
    let x := ((s.eccWrite srcBind (ringAddr e.1) (wordsBytes e.2)).1).eccRead srcCapstan (ringAddr e.1) 16
    match x.2 with
    | some a => x.1.becalm 0x25 false (Word.nat (memNumber x.1.part a + srcCapstan * 16)) a
    | none => x.1.enableWith e.1 e.2

theorem loadRings_eq (s : State) (ns : List (Nat × List Word)) :
    s.loadRings ns = (ns.foldl loadRing { s with cap := { s.cap with rings := [], lastAdm := [] } }).resetBells := rfl

/-- A preset leaves the region table, or a class F fault met there has ended the BIND (21 R858). -/
theorem loadRing_keeps {s t : State} (e : Nat × List Word) (h : bindSettled t ∧ (t.dev.mode = .becalmed ∨ regionsKept s t)) :
    bindSettled (t.loadRing e) ∧ ((t.loadRing e).dev.mode = .becalmed ∨ regionsKept s (t.loadRing e)) := by
  obtain ⟨hj, hk⟩ := h
  unfold loadRing
  split
  · exact ⟨hj, hk⟩
  · next hm =>
    have hk := hk.resolve_left hm
    have hr := regionsKept_trans (regionsKept_eccWrite t srcBind (ringAddr e.1) (wordsBytes e.2))
      (regionsKept_eccRead _ srcCapstan (ringAddr e.1) 16)
    have hd : (((t.eccWrite srcBind (ringAddr e.1) (wordsBytes e.2)).1).eccRead srcCapstan (ringAddr e.1) 16).1.dev = t.dev := by
      rw [(MemStep.eccRead _ srcCapstan (ringAddr e.1) 16).1]
      exact eccWrite_dev _ _ _ _
    generalize ((t.eccWrite srcBind (ringAddr e.1) (wordsBytes e.2)).1).eccRead srcCapstan (ringAddr e.1) 16 = x at *
    obtain ⟨u, ue⟩ := x
    have hju : bindSettled u := bindSettled_of_dev hj hd
    cases ue with
    | none =>
      exact ⟨bindSettled_of_dev hju (setRing_dev u _ _),
        .inr (regionsKept_trans hk (regionsKept_trans hr (regionsKept_setRing u _ _)))⟩
    | some a =>
      refine ⟨bindSettled_becalm hju _ _ _, ?_⟩
      dsimp only
      by_cases hmo : u.dev.mode = .moored
      · rw [becalm_moored hmo]
        exact .inr (regionsKept_trans hk hr)
      · have hb : canBecalm u := ⟨hmo, by rw [show u.dev = t.dev from hd]; exact hm⟩
        exact .inl (by rw [becalm_frame hb])

theorem regionsKept_resetBells (s : State) : regionsKept s s.resetBells := by
  refine ⟨rfl, rfl, fun a ha => ?_⟩
  simp only [regionReg, Bool.and_eq_true, decide_eq_true_eq] at ha
  refine Store.get_filter _ _ (fun a => !(decide (CAP_BTHR ≤ a) && decide (a < CAP_BTHR + 0x800)) &&
    !(decide (CAP_BFIRED ≤ a) && decide (a < CAP_BFIRED + 32)) && a != CAP_EPOCH && a != CAP_TACK_CFG) ?_
  unfold CAP_BTHR CAP_BFIRED CAP_EPOCH CAP_TACK_CFG
  simp only [Bool.and_eq_true, Bool.not_eq_true', Bool.and_eq_false_iff, decide_eq_false_iff_not, bne_iff_ne]
  omega

theorem loadRings_spec {s : State} (hj : bindSettled s) (ns : List (Nat × List Word)) :
    bindSettled (s.loadRings ns) ∧ ((s.loadRings ns).dev.mode = .becalmed ∨ regionsKept s (s.loadRings ns)) ∧
    (s.loadRings ns).cap.bells = [] := by
  have hfold := foldl_keeps (fun t : State => bindSettled t ∧ (t.dev.mode = .becalmed ∨ regionsKept s t)) loadRing
    (fun t e h => loadRing_keeps e h) ns { s with cap := { s.cap with rings := [], lastAdm := [] } }
    ⟨hj, .inr ⟨rfl, rfl, fun _ _ => rfl⟩⟩
  rw [loadRings_eq]
  generalize ns.foldl loadRing _ = t at *
  exact ⟨hfold.1, hfold.2.imp_right fun h => regionsKept_trans h (regionsKept_resetBells t), rfl⟩

/-! ### Bosun begins -/

theorem spoilEsave_spec (s : State) :
    s.spoilEsave = { s with free := s.spoilEsave.free
                            bosun := { s.bosun with core := { s.core with csr := s.spoilEsave.core.csr } } } ∧
    s.spoilEsave.core.csrGet BS_STATUS = s.core.csrGet BS_STATUS := by
  have hf : s.spoilEsave = (List.range 5).foldl (fun s k => (s.draw 32).2.setBs (BS_ESAVE k) (s.draw 32).1) s := rfl
  rw [hf]
  refine foldl_keeps (fun t : State =>
    t = { s with free := t.free, bosun := { s.bosun with core := { s.core with csr := t.core.csr } } } ∧
    t.core.csrGet BS_STATUS = s.core.csrGet BS_STATUS) _ ?_ _ _ ⟨rfl, rfl⟩
  rintro t k ⟨ht, hs⟩
  refine ⟨?_, (Core.csrGet_csrPut_ne t.core _ ?_).trans hs⟩
  · rw [ht]
    rfl
  · unfold BS_STATUS BS_ESAVE
    omega

/-- Bosun at an entry point, before its ESAVE bank holds free values (14 R591). -/
def bosunReset (s : State) (entry : Nat) : State :=
  { s with
    regs := s.regs.filter fun e => !(decide (bsAddr 0x080 ≤ e.1) && decide (e.1 < bsAddr 0x090))
    bosun := { s.bosun with
      core := { pc := Word.nat entry }, trail := none, run := true, wait := none, stores := [], instret := 0, cycle := 0
      cycleHi := 0, latHalt := false, latStale := false, latDeck := false, ckpt := false, diverge := none } }

theorem startBosun_eq (s : State) (entry : Nat) : s.startBosun entry =
    ((s.bosunReset entry).setReg (bsAddr BS_LS_STAT)
      (Word.nat (Nat.land (s.reg (bsAddr BS_LS_STAT)).toNat 0xFFFF00FF))).spoilEsave := rfl

theorem regionsKept_bosunReset (s : State) (entry : Nat) (v : Word) :
    regionsKept s ((s.bosunReset entry).setReg (bsAddr BS_LS_STAT) v) := by
  refine ⟨rfl, rfl, fun a ha => ?_⟩
  simp only [regionReg, Bool.and_eq_true, decide_eq_true_eq] at ha
  have hne : a ≠ bsAddr BS_LS_STAT := by
    unfold bsAddr BS_LS_STAT
    omega
  rw [reg_setReg_ne _ _ hne]
  refine Store.get_filter _ _ (fun a => !(decide (bsAddr 0x080 ≤ a) && decide (a < bsAddr 0x090))) ?_
  unfold bsAddr
  simp only [Bool.not_eq_true', Bool.and_eq_false_iff, decide_eq_false_iff_not]
  omega

/-- Bosun starts in Keeper mode with w1 to w31 0 (14 R591). -/
theorem startBosun_spec (s : State) (entry : Nat) :
    let t := s.startBosun entry
    t.dev = s.dev ∧ regionsKept s t ∧ t.cap = s.cap ∧ t.fifos = s.fifos ∧ t.looms = s.looms ∧ t.harrows = s.harrows ∧
    t.bosun.run = true ∧ t.core.pc = Word.nat entry ∧ (∀ r, t.core.reg r = 0) ∧ t.crew = false ∧ t.bosun.stores = [] ∧
    t.bosun.instret = 0 ∧ t.bosun.cycle = 0 := by
  have hk := regionsKept_bosunReset s entry (Word.nat (Nat.land (s.reg (bsAddr BS_LS_STAT)).toNat 0xFFFF00FF))
  rw [startBosun_eq]
  generalize Word.nat (Nat.land _ _) = v at *
  have hstat : ((s.bosunReset entry).setReg (bsAddr BS_LS_STAT) v).core.csrGet BS_STATUS = 0 := rfl
  have hreg : ∀ r, ((s.bosunReset entry).setReg (bsAddr BS_LS_STAT) v).core.reg r = 0 := fun r => ite_self _
  obtain ⟨hf, hs⟩ := spoilEsave_spec ((s.bosunReset entry).setReg (bsAddr BS_LS_STAT) v)
  generalize State.spoilEsave _ = t at *
  have hcrew : t.crew = false := by
    rw [crew, bsf, hs, hstat]
    rfl
  have hregs : ∀ a, t.reg a = ((s.bosunReset entry).setReg (bsAddr BS_LS_STAT) v).reg a := fun a => by rw [hf]; rfl
  have hw : ∀ r, t.core.reg r = 0 := fun r => by
    rw [core, hf]
    exact hreg r
  have hforce : t.inForce = s.inForce := by rw [hf]; rfl
  have hpend : t.rgPend = s.rgPend := by rw [hf]; rfl
  refine ⟨?_, ⟨hpend, hforce, fun a ha => (hregs a).trans (hk.2.2 a ha)⟩, ?_, ?_, ?_, ?_, ?_, ?_, hw, hcrew, ?_, ?_, ?_⟩
  all_goals
    rw [hf]
    rfl

/-- The working state is reset, the image is bound and Bosun starts (steps 6 and 7). -/
theorem finishBind_spec (s : State) (x : Fratitha) :
    let t := s.finishBind x
    t.dev = { s.dev with image := some ⟨Word.nat x.foot.key, Word.nat x.foot.peer⟩ } ∧ regionsKept s t ∧
    t.cap.bells = s.cap.bells ∧ t.bosun.run = true ∧ t.core.pc = Word.nat x.entry ∧ (∀ r, t.core.reg r = 0) ∧
    t.crew = false ∧ t.bosun.stores = [] ∧ t.bosun.instret = 0 ∧ t.bosun.cycle = 0 ∧ (∀ i, t.fifo i = []) ∧
    ∀ i, (t.loom i).kept = none ∧ (t.harrow i).kept = none := by
  obtain ⟨hdev, hk, hcap, hfifo, hloom, hharrow, hrun, hpc, hreg, hcrew, hstores, hret, hcyc⟩ :=
    startBosun_spec { ({ s.clearEngines with cap := { s.cap with dice := [] } } : State) with
      dev := { s.dev with image := some ⟨Word.nat x.foot.key, Word.nat x.foot.peer⟩ } } x.entry
  have he : s.finishBind x = State.startBosun { ({ s.clearEngines with cap := { s.cap with dice := [] } } : State) with
      dev := { s.dev with image := some ⟨Word.nat x.foot.key, Word.nat x.foot.peer⟩ } } x.entry := rfl
  rw [he]
  generalize State.startBosun _ x.entry = t at *
  refine ⟨hdev, hk, by rw [hcap], hrun, hpc, hreg, hcrew, hstores, hret, hcyc, fun i => ?_, fun i => ⟨?_, ?_⟩⟩
  · rw [fifo, hfifo]
    rfl
  · rw [loom, hloom]
    exact congrArg Loom.kept (Store.get_map (f := fun l : Loom => { l with chain := none, kept := none, held := [], out := [] })
      rfl s.looms i)
  · rw [harrow, hharrow]
    exact congrArg Harrow.kept (Store.get_map (f := fun h : Harrow => { h with stripe := none, kept := none }) rfl s.harrows i)

/-! ### The commit -/

/-- A commit, with the rings loaded, that no class F fault has abandoned (21 R856, R858). -/
theorem commitImage_cases (src : ImgSrc) (s : State) (x : Fratitha) (h : bindSettled s) :
    (∃ c, (commitImage src s x).2 = .error c ∧ bindSettled (commitImage src s x).1 ∧
      ((commitImage src s x).1.dev.mode = .becalmed ∨ (commitImage src s x).1.dev.image = none)) ∨
    ∃ y : State, commitImage src s x = (y.finishBind x, .ok ()) ∧ bindSettled y ∧ y.rgPend = [] ∧ y.cap.bells = [] ∧
      ∀ a ∈ regionAddrs, y.force a = y.reg a := by
  have hall := bindSettled_disableAll h
  have hplaced := placedImage_dev src x.sects s.disableAll
  have he : commitImage src s x = if s.disableAll.dev.mode = .becalmed then (s.disableAll, .error 0)
      else match placedImage src x.sects s.disableAll with
        | (t, .error c) => (t.voidBind s x, .error c)
        | (t, .ok ()) => if ((t.loadRegions x.regions).loadRings x.rings).dev.mode = .becalmed then
            ((t.loadRegions x.regions).loadRings x.rings, .error 0)
          else (((t.loadRegions x.regions).loadRings x.rings).finishBind x, .ok ()) := rfl
  rw [he]
  generalize s.disableAll = u at *
  split
  · next hb => exact .inl ⟨0, rfl, hall, .inl hb⟩
  · next hb =>
    generalize placedImage src x.sects u = p at *
    obtain ⟨t, e⟩ := p
    have ht : bindSettled t := bindSettled_of_dev hall hplaced
    cases e with
    | error c =>
      refine .inl ⟨c, rfl, ?_, .inr ?_⟩
      · intro hm
        rw [voidBind_dev] at hm ⊢
        exact ht hm
      · rw [voidBind_dev]
    | ok a =>
      obtain ⟨hrdev, hpend, hforce⟩ := loadRegions_spec t x.regions
      obtain ⟨hj, hk, hbells⟩ := loadRings_spec (bindSettled_of_dev ht hrdev) x.rings
      dsimp only
      generalize (t.loadRegions x.regions).loadRings x.rings = y at *
      split
      · next hy => exact .inl ⟨0, rfl, hj, .inl hy⟩
      · next hy =>
        obtain ⟨kpend, kforce, kreg⟩ := hk.resolve_left hy
        refine .inr ⟨y, rfl, hj, kpend.trans hpend, hbells, fun a ha => ?_⟩
        have hf : y.force a = (t.loadRegions x.regions).force a := by rw [force, kforce]; rfl
        rw [hf, hforce a ha, kreg a (regionReg_of_mem ha)]

/-! ### BIND ends -/

/-- The BIND is over, its command not yet finished. -/
def bindIdle (s : State) : State := { s with dev := { s.dev with binding := false, bindDest := [], bindStale := false } }

/-- The same, with the destinations undefined where another agent has written the image (21 R869). -/
def bindClosed (s : State) (stale : Bool) (dests : List (Nat × Nat)) : State :=
  if stale then s.bindIdle.scramble dests else s.bindIdle

/-- BIND fails with a cause: the image that was bound goes on (21 R858). -/
def bindGivenUp (s : State) (cause : Nat) : State :=
  (({ s with bosun := { s.bosun with run := s.dev.image.isSome } } : State).setCause cause).finishCmd 1 5

/-- BIND ends as its image has been bound or not. -/
def bindReports (r : Chk Unit) (stale : Bool) (dests : List (Nat × Nat)) : State :=
  if r.1.dev.mode = .becalmed then r.1
  else match r.2 with
    | .ok () => (r.1.bindClosed stale dests).finishCmd 1 0
    | .error cause => (r.1.bindClosed stale dests).bindGivenUp cause

/-- BIND is over and no command runs. -/
def bindDone (s : State) : Prop := s.dev.binding = false ∧ s.dev.bindStale = false ∧ s.dev.command = none

theorem bindClosed_dev (s : State) (stale : Bool) (dests : List (Nat × Nat)) :
    (s.bindClosed stale dests).dev.binding = false ∧ (s.bindClosed stale dests).dev.bindStale = false := by
  cases stale with
  | false => exact ⟨rfl, rfl⟩
  | true =>
    have hd : (s.bindClosed true dests).dev = s.bindIdle.dev := scramble_dev s.bindIdle dests
    rw [hd]
    exact ⟨rfl, rfl⟩

theorem bindDone_givenUp {s : State} (h : s.dev.binding = false ∧ s.dev.bindStale = false) (cause : Nat) :
    bindDone (s.bindGivenUp cause) := by
  have hd := setCause_dev ({ s with bosun := { s.bosun with run := s.dev.image.isSome } }) cause
  unfold bindGivenUp
  generalize State.setCause _ cause = t at *
  refine ⟨?_, ?_, rfl⟩
  · exact (congrArg Device.binding hd).trans h.1
  · exact (congrArg Device.bindStale hd).trans h.2

theorem bindDone_reports {r : Chk Unit} (h : bindSettled r.1) (stale : Bool) (dests : List (Nat × Nat)) :
    bindDone (bindReports r stale dests) := by
  unfold bindReports
  split
  · next hm => exact h hm
  · have hc := bindClosed_dev r.1 stale dests
    split
    · exact ⟨hc.1, hc.2, rfl⟩
    · exact bindDone_givenUp hc _

theorem bindSettled_bindImage {src : ImgSrc} {s : State} (h : bindSettled s) : bindSettled (bindImage src s).1 := by
  have hd := (checkImage_frame src s).1
  refine Chk.next_keeps (bindSettled_of_dev h hd) fun t x ht => ?_
  rcases commitImage_cases src t x ht with ⟨c, -, hj, -⟩ | ⟨y, he, hj, -⟩
  · exact hj
  · rw [he]
    intro hm
    obtain ⟨hdev, -⟩ := finishBind_spec y x
    dsimp only at hm hdev ⊢
    rw [hdev] at hm ⊢
    exact hj hm

/-- The end of a BIND that runs, of an image that no other agent has written. -/
theorem bindEnd_fresh {s : State} {c : Command} (hc : s.dev.command = some c) (ho : c.op = 1) (hs : s.dev.stopping = false)
    (hb : s.dev.binding = true) (hf : s.dev.bindStale = false) :
    s.bindEnd = bindReports (bindImage (.mem c.arg.toNat) s) false s.dev.bindDest := by
  unfold bindEnd
  simp only [hc, ho, hs, hb, hf] <;> rfl

/-- Of one that another agent has written, a free choice says how it ends (05 Table 5.2; 21 R869). -/
theorem bindEnd_stale {s : State} {c : Command} (hc : s.dev.command = some c) (ho : c.op = 1) (hs : s.dev.stopping = false)
    (hb : s.dev.binding = true) (hf : s.dev.bindStale = true) :
    (∃ (u : State) (cause : Nat), u.dev.binding = false ∧ u.dev.bindStale = false ∧ s.bindEnd = u.bindGivenUp cause) ∨
    s.bindEnd = bindReports (bindImage (.mem c.arg.toNat) (s.draw 8).2) true s.dev.bindDest := by
  have hidle : ∀ t : State, (t.bindIdle.scramble s.dev.bindDest).dev = t.bindIdle.dev := fun t => scramble_dev _ _
  by_cases hx : (s.draw 8).1.toNat % 2 = 1
  · refine .inl ⟨if (s.draw 8).1.toNat / 2 % 2 = 1 then
        { (s.draw 8).2.bindIdle.scramble s.dev.bindDest with
          dev := { ((s.draw 8).2.bindIdle.scramble s.dev.bindDest).dev with image := none } }
      else (s.draw 8).2.bindIdle.scramble s.dev.bindDest, 0x33 + (s.draw 8).1.toNat / 4 % 5, ?_, ?_, ?_⟩
    · split <;> exact congrArg Device.binding (hidle _)
    · split <;> exact congrArg Device.bindStale (hidle _)
    · unfold bindEnd
      simp only [hc, ho, hs, hb, hf, hx, and_self, if_true] <;> rfl
  · right
    unfold bindEnd
    simp only [hc, ho, hs, hb, hf, hx, and_false, if_false, if_true] <;> rfl

/-- A failure leaves the rest of the state, the bound image going on (21 R858). -/
theorem bindFailed_givenUp {v : State} (h : v.dev.mode ≠ .becalmed) {cause : Nat} :
    bindFailed v (v.bindIdle.bindGivenUp cause) cause := by
  have hc : State.setCause { v.bindIdle with bosun := { v.bindIdle.bosun with run := v.bindIdle.dev.image.isSome } } cause =
      State.setDkf { v.bindIdle with bosun := { v.bindIdle.bosun with run := v.bindIdle.dev.image.isSome } } DK_CAUSE 0 8 cause :=
    if_neg h
  have hd : deckRegs v (State.setDkf { v.bindIdle with
      bosun := { v.bindIdle.bosun with run := v.bindIdle.dev.image.isSome } } DK_CAUSE 0 8 cause) [DK_CAUSE] :=
    deckRegs_setDk v.bindIdle DK_CAUSE _
  have hv : (State.setDkf { v.bindIdle with
      bosun := { v.bindIdle.bosun with run := v.bindIdle.dev.image.isSome } } DK_CAUSE 0 8 cause).dk DK_CAUSE =
      putFld (v.dk DK_CAUSE) 0 8 cause := dk_setDk_self _ _ _
  unfold bindGivenUp
  rw [hc]
  refine ⟨rfl, deckRegs_mono (deckRegs_trans hd (finishCmd_deckRegs _ 1 5)) (by decide),
    ((finishCmd_deckRegs _ 1 5).2 _ (by decide)).trans hv, finishCmd_stat _ 1 5,
    raised_congr (raised_finishCmd _ 1 5) (hd.2 _ (by decide)).symm rfl⟩

theorem bindReports_error {v : State} {cause : Nat} (h : v.dev.mode ≠ .becalmed) (dests : List (Nat × Nat)) :
    bindReports (v, .error cause) false dests = v.bindIdle.bindGivenUp cause := if_neg h

theorem bindReports_ok {v : State} (h : v.dev.mode ≠ .becalmed) (dests : List (Nat × Nat)) :
    bindReports (v, .ok ()) false dests = v.bindIdle.finishCmd 1 0 := if_neg h

end Sys2Proof.Machine.State

namespace Sys2Proof

open Machine Machine.State Spec

/-- Settles O18: how BIND starts is `tryStop`; its end is that of its image's checks and commit. -/
theorem bindChecksAndBindsAnImage : Obligations.BindChecksAndBindsAnImage := by
  intro s
  refine ⟨fun hs ha hr => ?_, fun c hc ho hs hb hm => ⟨?_, fun hf v w cause x => ⟨fun hv => ?_, fun hv hw hn => ?_,
    fun hv hw hn => ?_⟩⟩⟩
  · obtain ⟨hwait, hbusy, hgo⟩ := cmdBind_starts hs ha hr
    exact ⟨hwait, hbusy, fun hbound hq ht hi => ⟨_, hgo hbound hq ht hi, bindStarted_spec s⟩⟩
  · have hj : bindSettled s := bindSettled_of_mode (by rw [hm]; decide)
    refine ⟨s.bindEnd, rfl, ?_⟩
    cases hf : s.dev.bindStale with
    | false =>
      rw [bindEnd_fresh hc ho hs hb hf]
      exact bindDone_reports (bindSettled_bindImage hj) _ _
    | true =>
      rcases bindEnd_stale hc ho hs hb hf with ⟨u, cause, hu, hu', he⟩ | he
      · rw [he]
        exact bindDone_givenUp ⟨hu, hu'⟩ cause
      · rw [he]
        have hd : bindSettled (s.draw 8).2 := bindSettled_of_dev hj rfl
        exact bindDone_reports (bindSettled_bindImage hd) _ _
  · obtain ⟨hdev, hcap, hmem, hbosun⟩ := checkImage_frame (.mem c.arg.toNat) s
    rw [hv] at hdev hcap hmem hbosun
    have hvm : v.dev.mode ≠ .becalmed := by rw [show v.dev = s.dev from hdev, hm]; decide
    have hr : bindImage (.mem c.arg.toNat) s = (v, .error cause) := by rw [bindImage, hv]; rfl
    refine ⟨hdev, hcap, hmem, hbosun, _, congrArg Host.Outcome.next ((bindEnd_fresh hc ho hs hb hf).trans ?_),
      bindFailed_givenUp hvm⟩
    rw [hr]
    exact bindReports_error hvm _
  · have hr : bindImage (.mem c.arg.toNat) s = (w, .error cause) := by rw [bindImage, hv]; exact hw
    have hj : bindSettled v := bindSettled_of_mode (by
      have hdev := (checkImage_frame (.mem c.arg.toNat) s).1
      rw [hv] at hdev
      rw [show v.dev = s.dev from hdev, hm]
      decide)
    refine ⟨?_, _, congrArg Host.Outcome.next ((bindEnd_fresh hc ho hs hb hf).trans ?_), bindFailed_givenUp hn⟩
    · rcases commitImage_cases (.mem c.arg.toNat) v x hj with ⟨-, -, -, h⟩ | ⟨y, he, -⟩
      · rw [hw] at h
        exact h.resolve_left hn
      · rw [hw] at he
        cases he
    · rw [hr]
      exact bindReports_error hn _
  · have hr : bindImage (.mem c.arg.toNat) s = (w, .ok ()) := by rw [bindImage, hv]; exact hw
    have hj : bindSettled v := bindSettled_of_mode (by
      have hdev := (checkImage_frame (.mem c.arg.toNat) s).1
      rw [hv] at hdev
      rw [show v.dev = s.dev from hdev, hm]
      decide)
    refine ⟨w.bindIdle.finishCmd 1 0, congrArg Host.Outcome.next ((bindEnd_fresh hc ho hs hb hf).trans ?_), rfl,
      finishCmd_deckRegs w.bindIdle 1 0, finishCmd_stat _ 1 0, raised_finishCmd w.bindIdle 1 0, ?_⟩
    · rw [hr]
      exact bindReports_ok hn _
    · rcases commitImage_cases (.mem c.arg.toNat) v x hj with ⟨c, h, -⟩ | ⟨y, he, -, hpend, hbells, hforce⟩
      · rw [hw] at h
        cases h
      · rw [hw] at he
        obtain ⟨rfl, -⟩ := Prod.mk.inj he
        obtain ⟨hdev, ⟨kpend, kforce, kreg⟩, kbells, hrun, hpc, hreg, hcrew, hstores, hret, hcyc, hfifo, hkept⟩ :=
          finishBind_spec y x
        have hregion : ∀ a ∈ regionAddrs, (y.finishBind x).force a = (y.finishBind x).reg a := fun a ha => by
          rw [kreg a (regionReg_of_mem ha), ← hforce a ha, force, kforce]
          rfl
        refine ⟨congrArg Device.image hdev, hrun, hpc, hreg, hcrew, hstores, hret, hcyc, fun n => ?_, kpend.trans hpend,
          fun n hlt => ?_, hfifo, hkept⟩
        · change Store.get 0 (y.finishBind x).cap.bells n = 0
          rw [kbells, hbells]
          rfl
        · obtain ⟨h1, h2, h3⟩ := mem_regionAddrs hlt
          change regionForce (y.finishBind x) n = regionStaged (y.finishBind x) n
          rw [regionForce, regionStaged, hregion _ h1, hregion _ h2, hregion _ h3]

end Sys2Proof
end

section
/-! PROOFS. What a field of a CSR reads as beside another, and what a set of CSR writes leaves (00 R16–R22). -/

namespace Sys2Proof.Machine

/-! ### Fields -/

/-- A field of two bits is its two bits. -/
theorem fld_pair {n : Nat} (v : BitVec n) (lo : Nat) : fld v lo 2 = fld v lo 1 + 2 * fld v (lo + 1) 1 := by
  unfold fld
  rw [Nat.pow_succ 2 lo, ← Nat.div_div_eq_div_mul]
  omega

/-- A field of one bit is that bit. -/
theorem fld_bit {n : Nat} (v : BitVec n) (i : Nat) : fld v i 1 = b2n (bit v i) := by
  have h : bit v i = decide (v.toNat / 2 ^ i % 2 = 1) := Nat.testBit_eq_decide_div_mod_eq
  have hlt : v.toNat / 2 ^ i % 2 < 2 := Nat.mod_lt _ (by decide)
  rw [h, fld, Nat.pow_one]
  by_cases hx : v.toNat / 2 ^ i % 2 = 1
  · rw [hx]; rfl
  · rw [decide_eq_false hx, b2n, if_neg nofun]
    omega

/-- A field is its bits. -/
theorem fld_congr {n : Nat} {v v' : BitVec n} {lo w : Nat} (h : ∀ i, i < w → fld v (lo + i) 1 = fld v' (lo + i) 1) :
    fld v lo w = fld v' lo w := by
  refine Nat.eq_of_testBit_eq fun i => ?_
  rw [testBit_fld, testBit_fld]
  by_cases hi : i < w
  · have hb := h i hi
    have hv := testBit_fld v (lo + i) 1 0
    have hv' := testBit_fld v' (lo + i) 1 0
    rw [hb, hv'] at hv
    simpa [hi] using hv.symm
  · simp [hi]

/-- A write stores its bits in a run of one-bit RW fields. -/
theorem fld_storeFields_bits {n : Nat} {fs : List Field} (old new : BitVec n) (hn : ∀ f ∈ fs, f.lo + f.w ≤ n)
    (hd : fs.Pairwise fun f g => f.lo + f.w ≤ g.lo ∨ g.lo + g.w ≤ f.lo) {lo w : Nat}
    (h : ∀ i, i < w → ∃ f ∈ fs, f = fRw (lo + i) 1 f.reset) : fld (storeFields fs old new) lo w = fld new lo w := by
  refine fld_congr fun i hi => ?_
  obtain ⟨f, hf, he⟩ := h i hi
  rw [he] at hf
  exact fld_storeFields_mem old new hn hd hf

end Sys2Proof.Machine

namespace Sys2Proof.Machine.NSet

theorem mem_insert {l : List Nat} {m n : Nat} : m ∈ insert l n ↔ m = n ∨ m ∈ l := by
  induction l with
  | nil => simp [insert]
  | cons j l ih =>
    unfold insert
    split
    · rw [List.mem_cons, ih, List.mem_cons, or_left_comm]
    · split
      · next h => rw [h, List.mem_cons, ← or_assoc, or_self]
      · rw [List.mem_cons]

theorem mem_erase {l : List Nat} {m n : Nat} : m ∈ erase l n ↔ m ∈ l ∧ m ≠ n := by
  simp [erase]

theorem insert_ne_nil (l : List Nat) (n : Nat) : insert l n ≠ [] :=
  List.ne_nil_of_mem (mem_insert.2 (.inl rfl))

end Sys2Proof.Machine.NSet

namespace Sys2Proof.Machine.State

open Sys2Proof.Spec

/-! ### Reads after a field is set -/

@[simp] theorem reg_setRf_self (s : State) (a lo w x : Nat) : (s.setRf a lo w x).reg a = putFld (s.reg a) lo w x :=
  reg_setReg_self s a _

theorem bumpBy_frame (s : State) (a lo w k : Nat) : s.bumpBy a lo w k = { s with regs := (s.bumpBy a lo w k).regs } := rfl
theorem bump_frame (s : State) (a lo w : Nat) : s.bump a lo w = { s with regs := (s.bump a lo w).regs } := rfl
theorem reg_bump_self (s : State) (a lo w : Nat) :
    (s.bump a lo w).reg a = putFld (s.reg a) lo w (min (s.rf a lo w + 1) (2 ^ w - 1)) := reg_setRf_self s a lo w _

theorem rf_of_reg_eq {s t : State} {a : Nat} (h : t.reg a = s.reg a) (lo w : Nat) : t.rf a lo w = s.rf a lo w := by
  rw [rf, h]; rfl
theorem rbit_of_reg_eq {s t : State} {a : Nat} (h : t.reg a = s.reg a) (i : Nat) : t.rbit a i = s.rbit a i := by
  rw [rbit, rf_of_reg_eq h]; rfl

theorem rf_pair (s : State) (a lo : Nat) : s.rf a lo 2 = s.rf a lo 1 + 2 * s.rf a (lo + 1) 1 := fld_pair _ _
theorem rf_bit (s : State) (a i : Nat) : s.rf a i 1 = b2n (s.rbit a i) := by
  have h : s.rf a i 1 < 2 := fld_lt _ _ _
  unfold rbit b2n
  split
  · next hx => simpa using hx
  · next hx =>
    have hx : s.rf a i 1 ≠ 1 := by simpa using hx
    omega

theorem rbit_setRf_self (s : State) {a i : Nat} (x : Bool) (h : i < 32) : (s.setRf a i 1 (b2n x)).rbit a i = x := by
  rw [rbit, rf_setRf_self _ _ _ _ _ h]
  cases x <;> rfl
theorem rbit_setRf_one (s : State) {a i : Nat} (h : i < 32) : (s.setRf a i 1 1).rbit a i = true := by
  rw [rbit, rf_setRf_self _ _ _ _ _ h]
  rfl
theorem rbit_setRf_zero (s : State) {a i : Nat} (h : i < 32) : (s.setRf a i 1 0).rbit a i = false := by
  rw [rbit, rf_setRf_self _ _ _ _ _ h]
  rfl
theorem rbit_setRf_ne (s : State) {a lo w : Nat} (x : Nat) {i : Nat} (h : i + 1 ≤ lo ∨ lo + w ≤ i) :
    (s.setRf a lo w x).rbit a i = s.rbit a i := by
  rw [rbit, rf_setRf_ne _ _ _ _ _ _ _ h]; rfl

/-! ### Registers kept -/

theorem csrKept_refl (s : State) (l : List Nat) : csrKept s s l := fun _ _ => rfl

theorem csrKept_trans {s t u : State} {l : List Nat} (h : csrKept s t l) (k : csrKept t u l) : csrKept s u l :=
  fun a ha => (k a ha).trans (h a ha)

theorem csrKept_mono {s t : State} {l m : List Nat} (h : csrKept s t l) (hlm : ∀ a ∈ l, a ∈ m) : csrKept s t m :=
  fun a ha => h a fun hl => ha (hlm a hl)

/-- A register of the list may be written again. -/
theorem csrKept_setReg {s t : State} {l : List Nat} (h : csrKept s t l) {a : Nat} (ha : a ∈ l) (v : Word) :
    csrKept s (t.setReg a v) l := fun b hb =>
  (reg_setReg_ne t v (ne_of_mem_of_not_mem ha hb).symm).trans (h b hb)

theorem csrKept_setRf {s t : State} {l : List Nat} (h : csrKept s t l) {a : Nat} (ha : a ∈ l) (lo w x : Nat) :
    csrKept s (t.setRf a lo w x) l := csrKept_setReg h ha _

/-- One field of one register. -/
theorem csrKept_setRf_one (s : State) (a lo w x : Nat) : csrKept s (s.setRf a lo w x) [a] :=
  csrKept_setRf (csrKept_refl s _) (List.mem_singleton_self a) lo w x

end Sys2Proof.Machine.State
end

section
/-! PROOFS. Commits as they are written, and as they pass their limits (04 R187, R189; 06 R260, R262; 07 R320; 15 R658;
17 R727, R729, R734; 18 R768, R769, R772; log 23). -/

namespace Sys2Proof.Machine.State

open Sys2Proof.Spec

/-! ### A control register written with COMMIT -/

/-- The control register as written, and PEND set. -/
def committing (s : State) (ctrl : Nat) (fields : List Field) (v : Word) (stat bit : Nat) : State :=
  (s.setReg ctrl (storeFields fields (s.reg ctrl) v)).setRf stat bit 1 1

theorem pends_committing (s : State) {ctrl stat : Nat} (hne : ctrl ≠ stat) (fields : List Field) (v : Word) (bit : Nat) :
    pends s (s.committing ctrl fields v stat bit) ctrl fields v stat bit := by
  refine ⟨csrKept_setRf (csrKept_setReg (csrKept_refl s _) (by simp) _) (by simp) _ _ _, ?_, ?_⟩
  · exact (reg_setRf_ne _ _ _ _ hne).trans (reg_setReg_self s ctrl _)
  · rw [committing, reg_setRf_self, reg_setReg_ne _ _ hne.symm]

/-- The control bits below `w` read as written. -/
theorem rf_committing (s : State) {ctrl stat : Nat} (hne : ctrl ≠ stat) {fields : List Field} (v : Word) (bit : Nat)
    (hn : ∀ f ∈ fields, f.lo + f.w ≤ 32) (hd : fields.Pairwise fun f g => f.lo + f.w ≤ g.lo ∨ g.lo + g.w ≤ f.lo) {w : Nat}
    (h : ∀ i, i < w → ∃ f ∈ fields, f = fRw (0 + i) 1 f.reset) : (s.committing ctrl fields v stat bit).rf ctrl 0 w = fld v 0 w := by
  rw [rf, (pends_committing s hne fields v bit).2.1]
  exact fld_storeFields_bits _ _ hn hd h

theorem trCommit_pends (s : State) {v : Word} (h : bit v 31 = true) :
    exec (.trCommit v) s = .next (s.committing TR_CTRL (trFields 0) v TR_STAT 4) := by
  change Host.Outcome.next (if bit v 31 then s.writeTrCtrl v else s) = _
  rw [if_pos h]
  exact congrArg Host.Outcome.next (if_pos h)

theorem lkCommit_pends (s : State) {v : Word} (h : bit v 31 = true) :
    exec (.lkCommit v) s = .next (s.committing LK_CTRL (lkFields 0) v LK_STAT 0) := by
  change Host.Outcome.next (if bit v 31 then s.writeLkCtrl v else s) = _
  rw [if_pos h]
  exact congrArg Host.Outcome.next (if_pos h)

/-- NOW marks the commit besides (18 R769). -/
theorem auCommit_pends (s : State) {v : Word} (h : bit v 31 = true) :
    exec (.auCommit v) s = .next { s.committing AU_CTRL (auFields 0) v AU_STAT 0 with
      audio := { s.audio with now := bit v 30 || s.audio.now } } := by
  change Host.Outcome.next (if bit v 31 then s.writeAuCtrl v else s) = _
  rw [if_pos h, writeAuCtrl]
  dsimp only
  rw [if_pos h]
  cases bit v 30 <;> rfl

/-- With EN written as 1 no frame ends (17 R734). -/
theorem csiCommit_pends {s : State} (hp : s.part.iob = true) (hc : s.capRuns = true) {v : Word} (h : bit v 31 = true)
    (he : bit v 0 = true) : exec (.csiCommit v) s = .next (s.committing CSI_CTRL (csiFields 0) v CSI_STAT 0) := by
  change Host.Outcome.next (if s.part.iob && s.capRuns && bit v 31 then s.writeCsiCtrl v else s) = _
  rw [hp, hc, h, Bool.and_self, Bool.and_self, if_pos rfl, writeCsiCtrl]
  rw [if_pos h, if_pos he]
  rfl

/-- A region entry joins the pending ones. -/
theorem rgCommit_pends (s : State) {n : Nat} (h : n < 64) :
    ∃ t, exec (.rgCommit n) s = .next t ∧ t = { s with regs := t.regs, rgPend := t.rgPend } ∧
      csrKept s t [RG_STAT] ∧ t.reg RG_STAT = putFld (s.reg RG_STAT) 0 1 1 ∧ ∀ m, m ∈ t.rgPend ↔ m = n ∨ m ∈ s.rgPend := by
  have hp : b2n (!(NSet.insert s.rgPend n).isEmpty) = 1 := by
    rw [List.isEmpty_eq_false_iff.2 (NSet.insert_ne_nil _ _)]
    rfl
  refine ⟨({ s with rgPend := NSet.insert s.rgPend n } : State).syncPend, congrArg Host.Outcome.next (if_pos h), rfl,
    csrKept_setRf_one { s with rgPend := NSet.insert s.rgPend n } RG_STAT 0 1 _, ?_, fun m => NSet.mem_insert⟩
  rw [syncPend, reg_setRf_self, hp]
  rfl

/-! ### A commit past its limit -/

/-- STALE set and raised. -/
def staled (s : State) (stat bit : Nat) : State := (s.setRf stat bit 1 1).raise irqSTALE

/-- Bosun's STALE source latched. -/
def latchStale (s : State) : State := { s with bosun := { s.bosun with latStale := true } }

theorem stales_staled (s : State) (stat bit : Nat) : stales s (s.staled stat bit) stat bit false := by
  refine ⟨?_, csrKept_setRf_one s stat bit 1 1, reg_setRf_self s stat bit 1 1, deckRegs_raise (s.setRf stat bit 1 1) _,
    raised_raise (s.setRf stat bit 1 1) (by decide)⟩
  rw [Bool.or_false]
  rfl

theorem stales_latched (s : State) (stat bit : Nat) : stales s (s.staled stat bit).latchStale stat bit true := by
  refine ⟨?_, csrKept_setRf_one s stat bit 1 1, reg_setRf_self s stat bit 1 1, deckRegs_raise (s.setRf stat bit 1 1) _,
    raised_raise (s.setRf stat bit 1 1) (by decide)⟩
  rw [Bool.or_true]
  rfl

theorem trStale_eq (s : State) : s.trStale = if s.rbit TR_STAT 4 then (s.staled TR_STAT 5).latchStale else s := rfl
theorem lkStale_eq (s : State) : s.lkStale = if s.rbit LK_STAT 0 then s.staled LK_STAT 1 else s := rfl
theorem csiStale_eq (s : State) : s.csiStale = if s.rbit CSI_STAT 0 then s.staled CSI_STAT 1 else s := rfl
theorem auStale_eq (s : State) : s.auStale = if s.rbit AU_STAT 0 then s.staled AU_STAT 1 else s := rfl

/-- STALE set for a region entry, and its number given. -/
def rgMarked (s : State) (n : Nat) : State := (s.setRf RG_STAT 1 1 1).setRf RG_STAT 16 6 n

theorem rgMarked_stat (s : State) (n : Nat) :
    csrKept s (s.rgMarked n) [RG_STAT] ∧ (s.rgMarked n).reg RG_STAT = putFld (putFld (s.reg RG_STAT) 1 1 1) 16 6 n := by
  refine ⟨csrKept_setRf (csrKept_setRf_one s RG_STAT 1 1 1) (List.mem_singleton_self RG_STAT) 16 6 n, ?_⟩
  rw [rgMarked, reg_setRf_self, reg_setRf_self]

theorem rgStale_eq (s : State) (n : Nat) :
    rgStale n s = if s.rgPend.contains n then ((s.rgMarked n).raise irqSTALE).latchStale else s := rfl

theorem rgStale_marks {s : State} {n : Nat} (h : n ∈ s.rgPend) :
    ∃ t, exec (.rgCommitStale n) s = .next t ∧
      t = { s with regs := t.regs, deck := t.deck, bosun := { s.bosun with latStale := true } } ∧
      csrKept s t [RG_STAT] ∧ t.reg RG_STAT = putFld (putFld (s.reg RG_STAT) 1 1 1) 16 6 n ∧
      deckRegs s t [DK_IRQ_RAW] ∧ raised s t [irqSTALE] := by
  have he := (rgStale_eq s n).trans (if_pos (List.contains_iff_mem.2 h))
  obtain ⟨hk, hr⟩ := rgMarked_stat s n
  have hf : s.rgMarked n = { s with regs := (s.rgMarked n).regs } := rfl
  generalize s.rgMarked n = u at *
  have hdeck : u.deck = s.deck := by rw [hf]
  refine ⟨_, congrArg Host.Outcome.next he, ?_, hk, hr, ?_, ?_⟩
  · exact congrArg (fun x : State => { x with deck := (u.raise irqSTALE).deck, bosun := { x.bosun with latStale := true } }) hf
  · exact deckRegs_trans (deckRegs_of_deck_eq hdeck) (deckRegs_raise u irqSTALE)
  · exact raised_congr (raised_raise u (by decide)) (dk_of_deck_eq hdeck _).symm rfl

/-- The drain's marks: STALE twice over, and its lowest holder (07 R320). -/
def drainMarked (s : State) (n : Nat) : State :=
  ((s.setRf CAP_EPOCH 10 1 1).setRf CAP_EPOCH 16 14 n).setRf CAP_EPOCH 30 1 1

theorem csrKept_drainMarked (s : State) (n : Nat) : csrKept s (s.drainMarked n) [CAP_EPOCH] :=
  have hmem : CAP_EPOCH ∈ [CAP_EPOCH] := List.mem_singleton_self CAP_EPOCH
  csrKept_setRf (csrKept_setRf (csrKept_setRf_one s _ 10 1 1) hmem _ _ _) hmem _ _ _

theorem drainMarked_epoch (s : State) {n : Nat} (hn : n < 16384) :
    (s.drainMarked n).rbit CAP_EPOCH 10 = true ∧ (s.drainMarked n).rbit CAP_EPOCH 30 = true ∧
    (s.drainMarked n).rf CAP_EPOCH 16 14 = n ∧ (s.drainMarked n).rf CAP_EPOCH 0 10 = s.rf CAP_EPOCH 0 10 := by
  unfold drainMarked
  refine ⟨?_, rbit_setRf_one _ (by decide), ?_, ?_⟩
  · rw [rbit_setRf_ne _ _ (by decide), rbit_setRf_ne _ _ (by decide), rbit_setRf_one s (by decide)]
  · rw [rf_setRf_ne _ _ _ _ _ _ _ (by decide), rf_setRf_self _ _ _ _ _ (by decide)]
    exact Nat.mod_eq_of_lt (by omega)
  · rw [rf_setRf_ne _ _ _ _ _ _ _ (by decide), rf_setRf_ne _ _ _ _ _ _ _ (by decide),
      rf_setRf_ne _ _ _ _ _ _ _ (by decide)]

theorem drainStale_eq {s : State} {n : Nat} {l : List Nat} (hd : s.draining = true) (hl : s.holders = n :: l) :
    s.drainStale = (s.drainMarked n).latchStale := by
  rw [drainStale, hd, hl]
  rfl

theorem drainStale_idle {s : State} (hd : s.draining = false) : s.drainStale = s := by
  rw [drainStale, hd]

end Sys2Proof.Machine.State

namespace Sys2Proof

open Machine Machine.State Spec

/-- Settles O21: each write is its register's fields stored and PEND set. -/
theorem commitsOnlySetPend : Obligations.CommitsOnlySetPend := by
  intro s v hv
  refine ⟨⟨_, trCommit_pends s hv, rfl, pends_committing s (by decide) _ v 4, ?_⟩,
    ⟨_, lkCommit_pends s hv, rfl, pends_committing s (by decide) _ v 0, ?_⟩,
    ⟨_, auCommit_pends s hv, rfl, pends_committing s (by decide) _ v 0, ?_, rfl⟩, fun hp hc he => ?_,
    fun n hn => rgCommit_pends s hn⟩
  · exact rf_committing s (by decide) v 4 (by decide) (by decide) (by decide)
  · exact rf_committing s (by decide) v 0 (by decide) (by decide) (by decide)
  · exact rf_committing s (by decide) v 0 (by decide) (by decide) (by decide)
  · refine ⟨_, csiCommit_pends hp hc hv he, rfl, pends_committing s (by decide) _ v 0, ?_⟩
    rw [rbit, rf_committing s (by decide) v 0 (by decide) (by decide) (w := 1) (by decide), fld_bit, he]
    rfl

/-- Settles O22: what is pending is marked and stays. -/
theorem staleMarksAPendingCommit : Obligations.StaleMarksAPendingCommit := by
  intro s
  have idle {b : Bool} {u t : State} (he : u = if b then t else s) (h : b = false) : (.next u : Out) = .next s := by
    rw [he, h, if_neg nofun]
  refine ⟨fun h => ⟨_, congrArg Host.Outcome.next ((trStale_eq s).trans (if_pos h)), stales_latched s TR_STAT 5⟩,
    fun h => ⟨_, congrArg Host.Outcome.next ((lkStale_eq s).trans (if_pos h)), stales_staled s LK_STAT 1⟩,
    fun h => ⟨_, congrArg Host.Outcome.next ((csiStale_eq s).trans (if_pos h)), stales_staled s CSI_STAT 1⟩,
    fun h => ⟨_, congrArg Host.Outcome.next ((auStale_eq s).trans (if_pos h)), stales_staled s AU_STAT 1⟩,
    fun n _ h => rgStale_marks h,
    fun n l hd hl hn => ⟨_, congrArg Host.Outcome.next (drainStale_eq hd hl), rfl, csrKept_drainMarked s n,
      drainMarked_epoch s hn⟩,
    idle (trStale_eq s), idle (lkStale_eq s), idle (csiStale_eq s), idle (auStale_eq s),
    fun n hn => idle (rgStale_eq s n) ?_, fun hd => congrArg Host.Outcome.next (drainStale_idle hd)⟩
  exact Bool.eq_false_iff.2 fun h => hn (List.contains_iff_mem.1 h)

end Sys2Proof
end

section
/-! PROOFS. VTRIM: evaluations, steps and replays of the islands (04 R172–R179; log 56, log 58). -/

namespace Sys2Proof.Machine.State

open Sys2Proof.Spec

/-! ### Islands -/

@[simp] theorem island_setIsland_self (s : State) (i : Nat) (x : Island) : (s.setIsland i x).island i = x :=
  Store.get_set_self _ _ _ _
theorem island_setIsland_ne (s : State) {i j : Nat} (x : Island) (h : j ≠ i) : (s.setIsland i x).island j = s.island j :=
  Store.get_set_ne _ _ _ h

theorem islCode_lt (s : State) (i : Nat) : s.islCode i < 64 := fld_lt _ _ _
theorem minCode_lt (s : State) : s.minCode < 64 := fld_lt _ _ _
theorem islCode_setRf (s : State) {i lo : Nat} (w x : Nat) (h : 6 ≤ lo) :
    (s.setRf (TR_ISL i) lo w x).islCode i = s.islCode i := rf_setRf_ne _ _ _ _ _ _ _ (by omega)
theorem TR_ISL_injective : Function.Injective TR_ISL := fun i j h => by
  unfold TR_ISL at h
  omega

/-- The die runs in HOVE_TO and UNDERWAY, where BECALMED can be entered. -/
theorem canBecalm_of_capRuns {s : State} (h : s.capRuns = true) : canBecalm s := by
  have hm : s.dev.mode = .hoveTo ∨ s.dev.mode = .underway := of_decide_eq_true (Bool.and_eq_true_iff.1 h).1
  rcases hm with hm | hm <;> exact ⟨by rw [hm]; decide, by rw [hm]; decide⟩

/-! ### A step up is requested -/

theorem upReq_frame (s : State) (i : Nat) : s.upReq i = { s with regs := (s.upReq i).regs } := by
  unfold upReq
  split <;> rfl

theorem csrKept_upReq (s : State) (i : Nat) : csrKept s (s.upReq i) [TR_ISL i] := by
  unfold upReq
  split
  · exact csrKept_setRf (csrKept_setRf_one s _ 8 1 1) (List.mem_singleton_self _) 9 1 0
  · exact csrKept_refl s _

theorem reg_upReq (s : State) (i : Nat) : (s.upReq i).reg (TR_ISL i) =
    if s.vtEn && decide (s.islCode i < 40) then putFld (putFld (s.reg (TR_ISL i)) 8 1 1) 9 1 0 else s.reg (TR_ISL i) := by
  unfold upReq
  split
  · rw [reg_setRf_self, reg_setRf_self]
  · rfl

/-- The request withdraws a step down (04 R173). -/
theorem rf_upReq (s : State) {i : Nat} (h : s.islCode i < 40) :
    (s.upReq i).rf (TR_ISL i) 8 2 = if s.vtEn then 1 else s.rf (TR_ISL i) 8 2 := by
  rw [rf, reg_upReq, decide_eq_true h, Bool.and_true]
  split
  · rw [fld_pair, fld_putFld_self _ _ _ _ (by decide), fld_putFld_ne _ _ _ _ _ _ (by decide),
      fld_putFld_self _ _ _ _ (by decide)]
    rfl
  · rfl

/-! ### Evaluations -/

/-- What every evaluation of islands 0 to 7 notes: LAST, and its counts (04 R172, R180). -/
def assessed (s : State) (i last streak : Nat) : State :=
  (s.setRf (TR_ISL i) 10 2 last).setIsland i
    { streak := streak, low := if s.islCode i ≤ 30 then min ((s.island i).low + 1) 1024 else 0
      since := min ((s.island i).since + 1) 16384 }

theorem evaluated_assessed (s : State) (i : Nat) {last : Nat} (hl : last < 4) (streak : Nat) :
    evaluated s (s.assessed i last streak) i last streak := by
  refine ⟨rfl, csrKept_setRf_one s _ 10 2 last, ?_, islCode_setRf s 2 last (by decide),
    fun j hj => island_setIsland_ne _ _ hj, island_setIsland_self _ _ _⟩
  exact (rf_setRf_self s _ 10 2 last (by decide)).trans (Nat.mod_eq_of_lt hl)

theorem rf_assessed (s : State) (i last streak : Nat) : (s.assessed i last streak).rf (TR_ISL i) 8 2 = s.rf (TR_ISL i) 8 2 :=
  rf_setRf_ne s _ _ _ _ _ _ (by decide)

/-- A request set or withdrawn beside an evaluation. -/
theorem evaluated_request {s t u : State} {i last streak : Nat} (h : evaluated s t i last streak)
    (hf : u = { t with regs := u.regs }) (hk : csrKept t u [TR_ISL i]) (hlast : u.rf (TR_ISL i) 10 2 = t.rf (TR_ISL i) 10 2)
    (hcode : u.islCode i = t.islCode i) : evaluated s u i last streak := by
  obtain ⟨ht, htk, htl, htc, hother, hself⟩ := h
  have htrim : u.trim = t.trim := by rw [hf]
  have hisl : ∀ j, u.island j = t.island j := fun j => congrArg (fun x : Trim => Store.get ({} : Island) x.islands j) htrim
  refine ⟨?_, csrKept_trans htk hk, hlast.trans htl, hcode.trans htc, fun j hj => (hisl j).trans (hother j hj),
    (hisl i).trans hself⟩
  rw [ht] at hf
  rw [htrim, hf]

theorem evaluated_upReq {s t : State} {i last streak : Nat} (h : evaluated s t i last streak) :
    evaluated s (t.upReq i) i last streak := by
  refine evaluated_request h (upReq_frame t i) (csrKept_upReq t i) ?_ ?_
  all_goals
    unfold upReq
    split
    · exact (rf_setRf_ne _ _ _ _ _ _ _ (by decide)).trans (rf_setRf_ne _ _ _ _ _ _ _ (by decide))
    · rfl

/-- FTRIM must step slower (04 R176). -/
def slowed (s : State) : State := { s with trim := { s.trim with slow := true } }

theorem evaluated_slowed {s t : State} {i last streak : Nat} (h : evaluated s t i last streak) :
    evaluated s t.slowed i last streak := by
  obtain ⟨ht, hrest⟩ := h
  refine ⟨?_, hrest⟩
  exact congrArg slowed ht

/-- An evaluation with margin counts towards a step down while one can be requested (log 56). -/
theorem vtrimEval_margin {s : State} {i : Nat} (hc : s.capRuns = true) (hi : i < 8) :
    s.vtrimEval i true true =
      if s.vtEn && decide (s.minCode < s.islCode i) && !s.rbit (TR_ISL i) 8 && !s.rbit (TR_ISL i) 9 then
        if 31 ≤ (s.island i).streak then (s.assessed i 1 0).setRf (TR_ISL i) 9 1 1
        else s.assessed i 1 ((s.island i).streak + 1)
      else s.assessed i 1 0 := by
  have hcode := islCode_setRf s (i := i) (lo := 10) 2 1 (by decide)
  have hbits : ∀ k, k < 10 → (s.setRf (TR_ISL i) 10 2 1).rbit (TR_ISL i) k = s.rbit (TR_ISL i) k :=
    fun k hk => rbit_setRf_ne s 1 (.inl hk)
  have hten : ¬ 10 ≤ i := by omega
  unfold vtrimEval assessed
  simp only [trimRuns, hc, hten, decide_false, Bool.not_true, Bool.or_false, Bool.false_eq_true, if_false, if_true,
    show ¬ 8 ≤ i by omega, hcode, hbits 8 (by decide), hbits 9 (by decide), Bool.and_self]
  rfl

/-- One without margin starts the count again. -/
theorem vtrimEval_pass {s : State} {i : Nat} (hc : s.capRuns = true) (hi : i < 8) :
    s.vtrimEval i true false = s.assessed i 2 0 := by
  have hcode := islCode_setRf s (i := i) (lo := 10) 2 2 (by decide)
  have hten : ¬ 10 ≤ i := by omega
  unfold vtrimEval assessed
  simp only [trimRuns, hc, hten, decide_false, Bool.not_true, Bool.or_false, Bool.false_eq_true, if_false, if_true,
    show ¬ 8 ≤ i by omega, hcode, Bool.and_false]
  rfl

/-- A failing one asks for more: of the island, of FTRIM, or of nobody (04 R173, R176). -/
theorem vtrimEval_fail {s : State} {i : Nat} (hc : s.capRuns = true) (hi : i < 8) (margin : Bool) :
    s.vtrimEval i false margin =
      let u := s.assessed i 3 0
      if s.islCode i < 40 then u.upReq i
      else if s.ftEn && decide (s.trim.step < s.ftFloor) then u.slowed
      else u.becalm 0x29 false (Word.nat i) := by
  have hcode := islCode_setRf s (i := i) (lo := 10) 2 3 (by decide)
  have hten : ¬ 10 ≤ i := by omega
  unfold vtrimEval assessed
  simp only [trimRuns, hc, hten, decide_false, Bool.not_true, Bool.not_false, Bool.or_false, Bool.false_eq_true, if_false,
    if_true, show ¬ 8 ≤ i by omega, hcode, Bool.false_and]
  rfl

/-- Islands 8 and 9 have no code to move (04 R176). -/
theorem vtrimEval_fixed {s : State} {i : Nat} (hc : s.capRuns = true) (hi : i = 8 ∨ i = 9) (pass margin : Bool) :
    s.vtrimEval i pass margin =
      let u := s.setRf (TR_ISL i) 10 2 (if !pass then 3 else if margin then 1 else 2)
      if pass then u else u.becalm 0x29 false (Word.nat i) := by
  unfold vtrimEval
  simp only [trimRuns, hc, show ¬ 10 ≤ i by omega, decide_false, Bool.not_true, Bool.or_false, Bool.false_eq_true, if_false,
    show 8 ≤ i by omega, if_true]

/-- No request waits. -/
theorem noRequest_iff (s : State) (i : Nat) :
    (!s.rbit (TR_ISL i) 8 && !s.rbit (TR_ISL i) 9) = decide (s.rf (TR_ISL i) 8 2 = 0) := by
  rw [rf_pair, rf_bit, rf_bit]
  cases s.rbit (TR_ISL i) 8 <;> cases s.rbit (TR_ISL i) 9 <;> rfl

theorem vtrimEval_counts {s : State} {i : Nat} (hc : s.capRuns = true) (hi : i < 8) (hv : s.vtEn = true)
    (hm : s.minCode < s.islCode i) (hr : s.rf (TR_ISL i) 8 2 = 0) :
    ∃ t, exec (.vtrimEval i true true) s = .next t ∧
      evaluated s t i 1 (if 31 ≤ (s.island i).streak then 0 else (s.island i).streak + 1) ∧
      t.rf (TR_ISL i) 8 2 = (if 31 ≤ (s.island i).streak then 2 else 0) ∧ t.trim.slow = s.trim.slow := by
  have he := vtrimEval_margin hc hi
  rw [Bool.and_assoc _ (!_) (!_), noRequest_iff, hv, decide_eq_true hm, decide_eq_true hr, Bool.and_self, Bool.and_self,
    if_pos rfl] at he
  refine ⟨_, congrArg Host.Outcome.next he, ?_⟩
  split
  · have h := evaluated_assessed s i (last := 1) (by decide) 0
    refine ⟨evaluated_request h rfl (csrKept_setRf_one _ _ 9 1 1) (rf_setRf_ne _ _ _ _ _ _ _ (by decide))
      (islCode_setRf _ 1 1 (by decide)), ?_, rfl⟩
    have h8 : (s.assessed i 1 0).rf (TR_ISL i) 8 1 = 0 := by
      have := rf_assessed s i 1 0
      rw [hr, rf_pair] at this
      omega
    rw [rf_pair, rf_setRf_self _ _ _ _ _ (by decide), rf_setRf_ne _ _ _ _ _ _ _ (by decide), h8]
    rfl
  · exact ⟨evaluated_assessed s i (by decide) _, (rf_assessed s i 1 _).trans hr, rfl⟩

theorem vtrimEval_restarts {s : State} {i : Nat} (hc : s.capRuns = true) (hi : i < 8)
    (h : s.vtEn = false ∨ s.islCode i ≤ s.minCode ∨ s.rf (TR_ISL i) 8 2 ≠ 0) :
    s.vtrimEval i true true = s.assessed i 1 0 := by
  rw [vtrimEval_margin hc hi, Bool.and_assoc _ (!_) (!_), noRequest_iff]
  refine if_neg ?_
  rw [Bool.and_eq_true, Bool.and_eq_true, decide_eq_true_eq, decide_eq_true_eq]
  rintro ⟨⟨hv, hm⟩, hr⟩
  rcases h with h | h | h
  · rw [h] at hv
    cases hv
  · omega
  · exact h hr

theorem vtrimEval_fails {s : State} {i : Nat} (hc : s.capRuns = true) (hi : i < 8) (margin : Bool) :
    (s.islCode i < 40 →
      ∃ t, exec (.vtrimEval i false margin) s = .next t ∧ evaluated s t i 3 0 ∧ t.trim.slow = s.trim.slow ∧
        t.rf (TR_ISL i) 8 2 = (if s.vtEn then 1 else s.rf (TR_ISL i) 8 2)) ∧
    (40 ≤ s.islCode i → s.ftEn = true → s.trim.step < s.ftFloor →
      ∃ t, exec (.vtrimEval i false margin) s = .next t ∧ evaluated s t i 3 0 ∧ t.trim.slow = true ∧
        t.rf (TR_ISL i) 8 2 = s.rf (TR_ISL i) 8 2 ∧ t.slowDue = true) ∧
    (40 ≤ s.islCode i → s.ftEn = false ∨ s.ftFloor ≤ s.trim.step →
      ∃ u t, exec (.vtrimEval i false margin) s = .next t ∧ evaluated s u i 3 0 ∧
        u.rf (TR_ISL i) 8 2 = s.rf (TR_ISL i) 8 2 ∧ u.trim.slow = s.trim.slow ∧
        becalmedBy u t 0x29 (Word.nat i)) := by
  have he := vtrimEval_fail hc hi margin
  have hu := evaluated_assessed s i (last := 3) (by decide) 0
  have hreq := rf_assessed s i 3 0
  have hcode : (s.assessed i 3 0).islCode i = s.islCode i := hu.2.2.2.1
  have hvt : (s.assessed i 3 0).vtEn = s.vtEn := rfl
  have hslow : (s.assessed i 3 0).trim.slow = s.trim.slow := rfl
  have hruns : canBecalm (s.assessed i 3 0) := canBecalm_of_capRuns hc
  dsimp only at he
  generalize s.assessed i 3 0 = u at *
  refine ⟨fun h => ⟨_, congrArg Host.Outcome.next (he.trans (if_pos h)), evaluated_upReq hu, ?_, ?_⟩,
    fun h hf hs => ⟨_, congrArg Host.Outcome.next (he.trans ((if_neg (not_lt.2 h)).trans (if_pos ?_))),
      evaluated_slowed hu, rfl, hreq, rfl⟩,
    fun h hn => ⟨u, _, congrArg Host.Outcome.next (he.trans ((if_neg (not_lt.2 h)).trans (if_neg ?_))), hu, hreq, hslow,
      becalmedBy_becalm hruns (by decide) _ 0⟩⟩
  · rw [upReq_frame]
    exact hslow
  · rw [rf_upReq u (by rwa [hcode]), hvt, hreq]
  · rw [hf, decide_eq_true hs]
    rfl
  · rw [Bool.and_eq_true, decide_eq_true_eq]
    rintro ⟨hf, hs⟩
    rcases hn with hn | hn
    · rw [hn] at hf
      cases hf
    · omega

theorem vtrimEval_fixed_spec {s : State} {i : Nat} (hc : s.capRuns = true) (hi : i = 8 ∨ i = 9) (margin : Bool) :
    (∃ t, exec (.vtrimEval i true margin) s = .next t ∧ t = { s with regs := t.regs } ∧ csrKept s t [TR_ISL i] ∧
      t.reg (TR_ISL i) = putFld (s.reg (TR_ISL i)) 10 2 (if margin then 1 else 2)) ∧
    ∃ u t, exec (.vtrimEval i false margin) s = .next t ∧ u = { s with regs := u.regs } ∧ csrKept s u [TR_ISL i] ∧
      u.reg (TR_ISL i) = putFld (s.reg (TR_ISL i)) 10 2 3 ∧ becalmedBy u t 0x29 (Word.nat i) := by
  have hruns : canBecalm (s.setRf (TR_ISL i) 10 2 3) := canBecalm_of_capRuns hc
  exact ⟨⟨_, congrArg Host.Outcome.next (vtrimEval_fixed hc hi true margin), rfl, csrKept_setRf_one _ _ _ _ _,
      reg_setRf_self _ _ _ _ _⟩,
    ⟨_, _, congrArg Host.Outcome.next (vtrimEval_fixed hc hi false margin), rfl, csrKept_setRf_one _ _ _ _ _,
      reg_setRf_self _ _ _ _ _, becalmedBy_becalm hruns (by decide) _ 0⟩⟩

/-! ### Steps -/

theorem vtrimDown_spec {s : State} {i : Nat} (hc : s.capRuns = true) (hi : i < 8) (hr : s.rbit (TR_ISL i) 9 = true)
    (hb : s.islandBusy i = false) :
    ∃ t, exec (.vtrimStepDown i) s = .next t ∧ t = { s with regs := t.regs } ∧ csrKept s t [TR_ISL i] ∧
      t.islCode i = max s.minCode (s.islCode i - 1) ∧ t.rbit (TR_ISL i) 9 = false ∧
      t.rbit (TR_ISL i) 8 = s.rbit (TR_ISL i) 8 ∧ t.rf (TR_ISL i) 10 2 = s.rf (TR_ISL i) 10 2 := by
  refine ⟨(s.setCode i (max s.minCode (s.islCode i - 1))).setRf (TR_ISL i) 9 1 0, congrArg Host.Outcome.next (if_pos ?_),
    rfl, csrKept_setRf (csrKept_setRf_one s _ 0 6 _) (List.mem_singleton_self _) 9 1 0, ?_,
    rbit_setRf_zero _ (by decide), ?_, ?_⟩
  · rw [trimRuns, hc, decide_eq_true hi, hr, hb]
    rfl
  · have hlt : max s.minCode (s.islCode i - 1) < 2 ^ 6 :=
      max_lt (minCode_lt s) ((Nat.sub_le _ _).trans_lt (islCode_lt s i))
    rw [islCode_setRf _ _ _ (by decide)]
    exact (rf_setRf_self s _ 0 6 _ (by decide)).trans (Nat.mod_eq_of_lt hlt)
  · rw [rbit_setRf_ne _ _ (by decide), setCode, rbit_setRf_ne _ _ (by decide)]
  · rw [rf_setRf_ne _ _ _ _ _ _ _ (by decide), setCode, rf_setRf_ne _ _ _ _ _ _ _ (by decide)]

theorem vtrimUp_spec {s : State} {i : Nat} (hc : s.capRuns = true) (hi : i < 8) (hr : s.rbit (TR_ISL i) 8 = true)
    (hb : s.islandRuns i = false) :
    ∃ t, exec (.vtrimStepUp i) s = .next t ∧ t = { s with regs := t.regs } ∧ csrKept s t [TR_ISL i] ∧
      t.islCode i = min 40 (s.islCode i + 1) ∧ t.rbit (TR_ISL i) 8 = decide (min 40 (s.islCode i + 1) < s.minCode) ∧
      t.rbit (TR_ISL i) 9 = s.rbit (TR_ISL i) 9 ∧ t.rf (TR_ISL i) 10 2 = s.rf (TR_ISL i) 10 2 := by
  refine ⟨(s.setCode i (min 40 (s.islCode i + 1))).setRf (TR_ISL i) 8 1 (b2n (decide (min 40 (s.islCode i + 1) < s.minCode))),
    congrArg Host.Outcome.next (if_pos ?_), rfl,
    csrKept_setRf (csrKept_setRf_one s _ 0 6 _) (List.mem_singleton_self _) 8 1 _, ?_,
    rbit_setRf_self _ _ (by decide), ?_, ?_⟩
  · rw [trimRuns, hc, decide_eq_true hi, hr, hb]
    rfl
  · have hlt : min 40 (s.islCode i + 1) < 2 ^ 6 := (Nat.min_le_left _ _).trans_lt (by decide)
    rw [islCode_setRf _ _ _ (by decide)]
    exact (rf_setRf_self s _ 0 6 _ (by decide)).trans (Nat.mod_eq_of_lt hlt)
  · rw [rbit_setRf_ne _ _ (by decide), setCode, rbit_setRf_ne _ _ (by decide)]
  · rw [rf_setRf_ne _ _ _ _ _ _ _ (by decide), setCode, rf_setRf_ne _ _ _ _ _ _ _ (by decide)]

/-! ### Replays -/

/-- A counter of a whole register. -/
theorem toNat_bump (s : State) (a : Nat) : ((s.bump a 0 32).reg a).toNat = min ((s.reg a).toNat + 1) (2 ^ 32 - 1) := by
  have hfld : ∀ v : Word, fld v 0 32 = v.toNat := fun v => by
    have := v.isLt
    unfold fld
    omega
  have hself := fld_putFld_self (s.reg a) 0 32 (min (s.rf a 0 32 + 1) (2 ^ 32 - 1)) (by decide)
  rw [hfld, Nat.mod_eq_of_lt (by omega), rf, hfld] at hself
  rw [bump, bumpBy, reg_setRf_self, rf, hfld]
  exact hself

/-- Two counters, one after the other. -/
theorem bump_bump (s : State) {a c : Nat} (h : a ≠ c) :
    let t := (s.bump a 0 32).bump c 0 32
    t = { s with regs := t.regs } ∧ csrKept s t [a, c] ∧ (t.reg a).toNat = min ((s.reg a).toNat + 1) (2 ^ 32 - 1) ∧
    (t.reg c).toNat = min ((s.reg c).toNat + 1) (2 ^ 32 - 1) := by
  refine ⟨rfl, fun b hb => ?_, ?_, ?_⟩
  · simp only [List.mem_cons, List.not_mem_nil, or_false, not_or] at hb
    rw [reg_bump_ne _ _ _ hb.2, reg_bump_ne _ _ _ hb.1]
  · rw [reg_bump_ne _ _ _ h, toNat_bump]
  · rw [toNat_bump, reg_bump_ne _ _ _ h.symm]

/-- The replay counted on island `i` and in the die's total, and shown on the Deck. -/
def replayCounted (s : State) (i : Nat) : State :=
  ((s.bump (TR_REPLAY i) 0 32).bump FT_CE_REPLAY 0 32).setDkf DK_TRIM_STAT 4 1 1

theorem replayCounted_spec (s : State) {i : Nat} (hi : i < 8) :
    let t := s.replayCounted i
    t = { s with regs := t.regs, deck := t.deck } ∧ csrKept s t [TR_REPLAY i, FT_CE_REPLAY] ∧
    deckRegs s t [DK_TRIM_STAT] ∧ (t.reg (TR_REPLAY i)).toNat = min ((s.reg (TR_REPLAY i)).toNat + 1) (2 ^ 32 - 1) ∧
    (t.reg FT_CE_REPLAY).toNat = min ((s.reg FT_CE_REPLAY).toNat + 1) (2 ^ 32 - 1) ∧
    t.dk DK_TRIM_STAT = putFld (s.dk DK_TRIM_STAT) 4 1 1 := by
  obtain ⟨hf, hk, h1, h2⟩ := bump_bump s (a := TR_REPLAY i) (c := FT_CE_REPLAY) (by unfold FT_CE_REPLAY TR_REPLAY; omega)
  unfold replayCounted
  generalize (s.bump (TR_REPLAY i) 0 32).bump FT_CE_REPLAY 0 32 = b at *
  have hdeck : b.deck = s.deck := by rw [hf]
  have hd : deckRegs b (b.setDkf DK_TRIM_STAT 4 1 1) [DK_TRIM_STAT] := deckRegs_setDk b _ _
  have hx : (b.setDkf DK_TRIM_STAT 4 1 1).dk DK_TRIM_STAT = putFld (b.dk DK_TRIM_STAT) 4 1 1 := dk_setDk_self b _ _
  rw [dk_of_deck_eq hdeck] at hx
  refine ⟨?_, hk, deckRegs_trans (deckRegs_of_deck_eq hdeck) hd, h1, h2, hx⟩
  exact (setDkf_frame b DK_TRIM_STAT 4 1 1).trans
    (congrArg (fun x : State => { x with deck := (b.setDkf DK_TRIM_STAT 4 1 1).deck }) hf)

/-- A replay on island `i` in the descriptor it falls in, where there is one. -/
def replayIn (s : State) (i : Nat) (met : Option Flight) : State :=
  match met with
  | some f => ((s.replayCounted i).mapFlight f.ring f.idx countReplay).upReq i
  | none => s

theorem replayIn_spec (s : State) {i : Nat} (hi : i < 8) (f : Flight) :
    let t := s.replayIn i (some f)
    t = { s with regs := t.regs, deck := t.deck, cap := { s.cap with flights := s.cap.flights.map fun g =>
      if g.ring == f.ring && g.idx == f.idx then (replayed g) else g } } ∧
    csrKept s t [TR_REPLAY i, FT_CE_REPLAY, TR_ISL i] ∧ deckRegs s t [DK_TRIM_STAT] ∧
    (t.reg (TR_REPLAY i)).toNat = min ((s.reg (TR_REPLAY i)).toNat + 1) (2 ^ 32 - 1) ∧
    (t.reg FT_CE_REPLAY).toNat = min ((s.reg FT_CE_REPLAY).toNat + 1) (2 ^ 32 - 1) ∧
    t.dk DK_TRIM_STAT = putFld (s.dk DK_TRIM_STAT) 4 1 1 ∧
    t.reg (TR_ISL i) = (if s.vtEn && decide (s.islCode i < 40) then
      putFld (putFld (s.reg (TR_ISL i)) 8 1 1) 9 1 0 else s.reg (TR_ISL i)) := by
  have hrep : TR_REPLAY i ≠ TR_ISL i := by unfold TR_ISL TR_REPLAY; omega
  have hce : FT_CE_REPLAY ≠ TR_ISL i := by unfold TR_ISL FT_CE_REPLAY; omega
  have ht : s.replayIn i (some f) = ((s.replayCounted i).mapFlight f.ring f.idx countReplay).upReq i := rfl
  obtain ⟨hc, hk, hd, h1, h2, hx⟩ := replayCounted_spec s hi
  rw [ht]
  generalize s.replayCounted i = c at *
  have hu : c.mapFlight f.ring f.idx countReplay = { c with cap := { c.cap with flights := c.cap.flights.map fun g =>
      if g.ring == f.ring && g.idx == f.idx then (replayed g) else g } } := rfl
  have hur : ∀ a, (c.mapFlight f.ring f.idx countReplay).reg a = c.reg a := fun _ => rfl
  generalize c.mapFlight f.ring f.idx countReplay = u at *
  have hf := upReq_frame u i
  have hku := csrKept_upReq u i
  have hreg := reg_upReq u i
  have hisl : u.reg (TR_ISL i) = s.reg (TR_ISL i) := (hur _).trans (hk _ (by simp [hrep.symm, hce.symm]))
  have hcode : u.islCode i = s.islCode i := rf_of_reg_eq hisl 0 6
  have hvt : u.vtEn = s.vtEn := by rw [hu, hc]; rfl
  rw [hisl, hcode, hvt] at hreg
  generalize u.upReq i = t at *
  have htd : t.deck = c.deck := by rw [hf, hu]
  have htr : ∀ a, a ≠ TR_ISL i → t.reg a = c.reg a := fun a ha => (hku a (by simpa using ha)).trans (hur a)
  refine ⟨?_, fun a ha => ?_, ?_, ?_, ?_, ?_, hreg⟩
  · rw [htd]
    refine hf.trans ((congrArg (fun x : State => { x with regs := t.regs }) hu).trans ?_)
    exact congrArg (fun x : State => { x with
      regs := t.regs, deck := c.deck, cap := { x.cap with flights := x.cap.flights.map fun g : Flight =>
        if g.ring == f.ring && g.idx == f.idx then (replayed g) else g } }) hc
  · simp only [List.mem_cons, List.not_mem_nil, or_false, not_or] at ha
    obtain ⟨ha1, ha2, ha3⟩ := ha
    exact (htr a ha3).trans (hk a (by simp [ha1, ha2]))
  · exact ⟨by rw [htd]; exact hd.1, fun o ho => (dk_of_deck_eq htd o).trans (hd.2 o ho)⟩
  · rw [htr _ hrep, h1]
  · rw [htr _ hce, h2]
  · rw [dk_of_deck_eq htd, hx]

end Sys2Proof.Machine.State

namespace Sys2Proof

open Machine Machine.State Spec

/-- Settles O19: an evaluation is LAST and the counts, with what it requests; a step moves the code's field alone. -/
theorem vtrimMovesOneIslandOneCode : Obligations.VtrimMovesOneIslandOneCode := by
  intro s i hc
  refine ⟨fun hi => ⟨fun hv hm hr => vtrimEval_counts hc hi hv hm hr, fun h => ?_, ?_, fun margin => vtrimEval_fails hc hi margin,
    fun hr hb => vtrimDown_spec hc hi hr hb, fun hr hb => vtrimUp_spec hc hi hr hb⟩,
    fun hi margin => vtrimEval_fixed_spec hc hi margin, fun hi => ?_⟩
  · exact ⟨_, congrArg Host.Outcome.next (vtrimEval_restarts hc hi h), evaluated_assessed s i (by decide) 0,
      rf_assessed s i 1 0, rfl⟩
  · exact ⟨_, congrArg Host.Outcome.next (vtrimEval_pass hc hi), evaluated_assessed s i (by decide) 0,
      rf_assessed s i 2 0, rfl⟩
  · intro here met
    have hon : (s.trimRuns && (decide (i < 4) || i == 6 || i == 7)) = true := by
      rw [trimRuns, hc]
      rcases hi with hi | rfl | rfl
      · simp [hi]
      · rfl
      · rfl
    have he : exec (.replay i) s = .next (s.replayIn i met) := congrArg Host.Outcome.next (if_pos hon)
    refine ⟨fun h => ?_, fun f h => ⟨s.replayIn i (some f), ?_, replayIn_spec s (by omega) f⟩⟩
    · rw [he, h]
      rfl
    · rw [he, h]

end Sys2Proof
end

section
/-! PROOFS. A trim commit at its boundary, and FTRIM's steps (04 R181, R182, R187, R190, R191, R204). -/

namespace Sys2Proof.Machine.State

open Sys2Proof.Spec

/-! ### The islands one after the other -/

/-- A pass over the first `n` islands that changes each alone changes these and no others. -/
theorem island_foldl_range {g : State → Nat → State} {h : Island → Island}
    (hg : ∀ s i j, (g s i).island j = if j = i then h (s.island i) else s.island j) (s : State) (n j : Nat) :
    ((List.range n).foldl g s).island j = if j < n then h (s.island j) else s.island j := by
  induction n with
  | zero => rfl
  | succ n ih =>
    rw [List.range_succ, List.foldl_append, List.foldl_cons, List.foldl_nil, hg]
    rcases eq_or_ne j n with rfl | hne
    · rw [if_pos rfl, ih, if_neg (lt_irrefl j), if_pos (Nat.lt_succ_self j)]
    · rw [if_neg hne, ih]
      exact if_congr (by omega) rfl rfl

theorem island_parkIsland (s : State) (i j : Nat) :
    (s.parkIsland i).island j = if j = i then { s.island i with streak := 0, low := 0 } else s.island j := by
  split
  · next h => rw [h]; exact Store.get_set_self _ _ _ _
  · next h => exact Store.get_set_ne _ _ _ h

theorem island_codes40 (s : State) (i : Nat) :
    s.codes40.island i = if i < 8 then { s.island i with streak := 0, low := 0 } else s.island i := by
  rw [codes40_eq]
  exact island_foldl_range (h := fun x => { x with streak := 0, low := 0 }) island_parkIsland s 8 i

/-- The time since the last step slower starts again on islands 0 to 7. -/
def restamped (s : State) : State := (List.range 8).foldl (fun s i => s.setIsland i { s.island i with since := 0 }) s

theorem island_restamped (s : State) (i : Nat) :
    s.restamped.island i = if i < 8 then { s.island i with since := 0 } else s.island i := by
  refine island_foldl_range (h := fun x => { x with since := 0 }) (fun s i j => ?_) s 8 i
  split
  · next h => rw [h, island_setIsland_self]
  · next h => exact island_setIsland_ne s _ h

theorem restamped_frame (s : State) :
    s.restamped = { s with trim := { s.trim with islands := s.restamped.trim.islands } } := by
  refine foldl_keeps (fun t : State => t = { s with trim := { s.trim with islands := t.trim.islands } }) _
    (fun t i h => ?_) _ _ rfl
  exact congrArg (fun x : State => x.setIsland i { t.island i with since := 0 }) h

/-! ### A trim commit applies -/

/-- The group comes into force, and is no longer pending. -/
def trForced (s : State) : State := (s.commit [TR_CTRL, TR_FT_CFG, TR_VT_CFG]).setRf TR_STAT 4 1 0

/-- A floor below the ceiling is noted (04 R190). -/
def ftCapped (s : State) : State := if s.ff TR_FT_CFG 4 3 < s.ftCeil then s.setRf TR_STAT 6 1 1 else s

/-- A step slower is still required only while FTRIM can step (04 R191). -/
def slowKept (s : State) : State :=
  { s with trim := { s.trim with slow := s.trim.slow && s.ftEn && decide (s.trim.step < s.ftFloor) } }

/-- An island below MIN_CODE asks for a step up (04 R204). -/
def askMin (s : State) (i : Nat) : State := if s.islCode i < s.minCode then s.upReq i else s

theorem trApply_eq {s : State} (h : s.rbit TR_STAT 4 = true) (hb : s.kcBusy = false) :
    s.trApply = let u := s.trForced.ftCapped.slowKept
      if u.vtEn then (List.range 8).foldl askMin u else u.codes40 :=
  if_pos (by rw [h, hb]; rfl)

theorem trApply_idle {s : State} (h : s.rbit TR_STAT 4 = false) : s.trApply = s := if_neg (by rw [h]; exact nofun)

/-- The group's staged copies are in force, its status register is written, and the rest is as it was but for what FTRIM
requires. -/
def trTaken (s u : State) (group : List Nat) (stat : Nat) : Prop :=
  u = { s with regs := u.regs, inForce := u.inForce, trim := { s.trim with slow := u.trim.slow } } ∧
  (∀ a, u.force a = if a ∈ group then s.reg a else s.force a) ∧ csrKept s u [stat]

theorem trTaken_commit (s : State) (group : List Nat) (stat : Nat) : trTaken s (s.commit group) group stat := by
  obtain ⟨hf, hforce⟩ := commit_spec group s
  generalize s.commit group = v at *
  have htrim : v.trim = s.trim := by rw [hf]
  have hregs : v.regs = s.regs := by rw [hf]
  refine ⟨?_, hforce, fun a _ => reg_of_regs_eq hregs a⟩
  rw [htrim, hregs]
  exact hf

theorem trTaken_setRf {s u : State} {group : List Nat} {stat : Nat} (h : trTaken s u group stat) (lo w x : Nat) :
    trTaken s (u.setRf stat lo w x) group stat := by
  obtain ⟨hu, hforce, hk⟩ := h
  refine ⟨?_, hforce, csrKept_setRf hk (List.mem_singleton_self _) lo w x⟩
  exact congrArg (fun v : State => { v with regs := (u.setRf stat lo w x).regs }) hu

theorem trTaken_slowKept {s u : State} {group : List Nat} {stat : Nat} (h : trTaken s u group stat) :
    trTaken s u.slowKept group stat := by
  obtain ⟨hu, hforce, hk⟩ := h
  exact ⟨congrArg (fun x : State => { x with trim := { x.trim with slow := u.slowKept.trim.slow } }) hu, hforce, hk⟩

/-- The trim group in force as staged, with PEND clear. -/
theorem trTaken_group (s : State) :
    trTaken s s.trForced.ftCapped.slowKept [TR_CTRL, TR_FT_CFG, TR_VT_CFG] TR_STAT ∧
    s.trForced.ftCapped.slowKept.rbit TR_STAT 4 = false := by
  have h : trTaken s s.trForced [TR_CTRL, TR_FT_CFG, TR_VT_CFG] TR_STAT :=
    trTaken_setRf (trTaken_commit s [TR_CTRL, TR_FT_CFG, TR_VT_CFG] TR_STAT) 4 1 0
  have hp : s.trForced.rbit TR_STAT 4 = false := rbit_setRf_zero (s.commit [TR_CTRL, TR_FT_CFG, TR_VT_CFG]) (by decide)
  have hc : trTaken s s.trForced.ftCapped [TR_CTRL, TR_FT_CFG, TR_VT_CFG] TR_STAT ∧
      s.trForced.ftCapped.rbit TR_STAT 4 = false := by
    unfold ftCapped
    split
    · exact ⟨trTaken_setRf h 6 1 1, (rbit_setRf_ne s.trForced 1 (by decide)).trans hp⟩
    · exact ⟨h, hp⟩
  exact ⟨trTaken_slowKept hc.1, hc.2⟩

/-! ### Islands below MIN_CODE ask for a step up -/

theorem askMin_frame (s : State) (i : Nat) : s.askMin i = { s with regs := (s.askMin i).regs } := by
  unfold askMin
  split
  · exact upReq_frame s i
  · rfl

theorem csrKept_askMin (s : State) (i : Nat) : csrKept s (s.askMin i) [TR_ISL i] := by
  unfold askMin
  split
  · exact csrKept_upReq s i
  · exact csrKept_refl s _

theorem foldl_askMin_frame (s : State) (n : Nat) :
    (List.range n).foldl askMin s = { s with regs := ((List.range n).foldl askMin s).regs } := by
  refine foldl_keeps (fun t : State => t = { s with regs := t.regs }) askMin (fun t i h => ?_) _ _ rfl
  have ht := askMin_frame t i
  generalize t.askMin i = u at *
  rw [h] at ht
  exact ht

/-- After the first `n` islands have been asked, these hold their requests and no other register has changed. -/
theorem foldl_askMin_reg (s : State) (n : Nat) :
    csrKept s ((List.range n).foldl askMin s) ((List.range n).map TR_ISL) ∧
    ∀ i, i < n → ((List.range n).foldl askMin s).reg (TR_ISL i) = (s.askMin i).reg (TR_ISL i) := by
  induction n with
  | zero => exact ⟨csrKept_refl s _, fun i hi => absurd hi (Nat.not_lt_zero i)⟩
  | succ n ih =>
    obtain ⟨hk, hreg⟩ := ih
    have hf := foldl_askMin_frame s n
    rw [List.range_succ, List.foldl_append, List.foldl_cons, List.foldl_nil, List.map_append]
    generalize (List.range n).foldl askMin s = u at *
    have hku := csrKept_askMin u n
    have hn : u.reg (TR_ISL n) = s.reg (TR_ISL n) := hk _ fun hmem => by
      obtain ⟨m, hm, he⟩ := List.mem_map.1 hmem
      rw [TR_ISL_injective he] at hm
      exact lt_irrefl n (List.mem_range.1 hm)
    refine ⟨csrKept_trans (csrKept_mono hk fun a ha => List.mem_append_left _ ha)
      (csrKept_mono hku fun a ha => List.mem_append_right _ ha), fun i hi => ?_⟩
    rcases eq_or_ne i n with rfl | hne
    · have hforce : u.inForce = s.inForce := by rw [hf]
      have hmin : u.minCode = s.minCode := congrArg (fld · 8 6) (force_of_eq hforce _)
      have hvt : u.vtEn = s.vtEn := congrArg (fun x : Word => fld x 0 1 == 1) (force_of_eq hforce _)
      have hcode : u.islCode i = s.islCode i := rf_of_reg_eq hn 0 6
      unfold askMin
      rw [hmin, hcode]
      split
      · rw [reg_upReq, reg_upReq, hvt, hcode, hn]
      · exact hn
    · rw [hku _ (by simpa using TR_ISL_injective.ne hne)]
      exact hreg i (by omega)

theorem islCode_askMin (s : State) (i : Nat) : (s.askMin i).islCode i = s.islCode i := by
  unfold askMin upReq
  split
  · split
    · rw [islCode_setRf _ _ _ (by decide), islCode_setRf _ _ _ (by decide)]
    · rfl
  · rfl

theorem rbit_askMin {s : State} {i : Nat} (hv : s.vtEn = true) (hm : s.islCode i < s.minCode) (hc : s.islCode i < 40) :
    (s.askMin i).rbit (TR_ISL i) 8 = true := by
  rw [askMin, if_pos hm, upReq, hv, decide_eq_true hc, Bool.and_self, if_pos rfl, rbit_setRf_ne _ _ (by decide),
    rbit_setRf_one s (by decide)]

/-- A trim commit is never rejected (04 R187). -/
theorem trApply_spec {s : State} (h : s.rbit TR_STAT 4 = true) (hb : s.kcBusy = false) :
    let t := s.trApply
    t = { s with regs := t.regs, inForce := t.inForce, trim := t.trim } ∧
    inForceNow s t [TR_CTRL, TR_FT_CFG, TR_VT_CFG] ∧ t.rbit TR_STAT 4 = false ∧
    csrKept s t (TR_STAT :: (List.range 8).map TR_ISL) ∧ t.trim.step = s.trim.step ∧
    (s.rbit TR_CTRL 0 = false → ∀ i, i < 8 → t.islCode i = 40) ∧
    (s.rbit TR_CTRL 0 = true → ∀ i, i < 8 → t.islCode i = s.islCode i ∧
      (s.islCode i < s.rf TR_VT_CFG 8 6 → s.islCode i < 40 → t.rbit (TR_ISL i) 8 = true)) := by
  have hu := trTaken_group s
  have he := trApply_eq h hb
  dsimp only at he
  generalize s.trForced.ftCapped.slowKept = u at *
  obtain ⟨⟨huf, hforce, huk⟩, hup⟩ := hu
  have hvt : u.vtEn = s.rbit TR_CTRL 0 := congrArg (fun x : Word => fld x 0 1 == 1) ((hforce TR_CTRL).trans (if_pos (by decide)))
  have hmin : u.minCode = s.rf TR_VT_CFG 8 6 := congrArg (fld · 8 6) ((hforce TR_VT_CFG).trans (if_pos (by decide)))
  have hcode : ∀ i, i < 8 → u.islCode i = s.islCode i := fun i hi => rf_of_reg_eq (huk _ (by
    rw [List.mem_singleton]
    unfold TR_ISL TR_STAT
    omega)) 0 6
  have hstep : u.trim.step = s.trim.step := by rw [huf]
  have hnow : ∀ t : State, t.inForce = u.inForce → inForceNow s t [TR_CTRL, TR_FT_CFG, TR_VT_CFG] := fun t ht =>
    ⟨fun a ha => (force_of_eq ht a).trans ((hforce a).trans (if_pos ha)),
      fun a ha => (force_of_eq ht a).trans ((hforce a).trans (if_neg ha))⟩
  have hstat : TR_STAT ∉ (List.range 8).map TR_ISL := by decide
  have hkept : ∀ t : State, csrKept u t ((List.range 8).map TR_ISL) →
      csrKept s t (TR_STAT :: (List.range 8).map TR_ISL) := fun t ht =>
    csrKept_trans (csrKept_mono huk (by simp)) (csrKept_mono ht fun _ ha => List.mem_cons_of_mem _ ha)
  dsimp only
  rw [he]
  split
  · next hv =>
    have hf := foldl_askMin_frame u 8
    obtain ⟨hk, hreg⟩ := foldl_askMin_reg u 8
    generalize (List.range 8).foldl askMin u = t at *
    have hti : t.inForce = u.inForce := by rw [hf]
    have htt : t.trim = u.trim := by rw [hf]
    refine ⟨?_, hnow t hti, (rbit_of_reg_eq (hk _ hstat) 4).trans hup, hkept t hk, by rw [htt, hstep], fun hx => ?_,
      fun _ i hi => ⟨?_, fun hm hlt => ?_⟩⟩
    · rw [hti, htt]
      exact hf.trans (congrArg (fun x : State => { x with regs := t.regs, inForce := u.inForce, trim := u.trim }) huf)
    · rw [hvt, hx] at hv
      cases hv
    · have hi40 : t.islCode i = (u.askMin i).islCode i := rf_of_reg_eq (s := u.askMin i) (hreg i hi) 0 6
      rw [hi40, islCode_askMin, hcode i hi]
    · rw [rbit_of_reg_eq (s := u.askMin i) (hreg i hi) 8]
      exact rbit_askMin hv (by rwa [hcode i hi, hmin]) (by rwa [hcode i hi])
  · next hv =>
    obtain ⟨h40, hk, hf⟩ := codes40_spec u
    have ht := codes40_trim u
    have hk' : csrKept u u.codes40 ((List.range 8).map TR_ISL) := fun a ha => hk a fun i hi he =>
      ha (he ▸ List.mem_map_of_mem (List.mem_range.2 hi))
    generalize u.codes40 = t at *
    have hti : t.inForce = u.inForce := by rw [hf]
    refine ⟨?_, hnow t hti, (rbit_of_reg_eq (hk' _ hstat) 4).trans hup, hkept t hk', by rw [ht, hstep], fun _ => h40, fun hx => ?_⟩
    · rw [hti]
      exact hf.trans (congrArg (fun x : State => { x with regs := t.regs, inForce := u.inForce, trim := t.trim }) huf)
    · rw [hvt] at hv
      exact absurd hx hv

/-! ### FTRIM steps -/

/-- FTRIM steps slower, the commit at its boundary applied. -/
def slowerAt (s : State) : State :=
  if s.trimRuns && s.slowDue && !s.kcBusy && decide (s.trim.step < 4) then
    ({ s.restamped with trim := { s.restamped.trim with step := s.restamped.trim.step + 1, slow := false } }.codes40).bump
      TR_STEPS 0 16
  else s

/-- The same for a step faster. -/
def fasterAt (s : State) : State :=
  if s.trimRuns && s.fastDue && !s.kcBusy && decide (0 < s.trim.step) then
    ({ s with trim := { s.trim with step := s.trim.step - 1 } }.codes40).bump TR_STEPS 16 16
  else s

theorem ftrimSlower_eq {s : State} (hc : s.capRuns = true) : s.ftrimSlower = s.trApply.slowerAt :=
  have h : s.ftrimSlower = (if s.trimRuns then s.trApply else s).slowerAt := rfl
  h.trans (congrArg slowerAt (if_pos hc))

theorem ftrimFaster_eq {s : State} (hc : s.capRuns = true) : s.ftrimFaster = s.trApply.fasterAt :=
  have h : s.ftrimFaster = (if s.trimRuns then s.trApply else s).fasterAt := rfl
  h.trans (congrArg fasterAt (if_pos hc))

/-- What parking the islands and counting a step leave (04 R181, R182). -/
theorem parked_stepped {s u : State} (hr : u.regs = s.regs) {since : Nat → Nat}
    (hs : ∀ i, i < 8 → (u.island i).since = since i) (ho : ∀ i, 8 ≤ i → u.island i = s.island i) (lo : Nat) :
    let t := u.codes40.bump TR_STEPS lo 16
    t = { u with regs := t.regs, trim := t.trim } ∧ t.trim = { u.trim with islands := t.trim.islands } ∧
    parkedIslands s t since ∧ t.reg TR_STEPS = putFld (s.reg TR_STEPS) lo 16 (min (s.rf TR_STEPS lo 16 + 1) 65535) := by
  obtain ⟨-, hk, hf⟩ := codes40_spec u
  have ht := codes40_trim u
  have hi40 := fun i => @codes40_isl u i
  have hisl := island_codes40 u
  generalize u.codes40 = c at *
  have hne : ∀ i, TR_ISL i ≠ TR_STEPS ∨ 32 ≤ i := fun i => by unfold TR_ISL TR_STEPS; omega
  have hb := bump_frame c TR_STEPS lo 16
  have hbr : ∀ a, a ≠ TR_STEPS → (c.bump TR_STEPS lo 16).reg a = c.reg a := fun a ha => reg_bump_ne c lo 16 ha
  have hbs := reg_bump_self c TR_STEPS lo 16
  have hreg : ∀ a, u.reg a = s.reg a := fun a => reg_of_regs_eq hr a
  have hkept : ∀ a, (∀ i, i < 8 → a ≠ TR_ISL i) → c.reg a = s.reg a := fun a ha => (hk a ha).trans (hreg a)
  have hsteps : c.reg TR_STEPS = s.reg TR_STEPS := hkept _ fun i hi => by
    rcases hne i with h | h
    · exact h.symm
    · omega
  dsimp only
  generalize c.bump TR_STEPS lo 16 = t at *
  have htrim : t.trim = c.trim := by rw [hb]
  have hti : ∀ i, t.island i = c.island i := fun i => congrArg (fun x : Trim => Store.get ({} : Island) x.islands i) htrim
  refine ⟨?_, by rw [htrim]; exact ht, ⟨fun a ha => ?_, fun i hi => ⟨?_, ?_⟩, fun i hi => ?_⟩, ?_⟩
  · rw [htrim]
    exact hb.trans (congrArg (fun x : State => { x with regs := t.regs, trim := c.trim }) hf)
  · rw [List.mem_cons, not_or] at ha
    rw [hbr a ha.1, hkept a fun i hi he => ha.2 (he ▸ List.mem_map_of_mem (List.mem_range.2 hi))]
  · rw [hbr _ ((hne i).resolve_right (by omega)), hi40 i hi, hreg]
  · rw [hti, hisl, if_pos hi]
    exact congrArg (fun x => ({ streak := 0, low := 0, since := x } : Island)) (hs i hi)
  · rw [hti, hisl, if_neg (not_lt.2 hi), ho i hi]
  · rw [hbs, rf_of_reg_eq hsteps, hsteps]
    rfl

theorem ftrimSlower_steps {s : State} (hc : s.capRuns = true) (hb : s.kcBusy = false) (hp : s.rbit TR_STAT 4 = false)
    (hd : s.slowDue = true) (hlt : s.trim.step < 4) :
    ∃ t, exec .ftrimStepSlower s = .next t ∧ t = { s with regs := t.regs, trim := t.trim } ∧
      t.trim.step = s.trim.step + 1 ∧ t.trim.slow = false ∧ parkedIslands s t (fun _ => 0) ∧
      t.reg TR_STEPS = putFld (s.reg TR_STEPS) 0 16 (min (s.rf TR_STEPS 0 16 + 1) 65535) := by
  have he : s.ftrimSlower = s.slowerAt := by rw [ftrimSlower_eq hc, trApply_idle hp]
  have hr := restamped_frame s
  have hisl := island_restamped s
  have hon : (s.trimRuns && s.slowDue && !s.kcBusy && decide (s.trim.step < 4)) = true := by
    rw [trimRuns, hc, hd, hb, decide_eq_true hlt]
    rfl
  rw [slowerAt, if_pos hon] at he
  generalize s.restamped = v at *
  obtain ⟨hf, ht, hpark, hsteps⟩ := parked_stepped (s := s)
    (u := { v with trim := { v.trim with step := v.trim.step + 1, slow := false } }) (since := fun _ => 0) (by rw [hr])
    (fun i hi => congrArg Island.since ((hisl i).trans (if_pos hi)))
    (fun i hi => (hisl i).trans (if_neg (not_lt.2 hi))) 0
  have hvs : v.trim.step = s.trim.step := by rw [hr]
  refine ⟨_, congrArg Host.Outcome.next he, ?_, ?_, ?_, hpark, hsteps⟩
  · generalize State.bump _ TR_STEPS 0 16 = t at *
    rw [hr] at hf
    exact hf
  · rw [ht]
    exact congrArg (· + 1) hvs
  · rw [ht]

theorem ftrimFaster_steps {s : State} (hc : s.capRuns = true) (hb : s.kcBusy = false) (hp : s.rbit TR_STAT 4 = false)
    (hd : s.fastDue = true) (hlt : 0 < s.trim.step) :
    ∃ t, exec .ftrimStepFaster s = .next t ∧ t = { s with regs := t.regs, trim := t.trim } ∧
      t.trim.step = s.trim.step - 1 ∧ t.trim.slow = s.trim.slow ∧ parkedIslands s t (fun i => (s.island i).since) ∧
      t.reg TR_STEPS = putFld (s.reg TR_STEPS) 16 16 (min (s.rf TR_STEPS 16 16 + 1) 65535) := by
  have he : s.ftrimFaster = s.fasterAt := by rw [ftrimFaster_eq hc, trApply_idle hp]
  have hon : (s.trimRuns && s.fastDue && !s.kcBusy && decide (0 < s.trim.step)) = true := by
    rw [trimRuns, hc, hd, hb, decide_eq_true hlt]
    rfl
  rw [fasterAt, if_pos hon] at he
  obtain ⟨hf, ht, hpark, hsteps⟩ := parked_stepped (s := s) (u := { s with trim := { s.trim with step := s.trim.step - 1 } })
    (since := fun i => (s.island i).since) rfl (fun _ _ => rfl) (fun _ _ => rfl) 16
  exact ⟨_, congrArg Host.Outcome.next he, hf, by rw [ht], by rw [ht], hpark, hsteps⟩

theorem slowerAt_idle {s : State} (hd : s.slowDue = false) : s.slowerAt = s := if_neg (by rw [hd]; simp)
theorem fasterAt_idle {s : State} (hd : s.fastDue = false) : s.fasterAt = s := if_neg (by rw [hd]; simp)

theorem capRuns_of_dev_eq {s t : State} (h : t.dev = s.dev) : t.capRuns = s.capRuns := by
  unfold capRuns dieUp
  rw [h]

end Sys2Proof.Machine.State

namespace Sys2Proof

open Machine Machine.State Spec

/-- Settles O20: a step is the islands parked and the step counted; a commit applied leaves none for the step to apply. -/
theorem ftrimStepsOneStep : Obligations.FtrimStepsOneStep := by
  intro s hc hb
  refine ⟨fun hp hd hlt => ftrimSlower_steps hc hb hp hd hlt, fun hp hd hlt => ftrimFaster_steps hc hb hp hd hlt,
    fun hp hd => congrArg Host.Outcome.next ?_, fun hp hd => congrArg Host.Outcome.next ?_, fun hp => ?_⟩
  · rw [ftrimSlower_eq hc, trApply_idle hp, slowerAt_idle hd]
  · rw [ftrimFaster_eq hc, trApply_idle hp, fasterAt_idle hd]
  · obtain ⟨hf, -, hu, -⟩ := trApply_spec hp hb
    have hcu : s.trApply.capRuns = true := (capRuns_of_dev_eq (by rw [hf])).trans hc
    refine ⟨s.trApply, rfl, hu, congrArg Host.Outcome.next ?_, congrArg Host.Outcome.next ?_⟩
    · rw [ftrimSlower_eq hc, ftrimSlower_eq hcu, trApply_idle hu]
    · rw [ftrimFaster_eq hc, ftrimFaster_eq hcu, trApply_idle hu]

end Sys2Proof
end

section
/-! PROOFS. Pending commits at their boundaries: each applies as a whole or is rejected (06 R260, R264; 08 R371; 17 R724,
R727, R728, R734; 18 R759, R762, R768–R771). -/

namespace Sys2Proof.Machine.State

open Sys2Proof.Spec

/-! ### Streams that stop -/

/-- A stopped stream ends its waiting descriptors alone, and takes their gaps (08 R371). -/
theorem stopStream_frame (s : State) (sid : Nat) : s.stopStream sid =
    { s with cap := { s.cap with flights := (s.stopStream sid).cap.flights, gaps := (s.stopStream sid).cap.gaps } } := by
  refine foldl_keeps (fun t : State => t = { s with cap := { s.cap with flights := t.cap.flights, gaps := t.cap.gaps } }) _
    (fun t f h => ?_) _ _ rfl
  exact congrArg (fun x : State => { x with cap := { x.cap with
    flights := ((t.takeGap sid).2.mapFlight f.ring f.idx fun f =>
      { f with st := .ended 0 (streamDetail 0 false (t.takeGap sid).1 true) 0 }).cap.flights
    gaps := (t.takeGap sid).2.cap.gaps } }) h

theorem stopStream_idle {s : State} {sid : Nat} (h : noneWaits s [sid]) : s.stopStream sid = s := by
  have hnone : (s.cap.flights.filter fun f => f.cls == 4 && flightSid f == sid &&
      (match f.st with | .running .streamWait => true | _ => false)) = [] := by
    refine List.filter_eq_nil_iff.2 fun f hf hw => ?_
    simp only [Bool.and_eq_true, beq_iff_eq] at hw
    obtain ⟨⟨hcls, hsid⟩, hst⟩ := hw
    refine h f hf hcls (hsid ▸ List.mem_singleton_self _) ?_
    split at hst
    · assumption
    · cases hst
  have he : s.stopStream sid = ((s.cap.flights.filter fun f => f.cls == 4 && flightSid f == sid &&
      (match f.st with | .running .streamWait => true | _ => false)).drop
        (s.units.filter fun u => u.1 == sid).length).foldl (fun s f =>
          (s.takeGap sid).2.mapFlight f.ring f.idx fun f =>
            { f with st := .ended 0 (streamDetail 0 false (s.takeGap sid).1 true) 0 }) s := rfl
  rw [he, hnone, List.drop_nil]
  rfl

theorem stopsOnly_refl (s : State) (l : List Nat) : stopsOnly s s l := ⟨rfl, fun _ => rfl⟩

theorem stopsOnly_congr {s s' t t' : State} {l : List Nat} (h : stopsOnly s t l) (hs : s'.cap = s.cap) (ht : t'.cap = t.cap) :
    stopsOnly s' t' l := by
  unfold stopsOnly noneWaits at *
  rw [hs, ht]
  exact h

/-- Each stream of a list that has stopped ends its descriptors. -/
def stopEach (p : State → Nat → Bool) (l : List Nat) (s : State) : State :=
  l.foldl (fun s sid => if p s sid then s.stopStream sid else s) s

theorem stopEach_spec (p : State → Nat → Bool) (l : List Nat) (s : State) :
    stopEach p l s = { s with cap := (stopEach p l s).cap } ∧ stopsOnly s (stopEach p l s) l := by
  induction l generalizing s with
  | nil => exact ⟨rfl, stopsOnly_refl s _⟩
  | cons sid l ih =>
    have hstep : ∃ u, stopEach p (sid :: l) s = stopEach p l u ∧
        u = { s with cap := { s.cap with flights := u.cap.flights, gaps := u.cap.gaps } } ∧ (noneWaits s [sid] → u = s) := by
      refine ⟨if p s sid then s.stopStream sid else s, rfl, ?_, ?_⟩
      · split
        · exact stopStream_frame s sid
        · rfl
      · intro h
        split
        · exact stopStream_idle h
        · rfl
    obtain ⟨u, he, hu, hidle⟩ := hstep
    obtain ⟨hf, hcap, hnone⟩ := ih u
    have huc : u.cap = { s.cap with flights := u.cap.flights, gaps := u.cap.gaps } := congrArg State.cap hu
    rw [he]
    generalize stopEach p l u = t at *
    refine ⟨hf.trans (congrArg (fun x : State => { x with cap := t.cap }) hu),
      hcap.trans (congrArg (fun x : Capstan => { x with flights := t.cap.flights, gaps := t.cap.gaps }) huc), fun h => ?_⟩
    have hus := hidle fun f hf hc hm => h f hf hc (List.mem_cons.2 (.inl (List.mem_singleton.1 hm)))
    rw [hus] at hnone
    exact hnone fun f hf hc hm => h f hf hc (List.mem_cons_of_mem _ hm)

/-! ### A group comes into force -/

theorem forced_commit {s u : State} {group : List Nat} (h : ∀ a, u.force a = if a ∈ group then s.reg a else s.force a) :
    inForceNow s u group := ⟨fun a ha => (h a).trans (if_pos ha), fun a ha => (h a).trans (if_neg ha)⟩

theorem inForceNow_congr {s t u : State} {group : List Nat} (h : inForceNow s t group) (hu : u.inForce = t.inForce) :
    inForceNow s u group :=
  ⟨fun a ha => (force_of_eq hu a).trans (h.1 a ha), fun a ha => (force_of_eq hu a).trans (h.2 a ha)⟩

/-- PEND is cleared and the group is in force. -/
def groupTaken (s : State) (group : List Nat) (stat : Nat) : State := (s.setRf stat 0 1 0).commit group

theorem groupTaken_spec (s : State) {group : List Nat} {stat : Nat} (hn : stat ∉ group) :
    let u := s.groupTaken group stat
    u = { s with regs := (s.setRf stat 0 1 0).regs, inForce := u.inForce } ∧ inForceNow s u group := by
  obtain ⟨hf, hforce⟩ := commit_spec group (s.setRf stat 0 1 0)
  refine ⟨hf, forced_commit fun a => (hforce a).trans ?_⟩
  split
  · next ha => exact reg_setRf_ne s 0 1 0 (ne_of_mem_of_not_mem ha hn)
  · rfl

/-- PEND is cleared and REJ set. -/
def groupRefused (s : State) (stat : Nat) : State := (s.setRf stat 0 1 0).setRf stat 2 1 1

theorem groupRefused_spec (s : State) (stat : Nat) {lo w x : Nat} (hlo : 3 ≤ lo) (hw : lo + w ≤ 32) (hx : x < 2 ^ w) :
    let t := (s.groupRefused stat).setRf stat lo w x
    t = { s with regs := t.regs } ∧ csrKept s t [stat] ∧ t.rbit stat 0 = false ∧ t.rbit stat 2 = true ∧ t.rf stat lo w = x := by
  have hmem := List.mem_singleton_self stat
  refine ⟨rfl, csrKept_setRf (csrKept_setRf (csrKept_setRf_one s stat 0 1 0) hmem 2 1 1) hmem lo w x, ?_, ?_, ?_⟩
  · rw [rbit_setRf_ne _ _ (by omega), groupRefused, rbit_setRf_ne _ _ (by decide), rbit_setRf_zero s (by decide)]
  · rw [rbit_setRf_ne _ _ (by omega), groupRefused, rbit_setRf_one _ (by decide)]
  · rw [rf_setRf_self _ _ _ _ _ hw, Nat.mod_eq_of_lt hx]

/-! ### The region table -/

/-- An entry is no longer pending (06 R260). -/
def rgSettled (s : State) (n : Nat) : State := ({ s with rgPend := NSet.erase s.rgPend n } : State).syncPend

theorem csrKept_rgSettled (s : State) (n : Nat) : csrKept s (s.rgSettled n) [RG_STAT] :=
  csrKept_setRf_one { s with rgPend := NSet.erase s.rgPend n } RG_STAT 0 1 _

theorem rgSettled_frame (s : State) (n : Nat) :
    s.rgSettled n = { s with regs := (s.rgSettled n).regs, rgPend := NSet.erase s.rgPend n } := rfl

theorem regionStaged_of_csrKept {s t : State} (h : csrKept s t [RG_STAT]) {n : Nat} (hn : n < 64) :
    t.regionStaged n = s.regionStaged n := by
  have hb : RG_BASE n ∉ [RG_STAT] := by rw [List.mem_singleton]; unfold RG_BASE RG_STAT; omega
  have hl : RG_LIMIT n ∉ [RG_STAT] := by rw [List.mem_singleton]; unfold RG_LIMIT RG_STAT; omega
  have ha : RG_ATTR n ∉ [RG_STAT] := by rw [List.mem_singleton]; unfold RG_ATTR RG_STAT; omega
  rw [regionStaged, h _ hb, h _ hl, h _ ha]
  rfl

theorem rgApply_eq {s : State} {n : Nat} (hn : n < 64) (hp : n ∈ s.rgPend) (hr : Store.get 0 s.rgRef n = 0)
    (hd : s.dev.reader = none) :
    rgApply n s = match regionReject s.part (s.regionStaged n) with
      | none => (s.rgSettled n).commit [RG_BASE n, RG_LIMIT n, RG_ATTR n]
      | some why => (((s.rgSettled n).setRf RG_STAT 2 1 1).setRf RG_STAT 8 6 n).setRf RG_STAT 14 2 why := by
  rw [← regionStaged_of_csrKept (csrKept_rgSettled s n) hn, rgApply, hd, List.contains_iff_mem.2 hp, hr]
  rfl

theorem regionReject_lt {p : Part} {e : Entry} {why : Nat} (h : regionReject p e = some why) : why < 4 := by
  unfold regionReject at h
  repeat' split at h
  all_goals cases h
  all_goals decide

theorem rgApply_taken {s : State} {n : Nat} (hn : n < 64) (hp : n ∈ s.rgPend) (hr : Store.get 0 s.rgRef n = 0)
    (hd : s.dev.reader = none) (hj : regionReject s.part (s.regionStaged n) = none) :
    ∃ t, exec (.rgCommitApply n) s = .next t ∧ t = { s with regs := t.regs, inForce := t.inForce, rgPend := t.rgPend } ∧
      inForceNow s t [RG_BASE n, RG_LIMIT n, RG_ATTR n] ∧ csrKept s t [RG_STAT] ∧
      ∀ m, m ∈ t.rgPend ↔ m ∈ s.rgPend ∧ m ≠ n := by
  have he := rgApply_eq hn hp hr hd
  have hf := rgSettled_frame s n
  have hk := csrKept_rgSettled s n
  rw [hj] at he
  generalize s.rgSettled n = u at *
  obtain ⟨hc, hforce⟩ := commit_spec [RG_BASE n, RG_LIMIT n, RG_ATTR n] u
  have hreg : ∀ a ∈ [RG_BASE n, RG_LIMIT n, RG_ATTR n], u.reg a = s.reg a := fun a ha => hk a fun hs => by
    rw [List.mem_singleton] at hs
    subst hs
    simp only [List.mem_cons, List.not_mem_nil, or_false] at ha
    unfold RG_STAT RG_BASE RG_LIMIT RG_ATTR at ha
    omega
  have hfu : u.inForce = s.inForce := by rw [hf]
  refine ⟨u.commit [RG_BASE n, RG_LIMIT n, RG_ATTR n], congrArg Host.Outcome.next he, ?_, forced_commit fun a => ?_,
    fun a ha => ?_, fun m => ?_⟩
  all_goals generalize u.commit [RG_BASE n, RG_LIMIT n, RG_ATTR n] = t at *
  · have htr : t.regs = u.regs := by rw [hc]
    have htp : t.rgPend = u.rgPend := by rw [hc]
    rw [htr, htp]
    exact hc.trans (congrArg (fun x : State => { x with regs := u.regs, inForce := t.inForce, rgPend := u.rgPend }) hf)
  · rw [hforce a]
    split
    · next ha => exact hreg a ha
    · exact force_of_eq hfu a
  · rw [reg_of_regs_eq (show t.regs = u.regs by rw [hc]), hk a ha]
  · rw [show t.rgPend = NSet.erase s.rgPend n by rw [hc, hf]]
    exact NSet.mem_erase

theorem rgApply_refused {s : State} {n why : Nat} (hn : n < 64) (hp : n ∈ s.rgPend) (hr : Store.get 0 s.rgRef n = 0)
    (hd : s.dev.reader = none) (hj : regionReject s.part (s.regionStaged n) = some why) :
    ∃ t, exec (.rgCommitApply n) s = .next t ∧
      t = { s with regs := t.regs, rgPend := t.rgPend } ∧ csrKept s t [RG_STAT] ∧ t.rbit RG_STAT 2 = true ∧
      t.rf RG_STAT 8 6 = n ∧ t.rf RG_STAT 14 2 = why ∧ ∀ m, m ∈ t.rgPend ↔ m ∈ s.rgPend ∧ m ≠ n := by
  have he := rgApply_eq hn hp hr hd
  have hf := rgSettled_frame s n
  have hk := csrKept_rgSettled s n
  have hmem := List.mem_singleton_self RG_STAT
  rw [hj] at he
  dsimp only at he
  generalize s.rgSettled n = u at *
  have ht : ((u.setRf RG_STAT 2 1 1).setRf RG_STAT 8 6 n).setRf RG_STAT 14 2 why =
      { u with regs := (((u.setRf RG_STAT 2 1 1).setRf RG_STAT 8 6 n).setRf RG_STAT 14 2 why).regs } := rfl
  refine ⟨_, congrArg Host.Outcome.next he, ?_,
    csrKept_setRf (csrKept_setRf (csrKept_setRf hk hmem 2 1 1) hmem 8 6 n) hmem 14 2 why, ?_, ?_, ?_, fun m => ?_⟩
  · have hp' : (((u.setRf RG_STAT 2 1 1).setRf RG_STAT 8 6 n).setRf RG_STAT 14 2 why).rgPend = u.rgPend := by rw [ht]
    rw [hp']
    exact ht.trans (congrArg (fun x : State => { x with
      regs := (((u.setRf RG_STAT 2 1 1).setRf RG_STAT 8 6 n).setRf RG_STAT 14 2 why).regs, rgPend := u.rgPend }) hf)
  · rw [rbit_setRf_ne _ _ (by decide), rbit_setRf_ne _ _ (by decide), rbit_setRf_one _ (by decide)]
  · rw [rf_setRf_ne _ _ _ _ _ _ _ (by decide), rf_setRf_self _ _ _ _ _ (by decide)]
    exact Nat.mod_eq_of_lt (by omega)
  · rw [rf_setRf_self _ _ _ _ _ (by decide)]
    exact Nat.mod_eq_of_lt (regionReject_lt hj)
  · rw [ht, hf]
    exact NSet.mem_erase

/-! ### CSI-2 -/

theorem vcOk_of_reg_eq {s t : State} {vc : Nat} (h : t.reg (CSI_VC vc) = s.reg (CSI_VC vc)) : t.vcOk vc = s.vcOk vc := by
  unfold vcOk
  dsimp only
  rw [rbit_of_reg_eq h, rf_of_reg_eq h, rf_of_reg_eq h, rf_of_reg_eq h]

theorem csiApply_eq {s : State} (hp : s.rbit CSI_STAT 0 = true) (h0 : s.csiOpen 0 = none) (h1 : s.csiOpen 1 = none) :
    s.csiApply = match [0, 1].find? fun vc => !s.vcOk vc with
      | some vc => (s.groupRefused CSI_STAT).setRf CSI_STAT 3 1 vc
      | none => stopEach csiStopped [3, 4] (s.groupTaken [CSI_CTRL, CSI_VC 0, CSI_VC 1] CSI_STAT) := by
  have hok : ∀ vc, vc < 2 → (s.setRf CSI_STAT 0 1 0).vcOk vc = s.vcOk vc := fun vc hvc =>
    vcOk_of_reg_eq (reg_setRf_ne s 0 1 0 (by unfold CSI_VC CSI_STAT; omega))
  have hfind : ([0, 1].find? fun vc => !(s.setRf CSI_STAT 0 1 0).vcOk vc) = [0, 1].find? fun vc => !s.vcOk vc := by
    rw [List.find?_cons, List.find?_cons, List.find?_cons, List.find?_cons, hok 0 (by decide), hok 1 (by decide)]
    rfl
  have hidle : (!s.rbit CSI_CTRL 0 || [0, 1].all fun vc => !(s.vcOn vc && (s.csiOpen vc).isSome)) = true := by
    simp [h0, h1]
  rw [← hfind, csiApply]
  exact if_pos (by rw [hp, hidle]; rfl)

theorem csiApply_taken {s : State} (hp : s.rbit CSI_STAT 0 = true) (h0 : s.csiOpen 0 = none) (h1 : s.csiOpen 1 = none)
    (k0 : s.vcOk 0 = true) (k1 : s.vcOk 1 = true) :
    ∃ t, exec .csiCommitApply s = .next t ∧ t = { s with regs := t.regs, inForce := t.inForce, cap := t.cap } ∧
      stopsOnly s t [3, 4] ∧ inForceNow s t [CSI_CTRL, CSI_VC 0, CSI_VC 1] ∧
      t.reg CSI_STAT = putFld (s.reg CSI_STAT) 0 1 0 ∧ csrKept s t [CSI_STAT] := by
  have hfind : ([0, 1].find? fun vc => !s.vcOk vc) = none := by
    rw [List.find?_cons, List.find?_cons, k0, k1]
    rfl
  have he := csiApply_eq hp h0 h1
  rw [hfind] at he
  obtain ⟨hu, hforce⟩ := groupTaken_spec s (group := [CSI_CTRL, CSI_VC 0, CSI_VC 1]) (stat := CSI_STAT) (by decide)
  have hself := reg_setRf_self s CSI_STAT 0 1 0
  have hk := csrKept_setRf_one s CSI_STAT 0 1 0
  dsimp only at he
  generalize s.groupTaken [CSI_CTRL, CSI_VC 0, CSI_VC 1] CSI_STAT = u at *
  generalize s.setRf CSI_STAT 0 1 0 = r at *
  obtain ⟨hf, hstop⟩ := stopEach_spec csiStopped [3, 4] u
  generalize stopEach csiStopped [3, 4] u = t at *
  have htr : t.regs = r.regs := by rw [hf, hu]
  have hti : t.inForce = u.inForce := by rw [hf]
  refine ⟨t, congrArg Host.Outcome.next he, ?_, stopsOnly_congr hstop (by rw [hu]) rfl, inForceNow_congr hforce hti,
    (reg_of_regs_eq htr _).trans hself, fun a ha => (reg_of_regs_eq htr a).trans (hk a ha)⟩
  rw [htr, hti]
  exact hf.trans (congrArg (fun x : State => { x with cap := t.cap }) hu)

theorem csiApply_refused {s : State} (hp : s.rbit CSI_STAT 0 = true) (h0 : s.csiOpen 0 = none) (h1 : s.csiOpen 1 = none)
    (hk : s.vcOk 0 = false ∨ s.vcOk 1 = false) :
    ∃ t, exec .csiCommitApply s = .next t ∧ t = { s with regs := t.regs } ∧ csrKept s t [CSI_STAT] ∧
      t.rbit CSI_STAT 0 = false ∧ t.rbit CSI_STAT 2 = true ∧ t.rbit CSI_STAT 3 = s.vcOk 0 := by
  have hfind : ([0, 1].find? fun vc => !s.vcOk vc) = some (b2n (s.vcOk 0)) := by
    rw [List.find?_cons, List.find?_cons]
    cases k0 : s.vcOk 0 with
    | false => rfl
    | true =>
      rw [k0] at hk
      rw [hk.resolve_left nofun]
      rfl
  have he := csiApply_eq hp h0 h1
  rw [hfind] at he
  have hx : b2n (s.vcOk 0) < 2 ^ 1 := by cases s.vcOk 0 <;> decide
  obtain ⟨hf, hkept, hpend, hrej, -⟩ := groupRefused_spec s CSI_STAT (lo := 3) (w := 1) (by decide) (by decide) hx
  exact ⟨_, congrArg Host.Outcome.next he, hf, hkept, hpend, hrej, rbit_setRf_self _ _ (by decide)⟩

end Sys2Proof.Machine.State
end

section
/-! PROOFS. The Lookout and audio groups at their boundaries, and the commits as a whole (17 R724, R727, R728; 18 R759, R762,
R768–R771). -/

namespace Sys2Proof.Machine.State

open Sys2Proof.Spec

/-! ### The Lookout group -/

/-- What a Lookout commit may change beside the group: the exposure in force, its measurements, and the last frame forwarded. -/
def lkSettles (s t : State) : Prop :=
  t = { s with regs := t.regs, lk := { s.lk with
    fwd := t.lk.fwd, waiting := t.lk.waiting, fresh := t.lk.fresh, byEtrim := t.lk.byEtrim } } ∧
  csrKept s t [LK_EXP_STAT]

theorem lkSettles_refl (s : State) : lkSettles s s := ⟨rfl, csrKept_refl s _⟩

theorem lkSettles_trans {s t u : State} (h : lkSettles s t) (k : lkSettles t u) : lkSettles s u := by
  obtain ⟨hf, hk⟩ := h
  obtain ⟨kf, kk⟩ := k
  refine ⟨kf.trans ?_, csrKept_trans hk kk⟩
  exact congrArg (fun x : State => { x with regs := u.regs, lk := { x.lk with
    fwd := u.lk.fwd, waiting := u.lk.waiting, fresh := u.lk.fresh, byEtrim := u.lk.byEtrim } }) hf

/-- The four fields of the Lookout that a commit may set. -/
theorem lkSettles_lk (s : State) (f : Option (Nat × Word)) (w x : Option Etrim) (b : Bool) :
    lkSettles s { s with lk := { s.lk with fwd := f, waiting := w, fresh := x, byEtrim := b } } := ⟨rfl, csrKept_refl s _⟩

theorem lkSettles_setExp (s : State) (e g : Nat) : lkSettles s (s.setExp e g) :=
  ⟨rfl, csrKept_setRf (csrKept_setRf_one s LK_EXP_STAT 0 14 e) (List.mem_singleton_self _) 14 2 g⟩

theorem lkSettles_etrimApply (s : State) (x : Etrim) : lkSettles s (s.etrimApply x) :=
  lkSettles_trans (lkSettles_setExp s _ _) (lkSettles_lk (s.setExp (s.etrimNext x).1 (s.etrimNext x).2) _ none (some x) true)

/-- The last forwarded frame counts from DEC_EN's coming into force (17 R725). -/
def decRestarted (s : State) (dec : Bool) : State := if dec then { s with lk := { s.lk with fwd := none } } else s

/-- GAIN_LD's exposure and gain, or those of a measurement that has come into force (17 R724). -/
def exposureTaken (s : State) : State :=
  if s.lkOn 11 then
    { s.setExp (s.rf LK_EXP 0 14) (s.rf LK_EXP 16 2) with lk := { s.lk with waiting := none, fresh := none, byEtrim := false } }
  else match s.lk.fresh with
    | some x => if s.lkOn 9 then s.etrimApply x else s
    | none => s

/-- Without ETRIM no measurement waits. -/
def waitDropped (s : State) : State := if s.lkOn 9 then s else { s with lk := { s.lk with waiting := none } }

theorem lkSettles_decRestarted (s : State) (dec : Bool) : lkSettles s (s.decRestarted dec) := by
  unfold decRestarted
  split
  · exact lkSettles_lk s none _ _ _
  · exact lkSettles_refl s

theorem lkSettles_exposureTaken (s : State) : lkSettles s s.exposureTaken := by
  unfold exposureTaken
  split
  · exact lkSettles_trans (lkSettles_setExp s _ _)
      (lkSettles_lk (s.setExp (s.rf LK_EXP 0 14) (s.rf LK_EXP 16 2)) _ none none false)
  · split
    · split
      · exact lkSettles_etrimApply s _
      · exact lkSettles_refl s
    · exact lkSettles_refl s

theorem lkSettles_waitDropped (s : State) : lkSettles s s.waitDropped := by
  unfold waitDropped
  split
  · exact lkSettles_refl s
  · exact lkSettles_lk s _ none _ _

theorem setExp_exp (s : State) {e g : Nat} (he : e < 2 ^ 14) (hg : g < 2 ^ 2) :
    (s.setExp e g).lkExp = e ∧ (s.setExp e g).lkGain = g := by
  refine ⟨?_, ?_⟩
  · rw [lkExp, setExp, rf_setRf_ne _ _ _ _ _ _ _ (by decide), rf_setRf_self _ _ _ _ _ (by decide), Nat.mod_eq_of_lt he]
  · rw [lkGain, setExp, rf_setRf_self _ _ _ _ _ (by decide), Nat.mod_eq_of_lt hg]

/-- GAIN_LD loads the staged exposure and gain (17 R724). -/
theorem exposureTaken_loads {s : State} (h : s.lkOn 11 = true) :
    s.exposureTaken.lkExp = s.rf LK_EXP 0 14 ∧ s.exposureTaken.lkGain = s.rf LK_EXP 16 2 := by
  have hx := setExp_exp s (e := s.rf LK_EXP 0 14) (g := s.rf LK_EXP 16 2) (fld_lt _ _ _) (fld_lt _ _ _)
  have he : s.exposureTaken.regs = (s.setExp (s.rf LK_EXP 0 14) (s.rf LK_EXP 16 2)).regs := by
    rw [exposureTaken, if_pos h]
  have hr := reg_of_regs_eq he LK_EXP_STAT
  exact ⟨(rf_of_reg_eq hr 0 14).trans hx.1, (rf_of_reg_eq hr 14 2).trans hx.2⟩

theorem waitDropped_regs (s : State) : s.waitDropped.regs = s.regs := by
  unfold waitDropped
  split <;> rfl

theorem decRestarted_regs (s : State) (dec : Bool) :
    (s.decRestarted dec).regs = s.regs ∧ (s.decRestarted dec).inForce = s.inForce := by
  unfold decRestarted
  split <;> exact ⟨rfl, rfl⟩

/-- The group's checks read the group alone (17 R728). -/
theorem lkReject_of_csrKept {s t : State} (h : csrKept s t [LK_STAT]) : t.lkReject = s.lkReject := by
  have hrf : ∀ a, a ≠ LK_STAT → ∀ lo w, t.rf a lo w = s.rf a lo w := fun a ha => rf_of_reg_eq (h a (by simpa using ha))
  have hbit : ∀ a, a ≠ LK_STAT → ∀ i, t.rbit a i = s.rbit a i := fun a ha => rbit_of_reg_eq (h a (by simpa using ha))
  have hdef : ∀ n, LK_DEF n ≠ LK_STAT := fun n => by unfold LK_DEF LK_STAT; omega
  unfold lkReject
  simp only [hrf LK_WIN_X (by decide), hrf LK_WIN_Y (by decide), hrf LK_PERIOD (by decide), hbit LK_CTRL (by decide),
    hrf _ (hdef _), hbit _ (hdef _)]

theorem lkReject_lt {s : State} {why : Nat} (h : s.lkReject = some why) : why < 4 := by
  unfold lkReject at h
  dsimp only at h
  repeat' split at h
  all_goals cases h
  all_goals decide

theorem lkStat_apart : LK_STAT ∉ lkGroup := by decide

/-- What a Lookout commit brings, before its stream may stop. -/
def lkTaken (s : State) (dec : Bool) : State := (((s.groupTaken lkGroup LK_STAT).decRestarted dec).exposureTaken).waitDropped

/-- DEC_EN comes into force with the group. -/
def decStarts (s : State) : Bool := (s.setRf LK_STAT 0 1 0).rbit LK_CTRL 2 && !(s.setRf LK_STAT 0 1 0).lkOn 2

/-- The stream stops where EN or STREAM is not in force (17 R721). -/
def lkStopped (s : State) (_ : Nat) : Bool := !(s.lkOn 0 && s.lkOn 1)

theorem lkApply_eq (s : State) : s.lkApply =
    if s.rbit LK_STAT 0 && s.lk.frame.isNone then
      match (s.setRf LK_STAT 0 1 0).lkReject with
      | some why => (s.groupRefused LK_STAT).setRf LK_STAT 4 2 why
      | none => if (s.lkTaken s.decStarts).lkOn 0 && (s.lkTaken s.decStarts).lkOn 1 then s.lkTaken s.decStarts
        else (s.lkTaken s.decStarts).stopStream 1
    else s := rfl

theorem lkApply_refuses {s : State} (hp : s.rbit LK_STAT 0 = true) (hf : s.lk.frame = none) {why : Nat}
    (hj : s.lkReject = some why) : s.lkApply = (s.groupRefused LK_STAT).setRf LK_STAT 4 2 why := by
  rw [lkApply_eq, lkReject_of_csrKept (csrKept_setRf_one s LK_STAT 0 1 0), hj, hp, hf]
  rfl

theorem lkApply_takes {s : State} (hp : s.rbit LK_STAT 0 = true) (hf : s.lk.frame = none) (hj : s.lkReject = none) :
    s.lkApply = stopEach lkStopped [1] (s.lkTaken s.decStarts) := by
  have hon : (s.rbit LK_STAT 0 && s.lk.frame.isNone) = true := by rw [hp, hf]; rfl
  have hone : ∀ u : State, stopEach lkStopped [1] u = if u.lkOn 0 && u.lkOn 1 then u else u.stopStream 1 := fun u => by
    change (if lkStopped u 1 then u.stopStream 1 else u) = _
    unfold lkStopped
    cases (u.lkOn 0 && u.lkOn 1) <;> rfl
  rw [lkApply_eq, lkReject_of_csrKept (csrKept_setRf_one s LK_STAT 0 1 0), hj, if_pos hon, hone]

theorem lkTaken_spec (s : State) (dec : Bool) : ∃ u, u = { s with regs := (s.setRf LK_STAT 0 1 0).regs, inForce := u.inForce } ∧
    inForceNow s u lkGroup ∧ lkSettles u (s.lkTaken dec) ∧
    (s.rbit LK_CTRL 11 = true → (s.lkTaken dec).lkExp = s.rf LK_EXP 0 14 ∧ (s.lkTaken dec).lkGain = s.rf LK_EXP 16 2) := by
  obtain ⟨hu, hforce⟩ := groupTaken_spec s lkStat_apart
  have hk := csrKept_setRf_one s LK_STAT 0 1 0
  unfold lkTaken
  generalize s.groupTaken lkGroup LK_STAT = u at *
  generalize s.setRf LK_STAT 0 1 0 = r at *
  obtain ⟨hvr, hvi⟩ := decRestarted_regs u dec
  have hv := lkSettles_decRestarted u dec
  generalize u.decRestarted dec = v at *
  refine ⟨u, hu, hforce, lkSettles_trans hv (lkSettles_trans (lkSettles_exposureTaken v) (lkSettles_waitDropped _)),
    fun hx => ?_⟩
  have hreg : ∀ a, a ∉ [LK_STAT] → v.reg a = s.reg a := fun a ha =>
    (reg_of_regs_eq (hvr.trans (show u.regs = r.regs by rw [hu])) a).trans (hk a ha)
  have hon : v.lkOn 11 = true := by
    have hf : v.force LK_CTRL = s.reg LK_CTRL := (force_of_eq hvi _).trans (hforce.1 _ (by decide))
    rw [lkOn, fbit, ff, hf]
    exact hx
  obtain ⟨he, hg⟩ := exposureTaken_loads hon
  have hw := reg_of_regs_eq (waitDropped_regs v.exposureTaken) LK_EXP_STAT
  exact ⟨(rf_of_reg_eq hw 0 14).trans (he.trans (rf_of_reg_eq (hreg _ (by decide)) 0 14)),
    (rf_of_reg_eq hw 14 2).trans (hg.trans (rf_of_reg_eq (hreg _ (by decide)) 16 2))⟩

theorem lkApply_taken {s : State} (hp : s.rbit LK_STAT 0 = true) (hf : s.lk.frame = none) (hj : s.lkReject = none) :
    ∃ t, exec .lkCommitApply s = .next t ∧
      t = { s with regs := t.regs, inForce := t.inForce, cap := t.cap, lk := { s.lk with
        fwd := t.lk.fwd, waiting := t.lk.waiting, fresh := t.lk.fresh, byEtrim := t.lk.byEtrim } } ∧
      stopsOnly s t [1] ∧ inForceNow s t lkGroup ∧
      t.reg LK_STAT = putFld (s.reg LK_STAT) 0 1 0 ∧ csrKept s t [LK_STAT, LK_EXP_STAT] ∧
      (s.rbit LK_CTRL 11 = true → t.lkExp = s.rf LK_EXP 0 14 ∧ t.lkGain = s.rf LK_EXP 16 2) := by
  have he := lkApply_takes hp hf hj
  obtain ⟨u, hu, hforce, ⟨hv, hvk⟩, hload⟩ := lkTaken_spec s s.decStarts
  generalize s.lkTaken s.decStarts = v at *
  have hself := reg_setRf_self s LK_STAT 0 1 0
  have hk := csrKept_setRf_one s LK_STAT 0 1 0
  generalize s.setRf LK_STAT 0 1 0 = r at *
  obtain ⟨ht, hstop⟩ := stopEach_spec lkStopped [1] v
  generalize stopEach lkStopped [1] v = t at *
  have hur : u.regs = r.regs := by rw [hu]
  have htr : t.regs = v.regs := by rw [ht]
  have htl : t.lk = v.lk := by rw [ht]
  have hvi : v.inForce = u.inForce := by rw [hv]
  have hti : t.inForce = u.inForce := by rw [ht]; exact hvi
  have hvc : s.cap = v.cap := by rw [hv, hu]
  have hreg : ∀ a, a ∉ [LK_EXP_STAT] → t.reg a = r.reg a := fun a ha =>
    (reg_of_regs_eq htr a).trans ((hvk a ha).trans (reg_of_regs_eq hur a))
  refine ⟨t, congrArg Host.Outcome.next he, ?_, stopsOnly_congr hstop hvc rfl, inForceNow_congr hforce hti,
    (hreg _ (by decide)).trans hself, fun a ha => ?_, fun hx => ?_⟩
  · rw [htr, htl, hti]
    refine ht.trans ((congrArg (fun x : State => { x with cap := t.cap }) hv).trans ?_)
    exact congrArg (fun x : State => { x with regs := v.regs, cap := t.cap, lk := { x.lk with
      fwd := v.lk.fwd, waiting := v.lk.waiting, fresh := v.lk.fresh, byEtrim := v.lk.byEtrim } }) hu
  · simp only [List.mem_cons, List.not_mem_nil, or_false, not_or] at ha
    exact (hreg a (by simpa using ha.2)).trans (hk a (by simpa using ha.1))
  · obtain ⟨h1, h2⟩ := hload hx
    exact ⟨(rf_of_reg_eq (reg_of_regs_eq htr _) 0 14).trans h1, (rf_of_reg_eq (reg_of_regs_eq htr _) 14 2).trans h2⟩

theorem lkApply_refused {s : State} {why : Nat} (hp : s.rbit LK_STAT 0 = true) (hf : s.lk.frame = none)
    (hj : s.lkReject = some why) :
    ∃ t, exec .lkCommitApply s = .next t ∧ t = { s with regs := t.regs } ∧
      csrKept s t [LK_STAT] ∧ t.rbit LK_STAT 0 = false ∧ t.rbit LK_STAT 2 = true ∧ t.rf LK_STAT 4 2 = why := by
  exact ⟨_, congrArg Host.Outcome.next (lkApply_refuses hp hf hj), groupRefused_spec s LK_STAT (by decide) (by decide) (lkReject_lt hj)⟩

/-! ### The audio group -/

/-- The group's checks read the group alone (18 R770). -/
theorem auReject_of_csrKept {s t : State} (h : csrKept s t [AU_STAT]) : t.auReject = s.auReject := by
  have hrf : ∀ a, a ≠ AU_STAT → ∀ lo w, t.rf a lo w = s.rf a lo w := fun a ha => rf_of_reg_eq (h a (by simpa using ha))
  have hbit : ∀ a, a ≠ AU_STAT → ∀ i, t.rbit a i = s.rbit a i := fun a ha => rbit_of_reg_eq (h a (by simpa using ha))
  unfold auReject
  simp only [hrf AU_RATE (by decide), hrf AU_CAP5 (by decide), hrf AU_CAP6 (by decide), hrf AU_I2S (by decide),
    hbit CK_KA_CFG (by decide), hbit AU_I2S (by decide), hbit AU_CAP6 (by decide), hbit AU_PLAY (by decide),
    hbit AU_CN (by decide)]

theorem auReject_lt {s : State} {why : Nat} (h : s.auReject = some why) : why < 8 := by
  unfold auReject at h
  dsimp only at h
  repeat' split at h
  all_goals cases h
  all_goals decide

theorem auStat_apart : AU_STAT ∉ auGroup := by decide

/-- NOW is spent. -/
def nowCleared (s : State) : State := { s with audio := { s.audio with now := false } }

/-- A commit with GAIN_LD loads the gains (18 R756). -/
def gainsLoaded (s : State) : State :=
  if s.fbit AU_CTRL 1 then { s.setReg AU_GAIN_STAT (s.reg AU_PGA) with audio := { s.audio with byGtrim := false } } else s

/-- An output taken out of force is released at once (18 R759, R762). -/
def outputsReleased (s : State) : State :=
  { s with audio := { s.audio with
    dac := if s.fbit AU_PLAY 0 then s.audio.dac else (0, 0), tx := if s.fbit AU_PLAY 3 then s.audio.tx else [] } }

/-- GTRIM's quiet counts start again (18 R755). -/
def quietCleared (s : State) (gt : Bool) : State :=
  if s.fbit AU_CTRL 1 || gt then { s with audio := { s.audio with quiet0 := 0, quiet1 := 0 } } else s

/-- An output that comes into force has played nothing (18 R761). -/
def playedCleared (s : State) (out : Bool) : State :=
  if out then { s with audio := { s.audio with played := false, inUnder := false } } else s

/-- A restart, where one is due (18 R771). -/
def restartedIf (s : State) (b : Bool) : State := if b then s.auRestart else s

/-- The PLL relocks, where KA moves (18 R771). -/
def relockedIf (s : State) (b : Bool) : State := if b then { s with audio := { s.audio with relock := true } } else s

/-- KA moves with the staged group. -/
def kaMoves (s : State) : Bool := s.rbit CK_KA_CFG 0 != s.fbit CK_KA_CFG 0

/-- The blocks start again: KA or the rates move, or RUN comes into force (18 R771). -/
def auRestarts (s : State) : Bool :=
  s.kaMoves || (s.rf AU_RATE 0 6 != s.ff AU_RATE 0 6) || (s.rbit AU_CTRL 0 && !s.auRun)

/-- GTRIM, and an output, come into force with the group. -/
def gtStarts (s : State) : Bool := s.rbit AU_GTRIM 0 && !s.fbit AU_GTRIM 0
def outStarts (s : State) : Bool := (s.rbit AU_PLAY 0 && !s.fbit AU_PLAY 0) || (s.rbit AU_PLAY 3 && !s.fbit AU_PLAY 3)

/-- The group as a commit brings it into force, before a restart. -/
def auEased (s : State) : State :=
  ((((s.commit auGroup).gainsLoaded).outputsReleased).quietCleared s.gtStarts).playedCleared s.outStarts

/-- What an audio commit brings, before its streams may stop. -/
def auTaken (s : State) : State := (s.auEased.restartedIf s.auRestarts).relockedIf s.kaMoves

theorem auApply_eq (s : State) : s.auApply = match (s.setRf AU_STAT 0 1 0).nowCleared.auReject with
    | some why => (((s.setRf AU_STAT 0 1 0).nowCleared).setRf AU_STAT 2 1 1).setRf AU_STAT 4 3 why
    | none => (s.setRf AU_STAT 0 1 0).nowCleared.auTaken.auStop := rfl

/-- What a commit without a restart may take from `b` in the audio: the outputs, GTRIM's counts, and what has been played. -/
def easedAudio (a b : Audio) : Audio :=
  { a with
    dac := b.dac, tx := b.tx, byGtrim := b.byGtrim, quiet0 := b.quiet0, quiet1 := b.quiet1, played := b.played
    inUnder := b.inUnder }

def eases (s t : State) : Prop := t = { s with regs := t.regs, audio := easedAudio s.audio t.audio }

theorem eases_trans {s t u : State} (h : eases s t) (k : eases t u) : eases s u :=
  k.trans (congrArg (fun x : State => { x with regs := u.regs, audio := easedAudio x.audio u.audio }) h)

/-- Registers and outputs stand. -/
def outputsKept (s t : State) : Prop := t.regs = s.regs ∧ t.audio.dac = s.audio.dac ∧ t.audio.tx = s.audio.tx

theorem gainsLoaded_spec (s : State) :
    eases s s.gainsLoaded ∧ csrKept s s.gainsLoaded [AU_GAIN_STAT] ∧
    s.gainsLoaded.reg AU_GAIN_STAT = (if s.fbit AU_CTRL 1 then s.reg AU_PGA else s.reg AU_GAIN_STAT) ∧
    s.gainsLoaded.audio.dac = s.audio.dac ∧ s.gainsLoaded.audio.tx = s.audio.tx := by
  unfold gainsLoaded
  split
  · exact ⟨rfl, csrKept_setReg (csrKept_refl s _) (List.mem_singleton_self _) _, reg_setReg_self s AU_GAIN_STAT _, rfl, rfl⟩
  · exact ⟨rfl, csrKept_refl s _, rfl, rfl, rfl⟩

theorem quietCleared_spec (s : State) (gt : Bool) : eases s (s.quietCleared gt) ∧ outputsKept s (s.quietCleared gt) := by
  unfold quietCleared
  split <;> exact ⟨rfl, rfl, rfl, rfl⟩

theorem playedCleared_spec (s : State) (out : Bool) :
    eases s (s.playedCleared out) ∧ outputsKept s (s.playedCleared out) := by
  unfold playedCleared
  split <;> exact ⟨rfl, rfl, rfl, rfl⟩

theorem auEased_spec (s : State) :
    let v := s.auEased
    v = { s with regs := v.regs, inForce := v.inForce, audio := easedAudio s.audio v.audio } ∧ inForceNow s v auGroup ∧
    csrKept s v [AU_GAIN_STAT] ∧
    v.reg AU_GAIN_STAT = (if s.rbit AU_CTRL 1 then s.reg AU_PGA else s.reg AU_GAIN_STAT) ∧
    v.audio.dac = (if s.rbit AU_PLAY 0 then s.audio.dac else (0, 0)) ∧
    v.audio.tx = (if s.rbit AU_PLAY 3 then s.audio.tx else []) := by
  obtain ⟨hc, hforce⟩ := commit_spec auGroup s
  have hbit : ∀ a ∈ auGroup, ∀ i, (s.commit auGroup).fbit a i = s.rbit a i := fun a ha i =>
    congrArg (fun x : Word => fld x i 1 == 1) ((hforce a).trans (if_pos ha))
  have hnow := forced_commit hforce
  unfold auEased
  generalize s.commit auGroup = c at *
  obtain ⟨hg, hgk, hgr, hgd, hgt⟩ := gainsLoaded_spec c
  generalize c.gainsLoaded = g at *
  have ho : eases g g.outputsReleased := rfl
  have hor : g.outputsReleased.regs = g.regs := rfl
  have hod : g.outputsReleased.audio.dac = if g.fbit AU_PLAY 0 then g.audio.dac else (0, 0) := rfl
  have hot : g.outputsReleased.audio.tx = if g.fbit AU_PLAY 3 then g.audio.tx else [] := rfl
  generalize g.outputsReleased = o at *
  obtain ⟨hq, hqr, hqd, hqt⟩ := quietCleared_spec o s.gtStarts
  generalize o.quietCleared s.gtStarts = q at *
  obtain ⟨hv, hvr, hvd, hvt⟩ := playedCleared_spec q s.outStarts
  generalize q.playedCleared s.outStarts = v at *
  have he : eases c v := eases_trans hg (eases_trans ho (eases_trans hq hv))
  have hvi : v.inForce = c.inForce := by rw [he]
  have hgi : g.inForce = c.inForce := by rw [hg]
  have hgbit : ∀ a ∈ auGroup, ∀ i, g.fbit a i = s.rbit a i := fun a ha i =>
    (congrArg (fun x : Word => fld x i 1 == 1) (force_of_eq hgi a)).trans (hbit a ha i)
  have hreg : ∀ a, v.reg a = g.reg a := reg_of_regs_eq (hvr.trans (hqr.trans hor))
  have hcr : ∀ a, c.reg a = s.reg a := reg_of_regs_eq (by rw [hc])
  have hca : c.audio = s.audio := by rw [hc]
  dsimp only
  refine ⟨?_, inForceNow_congr hnow hvi, fun a ha => (hreg a).trans ((hgk a ha).trans (hcr a)), ?_, ?_, ?_⟩
  · rw [hvi]
    exact he.trans (congrArg (fun x : State => { x with regs := v.regs, audio := easedAudio x.audio v.audio }) hc)
  · rw [hreg, hgr, hbit _ (by decide), hcr, hcr]
  · rw [hvd, hqd, hod, hgbit _ (by decide), hgd, hca]
  · rw [hvt, hqt, hot, hgbit _ (by decide), hgt, hca]

/-! ### A restart and a relock -/

/-- The audio as a restart leaves it (18 R771). -/
def restartedAudio (x : Audio) : Audio :=
  { x with
    queue := [], playing := [], inUnder := false, tick := 0, start := 0, ticks := 0, block := 0
    past := [], quiet0 := 0, quiet1 := 0, rxBlock := [], slips := 0 }

/-- Blocks queued or playing, which a restart discards. -/
def blocksHeld (x : Audio) : Nat := x.queue.length + if x.playing = [] then 0 else 1

theorem auRestart_eq (s : State) :
    s.auRestart = { s.bumpBy AU_CNT 24 8 (blocksHeld s.audio) with audio := restartedAudio s.audio } := by
  have hn : s.audio.queue.length + b2n (!s.audio.playing.isEmpty) = blocksHeld s.audio := by
    unfold blocksHeld
    cases s.audio.playing <;> rfl
  rw [← hn]
  rfl

theorem restartedIf_spec (s : State) (b : Bool) :
    let t := s.restartedIf b
    t = { s with regs := t.regs, audio := t.audio } ∧ csrKept s t [AU_CNT] ∧
    t.audio = (if b then restartedAudio s.audio else s.audio) ∧
    t.reg AU_CNT = (if b then putFld (s.reg AU_CNT) 24 8 (min (s.rf AU_CNT 24 8 + blocksHeld s.audio) 255)
      else s.reg AU_CNT) := by
  cases b with
  | false => exact ⟨rfl, csrKept_refl s _, rfl, rfl⟩
  | true =>
    have he : s.restartedIf true = s.auRestart := rfl
    have hk : csrKept s (s.bumpBy AU_CNT 24 8 (blocksHeld s.audio)) [AU_CNT] := csrKept_setRf_one s AU_CNT 24 8 _
    have hr : (s.bumpBy AU_CNT 24 8 (blocksHeld s.audio)).reg AU_CNT =
        putFld (s.reg AU_CNT) 24 8 (min (s.rf AU_CNT 24 8 + blocksHeld s.audio) 255) := reg_setRf_self s AU_CNT 24 8 _
    have hf := bumpBy_frame s AU_CNT 24 8 (blocksHeld s.audio)
    dsimp only
    rw [he, auRestart_eq]
    generalize s.bumpBy AU_CNT 24 8 (blocksHeld s.audio) = r at *
    exact ⟨congrArg (fun x : State => { x with audio := restartedAudio s.audio }) hf, hk, rfl, hr⟩

theorem relockedIf_eq (s : State) (b : Bool) :
    s.relockedIf b = { s with audio := { s.audio with relock := s.audio.relock || b } } := by
  cases b with
  | false => rw [Bool.or_false]; rfl
  | true => rw [Bool.or_true]; rfl

/-- The whole of an audio commit that passes, of the state with PEND and NOW clear. -/
theorem auTaken_spec (s : State) :
    let t := s.auTaken
    t = { s with regs := t.regs, inForce := t.inForce, audio := t.audio } ∧ inForceNow s t auGroup ∧
    csrKept s t [AU_GAIN_STAT, AU_CNT] ∧
    t.reg AU_GAIN_STAT = (if s.rbit AU_CTRL 1 then s.reg AU_PGA else s.reg AU_GAIN_STAT) ∧
    (∃ v : Audio, v = easedAudio s.audio v ∧ v.dac = (if s.rbit AU_PLAY 0 then s.audio.dac else (0, 0)) ∧
      v.tx = (if s.rbit AU_PLAY 3 then s.audio.tx else []) ∧
      t.audio = { (if s.auRestarts then restartedAudio v else v) with relock := s.audio.relock || s.kaMoves }) ∧
    t.reg AU_CNT = (if s.auRestarts then putFld (s.reg AU_CNT) 24 8 (min (s.rf AU_CNT 24 8 + blocksHeld s.audio) 255)
      else s.reg AU_CNT) := by
  obtain ⟨he, hnow, hk, hgain, hdac, htx⟩ := auEased_spec s
  unfold auTaken
  generalize s.auEased = v at *
  obtain ⟨hr, hrk, hra, hrc⟩ := restartedIf_spec v s.auRestarts
  generalize v.restartedIf s.auRestarts = w at *
  have hva : v.audio = easedAudio s.audio v.audio := congrArg State.audio he
  have hvc : v.reg AU_CNT = s.reg AU_CNT := hk _ (by decide)
  have hvr : v.audio.relock = s.audio.relock := by rw [hva]; rfl
  have hwr : w.audio.relock = s.audio.relock := by
    rw [hra]
    split <;> exact hvr
  have hheld : blocksHeld v.audio = blocksHeld s.audio := by rw [hva]; rfl
  have hwi : w.inForce = v.inForce := by rw [hr]
  have hmem : AU_GAIN_STAT ∉ [AU_CNT] := by decide
  rw [relockedIf_eq]
  refine ⟨?_, inForceNow_congr hnow hwi, fun a ha => ?_, (hrk _ hmem).trans hgain, ⟨v.audio, hva, hdac, htx, ?_⟩, ?_⟩
  · refine (congrArg (fun x : State => { x with audio := { w.audio with relock := w.audio.relock || s.kaMoves } }) hr).trans ?_
    rw [hwi]
    exact congrArg (fun x : State => { x with
      regs := w.regs, inForce := v.inForce, audio := { w.audio with relock := w.audio.relock || s.kaMoves } }) he
  · simp only [List.mem_cons, List.not_mem_nil, or_false, not_or] at ha
    exact (hrk a (by simpa using ha.2)).trans (hk a (by simpa using ha.1))
  · rw [← hra, hwr]
  · rw [hvc, rf_of_reg_eq hvc, hheld] at hrc
    exact hrc

/-- A commit that waits for its boundary meets it where RUN is out of force or a block ends (18 R768, R769). -/
theorem auCommit_meets {s : State} (hp : s.rbit AU_STAT 0 = true) (hb : s.auRun = false ∨ s.audio.ticks = 0)
    (pdm adc : List (List Word)) :
    exec (if s.audio.now then .auCommitNow pdm adc else .auCommitApply) s = .next s.auApply := by
  cases hn : s.audio.now with
  | true =>
    have hend : (s.auRun && decide (s.audio.ticks ≠ 0)) = false := by
      rcases hb with h | h <;> simp [h]
    change Host.Outcome.next (s.auCommitNow pdm adc) = _
    rw [auCommitNow, hp, hn, Bool.and_self, if_pos rfl, hend, if_neg nofun]
  | false =>
    have hmeet : (!s.auRun || decide (s.audio.ticks = 0)) = true := by
      rcases hb with h | h <;> simp [h]
    refine congrArg Host.Outcome.next (if_pos ?_)
    rw [hp, hn, hmeet]
    rfl

theorem auRestarts_iff (s : State) : s.auRestarts = true ↔
    s.rf AU_RATE 0 6 ≠ s.ff AU_RATE 0 6 ∨ s.rbit CK_KA_CFG 0 ≠ s.fbit CK_KA_CFG 0 ∨
      (s.rbit AU_CTRL 0 = true ∧ s.auRun = false) := by
  unfold auRestarts kaMoves
  simp only [Bool.or_eq_true, bne_iff_ne, Bool.and_eq_true, Bool.not_eq_true']
  rw [or_assoc, or_left_comm]

theorem auApply_refused {s : State} {why : Nat} (hj : s.auReject = some why) :
    ∃ t, Host.Outcome.next s.auApply = (.next t : Out) ∧ t = { s with regs := t.regs, audio := { s.audio with now := false } } ∧
      csrKept s t [AU_STAT] ∧ t.rbit AU_STAT 0 = false ∧ t.rbit AU_STAT 2 = true ∧ t.rf AU_STAT 4 3 = why := by
  have hu : (s.setRf AU_STAT 0 1 0).nowCleared.auReject = some why :=
    (auReject_of_csrKept (csrKept_setRf_one s AU_STAT 0 1 0)).trans hj
  have he := auApply_eq s
  rw [hu] at he
  obtain ⟨hf, hrest⟩ := groupRefused_spec s.nowCleared AU_STAT (lo := 4) (w := 3) (by decide) (by decide) (auReject_lt hj)
  exact ⟨_, congrArg Host.Outcome.next he, hf, hrest⟩

/-- Neither depends on what the status register shows. -/
theorem auRestarts_of_csrKept {s t : State} (h : csrKept s t [AU_STAT]) (hf : t.inForce = s.inForce) :
    t.kaMoves = s.kaMoves ∧ t.auRestarts = s.auRestarts := by
  have hreg : ∀ a, a ≠ AU_STAT → t.reg a = s.reg a := fun a ha => h a (by simpa using ha)
  have hbit : ∀ a i, t.fbit a i = s.fbit a i := fun a i => congrArg (fun x : Word => fld x i 1 == 1) (force_of_eq hf a)
  have hka : t.kaMoves = s.kaMoves := by
    rw [kaMoves, rbit_of_reg_eq (hreg _ (by decide)), hbit]
    rfl
  have hrate : t.ff AU_RATE 0 6 = s.ff AU_RATE 0 6 := congrArg (fun x : Word => fld x 0 6) (force_of_eq hf _)
  have hrun : t.auRun = s.auRun := hbit AU_CTRL 0
  refine ⟨hka, ?_⟩
  rw [auRestarts, hka, rf_of_reg_eq (hreg _ (by decide)), hrate, rbit_of_reg_eq (hreg _ (by decide)), hrun]
  rfl

/-- The commit of a state, with its PEND and NOW cleared first. -/
theorem auCommitted_spec (s : State) :
    let t := (s.setRf AU_STAT 0 1 0).nowCleared.auTaken
    t = { s with regs := t.regs, inForce := t.inForce, audio := t.audio } ∧ inForceNow s t auGroup ∧
    t.reg AU_STAT = putFld (s.reg AU_STAT) 0 1 0 ∧ csrKept s t [AU_STAT, AU_GAIN_STAT, AU_CNT] ∧
    t.reg AU_GAIN_STAT = (if s.rbit AU_CTRL 1 then s.reg AU_PGA else s.reg AU_GAIN_STAT) ∧
    (∃ v : Audio, v = easedAudio { s.audio with now := false } v ∧
      v.dac = (if s.rbit AU_PLAY 0 then s.audio.dac else (0, 0)) ∧ v.tx = (if s.rbit AU_PLAY 3 then s.audio.tx else []) ∧
      t.audio = { (if s.auRestarts then restartedAudio v else v) with relock := s.audio.relock || s.kaMoves }) ∧
    t.reg AU_CNT = (if s.auRestarts then putFld (s.reg AU_CNT) 24 8 (min (s.rf AU_CNT 24 8 + blocksHeld s.audio) 255)
      else s.reg AU_CNT) := by
  have hk : csrKept s (s.setRf AU_STAT 0 1 0).nowCleared [AU_STAT] := csrKept_setRf_one s AU_STAT 0 1 0
  have hself : (s.setRf AU_STAT 0 1 0).nowCleared.reg AU_STAT = putFld (s.reg AU_STAT) 0 1 0 := reg_setRf_self s AU_STAT 0 1 0
  have hu : (s.setRf AU_STAT 0 1 0).nowCleared =
      { s with regs := (s.setRf AU_STAT 0 1 0).nowCleared.regs, audio := { s.audio with now := false } } := rfl
  generalize (s.setRf AU_STAT 0 1 0).nowCleared = u at *
  have hui : u.inForce = s.inForce := by rw [hu]
  have hua : u.audio = { s.audio with now := false } := by rw [hu]
  obtain ⟨hka, hres⟩ := auRestarts_of_csrKept hk hui
  obtain ⟨ht, hnow, htk, hgain, ⟨v, hv, hdac, htx, ha⟩, hcnt⟩ := auTaken_spec u
  generalize u.auTaken = t at *
  have hreg : ∀ a, a ≠ AU_STAT → u.reg a = s.reg a := fun a ha => hk a (by simpa using ha)
  have hbit : ∀ a i, a ≠ AU_STAT → u.rbit a i = s.rbit a i := fun a i ha => rbit_of_reg_eq (hreg a ha) i
  rw [hua] at hv hdac htx ha hcnt
  rw [hbit _ _ (by decide)] at hgain hdac htx
  rw [hreg _ (by decide), hreg _ (by decide)] at hgain
  rw [hres, hka] at ha
  rw [hres, hreg _ (by decide), rf_of_reg_eq (hreg _ (by decide))] at hcnt
  refine ⟨ht.trans ?_, ⟨fun a ha => ?_, fun a ha => (hnow.2 a ha).trans (force_of_eq hui a)⟩, (htk _ (by decide)).trans hself,
    fun a ha => ?_, hgain, ⟨v, hv, hdac, htx, ha⟩, hcnt⟩
  · exact congrArg (fun x : State => { x with regs := t.regs, inForce := t.inForce, audio := t.audio }) hu
  · exact (hnow.1 a ha).trans (hreg a (ne_of_mem_of_not_mem ha auStat_apart))
  · simp only [List.mem_cons, List.not_mem_nil, or_false, not_or] at ha
    exact (htk a (by simp [ha.2])).trans (hreg a ha.1)

theorem auApply_taken {s : State} (hj : s.auReject = none) :
    ∃ t, Host.Outcome.next s.auApply = (.next t : Out) ∧
      t = { s with regs := t.regs, inForce := t.inForce, audio := t.audio, cap := t.cap } ∧
      stopsOnly s t [5, 6, 7] ∧ inForceNow s t auGroup ∧ t.reg AU_STAT = putFld (s.reg AU_STAT) 0 1 0 ∧
      csrKept s t [AU_STAT, AU_GAIN_STAT, AU_CNT] ∧ t.audio.now = false ∧
      t.audio.rxLast = s.audio.rxLast ∧ t.audio.rxNew = s.audio.rxNew ∧ t.audio.time = s.audio.time ∧
      t.audio.dac = (if s.rbit AU_PLAY 0 then s.audio.dac else (0, 0)) ∧
      t.audio.tx = (if s.rbit AU_PLAY 3 then s.audio.tx else []) ∧
      t.reg AU_GAIN_STAT = (if s.rbit AU_CTRL 1 then s.reg AU_PGA else s.reg AU_GAIN_STAT) ∧
      t.audio.relock = (s.audio.relock || s.rbit CK_KA_CFG 0 != s.fbit CK_KA_CFG 0) ∧
      (if s.rf AU_RATE 0 6 ≠ s.ff AU_RATE 0 6 ∨ s.rbit CK_KA_CFG 0 ≠ s.fbit CK_KA_CFG 0 ∨
          (s.rbit AU_CTRL 0 = true ∧ s.auRun = false) then
        t.audio.tick = 0 ∧ t.audio.start = 0 ∧ t.audio.ticks = 0 ∧ t.audio.block = 0 ∧ t.audio.queue = [] ∧
        t.audio.playing = [] ∧ t.audio.past = [] ∧ t.audio.rxBlock = [] ∧ t.audio.slips = 0 ∧
        t.reg AU_CNT = putFld (s.reg AU_CNT) 24 8
          (min (s.rf AU_CNT 24 8 + (s.audio.queue.length + if s.audio.playing = [] then 0 else 1)) 255)
      else
        t.audio = { s.audio with
          now := false, dac := t.audio.dac, tx := t.audio.tx, byGtrim := t.audio.byGtrim, quiet0 := t.audio.quiet0
          quiet1 := t.audio.quiet1, played := t.audio.played, inUnder := t.audio.inUnder } ∧
        t.reg AU_CNT = s.reg AU_CNT) := by
  have hu : (s.setRf AU_STAT 0 1 0).nowCleared.auReject = none :=
    (auReject_of_csrKept (csrKept_setRf_one s AU_STAT 0 1 0)).trans hj
  have he := auApply_eq s
  rw [hu] at he
  dsimp only at he
  obtain ⟨hf, hnow, hstat, hk, hgain, ⟨v, hv, hdac, htx, ha⟩, hcnt⟩ := auCommitted_spec s
  generalize (s.setRf AU_STAT 0 1 0).nowCleared.auTaken = w at *
  have hstop : w.auStop = stopEach auStopped [5, 6, 7] w := rfl
  obtain ⟨htf, hts⟩ := stopEach_spec auStopped [5, 6, 7] w
  rw [← hstop] at htf hts
  generalize w.auStop = t at *
  have htr : t.regs = w.regs := by rw [htf]
  have hti : t.inForce = w.inForce := by rw [htf]
  have hta : t.audio = w.audio := by rw [htf]
  have hwc : s.cap = w.cap := by rw [hf]
  have hreg : ∀ a, t.reg a = w.reg a := reg_of_regs_eq htr
  have hframe : t = { s with regs := t.regs, inForce := t.inForce, audio := t.audio, cap := t.cap } := by
    rw [htr, hti, hta]
    exact htf.trans (congrArg (fun x : State => { x with cap := t.cap }) hf)
  have hka : (s.audio.relock || s.kaMoves) = (s.audio.relock || s.rbit CK_KA_CFG 0 != s.fbit CK_KA_CFG 0) := rfl
  rw [ha] at hta
  rw [← hreg] at hstat hgain hcnt
  have hkt : csrKept s t [AU_STAT, AU_GAIN_STAT, AU_CNT] := fun a ha => (hreg a).trans (hk a ha)
  have hforce := inForceNow_congr hnow hti
  refine ⟨t, congrArg Host.Outcome.next he, hframe, stopsOnly_congr hts hwc rfl, hforce, hstat, hkt, ?_⟩
  rw [← hdac, ← htx, ← hka, hgain]
  by_cases hb : s.auRestarts = true
  · rw [if_pos hb] at hta hcnt
    rw [if_pos ((auRestarts_iff s).1 hb), hta, hcnt]
    rw [hv]
    exact ⟨rfl, rfl, rfl, rfl, rfl, rfl, rfl, rfl, rfl, rfl, rfl, rfl, rfl, rfl, rfl, rfl, rfl, rfl⟩
  · have hn : s.kaMoves = false := by
      refine Bool.eq_false_iff.2 fun hx => hb ?_
      rw [auRestarts, hx]
      rfl
    rw [if_neg hb] at hta hcnt
    rw [if_neg fun h => hb ((auRestarts_iff s).2 h), hta, hcnt, hn, Bool.or_false]
    refine ⟨?_, ?_, ?_, ?_, rfl, rfl, rfl, rfl, ?_, rfl⟩
    all_goals rw [hv]
    all_goals rfl

end Sys2Proof.Machine.State

namespace Sys2Proof

open Machine Machine.State Spec

/-- Settles O23: each group by the rule of its own commit. -/
theorem commitsApplyOrAreRejected : Obligations.CommitsApplyOrAreRejected := by
  intro s
  refine ⟨fun hp hb => ?_, fun hp hf => ⟨fun hj => lkApply_taken hp hf hj, fun why hj => lkApply_refused hp hf hj⟩,
    fun hp h0 h1 => ⟨fun k0 k1 => csiApply_taken hp h0 h1 k0 k1, fun hk => csiApply_refused hp h0 h1 hk⟩,
    fun hp hb pdm adc c hc => ?_,
    fun n hn hm hr hd => ⟨fun hj => rgApply_taken hn hm hr hd hj, fun why hj => rgApply_refused hn hm hr hd hj⟩, rfl⟩
  · exact ⟨s.trApply, rfl, trApply_spec hp hb⟩
  · rw [hc, auCommit_meets hp hb]
    exact ⟨fun hj => auApply_taken hj, fun why hj => auApply_refused hj⟩

end Sys2Proof
end

section
/-! PROOFS. What no command changes: registers, memory, the device, regions and the Capstan (05 R215; 21 R860; log 2). -/

namespace Sys2Proof.Machine.State

open Sys2Proof.Spec

/-! ### What is fixed -/

/-- What is fixed in the part, and the commands that wait behind the one that runs. -/
def fixed (s : State) : Part × List Instr := (s.part, s.pending)

@[simp] theorem fixed_eta (s : State) : (s.part, s.pending) = s.fixed := (rfl)

/-- A state written out has fixed its first two fields. The proof is no bare `rfl`, so that `simp` rewrites with
it and the kernel does not evaluate the other fields. -/
@[simp] theorem fixed_mk (p q free dev deck regs inForce mem ecc inject scrubAt rgRef rgPend cap looms harrows mills fifos
    bosun sw audio cn trim lk csi i2c i2cOut units view viewOut) :
    fixed ⟨p, q, free, dev, deck, regs, inForce, mem, ecc, inject, scrubAt, rgRef, rgPend, cap, looms, harrows, mills, fifos,
      bosun, sw, audio, cn, trim, lk, csi, i2c, i2cOut, units, view, viewOut⟩ = (p, q) := (rfl)

@[simp] theorem fixed_ite (c : Prop) [Decidable c] (s t : State) :
    (if c then s else t).fixed = if c then s.fixed else t.fixed := apply_ite _ _ _ _
@[simp] theorem fixed_fst_ite {α : Type} (c : Prop) [Decidable c] (x y : State × α) :
    (if c then x else y).1.fixed = if c then x.1.fixed else y.1.fixed := apply_ite (fun z : State × α => z.1.fixed) _ _ _
@[simp] theorem fixed_snd_ite {α : Type} (c : Prop) [Decidable c] (x y : α × State) :
    (if c then x else y).2.fixed = if c then x.2.fixed else y.2.fixed := apply_ite (fun z : α × State => z.2.fixed) _ _ _

@[simp] theorem fixed_foldl {α : Type} (f : State → α → State) (h : ∀ t a, (f t a).fixed = t.fixed) (l : List α)
    (s : State) : (l.foldl f s).fixed = s.fixed :=
  foldl_keeps (fun t : State => t.fixed = s.fixed) f (fun t a e => (h t a).trans e) l s rfl
@[simp] theorem fixed_foldl_fst {α β : Type} (f : State × β → α → State × β) (h : ∀ t a, (f t a).1.fixed = t.1.fixed)
    (l : List α) (x : State × β) : (l.foldl f x).1.fixed = x.1.fixed :=
  foldl_keeps (fun t : State × β => t.1.fixed = x.1.fixed) f (fun t a e => (h t a).trans e) l x rfl

/-! ### Registers (00 R17) -/

@[simp] theorem fixed_setReg (s : State) (a v) : (s.setReg a v).fixed = s.fixed := by simp [setReg]
@[simp] theorem fixed_setRf (s : State) (a lo w x) : (s.setRf a lo w x).fixed = s.fixed := by simp [setRf]
@[simp] theorem fixed_bumpBy (s : State) (a lo w k) : (s.bumpBy a lo w k).fixed = s.fixed := by simp [bumpBy]
@[simp] theorem fixed_bump (s : State) (a lo w) : (s.bump a lo w).fixed = s.fixed := by simp [bump]
@[simp] theorem fixed_setForce (s : State) (a v) : (s.setForce a v).fixed = s.fixed := by simp [setForce]
@[simp] theorem fixed_commit (s : State) (as) : (s.commit as).fixed = s.fixed := by simp [commit]
@[simp] theorem fixed_setDk (s : State) (o v) : (s.setDk o v).fixed = s.fixed := by simp [setDk]
@[simp] theorem fixed_setDkf (s : State) (o lo w x) : (s.setDkf o lo w x).fixed = s.fixed := by simp [setDkf]
@[simp] theorem fixed_draw (s : State) (w) : (s.draw w).2.fixed = s.fixed := by simp [draw]
@[simp] theorem fixed_drawBytes (s : State) (n : Nat) : (s.drawBytes n).2.fixed = s.fixed := by
  induction n generalizing s with
  | zero => rfl
  | succ n ih => exact ih _
@[simp] theorem fixed_raise (s : State) (src) : (s.raise src).fixed = s.fixed := by simp [raise]

/-! ### Memory under ECC (06.5) -/

@[simp] theorem fixed_poke (s : State) (a l) : (s.poke a l).fixed = s.fixed := by simp [poke]
@[simp] theorem fixed_readBytes (s : State) (a n) : (s.readBytes a n).2.fixed = s.fixed := by simp [readBytes]
@[simp] theorem fixed_noteCnEcc (s : State) (a ue) : (s.noteCnEcc a ue).fixed = s.fixed := by simp [noteCnEcc]
@[simp] theorem fixed_noteEcc (s : State) (src a : Nat) (ue : Bool) : (s.noteEcc src a ue).fixed = s.fixed := by
  simp only [noteEcc, fixed_ite, fixed_noteCnEcc, fixed_setReg, fixed_draw, fixed_bump, ite_self]
@[simp] theorem fixed_setEcc (s : State) (w e) : (s.setEcc w e).fixed = s.fixed := by simp [setEcc]
@[simp] theorem fixed_eccRead (s : State) (src a n : Nat) : (s.eccRead src a n).1.fixed = s.fixed := by
  unfold eccRead
  refine fixed_foldl_fst _ ?_ _ _
  rintro ⟨t, ue⟩ ⟨w, e⟩
  cases e <;> simp
@[simp] theorem fixed_injectOn (s : State) (a n) : (s.injectOn a n).fixed = s.fixed := by unfold injectOn; split <;> simp
@[simp] theorem fixed_eccPut (s : State) (src a : Nat) (l : List Byte) : (s.eccPut src a l).1.fixed = s.fixed := by
  unfold eccPut
  dsimp only
  split
  · rfl
  · simp only [fixed_injectOn, fixed_poke]
    refine fixed_foldl_fst _ ?_ _ _
    rintro ⟨t, bad⟩ ⟨w, e⟩
    cases e <;> simp
@[simp] theorem fixed_eccWrite (s : State) (src a l) : (s.eccWrite src a l).1.fixed = s.fixed := by simp [eccWrite]
@[simp] theorem fixed_readMem (s : State) (src a n) : (s.readMem src a n).1.fixed = s.fixed := by
  unfold readMem
  dsimp only
  (repeat' split) <;> simp
@[simp] theorem fixed_writeMem (s : State) (src a l) : (s.writeMem src a l).1.fixed = s.fixed := by simp [writeMem]

/-! ### Faults and device states (03; 16.6) -/

@[simp] theorem fixed_lkTime (s : State) : s.lkTime.2.fixed = s.fixed := by simp [lkTime]
@[simp] theorem fixed_testUnit (s : State) : s.testUnit.fixed = s.fixed := by simp [testUnit]
@[simp] theorem fixed_hailStart (s : State) : s.hailStart.fixed = s.fixed := by simp [hailStart]
@[simp] theorem fixed_hailDue (s : State) : s.hailDue.fixed = s.fixed := by simp [hailDue]
@[simp] theorem fixed_hailEnd (s : State) : s.hailEnd.fixed = s.fixed := by unfold hailEnd; split <;> simp
@[simp] theorem fixed_enter (s : State) (m : Mode) : (s.enter m).fixed = s.fixed := by simp [enter]
@[simp] theorem enter_pending (s : State) (m : Mode) :
    (s.enter m).pending = s.pending := congrArg Prod.snd (fixed_enter s m)
@[simp] theorem fixed_updateWork (s : State) : s.updateWork.fixed = s.fixed := by unfold updateWork; split <;> simp
@[simp] theorem fixed_setCause (s : State) (c) : (s.setCause c).fixed = s.fixed := by simp [setCause]
@[simp] theorem fixed_recordFault (s : State) (cls code multi detail at? addr) :
    (s.recordFault cls code multi detail at? addr).fixed = s.fixed := by simp [recordFault]
@[simp] theorem fixed_passCycles (s : State) : s.passCycles.fixed = s.fixed := by simp [passCycles]
@[simp] theorem fixed_mergeFault (s : State) (code detail addr) : (s.mergeFault code detail addr).fixed = s.fixed := by
  simp [mergeFault]
@[simp] theorem fixed_closeTie (s : State) : s.closeTie.fixed = s.fixed := by simp [closeTie]
@[simp] theorem fixed_recordEcc (s : State) (src a) : (s.recordEcc src a).fixed = s.fixed := by simp [recordEcc]
@[simp] theorem fixed_linkDown (s : State) : s.linkDown.fixed = s.fixed := by simp [linkDown]
@[simp] theorem fixed_deckReturn (s : State) (o v) : (s.deckReturn o v).fixed = s.fixed := by simp [deckReturn]
@[simp] theorem fixed_winReturn (s : State) (v) : (s.winReturn v).fixed = s.fixed := by simp [winReturn]
@[simp] theorem fixed_dropHost (s : State) : s.dropHost.fixed = s.fixed := by simp [dropHost]
@[simp] theorem fixed_winDown (s : State) : s.winDown.fixed = s.fixed := by unfold winDown; split <;> simp
@[simp] theorem fixed_codes40 (s : State) : s.codes40.fixed = s.fixed := by simp [codes40]
@[simp] theorem fixed_finishCmd (s : State) (op result) : (s.finishCmd op result).fixed = s.fixed := by simp [finishCmd]
@[simp] theorem fixed_setI2c (s : State) (c r) : (s.setI2c c r).fixed = s.fixed := by simp [setI2c]
@[simp] theorem fixed_setI2cOut (s : State) (c l) : (s.setI2cOut c l).fixed = s.fixed := by simp [setI2cOut]
@[simp] theorem fixed_i2cCut (s : State) (c stop) : (s.i2cCut c stop).2.fixed = s.fixed := by
  unfold i2cCut; split <;> simp
@[simp] theorem fixed_i2cStop (s : State) (c) : (s.i2cStop c).fixed = s.fixed := by simp [i2cStop]
@[simp] theorem fixed_safeStates (s : State) : s.safeStates.fixed = s.fixed := by
  unfold safeStates
  dsimp only
  split <;> simp
@[simp] theorem fixed_spoilBind (s : State) : s.spoilBind.fixed = s.fixed := by simp [spoilBind]
@[simp] theorem fixed_becalm (s : State) (code multi detail addr) :
    (s.becalm code multi detail addr).fixed = s.fixed := by
  unfold becalm
  dsimp only
  (repeat' split) <;> simp

/-! ### Regions (06) -/

@[simp] theorem fixed_charge (s : State) (es) : (s.charge es).fixed = s.fixed := by simp [charge]
@[simp] theorem fixed_uncharge (s : State) (es) : (s.uncharge es).fixed = s.fixed := by simp [uncharge]
@[simp] theorem fixed_syncPend (s : State) : s.syncPend.fixed = s.fixed := by simp [syncPend]
@[simp] theorem fixed_rgCommit (s : State) (n) : (rgCommit n s).fixed = s.fixed := by simp [rgCommit]
@[simp] theorem fixed_rgApply (s : State) (n) : (rgApply n s).fixed = s.fixed := by
  unfold rgApply
  dsimp only
  (repeat' split) <;> simp
@[simp] theorem fixed_rgStale (s : State) (n) : (rgStale n s).fixed = s.fixed := by simp [rgStale]
@[simp] theorem fixed_scrub (s : State) : (scrub s).fixed = s.fixed := by
  unfold scrub
  dsimp only
  (repeat' split) <;> simp
@[simp] theorem fixed_injectMode (s : State) (mode) : (injectMode mode s).fixed = s.fixed := by
  unfold injectMode; split <;> simp

/-! ### Rings (07) -/

@[simp] theorem fixed_setRing (s : State) (n r) : (s.setRing n r).fixed = s.fixed := by simp [setRing]
@[simp] theorem fixed_updateHolder (s : State) : s.updateHolder.fixed = s.fixed := by
  unfold updateHolder
  (repeat' split) <;> simp
@[simp] theorem fixed_latchWaits (s : State) : s.latchWaits.fixed = s.fixed := by simp [latchWaits]
@[simp] theorem fixed_latchBosun (s : State) (n) : (s.latchBosun n).fixed = s.fixed := by
  unfold latchBosun; split <;> simp
@[simp] theorem fixed_evalThreshold (s : State) (n) : (s.evalThreshold n).fixed = s.fixed := by simp [evalThreshold]
@[simp] theorem fixed_clearSize (s : State) (n) : (s.clearSize n).fixed = s.fixed := by
  unfold clearSize
  dsimp only
  split <;> simp
@[simp] theorem fixed_enableWith (s : State) (n ws) : (s.enableWith n ws).fixed = s.fixed := by simp [enableWith]
@[simp] theorem fixed_ringEnable (s : State) (n) : (s.ringEnable n).1.fixed = s.fixed := by
  unfold ringEnable
  dsimp only
  (repeat' split) <;> simp
@[simp] theorem fixed_unbindRing (s : State) (n) : (s.unbindRing n).fixed = s.fixed := by simp [unbindRing]
@[simp] theorem fixed_ringDisable (s : State) (n) : (s.ringDisable n).1.fixed = s.fixed := by simp [ringDisable]
@[simp] theorem fixed_ringRetry (s : State) (n) : (s.ringRetry n).1.fixed = s.fixed := by simp [ringRetry]
@[simp] theorem fixed_ringSkip (s : State) (n) : (s.ringSkip n).1.fixed = s.fixed := by simp [ringSkip]
@[simp] theorem fixed_ringPrio (s : State) (n arg) : (s.ringPrio n arg).1.fixed = s.fixed := by simp [ringPrio]
@[simp] theorem fixed_opStat (x : State × Nat) (op n : Nat) : (opStat x op n).fixed = x.1.fixed := by simp [opStat]
@[simp] theorem fixed_ringAct (s : State) (n op arg) : (s.ringAct n op arg).1.fixed = s.fixed := by
  unfold ringAct; split <;> simp
@[simp] theorem fixed_ringStart (s : State) (n op arg) : (s.ringStart n op arg).fixed = s.fixed := by simp [ringStart]
@[simp] theorem fixed_ringEnd (s : State) : s.ringEnd.fixed = s.fixed := by
  unfold ringEnd
  dsimp only
  (repeat' split) <;> simp
@[simp] theorem fixed_ringOp (s : State) (n op arg) : (s.ringOp n op arg).fixed = s.fixed := by
  unfold ringOp
  (repeat' split) <;> simp
@[simp] theorem fixed_offerTail (s : State) (n t) : (s.offerTail n t).1.fixed = s.fixed := by simp [offerTail]
@[simp] theorem fixed_tack (s : State) : s.tack.1.fixed = s.fixed := by simp [tack]

/-! ### The engines' state (10–13) -/

@[simp] theorem fixed_setLoom (s : State) (i x) : (s.setLoom i x).fixed = s.fixed := by simp [setLoom]
@[simp] theorem fixed_setHarrow (s : State) (i x) : (s.setHarrow i x).fixed = s.fixed := by simp [setHarrow]
@[simp] theorem fixed_setMill (s : State) (i x) : (s.setMill i x).fixed = s.fixed := by simp [setMill]
@[simp] theorem fixed_drawNats (s : State) (w n : Nat) : (s.drawNats w n).2.fixed = s.fixed := by
  induction n generalizing s with
  | zero => rfl
  | succ n ih => exact ih _
@[simp] theorem fixed_spoilGroup (s : State) (i c32 reg n) : (s.spoilGroup i c32 reg n).fixed = s.fixed := by
  simp [spoilGroup]
@[simp] theorem fixed_spoilMask (s : State) (i k n) : (s.spoilMask i k n).fixed = s.fixed := by simp [spoilMask]
@[simp] theorem fixed_spoilMill (s : State) (i d) : (s.spoilMill i d).fixed = s.fixed := by simp [spoilMill]
@[simp] theorem fixed_setFifo (s : State) (i l) : (s.setFifo i l).fixed = s.fixed := by simp [setFifo]
@[simp] theorem fixed_releaseBlocks (s : State) (i slot) : (s.releaseBlocks i slot).fixed = s.fixed := by
  unfold releaseBlocks
  dsimp only
  refine (fixed_setMill _ _ _).trans ((fixed_foldl _ (fun t h => ?_) _ _).trans (by simp))
  split <;> rfl
@[simp] theorem fixed_freeCycles (s : State) (n) : (s.freeCycles n).2.fixed = s.fixed := by simp [freeCycles]
@[simp] theorem fixed_loomEnded (s : State) (f) : (s.loomEnded f).fixed = s.fixed := by simp [loomEnded]
@[simp] theorem fixed_loseKept (s : State) (f) : (s.loseKept f).fixed = s.fixed := by simp [loseKept]
@[simp] theorem fixed_loseRows (s : State) (f) : (s.loseRows f).fixed = s.fixed := by simp [loseRows]
@[simp] theorem fixed_abandonEngine (s : State) (f) : (s.abandonEngine f).fixed = s.fixed := by
  unfold abandonEngine
  dsimp only
  split <;> simp
@[simp] theorem fixed_engineFault (s : State) (f) : (s.engineFault f).fixed = s.fixed := by
  unfold engineFault; split <;> simp

/-! ### Bells, records and drains (07) -/

@[simp] theorem fixed_sendBell (s : State) (b set v) : (s.sendBell b set v).fixed = s.fixed := by simp [sendBell]
@[simp] theorem fixed_exportBell (s : State) (n set v) : (s.exportBell n set v).fixed = s.fixed := by simp [exportBell]
@[simp] theorem fixed_bellOp (s : State) (n set v) : (s.bellOp n set v).fixed = s.fixed := by simp [bellOp]
@[simp] theorem fixed_signals (s : State) (d) : (s.signals d).fixed = s.fixed := by simp [signals]
@[simp] theorem fixed_writeRecord (s : State) (n k status epoch detail cycles inst) :
    (s.writeRecord n k status epoch detail cycles inst).fixed = s.fixed := by simp [writeRecord]
@[simp] theorem fixed_scramble (s : State) (ws) : (s.scramble ws).fixed = s.fixed := by simp [scramble]
@[simp] theorem fixed_abandonStream (s : State) (f) : (s.abandonStream f).fixed = s.fixed := by
  unfold abandonStream; split <;> simp
@[simp] theorem fixed_cancelFlight (s : State) (f) : (s.cancelFlight f).fixed = s.fixed := by
  unfold cancelFlight; split <;> simp
@[simp] theorem fixed_noteHalt (s : State) (n) : (s.noteHalt n).fixed = s.fixed := by simp [noteHalt]
@[simp] theorem fixed_haltRing (s : State) (n k head status detail addr) :
    (s.haltRing n k head status detail addr).fixed = s.fixed := by
  unfold haltRing
  dsimp only
  split <;> simp
@[simp] theorem fixed_mapFlight (s : State) (n k g) : (s.mapFlight n k g).fixed = s.fixed := by simp [mapFlight]
@[simp] theorem fixed_completion (s : State) (n) : (s.completion n).fixed = s.fixed := by
  unfold completion
  dsimp only
  (repeat' split) <;> simp
@[simp] theorem fixed_engineFinish (s : State) (n k) : (s.engineFinish n k).fixed = s.fixed := by simp [engineFinish]
@[simp] theorem fixed_drainComplete (s : State) : s.drainComplete.fixed = s.fixed := by simp [drainComplete]
@[simp] theorem fixed_drainStale (s : State) : s.drainStale.fixed = s.fixed := by unfold drainStale; split <;> simp
@[simp] theorem fixed_tackRelease (s : State) : s.tackRelease.fixed = s.fixed := by simp [tackRelease]
@[simp] theorem fixed_writeBtcfg (s : State) (n v) : (s.writeBtcfg n v).fixed = s.fixed := by simp [writeBtcfg]

end Sys2Proof.Machine.State
end

section
/-! PROOFS. What no command changes: the engines (08–13). -/

namespace Sys2Proof.Machine.State

open Sys2Proof.Spec

/-! ### An engine's work (07; 20 R826) -/

@[simp] theorem fixed_writeElems (s : State) (src a l) : (writeElems src s a l).1.fixed = s.fixed := by
  unfold writeElems
  dsimp only
  split <;> simp
@[simp] theorem fixed_writeRow (s : State) (src a l free) : (writeRow src s a l free).1.fixed = s.fixed := by
  unfold writeRow; split <;> simp
/-- What an engine's work leaves has `z` fixed; a wait leaves nothing (07 R306). -/
def EngFixed (z : Part × List Instr) : EngRes → Prop
  | .ended s _ _ _ _ => s.fixed = z
  | .stay s _ => s.fixed = z
  | .wait _ _ _ => True
@[simp] theorem engFixed_ended (z s st d c a) : EngFixed z (EngRes.ended s st d c a) ↔ s.fixed = z := Iff.rfl
@[simp] theorem engFixed_stay (z s p) : EngFixed z (EngRes.stay s p) ↔ s.fixed = z := Iff.rfl
@[simp] theorem engFixed_wait (z a n g) : EngFixed z (EngRes.wait a n g) := trivial
@[simp] theorem engFixed_ite (z) (c : Prop) [Decidable c] (a b : EngRes) :
    EngFixed z (if c then a else b) ↔ if c then EngFixed z a else EngFixed z b := by split <;> rfl
/-- What an engine starts with, or ends with before it starts, has `z` fixed. -/
def StartFixed (z : Part × List Instr) : Except EngRes State → Prop
  | .error r => EngFixed z r
  | .ok s => s.fixed = z
@[simp] theorem startFixed_error (z r) : StartFixed z (.error r) ↔ EngFixed z r := Iff.rfl
@[simp] theorem startFixed_ok (z s) : StartFixed z (.ok s) ↔ s.fixed = z := Iff.rfl
theorem engFixed_andThen {z} {r : EngRes} {g : State → State} (h : EngFixed z r) (hg : ∀ s, (g s).fixed = s.fixed) :
    EngFixed z (r.andThen g) := by
  cases r <;> simp_all [EngRes.andThen]
@[simp] theorem engFixed_memStop {z} {s : State} (h : s.fixed = z) (e r c) : EngFixed z (memStop s e r c) := by
  cases e <;> simp [memStop, h]
@[simp] theorem fixed_issueRun (s : State) (o write a data n) : (s.issueRun o write a data n).fixed = s.fixed := by
  simp [issueRun]
@[simp] theorem fixed_dropOps (s : State) (o) : (s.dropOps o).fixed = s.fixed := by simp [dropOps]
@[simp] theorem fixed_settleRun (s : State) (ring idx) : (s.settleRun ring idx).fixed = s.fixed := by
  unfold settleRun
  dsimp only
  (repeat' split) <;> simp
@[simp] theorem fixed_settleFlight (s : State) (ring idx) : (s.settleFlight ring idx).fixed = s.fixed := by
  simp [settleFlight]
@[simp] theorem fixed_stalls (s : State) (base ks) : (s.stalls base ks).fixed = s.fixed := by simp [stalls]
@[simp] theorem fixed_endFlight (s : State) (ring idx status detail cycles) :
    (s.endFlight ring idx status detail cycles).fixed = s.fixed := by simp [endFlight]
@[simp] theorem fixed_advance (s : State) (cls inst opc wr : Nat) {g : Flight → State → EngRes}
    (hg : ∀ f t, EngFixed t.fixed (g f t)) :
    (s.advance cls inst opc wr g).fixed = s.fixed := by
  unfold advance
  split
  · rfl
  · split
    · rfl
    · next f _ =>
      dsimp only
      split
      · rfl
      · have h := hg f { s with view := f.rem, viewOut := f.out }
        split
        · simp
        · next e => rw [e] at h; simpa using h
        · next e =>
          rw [e] at h
          split
          · simpa using h
          · simpa using h

/-! ### The Halyard (08) -/

@[simp] theorem fixed_moveCells (size free rs rd k a b) (s : State) (acc) :
    (moveCells size free rs rd k a b s acc).1.fixed = s.fixed := by
  induction k generalizing a b s acc with
  | zero => rfl
  | succ k ih =>
    unfold moveCells
    dsimp only
    split
    · simp
    · split <;> simp [ih]
@[simp] theorem fixed_moveRow (size n free rs rd fb h row) :
    (moveRow size n free rs rd fb h row).s.fixed = h.s.fixed := by
  unfold moveRow
  dsimp only
  split
  · rfl
  · split
    · simp
    · obtain ⟨_ | a, _ | b⟩ := row <;> simp
@[simp] theorem fixed_halCycles (h ib check s0) : (halCycles h ib check s0).2.fixed = h.s.fixed := by
  simp [halCycles]
@[simp] theorem engFixed_halEnd {z} (d) {h : Hal} (hz : h.s.fixed = z) (ib s0 fc) : EngFixed z (halEnd d h ib s0 fc) := by
  unfold halEnd
  dsimp only
  split <;> simp [hz]
theorem foldl_hal {α : Type} (f : Hal → α → Hal) (hf : ∀ h a, (f h a).s.fixed = h.s.fixed) (l : List α) (h : Hal) :
    (l.foldl f h).s.fixed = h.s.fixed :=
  foldl_keeps (fun t : Hal => t.s.fixed = h.s.fixed) f (fun t a e => (hf t a).trans e) l h rfl
@[simp] theorem engFixed_doCopy (f s) : EngFixed s.fixed (doCopy f s) := by
  unfold doCopy
  exact engFixed_halEnd _ (foldl_hal _ (fun _ _ => fixed_moveRow ..) _ _) _ _ _
@[simp] theorem engFixed_doFill (f s) : EngFixed s.fixed (doFill f s) := by
  unfold doFill
  extract_lets d size n0 row h
  have hk : h.s.fixed = s.fixed := foldl_hal _ (fun _ _ => fixed_moveRow ..) _ { s := s }
  refine engFixed_halEnd _ ?_ _ _ _
  exact hk
@[simp] theorem engFixed_doGather (f s) : EngFixed s.fixed (doGather f s) := by
  unfold doGather
  extract_lets d nodst size n iw nidx idx dst srows ib de free
  split
  next s1 e l he =>
  have h1 : s1.fixed = s.fixed := by
    have := fixed_readMem s srcHalyard idx (nidx * iw)
    rwa [he] at this
  extract_lets good l h h'
  have hk : h.s.fixed = s.fixed := by
    refine (foldl_hal _ (fun h a => ?_) _ { s := s1 }).trans h1
    split
    · rfl
    · dsimp only
      split
      · rfl
      · exact fixed_moveRow ..
  refine engFixed_halEnd _ ?_ _ _ _
  unfold h'
  split
  · split <;> exact hk
  · exact hk
@[simp] theorem fixed_readRuns (s : State) (l acc) : (readRuns s l acc).1.fixed = s.fixed := by
  induction l generalizing s acc with
  | nil => rfl
  | cons x t ih => unfold readRuns; simp; split <;> simp [ih]
@[simp] theorem engFixed_doRelayout (f s) : EngFixed s.fixed (doRelayout f s) := by
  unfold doRelayout
  dsimp only
  refine engFixed_halEnd _ ?_ _ _ _
  dsimp only
  refine foldl_hal _ (fun h i => foldl_hal _ (fun h p => ?_) _ _) _ _
  split
  · rfl
  · split
    · simp
    · refine (fixed_foldl_fst _ ?_ _ _).trans (by simp)
      rintro ⟨t, e, l⟩ ⟨a, n⟩
      cases e <;> simp
@[simp] theorem fixed_takeGap (s : State) (sid) : (s.takeGap sid).2.fixed = s.fixed := by simp [takeGap]
@[simp] theorem fixed_markGap (s : State) (sid) : (s.markGap sid).fixed = s.fixed := by simp [markGap]
@[simp] theorem fixed_endStream (s : State) (f n status detail addr) :
    (s.endStream f n status detail addr).fixed = s.fixed := by simp [endStream]
@[simp] theorem fixed_fillUnit (s : State) (f gap l) : (s.fillUnit f gap l).fixed = s.fixed := by
  unfold fillUnit
  dsimp only
  split <;> simp
@[simp] theorem fixed_deliver (s : State) (sid l) : (s.deliver sid l).1.fixed = s.fixed := by
  unfold deliver; split <;> simp
@[simp] theorem fixed_stopStream (s : State) (sid) : (s.stopStream sid).fixed = s.fixed := by simp [stopStream]
@[simp] theorem fixed_startStream (s : State) (inst opc) : (s.startStream inst opc).fixed = s.fixed := by
  unfold startStream; split <;> simp
@[simp] theorem fixed_takeBlockTurn (s : State) (inst) : (s.takeBlockTurn inst).fixed = s.fixed := by
  unfold takeBlockTurn; split <;> simp
@[simp] theorem fixed_putBlock (s : State) (f l) : (s.putBlock f l).fixed = s.fixed := by simp [putBlock]
@[simp] theorem fixed_streamOut (s : State) (inst) : (s.streamOut inst).fixed = s.fixed := by
  unfold streamOut
  dsimp only
  (repeat' split) <;> simp

/-! ### The Looms (10) -/

@[simp] theorem fixed_loomFault (s : State) (f) : (loomFault f s).fixed = s.fixed := by simp [loomFault]
theorem engFixed_loomStop {z} (f) {s : State} (h : s.fixed = z) (st d a) :
    EngFixed z (loomStop f s st d a) := by simp [loomStop, h]
theorem engFixed_loomErr {z} (f) {s : State} (h : s.fixed = z) (e r) : EngFixed z (loomErr f s e r) := by
  cases e <;> simp [loomErr, engFixed_loomStop, h]
theorem startFixed_loomLoad (f s) : StartFixed s.fixed (loomLoad f s) := by
  unfold loomLoad
  dsimp only
  split
  · simp [engFixed_loomErr]
  · split
    · simp [engFixed_loomErr]
    · split
      · simp [engFixed_loomErr]
      · split <;> simp [engFixed_loomStop]
@[simp] theorem fixed_loomRows (d x) (s : State) (p n) : (loomRows d x s p n).1.fixed = s.fixed := by
  induction n generalizing s p with
  | zero => rfl
  | succ n ih => unfold loomRows; simp; split <;> simp [ih]
@[simp] theorem fixed_loomWrite (d x w) (s : State) (p0 p n) : (loomWrite d x w s p0 p n).1.fixed = s.fixed := by
  induction n generalizing s p with
  | zero => rfl
  | succ n ih => unfold loomWrite; dsimp only; split <;> simp [ih]
/-- What a Loom takes its windows from has `z` fixed. -/
def FeedFixed (z : Part × List Instr) : Except EngRes (State × Nat × List Window) → Prop
  | .error r => EngFixed z r
  | .ok x => x.1.fixed = z
@[simp] theorem feedFixed_error (z r) : FeedFixed z (.error r) ↔ EngFixed z r := Iff.rfl
@[simp] theorem feedFixed_ok (z x) : FeedFixed z (.ok x) ↔ x.1.fixed = z := Iff.rfl
theorem startFixed_loomOne (f w s b) : StartFixed s.fixed (loomOne f w s b) := by
  unfold loomOne
  extract_lets d x l bank m src
  split
  · simp
  · have hs : FeedFixed s.fixed src := by
      unfold src
      split
      · split
        · simp
        · split
          · simp
          · split <;> simp [engFixed_loomStop]
      · dsimp only
        split <;> simp [engFixed_loomErr]
    generalize src = q at hs ⊢
    rcases q with r | ⟨t, c, ws⟩
    · exact hs
    · have hs : t.fixed = s.fixed := hs
      have hacc : (if x.chain = true then match (t.loom f.inst).kept with
          | some (fst, w) => (some w, t)
          | none => (some ((t.drawNats 32 2048).1.map Word.nat), (t.drawNats 32 2048).2)
        else ((none : Option (List Word)), t)).2.fixed = s.fixed := by
        split
        · split <;> simp [hs]
        · exact hs
      dsimp only
      generalize (if x.chain = true then match (t.loom f.inst).kept with
          | some (fst, w) => (some w, t)
          | none => (some ((t.drawNats 32 2048).1.map Word.nat), (t.drawNats 32 2048).2)
        else ((none : Option (List Word)), t)) = y at hacc ⊢
      split
      · simp [hacc]
      · split
        · simp [hacc]
        · simp [hacc]
        · split <;> simp [engFixed_loomErr, hacc]
theorem engFixed_loomRun {z} (f w n) {s : State} (h : s.fixed = z) (b) : EngFixed z (loomRun f w n s b) := by
  induction n generalizing s b with
  | zero => simp [loomRun, h]
  | succ n ih =>
    have k := startFixed_loomOne f w s b
    unfold loomRun
    split
    · next r e => rw [e] at k; rw [← h]; exact k
    · next t e => rw [e] at k; exact ih (h ▸ k) _
@[simp] theorem engFixed_doProduct (f s) : EngFixed s.fixed (doProduct f s) := by
  unfold doProduct
  dsimp only
  split
  · exact engFixed_loomRun _ _ _ rfl _
  · split
    · exact engFixed_loomStop _ rfl _ _ _
    · have k := startFixed_loomLoad f s
      split
      · next r e => rw [e] at k; exact k
      · next t e => rw [e] at k; exact engFixed_loomRun _ _ _ k _
@[simp] theorem fixed_loomStart (s : State) (inst) : (s.loomStart inst).fixed = s.fixed := by
  unfold loomStart
  dsimp only
  (repeat' split) <;> simp
@[simp] theorem fixed_loomAdmit (s : State) (inst d) : (s.loomAdmit inst d).fixed = s.fixed := by simp [loomAdmit]
@[simp] theorem fixed_feedTimeout (s : State) (inst) : (s.feedTimeout inst).fixed = s.fixed := by
  unfold feedTimeout
  dsimp only
  (repeat' split) <;> simp

/-! ### The Harrows (11) -/

@[simp] theorem fixed_readBlocks (d x i b n) (s : State) (acc) : (readBlocks d x i b n s acc).1.fixed = s.fixed := by
  induction n generalizing s b acc with
  | zero => rfl
  | succ n ih => unfold readBlocks; dsimp only; split <;> simp [ih]
@[simp] theorem fixed_readRow (s : State) (d x i) : (readRow d x s i).1.fixed = s.fixed := by
  unfold readRow
  dsimp only
  split <;> simp
@[simp] theorem fixed_readRows (d x l) (s : State) (acc) : (readRows d x l s acc).1.fixed = s.fixed := by
  induction l generalizing s acc with
  | nil => rfl
  | cons i t ih => unfold readRows; dsimp only; split <;> simp [ih]
@[simp] theorem fixed_writePixels (d x r free l) (s : State) : (writePixels d x r free l s).1.fixed = s.fixed := by
  induction l generalizing s with
  | nil => rfl
  | cons i t ih => unfold writePixels; dsimp only; split <;> simp [ih]
theorem engFixed_harrowStop {z} (f) {s : State} (h : s.fixed = z) (st d a) :
    EngFixed z (harrowStop f s st d a) := by simp [harrowStop, h]
@[simp] theorem engFixed_doMemOp (f s) : EngFixed s.fixed (doMemOp f s) := by
  unfold doMemOp
  dsimp only
  split
  · simp
  · split <;> simp [engFixed_harrowStop]
@[simp] theorem fixed_freeRows (x) (s : State) (n) : (freeRows x s n).1.fixed = s.fixed := by
  induction n generalizing s with
  | zero => rfl
  | succ n ih => unfold freeRows; simp [ih]
theorem startFixed_feedRead (f s) : StartFixed s.fixed (feedRead f s) := by
  unfold feedRead
  dsimp only
  split
  · simp
  · simp
    split <;> simp
theorem fixed_feedJoin {f s t} (h : feedJoin f s = some t) : t.fixed = s.fixed := by
  unfold feedJoin at h
  dsimp only at h
  split at h
  · simp_all
  · split at h
    · cases h
    · cases h; rfl
@[simp] theorem fixed_loomEnd (s : State) (f status detail) : (loomEnd f s status detail).fixed = s.fixed := by
  simp [loomEnd]
@[simp] theorem fixed_noteFeedFault (s : State) (f e) : (noteFeedFault f s e).fixed = s.fixed := by
  unfold noteFeedFault
  dsimp only
  (repeat' split) <;> simp
theorem engFixed_feedFail {z} (f) {s : State} (h : s.fixed = z) : EngFixed z (feedFail f s) := by
  unfold feedFail
  split <;> simp [engFixed_harrowStop, h]
theorem engFixed_feedDeliver {z} (f) {s : State} (h : s.fixed = z) : EngFixed z (feedDeliver f s) := by
  unfold feedDeliver
  dsimp only
  split
  · simp [engFixed_feedFail, h]
  · simp [engFixed_feedFail, engFixed_harrowStop, h]
@[simp] theorem engFixed_doFeed (f s) : EngFixed s.fixed (doFeed f s) := by
  unfold doFeed
  dsimp only
  have join : ∀ t : State, t.fixed = s.fixed → EngFixed s.fixed (match feedJoin f t with
      | some s => feedDeliver f s
      | none => EngRes.stay t (.harrow 2)) := by
    intro t h
    split
    · next e => exact engFixed_feedDeliver _ ((fixed_feedJoin e).trans h)
    · simpa
  split
  · have k := startFixed_feedRead f s
    split
    · next r e => rw [e] at k; exact k
    · next t e => rw [e] at k; exact join t k
  · exact join s rfl
  · exact engFixed_feedDeliver _ rfl
  · simp
@[simp] theorem fixed_feedStart (s : State) (inst ring idx) : (s.feedStart inst ring idx).fixed = s.fixed := by
  unfold feedStart; split <;> simp
@[simp] theorem fixed_harrowBegin (s : State) (inst opc) : (s.harrowBegin inst opc).fixed = s.fixed := by
  unfold harrowBegin; split <;> simp
@[simp] theorem fixed_haloPair (s : State) : s.haloPair.fixed = s.fixed := by
  unfold haloPair
  dsimp only
  (repeat' split) <;> simp
@[simp] theorem fixed_haloTimeout (s : State) (inst) : (s.haloTimeout inst).fixed = s.fixed := by
  unfold haloTimeout; split <;> simp
@[simp] theorem fixed_feedEnd (s : State) (g status detail) : (s.feedEnd g status detail).fixed = s.fixed := by
  simp [feedEnd]
@[simp] theorem fixed_feedPair (s : State) (tile) : (s.feedPair tile).fixed = s.fixed := by
  unfold feedPair
  dsimp only
  (repeat' split) <;> simp
@[simp] theorem fixed_harrowAdmit (s : State) (inst d) : (s.harrowAdmit inst d).fixed = s.fixed := by simp [harrowAdmit]
@[simp] theorem fixed_feed (s : State) (inst opc : Nat) : (s.feed inst opc).fixed = s.fixed := by
  simp [feed]

/-! ### Two engines on one Mill (12; 13) -/

@[simp] theorem fixed_clash (s : State) (inst md sd) : (s.clash inst md sd).fixed = s.fixed := by simp [clash]
@[simp] theorem fixed_millClash (s : State) (inst d) : (s.millClash inst d).fixed = s.fixed := by
  unfold millClash; split <;> simp
@[simp] theorem fixed_sheafClash (s : State) (inst d) : (s.sheafClash inst d).fixed = s.fixed := by
  unfold sheafClash; split <;> simp

/-! ### The Mills (12) -/

@[simp] theorem fixed_readElems (fmt l) (s : State) (acc) : (readElems fmt l s acc).1.fixed = s.fixed := by
  induction l generalizing s acc with
  | nil => rfl
  | cons i t ih => unfold readElems; dsimp only; split <;> simp [ih]
/-- What a Mill's load leaves has `z` fixed. -/
def LoadFixed (z : Part × List Instr) : LoadRes → Prop
  | .done s => s.fixed = z
  | .block s _ => s.fixed = z
  | .err s _ => s.fixed = z
@[simp] theorem loadFixed_done (z s) : LoadFixed z (.done s) ↔ s.fixed = z := Iff.rfl
@[simp] theorem loadFixed_block (z s e) : LoadFixed z (.block s e) ↔ s.fixed = z := Iff.rfl
@[simp] theorem loadFixed_err (z s e) : LoadFixed z (.err s e) ↔ s.fixed = z := Iff.rfl
theorem loadFixed_loadAcc {z} (inst t slot base vl n) {s : State} (h : s.fixed = z) (j) :
    LoadFixed z (loadAcc inst t slot base vl n s j) := by
  induction n generalizing s j with
  | zero => exact h
  | succ n ih =>
    unfold loadAcc
    split
    · exact h
    · split
      · exact h
      · exact ih (by simp [h]) _
theorem loadFixed_loadSlot {z} (f) {s : State} (h : s.fixed = z) (i slot j) : LoadFixed z (loadSlot f s i slot j) := by
  unfold loadSlot
  dsimp only
  split
  · split <;> simp [h]
  · exact loadFixed_loadAcc _ _ _ _ _ _ h _
  · split <;> simp [h]
  · exact h
@[simp] theorem fixed_storeOut (f) (s : State) (i) : (storeOut f s i).1.fixed = s.fixed := by
  unfold storeOut
  dsimp only
  have stored : ∀ (l : List Nat) (r : List (Int × Nat)), (r.foldl (fun
      (x : State × Option MemErr × List Nat) (p : Int × Nat) =>
      match x.2.1 with
      | some e => (x.1, some e, x.2.2)
      | none =>
        let (t, e) := x.1.writeMem srcMill (p.1 / 8).toNat (storeBytes (strm f.desc 2).fmt (x.2.2.take p.2))
        (t, e, x.2.2.drop p.2)) (s, none, l)).1.fixed = s.fixed := by
    intro l r
    refine fixed_foldl_fst _ ?_ _ _
    rintro ⟨t, e, l⟩ ⟨a, n⟩
    cases e <;> simp
  split
  · rfl
  · split
    · exact stored _ _
    · refine (fixed_foldl _ (by simp) _ _).trans (stored _ _)
theorem engFixed_millStop {z} (f) {s : State} (h : s.fixed = z) (st d a) :
    EngFixed z (millStop f s st d a) := by simp [millStop, h]
theorem engFixed_millErr {z} (f) {s : State} (h : s.fixed = z) (e r) : EngFixed z (millErr f s e r) := by
  cases e <;> simp [millErr, engFixed_millStop, h]
theorem startFixed_finishIter {z} (f) {s : State} (h : s.fixed = z) (i) : StartFixed z (finishIter f s i) := by
  unfold finishIter
  dsimp only
  split
  · simp [engFixed_millStop, h]
  · split <;> simp [engFixed_millErr, h]
@[simp] theorem fixed_askBlock (s : State) (f k) : (s.askBlock f k).fixed = s.fixed := by simp [askBlock]
theorem startFixed_runIter {z} (f) {s : State} (h : s.fixed = z) (i k j) : StartFixed z (runIter f s i k j) := by
  have second : ∀ (s : State) (j), s.fixed = z → StartFixed z (match loadSlot f s i 1 j with
    | .done s => finishIter f s i
    | .block s j => .error (.stay (s.askBlock f 1) (.mill i 1 j))
    | .err s e => .error (millErr f s e 2)) := by
    intro s j h
    have k := loadFixed_loadSlot f h i 1 j
    split <;> next e => rw [e] at k; simp_all [startFixed_finishIter, engFixed_millErr]
  unfold runIter
  dsimp only
  split
  · exact second _ _ h
  · have k := loadFixed_loadSlot f h i 0 j
    split
    · next e => rw [e] at k; exact second _ _ k
    · next e => rw [e] at k; simpa using k
    · next e => rw [e] at k; exact engFixed_millErr _ k _ _
theorem engFixed_runIters {z} (f n) {s : State} (h : s.fixed = z) (i k j) : EngFixed z (runIters f n s i k j) := by
  induction n generalizing s i k j with
  | zero => simp [runIters, h]
  | succ n ih =>
    have w := startFixed_runIter f h i k j
    unfold runIters
    split
    · next r e => rw [e] at w; exact w
    · next t e => rw [e] at w; exact ih w _ _ _
theorem startFixed_loadRecipe (f s) : StartFixed s.fixed (loadRecipe f s) := by
  unfold loadRecipe
  dsimp only
  split
  · simp
  · split
    · refine engFixed_millErr _ ?_ _ _
      split <;> simp
    · split <;> simp [engFixed_millStop]
@[simp] theorem engFixed_doRun (f s) : EngFixed s.fixed (doRun f s) := by
  have go : ∀ (t : State) (i k j), t.fixed = s.fixed → EngFixed s.fixed
      ((runIters f (millIters f.desc - i) (t.millClash f.inst f.desc) i k j).andThen fun s => s.millClash f.inst f.desc) :=
    fun t i k j h => engFixed_andThen (engFixed_runIters _ _ (by simp [h]) _ _ _) (by simp)
  unfold doRun
  dsimp only
  split
  · exact go _ _ _ _ rfl
  · exact go _ _ _ _ rfl
  · have k := startFixed_loadRecipe f s
    split
    · next r e => rw [e] at k; exact k
    · next t e => rw [e] at k; exact go _ _ _ _ k
@[simp] theorem fixed_millStart (s : State) (inst) : (s.millStart inst).fixed = s.fixed := by
  unfold millStart; split <;> simp
@[simp] theorem fixed_takeBlock (s : State) (inst) : (s.takeBlock inst).fixed = s.fixed := by
  unfold takeBlock
  dsimp only
  (repeat' split) <;> simp
@[simp] theorem fixed_accTimeout (s : State) (inst : Nat) : (s.accTimeout inst).fixed = s.fixed := by
  unfold accTimeout
  split
  · next f k _ =>
    split
    · have h := engFixed_millStop f (rfl : s.fixed = s.fixed) 0x52 (Word.nat k) 0
      split
      · next e => rw [e] at h; simpa using h
      · rfl
    · rfl
  · rfl

/-! ### The Sheaf (13) -/

theorem engFixed_sheafStop {z} (f) {s : State} (h : s.fixed = z) (st d) :
    EngFixed z (sheafStop f s st d) := by simp [sheafStop, h]
@[simp] theorem engFixed_doSheaf (f s) : EngFixed s.fixed (doSheaf f s) := by
  unfold doSheaf
  dsimp only
  split
  · simp
  · split
    · exact engFixed_sheafStop _ (by simp) _ _
    · simp
@[simp] theorem fixed_summaryPush (s : State) (inst) : (s.summaryPush inst).fixed = s.fixed := by
  unfold summaryPush
  (repeat' split) <;> simp
@[simp] theorem fixed_summaryTimeout (s : State) (inst) : (s.summaryTimeout inst).fixed = s.fixed := by
  unfold summaryTimeout
  (repeat' split) <;> simp
@[simp] theorem fixed_sheaf (s : State) (inst opc : Nat) : (s.sheaf inst opc).fixed = s.fixed := by
  unfold sheaf
  dsimp only
  split
  · rfl
  · rw [fixed_advance _ _ _ _ _ engFixed_doSheaf]
    split <;> simp

end Sys2Proof.Machine.State
end

section
/-! PROOFS. What no command changes: trim, admission, the link, audio, the Crowsnest, the cameras and the CSRs (04; 07;
17–20). -/

namespace Sys2Proof.Machine.State

open Sys2Proof.Spec

/-! ### Trim (04) -/

@[simp] theorem fixed_setIsland (s : State) (i x) : (s.setIsland i x).fixed = s.fixed := by simp [setIsland]
@[simp] theorem fixed_setCode (s : State) (i c) : (s.setCode i c).fixed = s.fixed := by simp [setCode]
@[simp] theorem fixed_upReq (s : State) (i) : (s.upReq i).fixed = s.fixed := by simp [upReq]
@[simp] theorem fixed_vtrimEval (s : State) (i pass margin) : (s.vtrimEval i pass margin).fixed = s.fixed := by
  simp [vtrimEval]
@[simp] theorem fixed_vtrimDown (s : State) (i) : (s.vtrimDown i).fixed = s.fixed := by simp [vtrimDown]
@[simp] theorem fixed_vtrimUp (s : State) (i) : (s.vtrimUp i).fixed = s.fixed := by simp [vtrimUp]
@[simp] theorem fixed_replay (s : State) (i) : (s.replay i).fixed = s.fixed := by
  unfold replay
  dsimp only
  (repeat' split) <;> simp
@[simp] theorem fixed_trApply (s : State) : s.trApply.fixed = s.fixed := by simp [trApply]
@[simp] theorem fixed_ftrimSlower (s : State) : s.ftrimSlower.fixed = s.fixed := by simp [ftrimSlower]
@[simp] theorem fixed_ftrimFaster (s : State) : s.ftrimFaster.fixed = s.fixed := by simp [ftrimFaster]
@[simp] theorem fixed_writeTrCtrl (s : State) (v) : (s.writeTrCtrl v).fixed = s.fixed := by simp [writeTrCtrl]
@[simp] theorem fixed_trStale (s : State) : s.trStale.fixed = s.fixed := by simp [trStale]

/-! ### Admission (07) -/

@[simp] theorem fixed_admissionFault (s : State) (n status detail addr) :
    (s.admissionFault n status detail addr).fixed = s.fixed := by simp [admissionFault]
@[simp] theorem fixed_admitEffects (s : State) (n cls inst epoch d) :
    (s.admitEffects n cls inst epoch d).1.fixed = s.fixed := by unfold admitEffects; split <;> simp
@[simp] theorem fixed_admitHead (s : State) (n inst d null charged rs) :
    (s.admitHead n inst d null charged rs).fixed = s.fixed := by simp [admitHead]
@[simp] theorem fixed_judge (s : State) (n r) : (s.judge n r).1.fixed = s.fixed := by
  unfold judge
  dsimp only
  (repeat' split) <;> simp
@[simp] theorem fixed_arbitrate (k l) (s : State) : (arbitrate k l s).fixed = s.fixed := by
  induction k generalizing l s with
  | zero => rfl
  | succ k ih =>
    unfold arbitrate
    split
    · next n r _ =>
      have h := fixed_judge s n r
      split
      · next e => rw [e] at h; rw [ih, h]
      · next e => rw [e] at h; exact h
    · rfl
@[simp] theorem fixed_admission (s : State) : s.admission.fixed = s.fixed := by simp [admission]
@[simp] theorem fixed_bellTimeout (s : State) (n) : (s.bellTimeout n).fixed = s.fixed := by simp [bellTimeout]

/-! ### The Deck window (05.6) -/

@[simp] theorem fixed_winInc (s : State) : s.winInc.fixed = s.fixed := by simp [winInc]
@[simp] theorem fixed_winError (s : State) (e) : (s.winError e).fixed = s.fixed := by simp [winError]
@[simp] theorem fixed_winRefuse (s : State) (write e) : (s.winRefuse write e).fixed = s.fixed := by simp [winRefuse]
@[simp] theorem fixed_winSettle (s : State) : s.winSettle.fixed = s.fixed := by
  unfold winSettle
  (repeat' split) <;> simp

/-! ### The link and what follows when it leaves LINKED (20) -/

@[simp] theorem fixed_popHost (s : State) : s.popHost.fixed = s.fixed := by simp [popHost]
@[simp] theorem fixed_hostBell (s : State) (n set v) : (s.hostBell n set v).fixed = s.fixed := by simp [hostBell]
@[simp] theorem fixed_hostCmd (s : State) : s.hostCmd.fixed = s.fixed := by unfold hostCmd; split <;> simp
@[simp] theorem fixed_drainHost (s : State) : s.drainHost.fixed = s.fixed := by
  refine fixed_foldl _ (fun t _ => ?_) _ _
  split <;> simp
@[simp] theorem fixed_settleAll (s : State) : s.settleAll.fixed = s.fixed := by
  unfold settleAll
  dsimp only
  split <;> simp
@[simp] theorem fixed_deliverMsg (s : State) (m trunc incomplete) :
    (s.deliverMsg m trunc incomplete).fixed = s.fixed := by
  unfold deliverMsg
  (repeat' split) <;> simp
@[simp] theorem fixed_unpaired (s : State) : s.unpaired.fixed = s.fixed := by simp [unpaired]
@[simp] theorem fixed_updatePair (s : State) : s.updatePair.fixed = s.fixed := by simp [updatePair]
@[simp] theorem fixed_leaveLinked (s : State) : s.leaveLinked.fixed = s.fixed := by simp [leaveLinked]
@[simp] theorem fixed_portStop (s : State) : s.portStop.fixed = s.fixed := by simp [portStop]
@[simp] theorem fixed_portStart (s : State) : s.portStart.fixed = s.fixed := by simp [portStart]
@[simp] theorem fixed_enterDetect (s : State) : s.enterDetect.fixed = s.fixed := by simp [enterDetect]
@[simp] theorem fixed_swRetrain (s : State) : s.swRetrain.fixed = s.fixed := by simp [swRetrain]
@[simp] theorem fixed_swDrop (s : State) : s.swDrop.fixed = s.fixed := by simp [swDrop]
@[simp] theorem fixed_writeSwCtrl (s : State) (v) : (s.writeSwCtrl v).fixed = s.fixed := by simp [writeSwCtrl]
@[simp] theorem fixed_writeRbell (s : State) (v) : (s.writeRbell v).fixed = s.fixed := by simp [writeRbell]
@[simp] theorem fixed_forward (s : State) (sid began time l) : (s.forward sid began time l).fixed = s.fixed := by
  unfold forward
  dsimp only
  (repeat' split) <;> simp

/-! ### Audio (18) -/

@[simp] theorem fixed_auStop (s : State) : s.auStop.fixed = s.fixed := by simp [auStop]
@[simp] theorem fixed_takeFrame (s : State) : s.takeFrame.2.fixed = s.fixed := by
  unfold takeFrame
  split
  · rfl
  · split
    · rfl
    · rfl
    · split <;> rfl
@[simp] theorem fixed_rxTick (s : State) : s.rxTick.fixed = s.fixed := by simp [rxTick]
@[simp] theorem fixed_playTick (s : State) : s.playTick.fixed = s.fixed := by simp [playTick]
@[simp] theorem fixed_i2sFrame (s : State) (slots) : (s.i2sFrame slots).fixed = s.fixed := by simp [i2sFrame]
@[simp] theorem fixed_sendBlock (s : State) (sid pdm adc short) : (s.sendBlock sid pdm adc short).fixed = s.fixed := by
  simp [sendBlock]
@[simp] theorem fixed_gtrim (s : State) (adc) : (s.gtrim adc).fixed = s.fixed := by simp [gtrim]
@[simp] theorem fixed_endBlock (s : State) (pdm adc short) : (s.endBlock pdm adc short).fixed = s.fixed := by
  simp [endBlock]
@[simp] theorem fixed_blockBoundary (s : State) (pdm adc) : (s.blockBoundary pdm adc).fixed = s.fixed := by
  simp [blockBoundary]
@[simp] theorem fixed_writeAuCtrl (s : State) (v) : (s.writeAuCtrl v).fixed = s.fixed := by simp [writeAuCtrl]
@[simp] theorem fixed_writeCap6 (s : State) (v) : (s.writeCap6 v).fixed = s.fixed := by simp [writeCap6]
@[simp] theorem fixed_auRestart (s : State) : s.auRestart.fixed = s.fixed := by simp [auRestart]
@[simp] theorem fixed_auApply (s : State) : s.auApply.fixed = s.fixed := by
  unfold auApply
  dsimp only
  split
  · simp
  · simp only [fixed_auStop, fixed_ite, fixed_mk, fixed_eta, fixed_auRestart, fixed_setReg, fixed_commit, fixed_setRf,
      ite_self]
@[simp] theorem fixed_auCommitApply (s : State) : s.auCommitApply.fixed = s.fixed := by simp [auCommitApply]
@[simp] theorem fixed_auCommitNow (s : State) (pdm adc) : (s.auCommitNow pdm adc).fixed = s.fixed := by simp [auCommitNow]
@[simp] theorem fixed_auRelocked (s : State) : s.auRelocked.fixed = s.fixed := by simp [auRelocked]
@[simp] theorem fixed_auStale (s : State) : s.auStale.fixed = s.fixed := by simp [auStale]

/-! ### Bosun's registers (14.9) -/

@[simp] theorem fixed_setCore (s : State) (c) : (s.setCore c).fixed = s.fixed := by simp [setCore]
@[simp] theorem fixed_setBw (s : State) (r v) : (s.setBw r v).fixed = s.fixed := by simp [setBw]
@[simp] theorem fixed_setBs (s : State) (n v) : (s.setBs n v).fixed = s.fixed := by simp [setBs]
@[simp] theorem fixed_setBsf (s : State) (n lo w x) : (s.setBsf n lo w x).fixed = s.fixed := by simp [setBsf]
@[simp] theorem fixed_bsRead (s : State) (n) : (s.bsRead n).2.fixed = s.fixed := by simp [bsRead]
@[simp] theorem fixed_emit (s : State) (b) : (s.emit b).fixed = s.fixed := by simp [emit]
@[simp] theorem fixed_emitFetch (s : State) (pc) : (s.emitFetch pc).fixed = s.fixed := by simp [emitFetch]
@[simp] theorem fixed_emitData (s : State) (size addr st) : (s.emitData size addr st).fixed = s.fixed := by
  simp [emitData]
@[simp] theorem fixed_emitItem (s : State) (fn a b) : (s.emitItem fn a b).fixed = s.fixed := by simp [emitItem]
@[simp] theorem fixed_emitSum (s : State) (sh nb) : (s.emitSum sh nb).fixed = s.fixed := by simp [emitSum]
@[simp] theorem fixed_emitHalt (s : State) : s.emitHalt.fixed = s.fixed := by simp [emitHalt]

/-! ### The Crowsnest's networks (19) -/

@[simp] theorem fixed_setNet (s : State) (gesture n) : (s.setNet gesture n).fixed = s.fixed := by simp [setNet]
@[simp] theorem fixed_setFloor (s : State) (gesture n) : (s.setFloor gesture n).fixed = s.fixed := by simp [setFloor]
@[simp] theorem fixed_netOff (s : State) (gesture) : (s.netOff gesture).fixed = s.fixed := by simp [netOff]
@[simp] theorem fixed_datapathWords (s : State) (g ws) : (s.datapathWords g ws).1.fixed = s.fixed := by
  have h : ∀ (t : State × Bool) (p : Nat × Ecc), (match t, p with
      | (s, ok), (w, e) => match ok, e with
        | true, .single => ((s.noteCnEcc w false).setEcc w .ok, true)
        | true, .double => (s.noteCnEcc w true, false)
        | _, _ => (s, ok)).1.fixed = t.1.fixed := by
    rintro ⟨t, _ | _⟩ ⟨w, _ | _ | _⟩ <;> simp
  unfold datapathWords
  dsimp only
  split
  · exact fixed_foldl_fst _ h _ _
  · simp only [fixed_setRf, fixed_netOff]
    exact fixed_foldl_fst _ h _ _
@[simp] theorem fixed_workingWords (s : State) : s.workingWords.1.fixed = s.fixed := by simp [workingWords]
@[simp] theorem fixed_datapathWork (s : State) (gesture) : (s.datapathWork gesture).1.fixed = s.fixed := by
  simp [datapathWork]
@[simp] theorem fixed_netEnable (s : State) (gesture) : (s.netEnable gesture).fixed = s.fixed := by simp [netEnable]
@[simp] theorem fixed_writeCnCtrl (s : State) (v) : (s.writeCnCtrl v).fixed = s.fixed := by simp [writeCnCtrl]
@[simp] theorem fixed_level (s : State) (gesture l) : (s.level gesture l).fixed = s.fixed := by simp [level]
@[simp] theorem fixed_featureFrame (s : State) (samples) : (s.featureFrame samples).fixed = s.fixed := by
  simp [featureFrame]
@[simp] theorem fixed_gestureFrame (s : State) (codes : List Nat) : (s.gestureFrame codes).fixed = s.fixed := by
  simp only [gestureFrame, fixed_ite, fixed_level, fixed_setNet, fixed_datapathWork, ite_self]
@[simp] theorem fixed_detect (s : State) (gesture codes) : (s.detect gesture codes).1.fixed = s.fixed := by simp [detect]
@[simp] theorem fixed_datapathRead (s : State) (gesture) : (s.datapathRead gesture).1.fixed = s.fixed := by
  simp [datapathRead]
@[simp] theorem fixed_infer (s : State) : s.infer.1.fixed = s.fixed := by
  unfold infer
  dsimp only
  split <;> simp
@[simp] theorem fixed_readCnEvent (s : State) : s.readCnEvent.2.fixed = s.fixed := by unfold readCnEvent; split <;> simp

/-! ### CSI-2 and I²C (17) -/

@[simp] theorem fixed_setOpen (s : State) (vc f) : (s.setOpen vc f).fixed = s.fixed := by simp [setOpen]
@[simp] theorem fixed_csiErr (s : State) (i) : (s.csiErr i).fixed = s.fixed := by simp [csiErr]
@[simp] theorem fixed_csiStop (s : State) : s.csiStop.fixed = s.fixed := by simp [csiStop]
@[simp] theorem fixed_csiEnd (s : State) (vc) : (s.csiEnd vc).fixed = s.fixed := by unfold csiEnd; split <;> simp
@[simp] theorem fixed_csiStart (s : State) (vc fnum) : (s.csiStart vc fnum).fixed = s.fixed := by simp [csiStart]
@[simp] theorem fixed_csiFinish (s : State) (vc) : (s.csiFinish vc).fixed = s.fixed := by
  unfold csiFinish
  (repeat' split) <;> simp
@[simp] theorem fixed_csiLine (s : State) (vc dt l crcOk) : (s.csiLine vc dt l crcOk).fixed = s.fixed := by
  unfold csiLine
  (repeat' split) <;> simp
@[simp] theorem fixed_csiDiscard (s : State) (kind) : (s.csiDiscard kind).fixed = s.fixed := by
  unfold csiDiscard
  (repeat' split) <;> simp
@[simp] theorem fixed_writeCsiCtrl (s : State) (v) : (s.writeCsiCtrl v).fixed = s.fixed := by simp [writeCsiCtrl]
@[simp] theorem fixed_csiApply (s : State) : s.csiApply.fixed = s.fixed := by
  unfold csiApply
  dsimp only
  (repeat' split) <;> simp
@[simp] theorem fixed_csiStale (s : State) : s.csiStale.fixed = s.fixed := by simp [csiStale]
@[simp] theorem fixed_writeXfer (s : State) (c v) : (s.writeXfer c v).fixed = s.fixed := by simp [writeXfer]
@[simp] theorem fixed_i2cEnd (s : State) (c result n) : (s.i2cEnd c result n).fixed = s.fixed := by simp [i2cEnd]
@[simp] theorem fixed_i2cMeet (s : State) (c free addr acks again rd) :
    (s.i2cMeet c free addr acks again rd).fixed = s.fixed := by unfold i2cMeet; split <;> simp
@[simp] theorem fixed_i2cAbort (s : State) (c) : (s.i2cAbort c).fixed = s.fixed := by simp [i2cAbort]
@[simp] theorem fixed_i2cRecover (s : State) (c) : (s.i2cRecover c).fixed = s.fixed := by simp [i2cRecover]
@[simp] theorem fixed_writeI2cCtrl (s : State) (c v) : (s.writeI2cCtrl c v).fixed = s.fixed := by simp [writeI2cCtrl]
@[simp] theorem fixed_i2cStat (s : State) (c) : (s.i2cStat c).2.fixed = s.fixed := by simp [i2cStat]

/-! ### Lookout (17) -/

@[simp] theorem fixed_setExp (s : State) (e g) : (s.setExp e g).fixed = s.fixed := by simp [setExp]
@[simp] theorem fixed_etrimApply (s : State) (x) : (s.etrimApply x).fixed = s.fixed := by simp [etrimApply]
@[simp] theorem fixed_frameStart (s : State) (t0) : (s.frameStart t0).fixed = s.fixed := by simp [frameStart]
@[simp] theorem fixed_frameEnd (s : State) (long short) : (s.frameEnd long short).fixed = s.fixed := by
  unfold frameEnd
  dsimp only
  (repeat' split) <;> simp
@[simp] theorem fixed_writeLkCtrl (s : State) (v) : (s.writeLkCtrl v).fixed = s.fixed := by simp [writeLkCtrl]
@[simp] theorem fixed_lkApply (s : State) : s.lkApply.fixed = s.fixed := by
  unfold lkApply
  dsimp only
  (repeat' split) <;> simp
@[simp] theorem fixed_lkStale (s : State) : s.lkStale.fixed = s.fixed := by simp [lkStale]
theorem fixed_lkComputed {s : State} {o} {x : Word × State} (h : s.lkComputed o = some x) : x.2.fixed = s.fixed := by
  unfold lkComputed at h
  split at h
  · cases h; rfl
  · split at h
    · cases h; rfl
    · split at h
      · cases h; simp
      · split at h
        · cases h; rfl
        · cases h

/-! ### The flash reader (21 R864) -/

@[simp] theorem fixed_qrdDone (s : State) (result) : (s.qrdDone result).fixed = s.fixed := by simp [qrdDone]
@[simp] theorem fixed_qrdGo (s : State) : s.qrdGo.fixed = s.fixed := by
  unfold qrdGo
  dsimp only
  (repeat' split) <;> simp
@[simp] theorem fixed_writeQrdCtrl (s : State) (v) : (s.writeQrdCtrl v).fixed = s.fixed := by simp [writeQrdCtrl]
@[simp] theorem fixed_qrdEnd (s : State) (data) : (s.qrdEnd data).fixed = s.fixed := by unfold qrdEnd; split <;> simp

/-! ### CSR accesses (00 R16–R22) -/

@[simp] theorem fixed_mlRead (s : State) (i o) : (s.mlRead i o).2.fixed = s.fixed := by simp [mlRead]
@[simp] theorem fixed_mlWrite (s : State) (i o v) : (s.mlWrite i o v).fixed = s.fixed := by simp [mlWrite]
@[simp] theorem fixed_bsSlot (s : State) (o) : (s.bsSlot o).2.fixed = s.fixed := by simp [bsSlot]
@[simp] theorem fixed_plainRead (s : State) (a) : (s.plainRead a).2.fixed = s.fixed := by simp [plainRead]
@[simp] theorem fixed_plainWrite (s : State) (a v) : (s.plainWrite a v).fixed = s.fixed := by simp [plainWrite]
@[simp] theorem fixed_csrRead (s : State) (a : Nat) : (s.csrRead a).2.fixed = s.fixed := by
  unfold csrRead
  dsimp only
  split
  case h_21 =>
    split
    · exact fixed_lkComputed ‹_›
    · simp
  case h_24 => split <;> simp
  all_goals simp
@[simp] theorem fixed_csrWrite (s : State) (a v) : (s.csrWrite a v).fixed = s.fixed := by unfold csrWrite; split <;> simp

end Sys2Proof.Machine.State
end

section
/-! PROOFS. What no command changes: Bosun (14–16). -/

namespace Sys2Proof.Machine.State

open Sys2Proof.Spec

/-! ### One instruction (14) -/

@[simp] theorem fixed_bosunEcc (s : State) (a) : (s.bosunEcc a).fixed = s.fixed := by simp [bosunEcc]
@[simp] theorem fixed_performAt (s : State) (a l) : (s.performAt a l).fixed = s.fixed := by
  unfold performAt
  dsimp only
  (repeat' split) <;> simp
@[simp] theorem fixed_performStore (s : State) : s.performStore.fixed = s.fixed := by unfold performStore; split <;> simp
@[simp] theorem fixed_drainStores (s : State) : s.drainStores.fixed = s.fixed := by simp [drainStores]
@[simp] theorem fixed_pairFault (s : State) (code detail) : (s.pairFault code detail).fixed = s.fixed := by
  simp [pairFault]
@[simp] theorem fixed_fetchWord (s : State) (pc) : (s.fetchWord pc).1.fixed = s.fixed := by
  unfold fetchWord
  dsimp only
  split <;> simp
/-- What an instruction leaves has `z` fixed. -/
def InsFixed (z : Part × List Instr) : BRes → Prop
  | .done s => s.fixed = z
  | .jump s _ => s.fixed = z
  | .goto s _ => s.fixed = z
  | .exc s _ _ _ => s.fixed = z
  | .block s _ => s.fixed = z
  | .stop s => s.fixed = z
@[simp] theorem insFixed_done (z s) : InsFixed z (.done s) ↔ s.fixed = z := Iff.rfl
@[simp] theorem insFixed_jump (z s t) : InsFixed z (.jump s t) ↔ s.fixed = z := Iff.rfl
@[simp] theorem insFixed_goto (z s t) : InsFixed z (.goto s t) ↔ s.fixed = z := Iff.rfl
@[simp] theorem insFixed_exc (z s c sub b) : InsFixed z (.exc s c sub b) ↔ s.fixed = z := Iff.rfl
@[simp] theorem insFixed_block (z s w) : InsFixed z (.block s w) ↔ s.fixed = z := Iff.rfl
@[simp] theorem insFixed_stop (z s) : InsFixed z (.stop s) ↔ s.fixed = z := Iff.rfl
@[simp] theorem insFixed_ite (z) (c : Prop) [Decidable c] (a b : BRes) :
    InsFixed z (if c then a else b) ↔ if c then InsFixed z a else InsFixed z b := by split <;> rfl
theorem insFixed_bload (s size sg rd a) : InsFixed s.fixed (bload s size sg rd a) := by
  unfold bload
  dsimp only
  split
  · simp
  · split
    · split
      · simp
      · split <;> simp
    · simp
    · split <;> split
      · simp
      · split <;> simp
      · simp
      · split <;> simp
theorem insFixed_bstore (s size v a) : InsFixed s.fixed (bstore s size v a) := by
  unfold bstore
  dsimp only
  split
  · simp
  · split
    · split
      · simp
      · split <;> simp
    · simp
@[simp] theorem fixed_doubleFault (s : State) (detail) : (s.doubleFault detail).fixed = s.fixed := by simp [doubleFault]
@[simp] theorem fixed_pushWord (s : State) (a v) : (s.pushWord a v).fixed = s.fixed := by simp [pushWord]
@[simp] theorem fixed_vectorTo (s : State) (vec) : (s.vectorTo vec).fixed = s.fixed := by
  unfold vectorTo
  dsimp only
  split <;> simp
@[simp] theorem fixed_stackFault (s : State) (image epc cause bad sp code src) :
    (s.stackFault image epc cause bad sp code src).fixed = s.fixed := by simp [stackFault]
@[simp] theorem fixed_enterExc (s : State) (code sub src epc bd mcp bad vec) :
    (s.enterExc code sub src epc bd mcp bad vec).fixed = s.fixed := by simp [enterExc]
@[simp] theorem fixed_trap (s : State) (code sub bad) : (s.trap code sub bad).fixed = s.fixed := by
  unfold trap
  dsimp only
  split <;> simp
@[simp] theorem fixed_loopNext (s : State) (pc : Word) : (s.loopNext pc).2.fixed = s.fixed := by
  unfold loopNext
  extract_lets one
  have h : ∀ t n, (one t n).2.fixed = t.fixed := fun t n => by simp [one]
  have h1 := h s 1
  split
  · next e => rwa [e] at h1
  · next t e =>
    have h0 := h t 0
    rw [e] at h1
    split <;> next e => rw [e] at h0; exact h0.trans h1
@[simp] theorem fixed_shadowStep (s : State) : s.shadowStep.fixed = s.fixed := by unfold shadowStep; split <;> simp
@[simp] theorem fixed_retire (s : State) : s.retire.fixed = s.fixed := by simp [retire]
theorem fixed_endIns {z} (b) {r : BRes} (h : InsFixed z r) : (endIns b r).fixed = z := by
  cases r with
  | done s =>
    have h : s.fixed = z := h
    simp [endIns, h]
  | _ => simp_all [endIns]
@[simp] theorem fixed_divergeTrail (s : State) : s.divergeTrail.fixed = s.fixed := by unfold divergeTrail; split <;> simp
@[simp] theorem fixed_keepPrefix (s : State) (bs) : (s.keepPrefix bs).fixed = s.fixed := by simp [keepPrefix]
@[simp] theorem fixed_goesOn (a b : State) : (goesOn a b).fixed = a.fixed := by simp [goesOn]
@[simp] theorem fixed_lockstep {f : State → State} (hf : ∀ t, (f t).fixed = t.fixed) (s : State) :
    (lockstep f s).fixed = s.fixed := by
  unfold lockstep
  dsimp only
  split
  · simp [hf]
  · split <;> simp [hf]

/-! ### The instructions (14.11) -/

theorem insFixed_jumpReg (s t l) : InsFixed s.fixed (jumpReg s t l) := by
  cases l <;> simp [jumpReg]
theorem insFixed_loopSetup (s l c o) : InsFixed s.fixed (loopSetup s l c o) := by
  unfold loopSetup
  extract_lets n pc ls le fail
  have hf : ∀ k, InsFixed s.fixed (fail k) := fun k => rfl
  repeat' rw [insFixed_ite]
  split
  · exact hf 1
  · split
    · exact hf 2
    · split
      · exact hf 3
      · split
        · exact hf 4
        · have h1 := fixed_fetchWord s le
          split
          · next e => rw [e] at h1; exact h1
          · next t w e =>
            rw [e] at h1
            have h2 := fixed_fetchWord t (le - 4)
            split
            · next e => rw [e] at h2; exact h2.trans h1
            · next e => rw [e] at h2; dsimp only at h1 h2 ⊢; simp [h1, h2]
@[simp] theorem fixed_bsWrite (s : State) (n v) : (s.bsWrite n v).fixed = s.fixed := by simp [bsWrite]
theorem insFixed_csrIns (s w op rd ra n) : InsFixed s.fixed (csrIns s w op rd ra n) := by
  simp [csrIns]
theorem insFixed_afterStores {z} {s : State} {f} (h : s.fixed = z) (hf : ∀ t : State, t.fixed = z → InsFixed z (f t)) :
    InsFixed z (afterStores s f) := by
  simp [afterStores, h, hf]
theorem insFixed_bellWait (s fn eq rd ra rb) : InsFixed s.fixed (bellWait s fn eq rd ra rb) := by
  simp [bellWait]
theorem fixed_sumPop {s : State} {sh rd rb t} (h : s.sumPop sh rd rb = some t) : t.fixed = s.fixed := by
  unfold sumPop at h
  split at h
  · cases h
  · cases h; simp
@[simp] theorem fixed_sumEmpty (s : State) (rd rb) : (s.sumEmpty rd rb).fixed = s.fixed := by simp [sumEmpty]
theorem insFixed_sumrd (s rd rb sh nb) : InsFixed s.fixed (sumrd s rd rb sh nb) := by
  unfold sumrd
  dsimp only
  split
  · next e => exact (fixed_sumPop e).trans (by simp)
  · simp
@[simp] theorem fixed_hsig (s : State) (v) : (s.hsig v).fixed = s.fixed := by simp [hsig]
theorem insFixed_eretTo {z} {s : State} (h : s.fixed = z) (i t) : InsFixed z (eretTo s i t) := by
  simp [eretTo, h]
theorem insFixed_eret {z} {s : State} (h : s.fixed = z) : InsFixed z (eret s) := by
  unfold eret
  dsimp only
  split
  · exact insFixed_eretTo h _ _
  · split
    · split
      · simp [h]
      · exact insFixed_eretTo (by simp [h]) _ _
    · simp [h]
theorem insFixed_keeperOnly {s : State} (w) {r} (h : InsFixed s.fixed r) : InsFixed s.fixed (keeperOnly s w r) := by
  simp [keeperOnly, h]
theorem insFixed_execIns (s w i) : InsFixed s.fixed (execIns s w i) := by
  cases i <;> simp [execIns, insFixed_jumpReg, insFixed_bload, insFixed_bstore, insFixed_loopSetup, insFixed_csrIns,
    insFixed_bellWait, insFixed_sumrd, insFixed_eret, insFixed_afterStores, insFixed_keeperOnly]
@[simp] theorem fixed_stepCopy (s : State) : s.stepCopy.fixed = s.fixed := by
  unfold stepCopy
  dsimp only
  split
  · simp
  · have h := fixed_fetchWord (s.emitFetch s.core.pc) s.core.pc
    split
    · next e => rw [e] at h; simpa using h
    · next e =>
      rw [e] at h
      split
      · simpa using h
      · split
        · simpa using h
        · exact (fixed_endIns _ (insFixed_execIns _ _ _)).trans (by simpa using h)
@[simp] theorem fixed_bosunRun (want) (s : State) : (bosunRun want s).fixed = s.fixed := by
  simp [bosunRun]
@[simp] theorem fixed_bosunIllegal (s : State) : s.bosunIllegal.fixed = s.fixed := by
  simp [bosunIllegal]
@[simp] theorem fixed_bosunNoFetch (s : State) : s.bosunNoFetch.fixed = s.fixed := by
  simp [bosunNoFetch]

/-! ### Waits, interrupts and lockstep (14–16) -/

theorem insFixed_waitDone {s : State} {w r} (h : s.waitDone w = some r) : InsFixed s.fixed r := by
  unfold waitDone at h
  dsimp only at h
  split at h <;> simp at h
  · obtain ⟨_, rfl⟩ := h; simp
  · obtain ⟨_, rfl⟩ := h; simp
  · obtain ⟨a, h, rfl⟩ := h; exact fixed_sumPop h
  · obtain ⟨_, rfl⟩ := h; simp
  · obtain ⟨a, b, _, rfl⟩ := h; simp
  · obtain ⟨a, b, _, rfl⟩ := h; simp
@[simp] theorem fixed_bosunWaitEnd (s : State) : s.bosunWaitEnd.fixed = s.fixed := by
  unfold bosunWaitEnd
  split
  · rfl
  · rw [fixed_ite, fixed_lockstep, ite_self]
    intro t
    split
    · exact fixed_endIns _ (insFixed_waitDone ‹_›)
    · rfl
@[simp] theorem fixed_bosunWaitTimeout (s : State) : s.bosunWaitTimeout.fixed = s.fixed := by
  unfold bosunWaitTimeout
  split
  · rfl
  · extract_lets own b first rd late
    split
    · have hl : ∀ g : State → State, (∀ t, (g t).fixed = t.fixed) → ∀ t, (late g t).fixed = t.fixed := by
        intro g hg t
        simp only [late]
        split
        · exact fixed_endIns _ (hg t)
        · rfl
      split
      · exact fixed_lockstep (hl _ (by simp)) s
      · exact fixed_lockstep (hl _ (by simp)) s
      · exact fixed_lockstep (hl _ (by simp)) s
      · rfl
    · rfl
@[simp] theorem fixed_clearLatch (s : State) (i) : (s.clearLatch i).fixed = s.fixed := by
  unfold clearLatch; split <;> simp
@[simp] theorem fixed_copyInterrupt (s : State) : s.copyInterrupt.fixed = s.fixed := by
  unfold copyInterrupt
  dsimp only
  split
  · split
    · simp [fixed_endIns (z := s.fixed)]
    · simp
  · simp
@[simp] theorem fixed_interrupt (s : State) : s.interrupt.fixed = s.fixed := by
  simp [interrupt]
@[simp] theorem fixed_checkpoint (s : State) : s.checkpoint.fixed = s.fixed := by
  simp [checkpoint]
@[simp] theorem fixed_lockMismatch (s : State) (low count) : (s.lockMismatch low count).fixed = s.fixed := by
  simp [lockMismatch]
@[simp] theorem fixed_compFault (s : State) : s.compFault.fixed = s.fixed := by simp [compFault]
@[simp] theorem fixed_delayParity (s : State) (out lane) : (s.delayParity out lane).fixed = s.fixed := by
  simp [delayParity]
@[simp] theorem fixed_selfInject (s : State) (rail0 rail1) : (s.selfInject rail0 rail1).fixed = s.fixed := by
  simp [selfInject]
@[simp] theorem fixed_sweep (s : State) : s.sweep.fixed = s.fixed := by simp [sweep]
@[simp] theorem fixed_resync (s : State) : s.resync.fixed = s.fixed := by
  unfold resync
  dsimp only
  split
  · split
    · simp [fixed_endIns (z := s.fixed)]
    · simp
  · simp
@[simp] theorem fixed_backstay (s : State) (iob n) : (s.backstay iob n).fixed = s.fixed := by simp [backstay]

end Sys2Proof.Machine.State
end

section
/-! PROOFS. What no command changes: images, Muster, the Deck, streams and flits (03; 05; 08; 20; 21). -/

namespace Sys2Proof.Machine.State

open Sys2Proof.Spec

/-! ### Images (21) -/

theorem fixed_chkNext {α β : Type} {z} {r : Chk α} {f : State → α → Chk β} (h : r.1.fixed = z)
    (hf : ∀ s a, s.fixed = z → (f s a).1.fixed = z) :
    (r.next f).1.fixed = z := by
  obtain ⟨s, _ | a⟩ := r
  · exact h
  · exact hf s a h
@[simp] theorem fixed_must (s : State) (ok c) : (must s ok c).1.fixed = s.fixed := by simp [must]
@[simp] theorem fixed_readImage (src) (s : State) (o n) : (readImage src s o n).1.fixed = s.fixed := by
  unfold readImage
  split
  · rfl
  · dsimp only; split <;> simp
@[simp] theorem fixed_checkHeader (src) (s : State) : (checkHeader src s).1.fixed = s.fixed := by
  unfold checkHeader
  refine fixed_chkNext (by simp) fun t a h => ?_
  refine fixed_chkNext (by simp [h]) fun t a h => ?_
  refine fixed_chkNext (by simp [h]) fun t a h => ?_
  exact fixed_chkNext (by simp [h]) fun t a h => h
@[simp] theorem fixed_checkFootprint (src) (s : State) (b l) : (checkFootprint src s b l).1.fixed = s.fixed := by
  unfold checkFootprint
  refine fixed_chkNext (by simp) fun t a h => ?_
  refine fixed_chkNext (by simp [h]) fun t a h => ?_
  refine fixed_chkNext (by simp [h]) fun t a h => ?_
  refine fixed_chkNext (by simp [h]) fun t a h => ?_
  refine fixed_chkNext (by simp [h]) fun t a h => ?_
  exact fixed_chkNext (by simp [h]) fun t a h => h
@[simp] theorem fixed_checkSects (src f b e p l) (s : State) : (checkSects src f b e p l s).1.fixed = s.fixed := by
  induction l generalizing p s with
  | nil => rfl
  | cons x t ih =>
    unfold checkSects
    refine fixed_chkNext (by simp) fun u a h => ?_
    dsimp only
    split
    · refine fixed_chkNext (by simp [h]) fun u a h => ?_
      exact fixed_chkNext (by simp [h]) fun u a h => (ih _ _).trans h
    · exact (ih _ _).trans h
@[simp] theorem fixed_checkCrcs (src l) (s : State) : (checkCrcs src l s).1.fixed = s.fixed := by
  induction l generalizing s with
  | nil => rfl
  | cons x t ih =>
    unfold checkCrcs
    split
    · exact ih s
    · refine fixed_chkNext (by simp) fun u a h => ?_
      exact fixed_chkNext (by simp [h]) fun u a h => (ih _).trans h
@[simp] theorem fixed_checkSignature (src l) (s : State) : (checkSignature src l s).1.fixed = s.fixed := by
  unfold checkSignature
  split
  · split
    · rfl
    · refine fixed_chkNext (by simp) fun u a h => ?_
      exact fixed_chkNext (by simp [h]) fun u a h => by simp [h]
  · rfl
@[simp] theorem fixed_readSect (src l n) (s : State) : (readSect src l n s).1.fixed = s.fixed := by
  unfold readSect
  split <;> simp
@[simp] theorem fixed_checkRecords (src l) (s : State) : (checkRecords src l s).1.fixed = s.fixed := by
  unfold checkRecords
  refine fixed_chkNext (by simp) fun u a h => ?_
  refine fixed_chkNext (by simp [h]) fun u a h => ?_
  exact fixed_chkNext (by simp [h]) fun u a h => by simp [h]
@[simp] theorem fixed_checkImage (src) (s : State) : (checkImage src s).1.fixed = s.fixed := by
  unfold checkImage
  refine fixed_chkNext (by simp) fun t a h => ?_
  refine fixed_chkNext (by simp [h]) fun t a h => ?_
  refine fixed_chkNext (by simp [h]) fun t a h => ?_
  refine fixed_chkNext (by simp [h]) fun t a h => ?_
  refine fixed_chkNext (by simp [h]) fun t a h => ?_
  refine fixed_chkNext (by simp [h]) fun t a h => ?_
  exact fixed_chkNext (by simp [h]) fun t a h => h
@[simp] theorem fixed_placeSect (src x) (s : State) : (placeSect src x s).1.fixed = s.fixed := by
  unfold placeSect
  extract_lets put
  have hp : ∀ t l, (put t l).1.fixed = t.fixed := by
    intro t l
    simp only [put]
    split <;> simp
  split
  · exact hp _ _
  · split
    · exact fixed_chkNext (by simp) fun u a h => (hp _ _).trans h
    · rfl
@[simp] theorem fixed_placeSects (src l) (s : State) : (placeSects src l s).1.fixed = s.fixed := by
  induction l generalizing s with
  | nil => rfl
  | cons x t ih => exact fixed_chkNext (by simp) fun u a h => (ih _).trans h
@[simp] theorem fixed_placeNet (src l g) (s : State) : (placeNet src l g s).1.fixed = s.fixed := by
  unfold placeNet
  split
  · rfl
  · refine fixed_chkNext (by simp) fun t a h => ?_
    dsimp only
    split <;> simp [h]
@[simp] theorem fixed_loadRegions (s : State) (rs) : (s.loadRegions rs).fixed = s.fixed := by simp [loadRegions]
@[simp] theorem fixed_resetBells (s : State) : s.resetBells.fixed = s.fixed := by simp [resetBells]
@[simp] theorem fixed_loadRings (s : State) (ns) : (s.loadRings ns).fixed = s.fixed := by
  unfold loadRings
  rw [fixed_resetBells]
  refine fixed_foldl _ (fun t p => ?_) _ _
  dsimp only
  split
  · rfl
  · split <;> simp
@[simp] theorem fixed_clearEngines (s : State) : s.clearEngines.fixed = s.fixed := by simp [clearEngines]
@[simp] theorem fixed_spoilEsave (s : State) : s.spoilEsave.fixed = s.fixed := by simp [spoilEsave]
@[simp] theorem fixed_startBosun (s : State) (entry) : (s.startBosun entry).fixed = s.fixed := by simp [startBosun]
@[simp] theorem fixed_disableAll (s : State) : s.disableAll.fixed = s.fixed := by simp [disableAll]
@[simp] theorem fixed_finishBind (s : State) (x) : (s.finishBind x).fixed = s.fixed := by simp [finishBind]
@[simp] theorem fixed_keepCn (s s0 : State) : (keepCn s s0).fixed = s.fixed := by simp [keepCn]
@[simp] theorem fixed_voidBind (s s0 : State) (x) : (voidBind s s0 x).fixed = s.fixed := by
  unfold voidBind
  simp
@[simp] theorem fixed_commitImage (src) (s : State) (x) : (commitImage src s x).1.fixed = s.fixed := by
  unfold commitImage
  dsimp only
  split
  · simp
  · have h : ((placeSects src x.sects s.disableAll).next fun s _ =>
      (placeNet src x.sects false s).next fun s _ => placeNet src x.sects true s).1.fixed = s.fixed := by
      refine fixed_chkNext (by simp) fun u a h => ?_
      exact fixed_chkNext (by simp [h]) fun u a h => by simp [h]
    split
    · next e => rw [e] at h; simpa using h
    · next e =>
      rw [e] at h
      split <;> simpa using h
@[simp] theorem fixed_bindImage (src) (s : State) : (bindImage src s).1.fixed = s.fixed := by
  unfold bindImage
  exact fixed_chkNext (by simp) fun t a h => by simp [h]

/-! ### Muster, wakes and resets (03) -/

@[simp] theorem fixed_spoilRam (s : State) (q) : (s.spoilRam q).fixed = s.fixed := by simp [spoilRam]
@[simp] theorem fixed_loseRam (s : State) : s.loseRam.fixed = s.fixed := by simp [loseRam]
@[simp] theorem fixed_loseFt (s : State) : s.loseFt.fixed = s.fixed := by simp [loseFt]
@[simp] theorem fixed_resetTo (s : State) (hold) : (s.resetTo hold).fixed = s.fixed := by simp [resetTo]
@[simp] theorem fixed_startMuster (s : State) : s.startMuster.fixed = s.fixed := by simp [startMuster]
@[simp] theorem fixed_release (s : State) : s.release.fixed = s.fixed := by simp [release]
@[simp] theorem fixed_setStage (s : State) (st unit fail) : (s.setStage st unit fail).fixed = s.fixed := by
  simp [setStage]
@[simp] theorem fixed_failStage (s : State) (unit detail) : (s.failStage unit detail).fixed = s.fixed := by
  simp [failStage]
@[simp] theorem fixed_reachHoveTo (s : State) : s.reachHoveTo.fixed = s.fixed := by
  unfold reachHoveTo
  dsimp only
  split <;> simp
@[simp] theorem fixed_mustered (s : State) : s.mustered.fixed = s.fixed := by
  unfold mustered
  dsimp only
  split <;> simp
@[simp] theorem fixed_stageEnd (s : State) (pass unit detail) : (s.stageEnd pass unit detail).fixed = s.fixed := by
  simp [stageEnd]
@[simp] theorem fixed_regChkTimeout (s : State) (gr) : (s.regChkTimeout gr).fixed = s.fixed := by simp [regChkTimeout]
@[simp] theorem fixed_musterTime (s : State) : s.musterTime.fixed = s.fixed := by simp [musterTime]
@[simp] theorem fixed_bootCause (s : State) (first c) : (s.bootCause first c).fixed = s.fixed := by simp [bootCause]
@[simp] theorem fixed_bootTry (s : State) (fl first block image) :
    (s.bootTry fl first block image).1.fixed = s.fixed := by
  unfold bootTry
  extract_lets q quad t off w reach far dests
  have ht : t.fixed = s.fixed := by simp [t]
  split
  · simp [ht]
  · have h := fixed_bindImage (.flash image) t
    split
    · next e => rw [e] at h; exact h.trans ht
    · next e =>
      rw [e] at h
      split <;> simpa [ht] using h
@[simp] theorem fixed_bootEnd (s : State) (fl) : (s.bootEnd fl).fixed = s.fixed := by simp [bootEnd]
@[simp] theorem fixed_supplyLoss (s : State) (gr) : (s.supplyLoss gr).fixed = s.fixed := by simp [supplyLoss]
@[simp] theorem fixed_grDip (s : State) : s.grDip.fixed = s.fixed := by simp [grDip]
@[simp] theorem fixed_vinRemoved (s : State) : s.vinRemoved.fixed = s.fixed := by simp [vinRemoved]
@[simp] theorem fixed_vinRise (s : State) : s.vinRise.fixed = s.fixed := by simp [vinRise]
@[simp] theorem fixed_clockLoss (s : State) (unit) : (s.clockLoss unit).fixed = s.fixed := by simp [clockLoss]
@[simp] theorem fixed_dropCkpt (s : State) : s.dropCkpt.fixed = s.fixed := by simp [dropCkpt]
@[simp] theorem fixed_reefAccept (s : State) (retain) : (s.reefAccept retain).fixed = s.fixed := by simp [reefAccept]
@[simp] theorem fixed_tryStop (s : State) (c) : (s.tryStop c).fixed = s.fixed := by simp [tryStop]
@[simp] theorem fixed_bindEnd (s : State) : s.bindEnd.fixed = s.fixed := by
  unfold bindEnd
  dsimp only
  (repeat' split) <;> simp
@[simp] theorem fixed_restart (s : State) (retained) : (s.restart retained).fixed = s.fixed := by simp [restart]
@[simp] theorem fixed_coldStart (s : State) : s.coldStart.fixed = s.fixed := by simp [coldStart]
@[simp] theorem fixed_startWake (s : State) : s.startWake.fixed = s.fixed := by simp [startWake]
@[simp] theorem fixed_reefDone (s : State) : s.reefDone.fixed = s.fixed := by unfold reefDone; split <;> simp
@[simp] theorem fixed_wakeDone (s : State) : s.wakeDone.fixed = s.fixed := by simp [wakeDone]
@[simp] theorem fixed_wakeTimeout (s : State) : s.wakeTimeout.fixed = s.fixed := by
  unfold wakeTimeout
  dsimp only
  (repeat' split) <;> simp
@[simp] theorem fixed_tempSample (s : State) (code) : (s.tempSample code).fixed = s.fixed := by simp [tempSample]

/-! ### The Deck (05) -/

@[simp] theorem fixed_clearTags (s : State) : s.clearTags.fixed = s.fixed := by simp [clearTags]
@[simp] theorem fixed_bindTouch (s : State) (a) : (s.bindTouch a).fixed = s.fixed := by simp [bindTouch]
@[simp] theorem fixed_mapAccess (s : State) (a w) : (s.mapAccess a w).1.fixed = s.fixed := by
  unfold mapAccess
  dsimp only
  (repeat' split) <;> simp
@[simp] theorem fixed_winExpire (s : State) : s.winExpire.fixed = s.fixed := by unfold winExpire; split <;> simp
@[simp] theorem fixed_winAccess (s : State) (w slow) : (s.winAccess w slow).fixed = s.fixed := by
  unfold winAccess
  dsimp only
  (repeat' split) <;> simp
@[simp] theorem fixed_winComplete (s : State) : s.winComplete.fixed = s.fixed := by unfold winComplete; split <;> simp
@[simp] theorem fixed_doorWrite (s : State) (v) : (s.doorWrite v).fixed = s.fixed := by simp [doorWrite]
@[simp] theorem fixed_doorAnswer (s : State) : s.doorAnswer.fixed = s.fixed := by unfold doorAnswer; split <;> simp
@[simp] theorem fixed_bellValWrite (s : State) (v) : (s.bellValWrite v).fixed = s.fixed := by simp [bellValWrite]
@[simp] theorem fixed_bellLoad (s : State) : s.bellLoad.fixed = s.fixed := by simp [bellLoad]
@[simp] theorem fixed_cmdRefuse (s : State) (op result) : (s.cmdRefuse op result).fixed = s.fixed := by simp [cmdRefuse]
@[simp] theorem fixed_cmdStart (s : State) (op retain skip) : (s.cmdStart op retain skip).fixed = s.fixed := by
  unfold cmdStart; split <;> simp
@[simp] theorem fixed_cmdWrite (s : State) (v) : (s.cmdWrite v).fixed = s.fixed := by simp [cmdWrite]
@[simp] theorem fixed_deckRead (s : State) (o) : (s.deckRead o).fixed = s.fixed := by
  unfold deckRead
  dsimp only
  (repeat' split) <;> simp
@[simp] theorem fixed_deckWrite (s : State) (o v) : (s.deckWrite o v).fixed = s.fixed := by simp [deckWrite]
@[simp] theorem fixed_hostRead (s : State) (o) : (s.hostRead o).fixed = s.fixed := by simp [hostRead]
@[simp] theorem fixed_hostWrite (s : State) (o v) : (s.hostWrite o v).fixed = s.fixed := by simp [hostWrite]
@[simp] theorem fixed_byteRead (s : State) (k high) : (s.byteRead k high).fixed = s.fixed := by simp [byteRead]
@[simp] theorem fixed_byteWrite (s : State) (k high b) : (s.byteWrite k high b).fixed = s.fixed := by
  unfold byteWrite
  (repeat' split) <;> simp
@[simp] theorem fixed_dapAccess (s : State) (a w) : (s.dapAccess a w).fixed = s.fixed := by
  unfold dapAccess
  dsimp only
  (repeat' split) <;> simp
@[simp] theorem fixed_csrReach (s : State) (a v) : (s.csrReach a v).fixed = s.fixed := by simp [csrReach]

/-! ### Events (19) -/

@[simp] theorem fixed_raiseEvent (s : State) (gesture c v) : (s.raiseEvent gesture c v).fixed = s.fixed := by
  simp [raiseEvent]
@[simp] theorem fixed_inferenceEnd (s : State) : s.inferenceEnd.fixed = s.fixed := by
  have h := fixed_infer s
  unfold inferenceEnd
  split
  · split
    · next e => rw [e] at h; simpa using h
    · next e => rw [e] at h; exact h
  · rfl

/-! ### Streams (08) -/

@[simp] theorem fixed_stopIfStopped (s : State) (sid) : (s.stopIfStopped sid).fixed = s.fixed := by simp [stopIfStopped]
@[simp] theorem fixed_streamIn (s : State) (inst) : (s.streamIn inst).fixed = s.fixed := by simp [streamIn]
@[simp] theorem fixed_countLost (s : State) (sid) : (s.countLost sid).fixed = s.fixed := by
  unfold countLost; split <;> simp
@[simp] theorem fixed_streamUnit (s : State) (sid) : (s.streamUnit sid).fixed = s.fixed := by
  unfold streamUnit; split <;> simp

/-! ### Flits (20) -/

@[simp] theorem fixed_setLink (s : State) (st) : (s.setLink st).fixed = s.fixed := by simp [setLink]
@[simp] theorem fixed_retreat (s : State) : s.retreat.fixed = s.fixed := by simp [retreat]
@[simp] theorem fixed_equalised (s : State) (m0 m1) : (s.equalised m0 m1).fixed = s.fixed := by simp [equalised]
@[simp] theorem fixed_aligned (s : State) (role sn swap pol) : (s.aligned role sn swap pol).fixed = s.fixed := by
  unfold aligned
  (repeat' split) <;> simp
@[simp] theorem fixed_ltrimAdapt (s : State) (lane lower here upper) :
    (s.ltrimAdapt lane lower here upper).fixed = s.fixed := by simp [ltrimAdapt]
@[simp] theorem fixed_takeAck (s : State) (f) : (s.takeAck f).fixed = s.fixed := by simp [takeAck]
@[simp] theorem fixed_inOrder (s : State) (f) : (s.inOrder f).1.fixed = s.fixed := by simp [inOrder]
@[simp] theorem fixed_sequenced (s : State) (f : Flit) {g : State → State} (hg : ∀ t, (g t).fixed = t.fixed) :
    (s.sequenced f g).fixed = s.fixed := by
  simp [sequenced, hg]
@[simp] theorem fixed_discardFlit (s : State) : s.discardFlit.fixed = s.fixed := by simp [discardFlit]
@[simp] theorem fixed_freeReq (s : State) : s.freeReq.fixed = s.fixed := by simp [freeReq]
@[simp] theorem fixed_freeRsp (s : State) : s.freeRsp.fixed = s.fixed := by simp [freeRsp]
@[simp] theorem fixed_freeMsg (s : State) : s.freeMsg.fixed = s.fixed := by simp [freeMsg]
@[simp] theorem fixed_linkFresh (s : State) (hdr) : (s.linkFresh hdr).fixed = s.fixed := by simp [linkFresh]
@[simp] theorem fixed_linkResume (s : State) (hdr seq) : (s.linkResume hdr seq).fixed = s.fixed := by simp [linkResume]
@[simp] theorem fixed_configFlit (s : State) (f) : (s.configFlit f).fixed = s.fixed := by simp [configFlit]
@[simp] theorem fixed_respond (s : State) (f typ status data) : (s.respond f typ status data).fixed = s.fixed := by
  simp [respond]
@[simp] theorem fixed_peerWrite (s : State) (f) : (s.peerWrite f).fixed = s.fixed := by
  unfold peerWrite
  dsimp only
  (repeat' split) <;> simp
@[simp] theorem fixed_peerRead (s : State) (f) : (s.peerRead f).fixed = s.fixed := by
  unfold peerRead
  dsimp only
  (repeat' split) <;> simp
@[simp] theorem fixed_peerBell (s : State) (f) : (s.peerBell f).fixed = s.fixed := by simp [peerBell]
@[simp] theorem fixed_startMsg (s : State) (m) : (s.startMsg m).fixed = s.fixed := by unfold startMsg; split <;> simp
@[simp] theorem fixed_msgFlit (s : State) (f) : (s.msgFlit f).fixed = s.fixed := by
  unfold msgFlit
  dsimp only
  (repeat' split) <;> simp
@[simp] theorem fixed_answerOp (s : State) (tag sentOnly a) : (s.answerOp tag sentOnly a).fixed = s.fixed := by
  unfold answerOp; split <;> simp
@[simp] theorem fixed_response (s : State) (f) : (s.response f).fixed = s.fixed := by simp [response]
@[simp] theorem fixed_remoteTimeout (s : State) (tag) : (s.remoteTimeout tag).fixed = s.fixed := by simp [remoteTimeout]
@[simp] theorem fixed_sendFlit (s : State) (t) : (s.sendFlit t).fixed = s.fixed := by simp [sendFlit]
@[simp] theorem fixed_sendConfig (s : State) : s.sendConfig.fixed = s.fixed := by simp [sendConfig]
@[simp] theorem fixed_trainSlot (s : State) : s.trainSlot.fixed = s.fixed := by simp [trainSlot]
@[simp] theorem fixed_sendNew (s : State) (t) : (s.sendNew t).fixed = s.fixed := by simp [sendNew]
theorem fixed_nextReq {s : State} {x} (h : s.nextReq = some x) : x.1.fixed = s.fixed := by
  unfold nextReq at h
  dsimp only at h
  split at h
  · cases h
  · cases h; rfl
  · cases h; rfl
  · split at h <;> cases h <;> rfl
@[simp] theorem fixed_flitSlot (s : State) : s.flitSlot.fixed = s.fixed := by
  unfold flitSlot
  split
  · rfl
  · split
    · simp
    · split
      · simp
      · split
        · simp
        · split
          · split <;> simp
          · extract_lets room req _ rsp msg
            have h : ∀ x ∈ req ++ rsp ++ msg, x.1.fixed = s.fixed := by
              intro x hx
              rcases List.mem_append.1 hx with hx | hx
              · rcases List.mem_append.1 hx with hx | hx
                · unfold req at hx
                  split at hx
                  · obtain ⟨y, hy, rfl⟩ := List.mem_map.1 hx
                    simpa using fixed_nextReq (Option.mem_toList.1 hy)
                  · cases hx
                · unfold rsp at hx
                  split at hx
                  · obtain ⟨y, -, rfl⟩ := List.mem_map.1 hx
                    simp
                  · cases hx
              · unfold msg at hx
                split at hx
                · obtain ⟨y, -, rfl⟩ := List.mem_map.1 hx
                  simp
                · cases hx
            split
            · simp
            · next x e => simpa using h x (by rw [e]; simp)
            · next x xs _ e =>
              rw [e] at h
              dsimp only
              simp only [fixed_sendNew, fixed_mk, fixed_eta]
              refine h _ ?_
              have hlt := Nat.mod_lt (s.draw 8).1.toNat (Nat.succ_pos xs.length)
              rw [List.getD_eq_getElem _ _ hlt]
              exact List.getElem_mem hlt

/-! ### The commands -/

theorem fixed_execWinTimeout (s : State) (w : Option Half) :
    (if s.deckFree then s.clearTags.winAccess (w.map s.winWord) true
      else match s.deck.win with | some x => if x.late then s else s.winExpire | none => s).fixed = s.fixed := by
  split
  · simp
  · split <;> simp

/-- Every command is one of the functions above of the state it meets. -/
theorem fixed_exec {c : Instr} {s t : State} (h : exec c s = .next t) : t.fixed = s.fixed := by
  cases c with
  | registerWrite r v =>
    obtain rfl := Host.Outcome.next.inj h
    cases r <;> simp
  | winTimeout w =>
    obtain rfl := Host.Outcome.next.inj h
    exact fixed_execWinTimeout s w
  | _ =>
    obtain rfl := Host.Outcome.next.inj h
    simp

theorem fixed_step {s t : State} (h : step s = .next t) : t.fixed = (s.part, s.pending.tail) := by
  unfold step at h
  split at h
  · next e => cases h; rw [e]; simp [fixed, e]
  · next e => rw [fixed_exec h, e]; simp

end Sys2Proof.Machine.State

namespace Sys2Proof

open Machine Machine.State

/-- Settles O6: no command writes the part or the queue, and a step takes the front command off first. -/
theorem everyStepKeepsThePartAndTakesOneCommand : Obligations.EveryStepKeepsThePartAndTakesOneCommand :=
  fun _ _ h => Prod.mk.inj (fixed_step h)

end Sys2Proof
end

section
/-! PROOFS. Bell operations with what they set off, and the host's accesses of the Bells (05 R227–R229; 07 R312–R316; 14 R617;
15 R658; 20 R827, R828). -/

namespace Sys2Proof.Machine

/-- A field set twice holds what it was set to last. -/
theorem putFld_putFld {n : Nat} (v : BitVec n) (lo w x y : Nat) : putFld (putFld v lo w x) lo w y = putFld v lo w y := by
  refine BitVec.eq_of_getLsbD_eq fun i hi => ?_
  rw [getLsbD_putFld, getLsbD_putFld, getLsbD_putFld]
  split
  · rfl
  · simp

end Sys2Proof.Machine

namespace Sys2Proof.Machine.State

open Sys2Proof.Spec

theorem rbit_eq_bit (s : State) (a i : Nat) : s.rbit a i = bit (s.reg a) i := by
  rw [rbit, rf, fld_bit]
  cases bit (s.reg a) i <;> rfl

/-! ### The Bell and the waits on it -/

/-- A Bell set, before what follows from it. -/
def bellPut (s : State) (n : Nat) (x : Word) : State := { s with cap := { s.cap with bells := Store.set 0 s.cap.bells n x } }

theorem bell_bellPut_self (s : State) (n : Nat) (x : Word) : (s.bellPut n x).bell n = x := Store.get_set_self _ _ _ _
theorem bell_bellPut_ne (s : State) {m n : Nat} (x : Word) (h : m ≠ n) : (s.bellPut n x).bell m = s.bell m :=
  Store.get_set_ne _ _ _ h
theorem ring_bellPut (s : State) (n : Nat) (x : Word) (m : Nat) : (s.bellPut n x).ring m = s.ring m := rfl
theorem bell_latchWaits (s : State) (n : Nat) : s.latchWaits.bell n = s.bell n := rfl

/-- The waits judged, the Bell set, and the waits judged again. -/
def bellSet (s : State) (n : Nat) (x : Word) : State := (((s.latchWaits).bellPut n x).latchWaits).latchBosun n

theorem bellOp_eq {s : State} (h : s.capRuns = true) (n : Nat) (set : Bool) (v : Word) :
    s.bellOp n set v = ((s.bellSet n (if set then v else s.bell n + v)).evalThreshold n).exportBell n set v := by
  simp only [capRuns, Bool.and_eq_true, Bool.not_eq_true'] at h
  unfold bellOp
  rw [h.1, h.2]
  rfl

theorem bellOp_stopped {s : State} (h : s.capRuns = false) (n : Nat) (set : Bool) (v : Word) : s.bellOp n set v = s := by
  have hn : (!s.dieUp || s.dev.reefing) = !s.capRuns := by simp [capRuns]
  exact if_pos (by rw [hn, h]; rfl)

theorem latchBosun_eq (s : State) (n : Nat) : s.latchBosun n = { s with bosun := { s.bosun with
    wait := s.bosun.wait.map fun b =>
      if b.sel = n ∧ (b.kind = .ge ∨ b.kind = .eq) ∧ bellHolds (s.bell n) b.operand (decide (b.kind = .eq)) = true
      then { b with sat := true } else b } } := by
  unfold latchBosun
  have hkeep : ∀ w, s.bosun.wait = w → s = { s with bosun := { s.bosun with wait := w } } := fun w h => by rw [← h]
  cases hw : s.bosun.wait with
  | none => exact hkeep none hw
  | some w =>
    dsimp only [Option.map_some]
    split
    · rfl
    · exact hkeep (some w) hw

theorem bell_latchBosun (s : State) (n m : Nat) : (s.latchBosun n).bell m = s.bell m := by
  rw [latchBosun_eq]
  rfl

theorem ring_latchBosun (s : State) (n m : Nat) : (s.latchBosun n).ring m = s.ring m := by
  rw [latchBosun_eq]
  rfl

/-- A satisfied wait stays so. -/
theorem latchOne_waitOk (s : State) {r : Ring} (h : r.waitOk = true) : (s.latchOne r).waitOk = true := by
  rw [latchOne, if_neg fun hc => by simp [h] at hc]
  exact h

theorem latchOne_keepsReached (s : State) {r : Ring} (h : r.reached = true) : (s.latchOne r).reached = true := by
  unfold latchOne
  split
  · split
    · rfl
    · exact h
  · exact h

/-- A head at its Bell wait is satisfied where the Bell meets it. -/
theorem latchOne_satisfied {s : State} {r x : Ring} (hx : sameRing r x) (hst : r.st = .enabled) (ht : r.head ≠ r.tail)
    (hf : r.admFault = none) (hr : x.reached = true) {mode n : Nat} {v : Word} (hw : headWait s r = (mode, n, v))
    (hb : bellHolds (s.bell n) v (decide (mode = 2)) = true) : (s.latchOne x).waitOk = true := by
  by_cases hok : x.waitOk = true
  · exact latchOne_waitOk s hok
  · have hcond : x.st = .enabled ∧ x.head ≠ x.tail ∧ x.admFault = none ∧ x.waitOk = false := by
      refine ⟨?_, ?_, ?_, Bool.not_eq_true _ ▸ hok⟩
      · rw [hx]; exact hst
      · rw [hx]; exact ht
      · rw [hx]; exact hf
    have hwx : headWait s x = (mode, n, v) := by rw [← hw, hx]; rfl
    obtain ⟨hm, hnv⟩ := Prod.mk.inj hwx
    obtain ⟨hn, hv⟩ := Prod.mk.inj hnv
    rw [latchOne, if_pos hcond, if_pos (by rw [hr]; rfl)]
    refine decide_eq_true (.inr (.inr ?_))
    rw [hm, hn, hv]
    exact hb

theorem bellHas_bellSet (s : State) (n : Nat) (x : Word) : bellHas s (s.bellSet n x) n x := by
  have hbell : ∀ m, (s.bellSet n x).bell m = (s.latchWaits.bellPut n x).bell m := fun m => by
    rw [bellSet, bell_latchBosun, bell_latchWaits]
  have hring : ∀ m, (s.bellSet n x).ring m = (s.latchWaits.bellPut n x).latchOne (s.latchOne (s.ring m)) := fun m => by
    rw [bellSet, ring_latchBosun, ring_latchWaits, ring_bellPut, ring_latchWaits]
  refine ⟨?_, ?_, fun m hm => ?_, fun m => ⟨?_, fun hw => ?_, fun hst ht hf hr mode v _ hwait hholds => ?_⟩, ?_⟩
  · rw [bellSet, latchBosun_eq]
    rfl
  · rw [hbell, bell_bellPut_self]
  · rw [hbell, bell_bellPut_ne _ _ hm, bell_latchWaits]
  · rw [hring]
    exact sameRing_trans (sameRing_latchOne _ _) (sameRing_latchOne _ _)
  · rw [hring]
    exact latchOne_waitOk _ (latchOne_waitOk _ hw)
  · rw [hring]
    refine latchOne_satisfied (sameRing_latchOne s (s.ring m)) hst ht hf (latchOne_keepsReached s hr) hwait ?_
    rw [bell_bellPut_self]
    exact hholds
  · rw [bellSet, latchBosun_eq, bell_latchWaits, bell_bellPut_self]
    rfl

/-! ### The threshold -/

/-- Threshold `n`, whose entry holds `cfg`, before its record. -/
def thresholdHit (s : State) (n : Nat) : State :=
  (s.setRf (CAP_BTHR + 8 * n + 4) 0 1 0).setRf (CAP_BFIRED + 4 * (n / 32)) (n % 32) 1 1

/-- BELL is raised where the entry says so. -/
def bellRaised (s : State) (on : Bool) : State := if on then s.raise irqBELL else s

/-- Bosun's record of threshold `n`. -/
def bellNoted (s : State) (n : Nat) (on : Bool) : State :=
  { s with bosun := { s.bosun with bellRec := if on then NSet.insert s.bosun.bellRec n else NSet.erase s.bosun.bellRec n } }

theorem bellRaised_spec (s : State) (on : Bool) :
    s.bellRaised on = { s with deck := (s.bellRaised on).deck } ∧ deckRegs s (s.bellRaised on) [DK_IRQ_RAW] ∧
    raised s (s.bellRaised on) (if on then [irqBELL] else []) := by
  cases on with
  | true => exact ⟨rfl, deckRegs_raise s irqBELL, raised_raise s (by decide)⟩
  | false => exact ⟨rfl, deckRegs_mono (deckRegs_refl s) (by simp), raised_nil rfl⟩

theorem thresholdHit_reg (s : State) (n : Nat) :
    csrKept s (s.thresholdHit n) [CAP_BTHR + 8 * n + 4, CAP_BFIRED + 4 * (n / 32)] ∧
    (s.thresholdHit n).reg (CAP_BTHR + 8 * n + 4) = putFld (s.reg (CAP_BTHR + 8 * n + 4)) 0 1 0 ∧
    (s.thresholdHit n).reg (CAP_BFIRED + 4 * (n / 32)) = putFld (s.reg (CAP_BFIRED + 4 * (n / 32))) (n % 32) 1 1 := by
  have hne : CAP_BTHR + 8 * n + 4 ≠ CAP_BFIRED + 4 * (n / 32) := by unfold CAP_BTHR CAP_BFIRED; omega
  refine ⟨fun a ha => ?_, ?_, ?_⟩
  · simp only [List.mem_cons, List.not_mem_nil, or_false, not_or] at ha
    rw [thresholdHit, reg_setRf_ne _ _ _ _ ha.2, reg_setRf_ne _ _ _ _ ha.1]
  · rw [thresholdHit, reg_setRf_ne _ _ _ _ hne, reg_setRf_self]
  · rw [thresholdHit, reg_setRf_self, reg_setRf_ne _ _ _ _ hne.symm]

theorem fires_bellNoted {s : State} {n : Nat} (cfg : Word) (hc : s.reg (CAP_BTHR + 8 * n + 4) = cfg) :
    fires s (((s.thresholdHit n).bellRaised (bit cfg 2)).bellNoted n (bit cfg 3)) n cfg := by
  obtain ⟨hk, hthr, hfired⟩ := thresholdHit_reg s n
  obtain ⟨hf, hdeck, hraised⟩ := bellRaised_spec (s.thresholdHit n) (bit cfg 2)
  generalize (s.thresholdHit n).bellRaised (bit cfg 2) = t at *
  have hreg : ∀ a, t.reg a = (s.thresholdHit n).reg a := fun a => by rw [hf]; rfl
  have hbosun : t.bosun = s.bosun := by rw [hf]; rfl
  refine ⟨?_, fun a ha => (hreg a).trans (hk a ha), (hreg _).trans (hc ▸ hthr), (hreg _).trans hfired, hdeck, hraised, ?_,
    fun m hm => ?_⟩
  · rw [hf]
    rfl
  · cases bit cfg 3 with
    | true => exact iff_of_true (NSet.mem_insert.2 (.inl rfl)) rfl
    | false => exact iff_of_false (fun hmem => (NSet.mem_erase.1 hmem).2 rfl) nofun
  · rw [← hbosun]
    cases bit cfg 3 with
    | true => exact NSet.mem_insert.trans (or_iff_right hm)
    | false => exact NSet.mem_erase.trans (and_iff_left hm)

theorem evalThreshold_eq (s : State) (n : Nat) :
    let cfg := s.reg (CAP_BTHR + 8 * n + 4)
    s.evalThreshold n = if bit cfg 0 && bellHolds (s.bell n) (s.reg (CAP_BTHR + 8 * n)) (bit cfg 1) then
      ((s.thresholdHit n).bellRaised (bit cfg 2)).bellNoted n (bit cfg 3) else s := by
  have hbit : ∀ i, i ≠ 0 → (s.thresholdHit n).rbit (CAP_BTHR + 8 * n + 4) i = bit (s.reg (CAP_BTHR + 8 * n + 4)) i :=
    fun i hi => by
      rw [← rbit_eq_bit, rbit, rf, (thresholdHit_reg s n).2.1, fld_putFld_ne _ _ _ _ _ _ (by omega)]
      rfl
  have hraise : ((s.thresholdHit n).bellRaised (bit (s.reg (CAP_BTHR + 8 * n + 4)) 2)).rbit (CAP_BTHR + 8 * n + 4) 3 =
      bit (s.reg (CAP_BTHR + 8 * n + 4)) 3 := by
    rw [(bellRaised_spec _ _).1]
    exact hbit 3 (by decide)
  intro cfg
  unfold evalThreshold
  dsimp only
  rw [rbit_eq_bit, rbit_eq_bit]
  change (if _ then ((s.thresholdHit n).bellRaised ((s.thresholdHit n).rbit _ 2)).bellNoted n
    (((s.thresholdHit n).bellRaised ((s.thresholdHit n).rbit _ 2)).rbit _ 3) else s) = _
  rw [hbit 2 (by decide), hraise]

theorem judged_evalThreshold (s : State) (n : Nat) : judged s (s.evalThreshold n) n := by
  have he := evalThreshold_eq s n
  dsimp only at he
  refine ⟨fun hf => ?_, fun hn => ?_⟩
  · rw [he, if_pos (by rw [hf.1, hf.2]; rfl)]
    exact fires_bellNoted _ rfl
  · refine he.trans (if_neg ?_)
    rcases hn with hn | hn
    · rw [hn]; simp
    · rw [hn]; simp

/-! ### The exports -/

/-- The entries of `l` that send Bell `n` to the peer. -/
def exportsOf (s : State) (n : Nat) (l : List Nat) : List Word :=
  (l.map fun i => s.reg (SW_BEXP i)).filter fun e => bit e 31 && fld e 0 8 == n

/-- What entry `i` of SW_BEXP does. -/
def exportOne (n : Nat) (set : Bool) (v : Word) (s : State) (i : Nat) : State :=
  if bit (s.reg (SW_BEXP i)) 31 ∧ fld (s.reg (SW_BEXP i)) 0 8 = n then s.sendBell (fld (s.reg (SW_BEXP i)) 8 8) set v else s

/-- What the Bell operations `l` to the peer come to: they go out, or are counted. -/
def bellsSent (s t : State) (set : Bool) (v : Word) (l : List Word) : Prop :=
  t = { s with regs := t.regs, sw := { s.sw with
    bellQ := if s.sw.paired then s.sw.bellQ ++ l.map fun e => (s.sw.issued, fld e 8 8, set, v) else s.sw.bellQ } } ∧
  csrKept s t [SW_CNT1] ∧
  t.reg SW_CNT1 = (if s.sw.paired ∨ l = [] then s.reg SW_CNT1
    else putFld (s.reg SW_CNT1) 24 8 (min (s.rf SW_CNT1 24 8 + l.length) 255))

theorem bellsSent_nil (s : State) (set : Bool) (v : Word) : bellsSent s s set v [] := by
  refine ⟨?_, fun _ _ => rfl, (if_pos (.inr rfl)).symm⟩
  rw [List.map_nil, List.append_nil, ite_self]

theorem bellsSent_one (s : State) (set : Bool) (v e : Word) : bellsSent s (s.sendBell (fld e 8 8) set v) set v [e] := by
  unfold sendBell bellsSent
  cases s.sw.paired with
  | true => exact ⟨rfl, fun _ _ => rfl, rfl⟩
  | false =>
    exact ⟨rfl, fun a ha => reg_bump_ne _ _ _ (by simpa using ha), (reg_bump_self s SW_CNT1 24 8).trans (if_neg (by simp)).symm⟩

theorem bellsSent_trans {s t u : State} {set : Bool} {v : Word} {l m : List Word} (h : bellsSent s t set v l)
    (k : bellsSent t u set v m) : bellsSent s u set v (l ++ m) := by
  obtain ⟨hf, hk, hc⟩ := h
  obtain ⟨kf, kk, kc⟩ := k
  have hp : t.sw.paired = s.sw.paired := by rw [hf]
  refine ⟨?_, fun a ha => (kk a ha).trans (hk a ha), ?_⟩
  · rw [kf, hp, hf]
    cases s.sw.paired with
    | true => simp [List.append_assoc]
    | false => rfl
  · rw [kc, hp, rf, hc, rf]
    have hlt := fld_lt (s.reg SW_CNT1) 24 8
    cases s.sw.paired with
    | true => simp
    | false =>
      cases l with
      | nil => simp
      | cons e l =>
        cases m with
        | nil => simp
        | cons e' m =>
          simp only [Bool.false_eq_true, reduceCtorEq, List.cons_append, false_or, if_false]
          rw [fld_putFld_self _ _ _ _ (by decide), putFld_putFld, Nat.mod_eq_of_lt (by omega)]
          congr 1
          simp only [List.length_cons, List.length_append]
          omega

theorem exportsOf_congr {s t : State} (h : csrKept s t [SW_CNT1]) (n : Nat) {l : List Nat} (hl : ∀ i ∈ l, i < 16) :
    t.exportsOf n l = s.exportsOf n l := by
  unfold exportsOf
  refine congrArg _ (List.map_congr_left fun i hi => h _ ?_)
  have := hl i hi
  simp only [List.mem_singleton, SW_BEXP, SW_CNT1]
  omega

theorem bellsSent_exportOne (s : State) (n : Nat) (set : Bool) (v : Word) (i : Nat) :
    bellsSent s (exportOne n set v s i) set v (s.exportsOf n [i]) := by
  unfold exportOne exportsOf
  rw [List.map_singleton, List.filter_singleton, cond_eq_ite]
  by_cases h : bit (s.reg (SW_BEXP i)) 31 = true ∧ fld (s.reg (SW_BEXP i)) 0 8 = n
  · rw [if_pos h, if_pos (by rw [h.1, h.2]; simp)]
    exact bellsSent_one s set v _
  · rw [if_neg h, if_neg (by simpa using h)]
    exact bellsSent_nil s set v

theorem bellsSent_foldl (n : Nat) (set : Bool) (v : Word) (l : List Nat) (s : State) (hl : ∀ i ∈ l, i < 16) :
    bellsSent s (l.foldl (exportOne n set v) s) set v (s.exportsOf n l) := by
  induction l generalizing s with
  | nil => exact bellsSent_nil s set v
  | cons i l ih =>
    obtain ⟨-, hl⟩ := List.forall_mem_cons.1 hl
    have hone := bellsSent_exportOne s n set v i
    have hsplit : s.exportsOf n (i :: l) = s.exportsOf n [i] ++ (exportOne n set v s i).exportsOf n l := by
      rw [exportsOf_congr hone.2.1 n hl]
      unfold exportsOf
      rw [List.map_singleton, List.map_cons, ← List.filter_append, List.singleton_append]
    rw [hsplit, List.foldl_cons]
    exact bellsSent_trans hone (ih _ hl)

theorem exported_exportBell (s : State) (n : Nat) (set : Bool) (v : Word) : exported s (s.exportBell n set v) n set v := by
  unfold exported exportBell
  cases s.part.iob with
  | true => exact bellsSent_foldl n set v (List.range 16) s fun _ hi => List.mem_range.1 hi
  | false => exact bellsSent_nil s set v

/-! ### A host Bell operation -/

theorem bellOp_dev (s : State) (n : Nat) (set : Bool) (v : Word) : (s.bellOp n set v).dev = s.dev := by
  cases h : s.capRuns with
  | false => rw [bellOp_stopped h]
  | true =>
    have ht : ∀ u : State, (u.evalThreshold n).dev = u.dev := fun u => by
      unfold evalThreshold
      dsimp only
      split
      · split
        · rfl
        · rfl
      · rfl
    rw [bellOp_eq h, (exported_exportBell _ n set v).1, ht, (bellHas_bellSet s n _).1]

/-- The device state alone tells whether the Capstan runs. -/
theorem capRuns_congr {s t : State} (h : t.dev = s.dev) : t.capRuns = s.capRuns := by rw [capRuns, dieUp, h]; rfl

theorem hostBell_bellTook {s : State} (h : s.capRuns = true) (n : Nat) (set : Bool) (v : Word) :
    bellTook s (s.hostBell n set v) n set v true := by
  refine ⟨_, _, _, bellHas_bellSet s n _, judged_evalThreshold _ n, exported_exportBell _ n set v, ?_⟩
  rw [hostBell, capRuns_congr (bellOp_dev s n set v), h, bellOp_eq h]

theorem hostBell_stopped {s : State} (h : s.capRuns = false) (n : Nat) (set : Bool) (v : Word) : s.hostBell n set v = s := by
  rw [hostBell, bellOp_stopped h, h, Bool.or_false]

/-! ### The host's accesses of the Bells -/

theorem bellSelWrite_spec {s : State} (hf : s.deckFree = true) (v : Half) :
    ∃ t, exec (.bellSelWrite v) s = .next t ∧ t = { accessed s with deck := t.deck } ∧
      deckRegs (accessed s) t [DK_BELL_SEL] ∧ t.dkf DK_BELL_SEL 0 8 = fld v 0 8 ∧ t.dkbit DK_BELL_SEL 15 = false ∧
      t.dkf DK_BELL_SEL 8 2 = (if fld v 8 2 = 3 then s.dkf DK_BELL_SEL 8 2 else fld v 8 2) := by
  have hst : storeFields (deckFields DK_BELL_SEL) (s.dk DK_BELL_SEL) v = putFld (putFld (s.dk DK_BELL_SEL) 0 8 (fld v 0 8)) 8 2
      (if fld v 8 2 = 3 then s.dkf DK_BELL_SEL 8 2 else fld v 8 2) := by
    change storeFields [fRw 0 8, fRw 8 2 0 [3], fRo 15 1] _ _ = _
    simp only [storeFields_cons, Field.stored, fRw, fRo, putFld_fld, storeFields_nil, List.contains_nil, List.contains_cons,
      Bool.or_false, beq_iff_eq, Bool.false_eq_true, if_false]
    rw [fld_putFld_ne _ _ _ _ _ _ (by decide)]
    rfl
  have hlt : (if fld v 8 2 = 3 then s.dkf DK_BELL_SEL 8 2 else fld v 8 2) < 2 ^ 2 := by
    split
    · exact fld_lt _ _ _
    · exact fld_lt _ _ _
  have hexec : exec (.bellSelWrite v) s = .next (((accessed s).setDk DK_BELL_SEL
      (storeFields (deckFields DK_BELL_SEL) (s.dk DK_BELL_SEL) v)).setDkf DK_BELL_SEL 15 1 0) :=
    congrArg Host.Outcome.next (if_pos hf)
  refine ⟨_, hexec, rfl, deckRegs_mono (deckRegs_trans (deckRegs_setDk _ _ _) (deckRegs_setDk _ _ _)) (by decide), ?_, ?_, ?_⟩
  · rw [dkf_setDkf_ne _ _ _ _ _ _ _ (by decide), hst, dkf, dk_setDk_self, fld_putFld_ne _ _ _ _ _ _ (by decide),
      fld_putFld_self _ _ _ _ (by decide), Nat.mod_eq_of_lt (fld_lt _ _ _)]
  · rw [dkbit, dkf_setDkf_self _ _ _ _ _ (by decide)]
    rfl
  · rw [dkf_setDkf_ne _ _ _ _ _ _ _ (by decide), hst, dkf, dk_setDk_self, fld_putFld_self _ _ _ _ (by decide),
      Nat.mod_eq_of_lt hlt]

theorem bellMirrorLoad_loads {s : State} (ha : s.answers = true) (hd : s.bellDark = false) :
    ∃ t, exec .bellMirrorLoad s = .next t ∧ t = { s with deck := t.deck } ∧
      t.deck = { s.deck with regs := t.deck.regs, bellMirror := s.bell (s.dkf DK_BELL_SEL 0 8) } ∧
      deckKept s t [DK_BELL_SEL] ∧ t.dk DK_BELL_SEL = putFld (s.dk DK_BELL_SEL) 15 1 1 := by
  have hb : s.bellLoad = { s.setDkf DK_BELL_SEL 15 1 1 with
      deck := { (s.setDkf DK_BELL_SEL 15 1 1).deck with bellMirror := s.bell (s.dkf DK_BELL_SEL 0 8) } } := by
    rw [bellLoad, hd, ha, ← dkf_setDkf_ne s DK_BELL_SEL 15 1 1 0 8 (.inl (by decide))]
    rfl
  exact ⟨_, congrArg Host.Outcome.next hb, rfl, rfl, (deckRegs_setDk s DK_BELL_SEL _).2, dk_setDk_self s DK_BELL_SEL _⟩

theorem bellMirrorLoad_none {s : State} (h : s.answers = false ∨ s.bellDark = true) : exec .bellMirrorLoad s = .next s := by
  refine congrArg Host.Outcome.next (if_pos ?_)
  rcases h with h | h
  · rw [h]; simp
  · rw [h]; simp

/-- HOST_BELL_ADD and HOST_BELL_SET are writes of DK_BELL_VAL with their OP (05 R229). -/
theorem exec_hostBell {c : Instr} {op : Nat} (s : State) (v : Half)
    (h : (c, op) ∈ [(Instr.hostBellAdd v, 1), (.hostBellSet v, 2)]) (hf : s.deckFree = true) :
    (op = 1 ∨ op = 2) ∧ exec c s = .next (if s.dkf DK_BELL_SEL 8 2 = op then (accessed s).bellValWrite v else s) := by
  have hw : s.hostWrite DK_BELL_VAL v = (accessed s).bellValWrite v := if_pos hf
  simp only [List.mem_cons, Prod.mk.injEq, List.not_mem_nil, or_false] at h
  rw [← hw]
  rcases h with ⟨rfl, rfl⟩ | ⟨rfl, rfl⟩
  · exact ⟨.inl rfl, rfl⟩
  · exact ⟨.inr rfl, rfl⟩

/-- A host Bell operation as written: it reaches the Capstan, or waits in the queue (05 R227, R229). -/
theorem bellValWrite_eq {s : State} (hd : s.bellDark = false) {op : Nat} (hop : op = 1 ∨ op = 2)
    (hs : s.dkf DK_BELL_SEL 8 2 = op) (v : Half) :
    let n := s.dkf DK_BELL_SEL 0 8
    let x := Word.nat (v.toNat + (s.dk DK_BELL_VAL_HI).toNat * 65536)
    s.bellValWrite v = if s.deck.doors = [] ∧ s.winHolds = false then s.hostBell n (decide (op = 2)) x
      else { s with deck := { s.deck with doors := s.deck.doors ++ [.bell n (decide (op = 2)) x] } } := by
  have hset : (op == 2) = decide (op = 2) := rfl
  intro n x
  unfold bellValWrite
  rw [hs, hd]
  dsimp only
  rw [hset]
  rw [if_neg (by rcases hop with rfl | rfl <;> decide)]
  refine if_congr ?_ rfl rfl
  rw [Bool.and_eq_true, List.isEmpty_iff, Bool.not_eq_true']

end Sys2Proof.Machine.State

namespace Sys2Proof

open Machine Machine.State Spec

/-- Settles O30: the selection and the mirror by their fields, and an operation by the Bell, the threshold and the exports
that the Capstan goes through in turn. -/
theorem hostBellOperations : Obligations.HostBellOperations := by
  intro s v
  refine ⟨fun hf => bellSelWrite_spec hf v, fun ha hd => bellMirrorLoad_loads ha hd, fun h => bellMirrorLoad_none h, ?_⟩
  rintro n op x c hc rfl rfl hf
  obtain ⟨hop, hexec⟩ := exec_hostBell s v hc hf
  refine ⟨fun hne => hexec.trans (by rw [if_neg hne]), fun hs => ?_⟩
  rw [hexec, if_pos hs]
  have hval := fun hd : s.bellDark = false => bellValWrite_eq (s := accessed s) hd hop hs v
  dsimp only at hval
  refine ⟨fun hd => ?_, fun hd hq hw => ⟨fun hr => ⟨_, rfl, ?_⟩, fun hr => ?_⟩, fun hd hq => ?_⟩
  · exact congrArg Host.Outcome.next (if_pos (by change (s.bellDark || _) = true; rw [hd]; rfl))
  · rw [hval hd, if_pos ⟨hq, hw⟩]
    exact hostBell_bellTook (s := accessed s) hr _ _ _
  · rw [hval hd, if_pos ⟨hq, hw⟩]
    exact congrArg Host.Outcome.next (hostBell_stopped (s := accessed s) hr _ _ _)
  · rw [hval hd, if_neg fun hc => hq.elim (fun h => h hc.1) fun h => by rw [show s.winHolds = false from hc.2] at h; cases h]
    rfl

end Sys2Proof
end

section
/-! PROOFS. What any write under ECC leaves of memory (06 R269, R275), and the doorbells (05 R226, R227; 07 R300–R303). -/

namespace Sys2Proof.Machine.State

open Sys2Proof.Spec

/-! ### A write under ECC, also of a shut Crowsnest SRAM -/

theorem memKeptBut_refl (s : State) (a n : Nat) : memKeptBut s s a n := fun _ _ => rfl

/-- Two writes within one range. -/
theorem memKeptBut_within {s t u : State} {a n b m : Nat} (h : memKeptBut s t a n) (k : memKeptBut t u b m) (hlo : a ≤ b)
    (hhi : b + m ≤ a + n ∨ m = 0) : memKeptBut s u a n := fun c hc => (k c (by omega)).trans (h c hc)

theorem eccPut_keeps (s : State) (src a : Nat) (l : List Byte) : memKeptBut s (s.eccPut src a l).1 a l.length := by
  by_cases hl : l = []
  · subst hl
    exact memKeptBut_refl s a 0
  · exact eccPut_memKeptBut s src a hl

theorem eccWrite_keeps (s : State) (src a : Nat) (l : List Byte) : memKeptBut s (s.eccWrite src a l).1 a l.length := by
  unfold eccWrite
  split
  · refine foldl_keeps (fun x : State × Option Nat => memKeptBut s x.1 a l.length) _ ?_ _ _ fun b _ => rfl
    rintro ⟨t, ue⟩ ⟨lo, hi⟩ ht
    dsimp only
    split
    · refine memKeptBut_within ht (eccPut_keeps t src _ _) (Nat.le_max_left a lo) ?_
      simp only [List.length_take, List.length_drop]
      omega
    · exact ht
  · exact eccPut_keeps s src a l

/-- A ring changed, whatever its number. -/
theorem ringSet_any (s : State) (n : Nat) (r : Ring) : ringSet s (s.setRing n r) n r := by
  refine ⟨?_, rfl, ring_setRing_self s n r, fun m hm => ring_setRing_ne s r hm, ?_,
    fun hn hw => (ringSet_setRing s r hn).2.2.2.2.2 hn hw⟩
  · have hf := setRing_frame s n r
    generalize s.setRing n r = t at *
    rw [hf]
  · rw [← ringBytes_length r]
    exact eccWrite_keeps (s.ringPut n r) srcCapstan (ringAddr n + 16) (wordsBytes (ringWords r))

/-! ### A doorbell written -/

theorem doorbellWrite_eq {s : State} (hf : s.deckFree = true) (v : Half) :
    exec (.doorbellWrite v) s = .next (if 8 ≤ s.doorDepth
      then ((((accessed s).setDk DK_DOOR_TAIL v).setDkf DK_DOOR_STAT 0 3 4).setDkf DK_DOOR_STAT 8 1 1).raise irqDOOR
      else { (accessed s).setDk DK_DOOR_TAIL v with deck := { ((accessed s).setDk DK_DOOR_TAIL v).deck with
        doors := s.deck.doors ++ [.door (s.dkf DK_DOOR_RING 0 14) v.toNat] } }) := by
  have hring : ((accessed s).setDk DK_DOOR_TAIL v).dkf DK_DOOR_RING 0 14 = s.dkf DK_DOOR_RING 0 14 := by
    rw [dkf, dk_setDk_ne _ _ (by decide)]
    rfl
  rw [← hring]
  exact congrArg Host.Outcome.next (if_pos hf)

theorem doorbellWrite_queues {s : State} (hf : s.deckFree = true) (hd : s.doorDepth < 8) (v : Half) :
    ∃ t, exec (.doorbellWrite v) s = .next t ∧ t = { accessed s with deck := t.deck } ∧
      t.deck = { (accessed s).deck with
        regs := t.deck.regs, doors := s.deck.doors ++ [.door (s.dkf DK_DOOR_RING 0 14) v.toNat] } ∧
      t.dk DK_DOOR_TAIL = v ∧ deckKept s t [DK_DOOR_TAIL] := by
  refine ⟨_, (doorbellWrite_eq hf v).trans (congrArg _ (if_neg (by omega))), rfl, rfl, dk_setDk_self (accessed s) _ v,
    (deckRegs_setDk (accessed s) DK_DOOR_TAIL v).2⟩

/-- CODE and the sticky bit of a doorbell that changes no ring, with the DOOR source (05 R226, Table 5.4). -/
def doorRefused (s : State) (code : Nat) : State := ((s.setDkf DK_DOOR_STAT 0 3 code).setDkf DK_DOOR_STAT 8 1 1).raise irqDOOR

theorem doorRefused_spec (s : State) (code : Nat) :
    deckRegs s (s.doorRefused code) [DK_DOOR_STAT, DK_IRQ_RAW] ∧
    (s.doorRefused code).dk DK_DOOR_STAT = putFld (putFld (s.dk DK_DOOR_STAT) 0 3 code) 8 1 1 ∧
    raised s (s.doorRefused code) [irqDOOR] := by
  have hirq : ((s.setDkf DK_DOOR_STAT 0 3 code).setDkf DK_DOOR_STAT 8 1 1).dk DK_IRQ_RAW = s.dk DK_IRQ_RAW :=
    (dk_setDkf_ne _ _ _ _ (by decide)).trans (dk_setDkf_ne _ _ _ _ (by decide))
  refine ⟨deckRegs_mono (deckRegs_trans (deckRegs_trans (deckRegs_setDk s DK_DOOR_STAT _) (deckRegs_setDk _ DK_DOOR_STAT _))
    (deckRegs_raise _ irqDOOR)) (by decide), ?_, raised_congr (raised_raise _ (by decide)) hirq.symm rfl⟩
  rw [doorRefused, dk_raise_ne _ _ (by decide), setDkf, dk_setDk_self, setDkf, dk_setDk_self]

theorem doorbellWrite_full {s : State} (hf : s.deckFree = true) (hd : 8 ≤ s.doorDepth) (v : Half) :
    ∃ t, exec (.doorbellWrite v) s = .next t ∧ t = { accessed s with deck := t.deck } ∧
      deckRegs (accessed s) t [DK_DOOR_TAIL, DK_DOOR_STAT, DK_IRQ_RAW] ∧ t.dk DK_DOOR_TAIL = v ∧
      t.dk DK_DOOR_STAT = putFld (putFld (s.dk DK_DOOR_STAT) 0 3 4) 8 1 1 ∧ raised s t [irqDOOR] := by
  obtain ⟨hregs, hstat, hraised⟩ := doorRefused_spec ((accessed s).setDk DK_DOOR_TAIL v) 4
  refine ⟨_, (doorbellWrite_eq hf v).trans (congrArg _ (if_pos hd)), rfl,
    deckRegs_trans (deckRegs_setDk (accessed s) DK_DOOR_TAIL v) hregs,
    (hregs.2 _ (by decide)).trans (dk_setDk_self _ _ _), hstat.trans ?_, raised_congr hraised ?_ rfl⟩
  · rw [dk_setDk_ne _ _ (by decide)]
    rfl
  · exact (dk_setDk_ne (accessed s) v (by decide)).symm

/-! ### A doorbell answered -/

/-- The answer to the oldest doorbell, before what waited behind it. -/
def doorAnswered (s : State) (n tail : Nat) : State :=
  let (t, code) := if !s.capRuns || s.bindRuns then (s.popHost, 3) else s.popHost.offerTail n tail
  let t := t.setDkf DK_DOOR_STAT 0 3 code
  if code = 0 then { t with bosun := { t.bosun with latDeck := true } } else (t.setDkf DK_DOOR_STAT 8 1 1).raise irqDOOR

theorem doorbellAnswer_eq {s : State} {n tail : Nat} {l : List HostOp} (h : s.deck.doors = .door n tail :: l)
    (ha : s.answers = true) (hw : s.winHolds = false) :
    exec .doorbellAnswer s = .next (s.doorAnswered n tail).drainHost := by
  refine congrArg Host.Outcome.next ?_
  unfold doorAnswer
  rw [h, ha, hw]
  rfl

theorem doorbellAnswer_none {s : State}
    (h : (∀ n tail l, s.deck.doors ≠ .door n tail :: l) ∨ s.answers = false ∨ s.winHolds = true) :
    exec .doorbellAnswer s = .next s := by
  refine congrArg Host.Outcome.next ?_
  unfold doorAnswer
  split
  · next n tail l hd =>
    refine if_pos ?_
    rcases h with h | h | h
    · exact absurd hd (h n tail l)
    · rw [h]; rfl
    · rw [h, Bool.or_true]
  · rfl

/-- TAIL as a doorbell or POST sets it, with the epochs of the new entries. -/
def tailed (s : State) (n tail : Nat) : Ring :=
  { s.ring n with
    tail := tail, epochs := (s.ring n).epochs ++ List.replicate ((s.ring n).dist tail (s.ring n).tail) s.epochCur }

/-- A tail offered: its code, and the state only where that is 0 (07 R300–R303). -/
theorem offerTail_eq (s : State) (n tail : Nat) :
    s.offerTail n tail = (if offerCode s n tail = 0 then (s.setRing n (s.tailed n tail)).updateWork else s, offerCode s n tail) := by
  unfold offerTail offerCode
  dsimp only
  split
  · rfl
  · split
    · rfl
    · split
      · rfl
      · rfl

theorem tailCode_bound (s : State) (n tail : Nat) (h : tailCode s n tail = 0) :
    (!s.capRuns || s.bindRuns) = false ∧ offerCode s n tail = 0 := by
  unfold tailCode at h
  split at h
  · cases h
  · next hr =>
    rw [not_or, Bool.not_eq_false, Bool.not_eq_true] at hr
    exact ⟨by rw [hr.1, hr.2]; rfl, h⟩

/-- What a doorbell with CODE OK comes to. -/
def doorTaken (s : State) (n tail : Nat) : State :=
  let y := (s.popHost.setRing n (s.tailed n tail)).updateWork
  { y.setDkf DK_DOOR_STAT 0 3 0 with bosun := { y.bosun with latDeck := true } }

theorem doorAnswered_taken {s : State} {n tail : Nat} (h : tailCode s n tail = 0) : s.doorAnswered n tail = s.doorTaken n tail := by
  obtain ⟨hr, ho⟩ := tailCode_bound s n tail h
  have ho : offerCode s.popHost n tail = 0 := ho
  unfold doorAnswered
  rw [hr, if_neg nofun, offerTail_eq, ho]
  rfl

theorem doorAnswered_refused {s : State} {n tail : Nat} (h : tailCode s n tail ≠ 0) :
    s.doorAnswered n tail = s.popHost.doorRefused (tailCode s n tail) := by
  have hcond : (!s.capRuns || s.bindRuns) = true ↔ s.capRuns = false ∨ s.bindRuns = true := by simp
  by_cases hr : s.capRuns = false ∨ s.bindRuns = true
  · rw [tailCode, if_pos hr, doorAnswered, if_pos (hcond.2 hr)]
    rfl
  · have ho : offerCode s.popHost n tail = offerCode s n tail := rfl
    rw [tailCode, if_neg hr] at h ⊢
    rw [doorAnswered, if_neg fun hc => hr (hcond.1 hc), offerTail_eq, ho, if_neg h]
    exact if_neg h

theorem updateWork_command (s : State) : s.updateWork.dev.command = s.dev.command := by
  have hif : ∀ (b : Bool) (t u : State), t.dev.command = s.dev.command → u.dev.command = s.dev.command →
      (if b then t else u).dev.command = s.dev.command := fun b t u ht hu => by
    cases b with
    | true => exact ht
    | false => exact hu
  unfold updateWork
  split
  · exact hif _ _ _ (enter_command s _) rfl
  · exact hif _ _ _ rfl (enter_command s _)
  · rfl

/-- The device state follows a change of the work (03 R135). -/
theorem workFollows_self (s : State) : workFollows s s.updateWork := by
  have hdeck : s.updateWork.deck = s.deck := by
    by_cases hb : s.dev.mode = .becalmed
    · rw [updateWork, hb]
    · exact (updateWork_dieUp hb).2
  have hself : s.updateWork.withHost s.deck s.dev.command = s.updateWork := by
    rw [← hdeck, ← updateWork_command s]
    rfl
  exact hself ▸ workFollows_updateWork s (d := s.deck) s.dev.command fun _ _ => rfl

theorem workFollows_frame {s t : State} (h : workFollows s t) :
    t = { s with dev := t.dev, lk := t.lk } := by
  unfold workFollows at h
  dsimp only at h
  split at h
  · rw [h.1]
  · rw [h.1]
  · rw [h]

theorem doorTaken_spec (s : State) (n tail : Nat) :
    ∃ x y, ringSet { s with deck := popped s.deck } x n (s.tailed n tail) ∧ workFollows x y ∧
      s.doorTaken n tail =
        { y with deck := (s.doorTaken n tail).deck, bosun := { s.bosun with latDeck := true } } ∧
      deckRegs y (s.doorTaken n tail) [DK_DOOR_STAT] ∧
      (s.doorTaken n tail).dk DK_DOOR_STAT = putFld (s.dk DK_DOOR_STAT) 0 3 0 := by
  have hx := ringSet_any s.popHost n (s.tailed n tail)
  have hy := workFollows_self (s.popHost.setRing n (s.tailed n tail))
  refine ⟨_, _, hx, hy, ?_⟩
  unfold doorTaken
  have hfx := hx.1
  have hfy := workFollows_frame hy
  generalize State.updateWork _ = y at *
  generalize s.popHost.setRing n (s.tailed n tail) = x at *
  have hb : y.bosun = s.bosun := by rw [hfy, hfx]; rfl
  have hdk : y.dk DK_DOOR_STAT = s.dk DK_DOOR_STAT := by rw [hfy, hfx]; rfl
  refine ⟨by rw [← hb]; rfl, deckRegs_setDk y DK_DOOR_STAT _, (dk_setDk_self y _ _).trans (by rw [hdk])⟩

theorem doorAnswered_doors (s : State) (n tail : Nat) : (s.doorAnswered n tail).deck.doors = s.deck.doors.drop 1 := by
  by_cases h : tailCode s n tail = 0
  · rw [doorAnswered_taken h]
    obtain ⟨x, y, hx, hy, -, hd, -⟩ := doorTaken_spec s n tail
    rw [hd.1, workFollows_frame hy, hx.1]
    rfl
  · rw [doorAnswered_refused h, (doorRefused_spec s.popHost _).1.1]
    rfl

/-- Nothing waits behind it, or a doorbell does. -/
theorem drainHost_still {s : State} (h : s.deck.doors = [] ∨ ∃ m k l, s.deck.doors = .door m k :: l) : s.drainHost = s := by
  rcases h with h | h
  · rw [drainHost, h]
    rfl
  · exact drainHost_waits (.inr h)

end Sys2Proof.Machine.State

namespace Sys2Proof

open Machine Machine.State Spec

/-- Settles O29: a doorbell's write by the depth of the queue, its answer by its code. -/
theorem doorbellsAreQueuedAndAnswered : Obligations.DoorbellsAreQueuedAndAnswered := by
  intro s v
  refine ⟨fun hf hd => doorbellWrite_queues hf hd v, fun hf hd => doorbellWrite_full hf hd v, fun n tail l hl ha hw => ?_,
    fun h => doorbellAnswer_none h⟩
  refine ⟨_, _, doorbellAnswer_eq hl ha hw, rfl, fun hrest => drainHost_still ?_, fun hc => ?_, fun hc => ?_⟩
  · rw [doorAnswered_doors, hl]
    exact hrest
  · rw [doorAnswered_taken hc]
    exact doorTaken_spec s n tail
  · rw [doorAnswered_refused hc]
    obtain ⟨hregs, hstat, hraised⟩ := doorRefused_spec s.popHost (tailCode s n tail)
    exact ⟨rfl, hregs.1, hregs.2, hstat, hraised⟩

end Sys2Proof
end

section
/-! PROOFS. What a read and a write under ECC leave, and that they do not look at the device block (06 R268–R275; 19 R785). -/

namespace Sys2Proof.Machine.State

open Sys2Proof.Spec

/-! ### Frames -/

theorem noteEcc_inject (s : State) (src a : Nat) (ue : Bool) : (s.noteEcc src a ue).inject = s.inject := by
  unfold noteEcc noteCnEcc
  dsimp only
  repeat' split
  all_goals rfl

theorem eccRead_inject (s : State) (src a n : Nat) : (s.eccRead src a n).1.inject = s.inject := by
  unfold eccRead
  refine foldl_keeps (fun x : State × Option Nat => x.1.inject = s.inject) _ ?_ _ _ rfl
  rintro ⟨t, ue⟩ ⟨w, e⟩ h
  cases e with
  | ok => exact h
  | single => exact (noteEcc_inject t src w false).trans h
  | double => exact (noteEcc_inject t src w true).trans h

/-- A read under ECC changes code words, the ECC registers and the free values drawn. -/
theorem eccRead_frame (s : State) (src a n : Nat) : (s.eccRead src a n).1 = { s with
    regs := (s.eccRead src a n).1.regs, ecc := (s.eccRead src a n).1.ecc, free := (s.eccRead src a n).1.free } := by
  have h := (MemStep.eccRead s src a n).1
  rw [eccRead_mem, eccRead_inject] at h
  exact h

/-- A read leaves the byte values of an SRAM that no network uses, and draws nothing for it. -/
theorem readBytes_free {s : State} {a : Nat} (h : Spec.netOn s = false ∨ ¬ inWork a) : s.readBytes a 4 = (s.peek a 4, s) := by
  refine if_neg ?_
  simp only [Bool.and_eq_true, decide_eq_true_eq]
  rintro ⟨⟨hn, hlt⟩, hgt⟩
  rcases h with h | h
  · exact absurd (h.symm.trans hn) Bool.false_ne_true
  · exact h ⟨hgt, hlt⟩

theorem drawBytes_frame (s : State) (n : Nat) : (s.drawBytes n).2 = { s with free := (s.drawBytes n).2.free } := by
  induction n generalizing s with
  | zero => rfl
  | succ n ih => exact ih (s.draw 8).2

theorem readBytes_frame (s : State) (a n : Nat) : (s.readBytes a n).2 = { s with free := (s.readBytes a n).2.free } := by
  unfold readBytes
  dsimp only
  split
  · exact drawBytes_frame s n
  · rfl

/-! ### The device block -/

/-- The state with another device block. -/
def withDev (s : State) (d : Device) : State := { s with dev := d }

theorem bump_withDev (s : State) (d : Device) (a lo w : Nat) : (s.withDev d).bump a lo w = (s.bump a lo w).withDev d := rfl
theorem setReg_withDev (s : State) (d : Device) (a : Nat) (v : Word) :
    (s.withDev d).setReg a v = (s.setReg a v).withDev d := rfl
theorem part_withDev (s : State) (d : Device) : (s.withDev d).part = s.part := rfl

theorem noteEcc_withDev (s : State) (d : Device) (src a : Nat) (ue : Bool) :
    (s.withDev d).noteEcc src a ue = (s.noteEcc src a ue).withDev d := by
  have hcn : (s.withDev d).noteCnEcc a ue = (s.noteCnEcc a ue).withDev d := by
    unfold noteCnEcc
    rw [apply_ite (fun x : State => x.withDev d), bump_withDev, bump_withDev, bump_withDev, setReg_withDev]
  have hcount : (s.withDev d).eccCounted a ue = (s.eccCounted a ue).withDev d := by
    unfold eccCounted
    dsimp only
    rw [apply_ite (fun x : State => x.withDev d), part_withDev, bump_withDev, bump_withDev]
  have hheld : ∀ t : State, (t.withDev d).eccHeld ue = t.eccHeld ue := fun _ => rfl
  have hdraw : ∀ t : State, (t.withDev d).draw 8 = ((t.draw 8).1, (t.draw 8).2.withDev d) := fun _ => rfl
  have hnote : ∀ (t : State) (x : Byte), (t.withDev d).eccNoted src a ue x = (t.eccNoted src a ue x).withDev d :=
    fun t x => by rw [eccNoted, part_withDev, setReg_withDev, setReg_withDev, eccNoted]
  rw [noteEcc_eq, noteEcc_eq, hcn, hcount, hheld, hdraw, hnote, apply_ite (fun x : State => x.withDev d),
    apply_ite (fun x : State => x.withDev d)]

theorem mendOne_withDev (d : Device) (src a n : Nat) (x : State × List Nat) (e : Nat × Ecc) :
    mendOne src a n (x.1.withDev d, x.2) e = ((mendOne src a n x e).1.withDev d, (mendOne src a n x e).2) := by
  obtain ⟨w, k⟩ := e
  unfold mendOne
  split
  · rfl
  · cases k with
    | ok => rfl
    | single => exact congrArg (fun y : State => (y.setEcc w .ok, x.2)) (noteEcc_withDev x.1 d src w false)
    | double => exact congrArg (fun y : State => (y, x.2 ++ [w])) (noteEcc_withDev x.1 d src w true)

theorem mended_withDev (s : State) (d : Device) (src a n : Nat) :
    (s.withDev d).mended src a n = ((s.mended src a n).1.withDev d, (s.mended src a n).2) :=
  List.foldl_hom (fun x : State × List Nat => (x.1.withDev d, x.2)) (l := s.damaged a n) (init := (s, []))
    (mendOne_withDev d src a n)

theorem injectOn_withDev (s : State) (d : Device) (a n : Nat) : (s.withDev d).injectOn a n = (s.injectOn a n).withDev d := by
  have hi : (s.withDev d).inject = s.inject := rfl
  unfold injectOn
  rw [hi]
  cases s.inject with
  | none => rfl
  | some i =>
    dsimp only
    rw [apply_ite (fun x : State => x.withDev d)]
    rfl

theorem eccPut_withDev (s : State) (d : Device) (src a : Nat) (l : List Byte) :
    (s.withDev d).eccPut src a l = ((s.eccPut src a l).1.withDev d, (s.eccPut src a l).2) := by
  by_cases hl : l = []
  · subst hl
    rfl
  · rw [eccPut_eq _ _ _ hl, eccPut_eq _ _ _ hl, mended_withDev]
    dsimp only
    rw [← injectOn_withDev]
    rfl

/-- A piece of the Crowsnest SRAM that is not shut, under a write of `l` from `a` on (19 R785). -/
def openPut (s : State) (src a : Nat) (l : List Byte) (x : State × Option Nat) (p : Nat × Nat) : State × Option Nat :=
  let b := max a p.1
  let e := min (a + l.length) p.2
  if b < e ∧ s.cnShut b = false then
    let y := x.1.eccPut src b ((l.drop (b - a)).take (e - b))
    (y.1, match x.2 with | some w => some w | none => y.2)
  else x

/-- The pieces of the Crowsnest SRAM that its networks shut. -/
def cnPieces : List (Nat × Nat) :=
  [(0x50000000, 0x50008000), (0x50008000, 0x50010000), (0x50010000, 0x50030000), (0x50030000, 0x50040000)]

theorem eccWrite_eq (s : State) (src a : Nat) (l : List Byte) :
    s.eccWrite src a l = if (List.range l.length).any fun i => s.cnShut (a + i) then
      cnPieces.foldl (openPut s src a l) (s.setRf CN_STAT 4 1 1, none) else s.eccPut src a l := rfl

theorem openPut_withDev (s : State) (d : Device) (src a : Nat) (l : List Byte) (x : State × Option Nat) (p : Nat × Nat) :
    openPut (s.withDev d) src a l (x.1.withDev d, x.2) p = ((openPut s src a l x p).1.withDev d, (openPut s src a l x p).2) := by
  have hshut : ∀ b, (s.withDev d).cnShut b = s.cnShut b := fun _ => rfl
  unfold openPut
  dsimp only
  rw [hshut, eccPut_withDev]
  split
  · rfl
  · rfl

theorem eccWrite_withDev (s : State) (d : Device) (src a : Nat) (l : List Byte) :
    (s.withDev d).eccWrite src a l = ((s.eccWrite src a l).1.withDev d, (s.eccWrite src a l).2) := by
  have hshut : ∀ b, (s.withDev d).cnShut b = s.cnShut b := fun _ => rfl
  rw [eccWrite_eq, eccWrite_eq]
  simp only [hshut]
  split
  · exact List.foldl_hom (fun x : State × Option Nat => (x.1.withDev d, x.2)) (l := cnPieces)
      (init := (s.setRf CN_STAT 4 1 1, none)) (openPut_withDev s d src a l)
  · exact eccPut_withDev s d src a l

/-! ### The bytes written -/

/-- A write that meets no error, and no shut byte, stores all its bytes. -/
theorem eccWrite_stored {s x : State} {src a : Nat} {l : List Byte} (h : s.eccWrite src a l = (x, none))
    (hs : ∀ i, i < l.length → s.cnShut (a + i) = false) (ha : a + l.length ≤ 0xF0000000) {i : Nat} (hi : i < l.length) :
    x.byteAt (a + i) = l.getD i 0 := by
  have hl : l ≠ [] := List.ne_nil_of_length_pos (by omega)
  have hopen : ¬ ((List.range l.length).any fun i => s.cnShut (a + i)) = true := by
    simpa using hs
  rw [eccWrite_eq, if_neg hopen, eccPut_eq _ _ _ hl] at h
  obtain ⟨hx, hbad⟩ := Prod.mk.inj h
  have hmem : x.mem = Store.setRun 0 s.mem a l := by
    rw [← hx, List.head?_eq_none_iff.1 hbad, injectOn_mem, poke_mem, (mended_keeps s src a l.length).1]
    rfl
  rw [byteAt, if_neg (by omega), hmem, Store.get_setRun_in 0 s.mem a l i hi, List.getD_eq_getElem _ _ hi]

/-! ### The record of an ECC error -/

theorem recordFault_e (s : State) (d : Word) (a : Nat) (h : s.dev.mode ≠ .becalmed) :
    let t := s.recordFault 3 0x30 false d none a
    csrKept s t (FT_ECNT :: (List.range 5).map FT_REC) ∧
    t.reg FT_ECNT = putFld (s.reg FT_ECNT) 0 32 (min (s.rf FT_ECNT 0 32 + 1) 0xFFFFFFFF) ∧
    t.reg (FT_REC 0) = Word.nat (0x330 + (s.dkf DK_FAULT_SEQ 0 16 + 1) % 65536 * 65536) ∧ t.reg (FT_REC 1) = d ∧
    t.reg (FT_REC 2) = 0 ∧ t.reg (FT_REC 3) = Word.nat a ∧ t.reg (FT_REC 4) = s.deck.ms := by
  intro t
  have ht : t = ((((((((s.setReg (FT_REC 0) (Word.nat (0x330 + (s.dkf DK_FAULT_SEQ 0 16 + 1) % 65536 * 65536))).setReg
      (FT_REC 1) d).setReg (FT_REC 2) 0).setReg (FT_REC 3) (Word.nat a)).setReg (FT_REC 4) s.deck.ms).setDk DK_FAULT_LO
      (BitVec.ofNat 16 d.toNat)).setDk DK_FAULT_HI 0x330).setDk DK_FAULT_SEQ
      (BitVec.ofNat 16 ((s.dkf DK_FAULT_SEQ 0 16 + 1) % 65536))).bump FT_ECNT 0 32 := if_neg h
  have hne : ∀ b, b ≠ FT_ECNT → t.reg b = (((((s.setReg (FT_REC 0)
      (Word.nat (0x330 + (s.dkf DK_FAULT_SEQ 0 16 + 1) % 65536 * 65536))).setReg (FT_REC 1) d).setReg (FT_REC 2) 0).setReg
      (FT_REC 3) (Word.nat a)).setReg (FT_REC 4) s.deck.ms).reg b := fun b hb => by
    rw [ht, reg_bump_ne _ _ _ hb]
    rfl
  have hcnt : (((((s.setReg (FT_REC 0) (Word.nat (0x330 + (s.dkf DK_FAULT_SEQ 0 16 + 1) % 65536 * 65536))).setReg
      (FT_REC 1) d).setReg (FT_REC 2) 0).setReg (FT_REC 3) (Word.nat a)).setReg (FT_REC 4) s.deck.ms).reg FT_ECNT =
      s.reg FT_ECNT := by
    simp (disch := decide) only [reg_setReg_ne]
  refine ⟨fun b hb => ?_, ?_, ?_, ?_, ?_, ?_, ?_⟩
  · have hb : b ≠ FT_ECNT ∧ b ≠ FT_REC 0 ∧ b ≠ FT_REC 1 ∧ b ≠ FT_REC 2 ∧ b ≠ FT_REC 3 ∧ b ≠ FT_REC 4 := by
      simpa [List.range_succ] using hb
    obtain ⟨hb, h0, h1, h2, h3, h4⟩ := hb
    rw [hne b hb, reg_setReg_ne _ _ h4, reg_setReg_ne _ _ h3, reg_setReg_ne _ _ h2, reg_setReg_ne _ _ h1, reg_setReg_ne _ _ h0]
  · rw [ht, reg_bump_self, rf]
    simp only [reg_setDk]
    rw [hcnt]
    rfl
  all_goals rw [hne _ (by decide)]
  all_goals simp (disch := decide) only [reg_setReg_ne, reg_setReg_self]

theorem eccRecord_recordEcc (s : State) (src a : Nat) : eccRecord s (s.recordEcc src a) src a := by
  have hrec : ∀ (u : State) (m : Nat), u = { s with free := u.free } → m < 8 →
      (State.inCn a = false → m = memNumber s.part a % 8) →
      eccRecord s (u.recordFault 3 0x30 false (Word.nat (m + src * 16)) none a) src a := by
    intro u m hu hm hnum
    by_cases hb : u.dev.mode = .becalmed
    · have hstill : u.recordFault 3 0x30 false (Word.nat (m + src * 16)) none a = u := if_pos hb
      rw [hstill]
      rw [hu] at hb ⊢
      exact ⟨fun _ _ => rfl, fun _ => ⟨fun _ _ => rfl, fun _ _ => rfl⟩, fun hn => absurd hb hn⟩
    · obtain ⟨hk, hcnt, h0, h1, h2, h3, h4⟩ := recordFault_e u (Word.nat (m + src * 16)) a hb
      obtain ⟨hlo, hhi, hseq⟩ := recordFault_mirror u 3 0x30 false (Word.nat (m + src * 16)) none a hb
      generalize u.recordFault 3 0x30 false (Word.nat (m + src * 16)) none a = t at *
      rw [hu] at hb hk hcnt h0 h4 hseq
      refine ⟨hk, fun hn => absurd hn hb, fun _ => ⟨hcnt, h0, ⟨m, hm, hnum, h1⟩, h2, h3, h4, hlo.trans ?_, hhi, hseq⟩⟩
      rw [h1]
  unfold recordEcc
  cases hc : inCn a with
  | true => exact hrec (s.draw 3).2 (s.draw 3).1.toNat rfl (s.draw 3).1.isLt fun hn => absurd (hc.symm.trans hn) nofun
  | false => exact hrec s (memNumber s.part a) rfl (memNumber_lt _ _) fun _ => (Nat.mod_eq_of_lt (memNumber_lt _ _)).symm

/-- The record stands where the fault block and its mirrors do. -/
theorem eccRecord_then {u t z : State} {src a : Nat} (h : eccRecord u t src a) (hr : z.regs = t.regs)
    (hd : ∀ o ∈ [DK_FAULT_LO, DK_FAULT_HI, DK_FAULT_SEQ], z.dk o = t.dk o) : eccRecord u z src a := by
  have hreg : ∀ b, z.reg b = t.reg b := fun b => by rw [reg, hr]; rfl
  have hlo := hd DK_FAULT_LO (by decide)
  have hhi := hd DK_FAULT_HI (by decide)
  have hseq := hd DK_FAULT_SEQ (by decide)
  obtain ⟨hk, hb, hn⟩ := h
  refine ⟨fun b hb => (hreg b).trans (hk b hb), fun hm => ⟨fun x hx => (hreg x).trans ((hb hm).1 x hx),
    fun o ho => (hd o ho).trans ((hb hm).2 o ho)⟩, fun hm => ?_⟩
  rw [hreg, hreg, hreg, hreg, hreg, hreg, hlo, hhi, hseq]
  exact hn hm

theorem recordEcc_deckRegs (s : State) (src a : Nat) :
    deckRegs s (s.recordEcc src a) [DK_FAULT_LO, DK_FAULT_HI, DK_FAULT_SEQ] := by
  obtain ⟨u, d, hu, he⟩ := recordEcc_fault s src a
  rw [he]
  have hdk := fun o (h : o ∉ [DK_FAULT_LO, DK_FAULT_HI, DK_FAULT_SEQ]) => recordFault_dk u 3 0x30 false d none a h
  have hdeck : (u.recordFault 3 0x30 false d none a).deck = { u.deck with regs := (u.recordFault 3 0x30 false d none a).deck.regs } := by
    unfold recordFault
    split
    · rfl
    · rfl
  rw [hu] at hdk hdeck ⊢
  exact ⟨hdeck, hdk⟩

end Sys2Proof.Machine.State
end

section
/-! PROOFS. The Deck window: how an access ends, and what a local one does (05 R221–R224; 16 R698; 21 R858). -/

namespace Sys2Proof.Machine.State

open Sys2Proof.Spec

/-! ### How an access ends -/

theorem winGives_winReturn {u x : State} {l : List Nat} (h : deckRegs u x l) (hd : x.dev = u.dev) (v : Word) :
    winGives u (x.winReturn v) v l := by
  have hx := deckRegs_trans (deckRegs_trans h (deckRegs_setDk x DK_WIN_DATA_HI (BitVec.ofNat 16 (v.toNat / 65536))))
    (deckRegs_setDk _ DK_WIN_DATA (BitVec.ofNat 16 v.toNat))
  have hx := deckRegs_mono (m := DK_WIN_DATA :: DK_WIN_DATA_HI :: l) hx fun o ho => by
    simp only [List.mem_append, List.mem_cons] at ho ⊢
    tauto
  refine ⟨deckGives_deckReturn hx hd _ _, (deckReturn_dk _ _ _ _).trans (dk_setDk_self _ _ _), ?_⟩
  exact (deckReturn_dk _ _ _ _).trans ((dk_setDk_ne _ _ (by decide)).trans (dk_setDk_self _ _ _))

/-- What a read gave stands while the Deck changes elsewhere. -/
theorem winGives_then {u t z : State} {v : Word} {l m : List Nat} (h : winGives u t v l) (k : deckRegs t z m)
    (hm : DK_WIN_DATA ∉ m ∧ DK_WIN_DATA_HI ∉ m) : winGives u z v (m ++ l) := by
  obtain ⟨⟨hdeck, hk⟩, hdata, hhi⟩ := h
  refine ⟨⟨?_, fun o ho => ?_⟩, (k.2 _ hm.1).trans hdata, (k.2 _ hm.2).trans hhi⟩
  · rw [k.1]
    exact congrArg (fun d : Deck => { d with regs := z.deck.regs }) hdeck
  · simp only [List.mem_cons, List.mem_append, not_or] at ho
    exact (k.2 o ho.2.2.1).trans (hk o (by simp only [List.mem_cons, not_or]; exact ⟨ho.1, ho.2.1, ho.2.2.2⟩))

/-- The Deck of a read that gives 0, or of a write, as an access that has no data leaves it. -/
def winEnded (u t : State) (write : Bool) (l : List Nat) : Prop := if write then deckRegs u t l else winGives u t 0 l

/-- A read returns 0, and a write nothing. -/
def winNothing (s : State) (write : Bool) : State := if write then s else s.winReturn 0

theorem winNothing_frame (s : State) (write : Bool) : s.winNothing write = { s with deck := (s.winNothing write).deck } := by
  cases write with
  | true => rfl
  | false => exact winReturn_frame s 0

theorem winNothing_dk (s : State) (write : Bool) {o : Nat} (h : o ≠ DK_WIN_DATA) (h' : o ≠ DK_WIN_DATA_HI) :
    (s.winNothing write).dk o = s.dk o := by
  cases write with
  | true => rfl
  | false => exact winReturn_dk s 0 h h'

theorem winEnded_winNothing {u x : State} {l : List Nat} (h : deckRegs u x l) (hd : x.dev = u.dev) (write : Bool) :
    winEnded u (x.winNothing write) write l := by
  cases write with
  | true => exact h
  | false => exact winGives_winReturn h hd 0

theorem winEnded_then {u t z : State} {write : Bool} {l m : List Nat} (h : winEnded u t write l) (k : deckRegs t z m)
    (hm : DK_WIN_DATA ∉ m ∧ DK_WIN_DATA_HI ∉ m) : winEnded u z write (m ++ l) := by
  cases write with
  | true => exact deckRegs_mono (deckRegs_trans h k) fun o ho => by simpa [or_comm] using ho
  | false => exact winGives_then h k hm

theorem winError_frame (s : State) (e : Nat) : s.winError e = { s with deck := (s.winError e).deck } := rfl

theorem winError_spec (s : State) (e : Nat) :
    deckRegs s (s.winError e) [DK_WIN_CTRL, DK_IRQ_RAW] ∧
    (s.winError e).dk DK_WIN_CTRL = putFld (s.dk DK_WIN_CTRL) 8 4 e ∧ raised s (s.winError e) [irqWIN] :=
  ⟨deckRegs_trans (deckRegs_setDk s DK_WIN_CTRL _) (deckRegs_raise _ irqWIN),
    (dk_raise_ne _ _ (by decide)).trans (dk_setDk_self s _ _),
    raised_congr (raised_raise _ (by decide)) (dk_setDkf_ne s _ _ _ (by decide)).symm rfl⟩

/-- An access refused, or ended by an error, after changes of the registers in `l`. -/
theorem winErred_winRefuse {u x : State} {l : List Nat} (h : deckRegs u x l) (hd : x.dev = u.dev)
    (hl : DK_WIN_CTRL ∉ l ∧ DK_IRQ_RAW ∉ l) (write : Bool) (e : Nat) : winErred u (x.winRefuse write e) write e l := by
  obtain ⟨hregs, hctrl, hraised⟩ := winError_spec (x.winNothing write) e
  have hdk : ∀ o, o ≠ DK_WIN_DATA → o ≠ DK_WIN_DATA_HI → o ∉ l → (x.winNothing write).dk o = u.dk o :=
    fun o h1 h2 ho => (winNothing_dk x write h1 h2).trans (h.2 o ho)
  refine ⟨winEnded_then (winEnded_winNothing h hd write) hregs (by decide), hctrl.trans ?_, raised_congr hraised ?_ rfl⟩
  · rw [hdk _ (by decide) (by decide) hl.1]
  · exact (hdk _ (by decide) (by decide) hl.2).symm

theorem winRefuse_frame (s : State) (write : Bool) (e : Nat) :
    s.winRefuse write e = { s with deck := (s.winRefuse write e).deck } :=
  deck_trans (winNothing_frame s write) (winError_frame _ e)

/-! ### The address -/

theorem winAddr_lt (s : State) : s.winAddr < 2 ^ 32 := by
  have hlo := (s.dk DK_WIN_ADDR_LO).isLt
  have hhi := (s.dk DK_WIN_ADDR_HI).isLt
  unfold winAddr
  omega

theorem winInc_frame (s : State) : s.winInc = { s with deck := s.winInc.deck } := by
  unfold winInc
  split
  · rfl
  · rfl

theorem winInc_spec (s : State) : deckRegs s s.winInc [DK_WIN_ADDR_LO, DK_WIN_ADDR_HI] ∧ incDone s s.winInc := by
  unfold winInc incDone
  split
  · refine ⟨deckRegs_trans (deckRegs_setDk s DK_WIN_ADDR_LO _) (deckRegs_setDk _ DK_WIN_ADDR_HI _), ?_⟩
    have := s.winAddr_lt
    rw [winAddr, dk_setDk_self, dk_setDk_ne _ _ (by decide), dk_setDk_self, BitVec.toNat_ofNat, BitVec.toNat_ofNat]
    omega
  · exact ⟨deckRegs_mono (deckRegs_refl s) (by simp), rfl⟩

theorem winAddr_of_dk {s t : State} (hlo : t.dk DK_WIN_ADDR_LO = s.dk DK_WIN_ADDR_LO)
    (hhi : t.dk DK_WIN_ADDR_HI = s.dk DK_WIN_ADDR_HI) : t.winAddr = s.winAddr := by
  rw [winAddr, hlo, hhi]
  rfl

/-- The address advances as seen from a state with the same address and INC. -/
theorem incDone_congr {u x t : State} (h : incDone x t) (hinc : x.dkbit DK_WIN_CTRL 0 = u.dkbit DK_WIN_CTRL 0)
    (hlo : x.dk DK_WIN_ADDR_LO = u.dk DK_WIN_ADDR_LO) (hhi : x.dk DK_WIN_ADDR_HI = u.dk DK_WIN_ADDR_HI) : incDone u t := by
  rw [incDone, ← hinc, ← winAddr_of_dk hlo hhi]
  exact h

/-- A read that ends with data. -/
theorem winGives_winInc {x : State} (v : Word) :
    (x.winReturn v).winInc = { x with deck := (x.winReturn v).winInc.deck } ∧
    winGives x (x.winReturn v).winInc v [DK_WIN_ADDR_LO, DK_WIN_ADDR_HI] ∧ incDone x (x.winReturn v).winInc := by
  obtain ⟨hregs, hinc⟩ := winInc_spec (x.winReturn v)
  refine ⟨deck_trans (winReturn_frame x v) (winInc_frame _),
    winGives_then (winGives_winReturn (deckRegs_refl x) rfl v) hregs (by decide), incDone_congr hinc ?_ ?_ ?_⟩
  · rw [dkbit, dkf, winReturn_dk _ _ (by decide) (by decide)]
    rfl
  · exact winReturn_dk _ _ (by decide) (by decide)
  · exact winReturn_dk _ _ (by decide) (by decide)

/-! ### Accesses of the address map -/

/-- A write meets a destination of the BIND that runs, or its image's bytes (21 R858). -/
def bindHit (s : State) (a : Nat) : Bool :=
  let base := match s.dev.command with | some c => c.arg.toNat | none => 0
  s.dev.bindDest.any (fun d => meets a 4 d.1 d.2) || meets a 4 base (max 32 (s.peekWord (base + 8)).toNat)

theorem bindTouch_eq (s : State) (a : Nat) :
    s.bindTouch a = if s.dev.binding && s.bindHit a then s.withDev { s.dev with bindStale := true } else s := rfl

theorem bindMet_bindTouch (s : State) (a : Nat) : bindMet s (s.bindTouch a).dev a := by
  rw [bindTouch_eq]
  split
  · next h =>
    rw [Bool.and_eq_true] at h
    exact ⟨rfl, fun hb => absurd (hb.symm.trans h.1) Bool.false_ne_true, fun _ _ => rfl, fun _ => rfl⟩
  · next h =>
    refine ⟨rfl, fun _ => rfl, fun hb ⟨p, hp, hlo, hhi, hn⟩ => absurd ?_ h, id⟩
    rw [hb, Bool.true_and, bindHit, Bool.or_eq_true]
    refine .inl (List.any_eq_true.2 ⟨p, hp, ?_⟩)
    simp [meets, hlo, hhi, hn]

theorem bindTouch_withDev (s : State) (a : Nat) : s.bindTouch a = s.withDev (s.bindTouch a).dev := by
  rw [bindTouch_eq]
  split
  · rfl
  · rfl

theorem mapAccess_read {s x : State} {a : Nat} (hs : spaceOf s.part a ≠ .csr) (h : s.eccRead srcWindow a 4 = (x, none)) :
    s.mapAccess a none = ((x.readBytes a 4).2, leWord (x.readBytes a 4).1, false) := by
  unfold mapAccess
  rw [if_neg hs]
  dsimp only
  rw [if_neg nofun, h]

theorem mapAccess_readErr {s x : State} {a w : Nat} (hs : spaceOf s.part a ≠ .csr)
    (h : s.eccRead srcWindow a 4 = (x, some w)) : s.mapAccess a none = (x.recordEcc srcWindow w, 0, true) := by
  unfold mapAccess
  rw [if_neg hs]
  dsimp only
  rw [if_neg nofun, h]

theorem eccWrite_bindTouch {s x : State} {src a : Nat} {l : List Byte} {ue : Option Nat} (h : s.eccWrite src a l = (x, ue)) :
    (s.bindTouch a).eccWrite src a l = (x.withDev (s.bindTouch a).dev, ue) := by
  rw [bindTouch_withDev, eccWrite_withDev, h]
  rfl

theorem mapAccess_write {s x : State} {a : Nat} {v : Word} (hs : spaceOf s.part a ≠ .csr)
    (h : s.eccWrite srcWindow a (leBytes 4 v.toNat) = (x, none)) :
    s.mapAccess a (some v) = (x.withDev (s.bindTouch a).dev, 0, false) := by
  unfold mapAccess
  rw [if_neg hs]
  simp only [Option.isSome_some, if_true]
  rw [eccWrite_bindTouch h]

theorem mapAccess_writeErr {s x : State} {a w : Nat} {v : Word} (hs : spaceOf s.part a ≠ .csr)
    (h : s.eccWrite srcWindow a (leBytes 4 v.toNat) = (x, some w)) :
    s.mapAccess a (some v) = ((x.withDev (s.bindTouch a).dev).recordEcc srcWindow w, 0, true) := by
  unfold mapAccess
  rw [if_neg hs]
  simp only [Option.isSome_some, if_true]
  rw [eccWrite_bindTouch h]

theorem mapAccess_csrRead {s : State} {a : Nat} (hs : spaceOf s.part a = .csr) :
    s.mapAccess a none = ((s.csrRead a).2, (s.csrRead a).1, false) := if_pos hs

theorem mapAccess_csrWrite {s : State} {a : Nat} (hs : spaceOf s.part a = .csr) (v : Word) :
    s.mapAccess a (some v) = (s.csrWrite a v, 0, false) := if_pos hs

/-- The word that a read leaves and gives. -/
theorem wordRead_readBytes {s x t : State} {a : Nat} (h : s.eccRead srcWindow a 4 = (x, none))
    (ht : t = { (x.readBytes a 4).2 with deck := t.deck }) : wordRead s x t a (leWord (x.readBytes a 4).1) := by
  have hfst : (s.eccRead srcWindow a 4).1 = x := congrArg Prod.fst h
  have hx := eccRead_frame s srcWindow a 4
  have hctrl : ∀ i, x.rbit CN_CTRL i = s.rbit CN_CTRL i := fun i =>
    rbit_of_reg_eq (hfst ▸ (MemStep.eccRead s srcWindow a 4).2 CN_CTRL (by decide)) i
  have hmem : x.mem = s.mem := hfst ▸ eccRead_mem s srcWindow a 4
  rw [hfst] at hx
  have hf := readBytes_frame x a 4
  refine ⟨?_, fun hfree => ?_⟩
  · generalize (x.readBytes a 4).2 = y at *
    rw [hf] at ht
    rw [ht]
    dsimp only at hx ⊢
    rw [hx]
  · have hnet : Spec.netOn x = Spec.netOn s := by
      unfold Spec.netOn
      rw [hctrl, hctrl]
    have hr := readBytes_free (s := x) (a := a) (by rw [hnet]; exact hfree)
    rw [hr] at ht ⊢
    exact ⟨congrArg leWord (peek_of_mem_eq hmem a 4), by rw [ht]⟩

/-- What a write under ECC leaves, with the device block that a BIND needs. -/
theorem wordWritten_withDev {s x t : State} {a : Nat} {v : Word}
    (h : s.eccWrite srcWindow a (leBytes 4 v.toNat) = (x, none))
    (ht : t = { x.withDev (s.bindTouch a).dev with deck := t.deck }) : wordWritten s x t a (leBytes 4 v.toNat) := by
  have hf := eccWrite_frame s srcWindow a (leBytes 4 v.toNat)
  have hk := eccWrite_keeps s srcWindow a (leBytes 4 v.toNat)
  have hmem : t.mem = x.mem := by rw [ht]; rfl
  have hdev : t.dev = (s.bindTouch a).dev := by rw [ht]; rfl
  have hfst : (s.eccWrite srcWindow a (leBytes 4 v.toNat)).1 = x := congrArg Prod.fst h
  rw [hfst] at hf hk
  refine ⟨?_, ?_, fun b hb => (byteAt_of_mem_eq hmem b).trans (hk b hb), fun hs ha i hi => ?_⟩
  · rw [ht, hf]
    rfl
  · rw [hdev]
    exact bindMet_bindTouch s a
  · rw [byteAt_of_mem_eq hmem]
    exact eccWrite_stored h hs ha hi

end Sys2Proof.Machine.State
end

section
/-! PROOFS. Accesses of the Deck window that are refused, or local (05 R221–R224, Table 5.3). -/

namespace Sys2Proof.Machine.State

open Sys2Proof.Spec

/-- The ERR that an access of the window meets here: BUSY, or that of a row of Table 5.3 (05 R222). -/
def winRefusal (s : State) (write : Bool) : Option Nat :=
  if s.dkbit DK_WIN_CTRL 4 then some winBUSY else s.winCheck s.winAddr write

theorem winRefusal_eq_some {s : State} {write : Bool} {e : Nat}
    (h : (s.dkbit DK_WIN_CTRL 4 = true ∧ e = 5) ∨ (s.dkbit DK_WIN_CTRL 4 = false ∧ s.winCheck s.winAddr write = some e)) :
    s.winRefusal write = some e := by
  rcases h with ⟨hb, rfl⟩ | ⟨hb, hc⟩
  · exact if_pos hb
  · rw [winRefusal, hb, if_neg Bool.false_ne_true, hc]

theorem winRefusal_eq_none {s : State} {write : Bool} (hb : s.dkbit DK_WIN_CTRL 4 = false)
    (hc : s.winCheck s.winAddr write = none) : s.winRefusal write = none := by
  rw [winRefusal, hb, if_neg Bool.false_ne_true, hc]

theorem winRefusal_none {s : State} {write : Bool} (h : s.winRefusal write = none) :
    s.dkbit DK_WIN_CTRL 4 = false ∧ s.winCheck s.winAddr write = none := by
  unfold winRefusal at h
  split at h
  · cases h
  · next hb => exact ⟨Bool.not_eq_true _ ▸ hb, h⟩

/-- A refused access ends at once, however slow. -/
theorem winAccess_refused {s : State} {w : Option Word} {e : Nat} (h : s.winRefusal w.isSome = some e) (slow : Bool) :
    s.winAccess w slow = s.winRefuse w.isSome e := by
  unfold winRefusal at h
  unfold winAccess
  dsimp only
  by_cases hb : s.dkbit DK_WIN_CTRL 4 = true
  · rw [if_pos hb] at h ⊢
    rw [Option.some.inj h]
  · rw [if_neg hb] at h ⊢
    rw [h]

/-- A local access that is not refused and ends in time (05 R221, R224). -/
theorem winAccess_local {s : State} {w : Option Word} (h : s.winRefusal w.isSome = none)
    (hr : spaceOf s.part s.winAddr ≠ .remote) :
    s.winAccess w false =
      let x := s.mapAccess s.winAddr w
      if x.2.2 then x.1.winRefuse w.isSome winECC else (if w.isSome then x.1 else x.1.winReturn x.2.1).winInc := by
  obtain ⟨hb, hc⟩ := winRefusal_none h
  unfold winAccess
  dsimp only
  rw [hb, hc]
  dsimp only
  rw [if_neg Bool.false_ne_true, if_neg hr, if_neg Bool.false_ne_true]

theorem deckRead_winData (s : State) : s.deckRead DK_WIN_DATA = (accessed s).winAccess none false := by
  unfold deckRead
  dsimp only
  rw [clearTags_eq, if_neg (by decide : ¬ DK_WIN_DATA = DK_STAGE)]
  exact if_pos rfl

theorem deckWrite_winData (s : State) (v : Half) :
    s.deckWrite DK_WIN_DATA v = (accessed s).winAccess (some (s.winWord v)) false := by
  unfold deckWrite
  rw [clearTags_eq]
  dsimp only
  rw [if_neg (by decide), if_neg (by decide), if_pos rfl]
  rfl

theorem exec_winRead {s : State} (hf : s.deckFree = true) : exec .winRead s = .next ((accessed s).winAccess none false) := by
  rw [← deckRead_winData]
  exact congrArg Host.Outcome.next (if_pos hf)

theorem exec_winWrite {s : State} (hf : s.deckFree = true) (h : Half) :
    exec (.winWrite h) s = .next ((accessed s).winAccess (some (s.winWord h)) false) := by
  rw [← deckWrite_winData]
  exact congrArg Host.Outcome.next (if_pos hf)

theorem winRefuse_dk (s : State) (write : Bool) (e : Nat) {o : Nat}
    (h : o ∉ [DK_WIN_DATA, DK_WIN_DATA_HI, DK_WIN_CTRL, DK_IRQ_RAW]) : (s.winRefuse write e).dk o = s.dk o := by
  simp only [List.mem_cons, List.not_mem_nil, or_false, not_or] at h
  obtain ⟨hdata, hhi, hctrl, hirq⟩ := h
  exact ((winError_spec (s.winNothing write) e).1.2 o (by simp [hctrl, hirq])).trans (winNothing_dk s write hdata hhi)

/-- What a read gave, as seen from a state with the same Deck and straps. -/
theorem winGives_congr {u x t : State} {v : Word} {l : List Nat} (h : winGives x t v l) (hd : x.deck = u.deck)
    (hv : x.dev = u.dev) : winGives u t v l := by
  obtain ⟨⟨hdeck, hk⟩, hdata⟩ := h
  rw [hd, hv] at hdeck
  exact ⟨⟨hdeck, fun o ho => (hk o ho).trans (dk_of_deck_eq hd o)⟩, hdata⟩

/-! ### The cases of a read and of a write -/

theorem winAccess_refuses {s : State} {w : Option Word} {e : Nat} (h : s.winRefusal w.isSome = some e) (slow : Bool) :
    let t := (accessed s).winAccess w slow
    t = { accessed s with deck := t.deck } ∧ winErred (accessed s) t w.isSome e [] := by
  dsimp only
  rw [winAccess_refused (s := accessed s) h slow]
  exact ⟨winRefuse_frame _ _ _, winErred_winRefuse (deckRegs_refl _) rfl (by decide) _ _⟩

theorem winAccess_reads {u x : State} (h : u.winRefusal false = none) (hr : spaceOf u.part u.winAddr ≠ .remote)
    (hc : spaceOf u.part u.winAddr ≠ .csr) (he : u.eccRead srcWindow u.winAddr 4 = (x, none)) :
    ∃ v, wordRead u x (u.winAccess none false) u.winAddr v ∧ (u.winAccess none false).dev = u.dev ∧
      winGives u (u.winAccess none false) v [DK_WIN_ADDR_LO, DK_WIN_ADDR_HI] ∧ incDone u (u.winAccess none false) := by
  have hx := eccRead_frame u srcWindow u.winAddr 4
  rw [show (u.eccRead srcWindow u.winAddr 4).1 = x from congrArg Prod.fst he] at hx
  have hy := readBytes_frame x u.winAddr 4
  have ht : u.winAccess none false = ((x.readBytes u.winAddr 4).2.winReturn (leWord (x.readBytes u.winAddr 4).1)).winInc := by
    rw [winAccess_local (w := none) h hr, mapAccess_read hc he]
    dsimp only [Option.isSome_none]
    rw [if_neg Bool.false_ne_true, if_neg Bool.false_ne_true]
  obtain ⟨hframe, hgives, hinc⟩ := winGives_winInc (x := (x.readBytes u.winAddr 4).2) (leWord (x.readBytes u.winAddr 4).1)
  rw [← ht] at hframe hgives hinc
  refine ⟨_, wordRead_readBytes he hframe, ?_⟩
  generalize (x.readBytes u.winAddr 4).2 = y at *
  have hdev : y.dev = u.dev := by rw [hy, hx]
  have hdeck : y.deck = u.deck := by rw [hy, hx]
  have hdk : ∀ o, y.dk o = u.dk o := dk_of_deck_eq hdeck
  refine ⟨by rw [hframe]; exact hdev, winGives_congr hgives hdeck hdev, incDone_congr hinc ?_ (hdk _) (hdk _)⟩
  rw [dkbit, dkf, hdk]
  rfl

/-- An uncorrectable word ends the access: its record, and ERR ECC (05 R224; 16 R698). -/
theorem winRefuse_recordEcc {u x : State} {write : Bool} {w : Nat} (hdeck : x.deck = u.deck) (hdev : x.dev = u.dev) :
    let t := (x.recordEcc srcWindow w).winRefuse write winECC
    t = { x with deck := t.deck, regs := t.regs, free := t.free } ∧ eccRecord x t srcWindow w ∧
    winErred u t write 6 [DK_FAULT_LO, DK_FAULT_HI, DK_FAULT_SEQ] := by
  have hx := recordEcc_frame x srcWindow w
  have hrec := eccRecord_recordEcc x srcWindow w
  have hregs := recordEcc_deckRegs x srcWindow w
  have hdev' : (x.recordEcc srcWindow w).dev = u.dev := (recordEcc_dev x srcWindow w).trans hdev
  generalize x.recordEcc srcWindow w = y at *
  have hf := winRefuse_frame y write winECC
  have hkept := fun o => winRefuse_dk y write winECC (o := o)
  have hu : deckRegs u y [DK_FAULT_LO, DK_FAULT_HI, DK_FAULT_SEQ] :=
    deckRegs_mono (deckRegs_trans (deckRegs_of_deck_eq hdeck) hregs) (by simp)
  have herr := winErred_winRefuse hu hdev' (by decide) write winECC
  dsimp only
  generalize y.winRefuse write winECC = t at *
  refine ⟨?_, eccRecord_then hrec ?_ fun o ho => hkept o ?_, herr⟩
  · rw [hf, hx]
  · rw [hf]
  · revert o
    decide

theorem winAccess_readFails {u x : State} {w : Nat} (h : u.winRefusal false = none) (hr : spaceOf u.part u.winAddr ≠ .remote)
    (hc : spaceOf u.part u.winAddr ≠ .csr) (he : u.eccRead srcWindow u.winAddr 4 = (x, some w)) :
    let t := u.winAccess none false
    t = { u with deck := t.deck, regs := t.regs, ecc := x.ecc, free := t.free } ∧ eccRecord x t srcWindow w ∧
    winErred u t false 6 [DK_FAULT_LO, DK_FAULT_HI, DK_FAULT_SEQ] := by
  have hx := eccRead_frame u srcWindow u.winAddr 4
  rw [show (u.eccRead srcWindow u.winAddr 4).1 = x from congrArg Prod.fst he] at hx
  have ht : u.winAccess none false = (x.recordEcc srcWindow w).winRefuse false winECC := by
    rw [winAccess_local (w := none) h hr, mapAccess_readErr hc he]
    dsimp only [Option.isSome_none]
    rw [if_pos rfl]
  obtain ⟨hf, hrec, herr⟩ := winRefuse_recordEcc (u := u) (x := x) (write := false) (w := w) (by rw [hx]) (by rw [hx])
  dsimp only at hf hrec herr ⊢
  rw [ht]
  generalize (x.recordEcc srcWindow w).winRefuse false winECC = t at *
  refine ⟨?_, hrec, herr⟩
  rw [hf, hx]

theorem winAccess_writes {u x : State} {v : Word} (h : u.winRefusal true = none) (hr : spaceOf u.part u.winAddr ≠ .remote)
    (hc : spaceOf u.part u.winAddr ≠ .csr) (he : u.eccWrite srcWindow u.winAddr (leBytes 4 v.toNat) = (x, none)) :
    let t := u.winAccess (some v) false
    wordWritten u x t u.winAddr (leBytes 4 v.toNat) ∧ incDone u t ∧ deckRegs u t [DK_WIN_ADDR_LO, DK_WIN_ADDR_HI] := by
  have hx := eccWrite_frame u srcWindow u.winAddr (leBytes 4 v.toNat)
  rw [show (u.eccWrite srcWindow u.winAddr (leBytes 4 v.toNat)).1 = x from congrArg Prod.fst he] at hx
  have ht : u.winAccess (some v) false = (x.withDev (u.bindTouch u.winAddr).dev).winInc := by
    rw [winAccess_local (w := some v) h hr, mapAccess_write hc he]
    dsimp only [Option.isSome_some]
    rw [if_neg Bool.false_ne_true, if_pos rfl]
  have hdeck : (x.withDev (u.bindTouch u.winAddr).dev).deck = u.deck := by rw [hx]; rfl
  obtain ⟨hregs, hinc⟩ := winInc_spec (x.withDev (u.bindTouch u.winAddr).dev)
  have hdk := dk_of_deck_eq hdeck
  dsimp only
  rw [ht]
  refine ⟨wordWritten_withDev he (winInc_frame _), incDone_congr hinc ?_ (hdk _) (hdk _),
    deckRegs_trans (deckRegs_of_deck_eq hdeck) hregs⟩
  rw [dkbit, dkf, hdk]
  rfl

theorem winAccess_writeFails {u x : State} {v : Word} {w : Nat} (h : u.winRefusal true = none)
    (hr : spaceOf u.part u.winAddr ≠ .remote) (hc : spaceOf u.part u.winAddr ≠ .csr)
    (he : u.eccWrite srcWindow u.winAddr (leBytes 4 v.toNat) = (x, some w)) :
    let t := u.winAccess (some v) false
    memKeptBut u t u.winAddr 4 ∧ bindMet u t.dev u.winAddr ∧
    t = { u with deck := t.deck, regs := t.regs, ecc := x.ecc, free := t.free, mem := x.mem, inject := x.inject
                 dev := t.dev } ∧
    eccRecord x t srcWindow w ∧ winErred u t true 6 [DK_FAULT_LO, DK_FAULT_HI, DK_FAULT_SEQ] := by
  have hx := eccWrite_frame u srcWindow u.winAddr (leBytes 4 v.toNat)
  have hk := eccWrite_keeps u srcWindow u.winAddr (leBytes 4 v.toNat)
  rw [show (u.eccWrite srcWindow u.winAddr (leBytes 4 v.toNat)).1 = x from congrArg Prod.fst he] at hx hk
  have ht : u.winAccess (some v) false =
      ((x.withDev (u.bindTouch u.winAddr).dev).recordEcc srcWindow w).winRefuse true winECC := by
    rw [winAccess_local (w := some v) h hr, mapAccess_writeErr hc he]
    dsimp only [Option.isSome_some]
    rw [if_pos rfl]
  have hmet := bindMet_bindTouch u u.winAddr
  generalize (u.bindTouch u.winAddr).dev = d at *
  have hdeck : (x.withDev d).deck = (u.withDev d).deck := by rw [hx]; rfl
  obtain ⟨hf, hrec, herr⟩ := winRefuse_recordEcc (u := u.withDev d) (x := x.withDev d) (write := true) (w := w) hdeck rfl
  have hmode : d.mode = u.dev.mode := by rw [hmet.1]
  dsimp only at hf hrec herr ⊢
  rw [ht]
  generalize ((x.withDev d).recordEcc srcWindow w).winRefuse true winECC = t at *
  have hdev : t.dev = d := by rw [hf]; rfl
  have hmem : t.mem = x.mem := by rw [hf]; rfl
  refine ⟨fun b hb => (byteAt_of_mem_eq hmem b).trans (hk b hb), hdev ▸ hmet, ?_, ?_, herr⟩
  · rw [hf, hx]
    rfl
  · have hxm : x.dev.mode = d.mode := by rw [hx, hmode]
    obtain ⟨hkept, hb, hn⟩ := hrec
    exact ⟨hkept, fun hm => hb (hxm.symm.trans hm), fun hm => hn fun hd => hm (hxm.trans hd)⟩

theorem winAccess_csrRead {u : State} (h : u.winRefusal false = none) (hc : spaceOf u.part u.winAddr = .csr) :
    let x := (u.csrRead u.winAddr).2
    let t := u.winAccess none false
    t = { x with deck := t.deck } ∧ winGives x t (u.csrRead u.winAddr).1 [DK_WIN_ADDR_LO, DK_WIN_ADDR_HI] ∧ incDone x t := by
  have hr : spaceOf u.part u.winAddr ≠ .remote := by rw [hc]; nofun
  have ht : u.winAccess none false = ((u.csrRead u.winAddr).2.winReturn (u.csrRead u.winAddr).1).winInc := by
    rw [winAccess_local (w := none) h hr, mapAccess_csrRead hc]
    dsimp only [Option.isSome_none]
    rw [if_neg Bool.false_ne_true, if_neg Bool.false_ne_true]
  dsimp only
  rw [ht]
  exact winGives_winInc _

theorem winAccess_csrWrite {u : State} (v : Word) (h : u.winRefusal true = none) (hc : spaceOf u.part u.winAddr = .csr) :
    let x := u.csrWrite u.winAddr v
    let t := u.winAccess (some v) false
    t = { x with deck := t.deck } ∧ deckRegs x t [DK_WIN_ADDR_LO, DK_WIN_ADDR_HI] ∧ incDone x t := by
  have hr : spaceOf u.part u.winAddr ≠ .remote := by rw [hc]; nofun
  have ht : u.winAccess (some v) false = (u.csrWrite u.winAddr v).winInc := by
    rw [winAccess_local (w := some v) h hr, mapAccess_csrWrite hc]
    dsimp only [Option.isSome_some]
    rw [if_neg Bool.false_ne_true, if_pos rfl]
  dsimp only
  rw [ht]
  exact ⟨winInc_frame _, winInc_spec _⟩

theorem winRefusal_accessed {s : State} {write : Bool} (hb : s.dkbit DK_WIN_CTRL 4 = false)
    (hc : s.winCheck s.winAddr write = none) : (accessed s).winRefusal write = none :=
  winRefusal_eq_none (s := accessed s) hb hc

end Sys2Proof.Machine.State

namespace Sys2Proof

open Machine Machine.State Spec

/-- Settles O27: an access refused, one of a memory by the ECC of its word, and one of a CSR. -/
theorem windowAccessesAndRefusals : Obligations.WindowAccessesAndRefusals := by
  intro s h u hf hu
  subst hu
  refine ⟨fun e he => ?_, fun e he => ?_, fun x hb hc hr hm => ⟨fun hx => ?_, fun w hx => ?_⟩,
    fun x hb hc hr hm => ⟨fun hx => ?_, fun w hx => ?_⟩, fun hb hs => ⟨fun hc => ?_, fun hc => ?_⟩⟩
  · exact ⟨_, exec_winRead hf, winAccess_refuses (w := none) (winRefusal_eq_some he) false⟩
  · exact ⟨_, exec_winWrite hf h, winAccess_refuses (w := some (s.winWord h)) (winRefusal_eq_some he) false⟩
  · obtain ⟨v, hv⟩ := winAccess_reads (winRefusal_accessed hb hc) hr hm hx
    exact ⟨v, _, exec_winRead hf, hv⟩
  · exact ⟨_, exec_winRead hf, winAccess_readFails (winRefusal_accessed hb hc) hr hm hx⟩
  · exact ⟨_, exec_winWrite hf h, winAccess_writes (winRefusal_accessed hb hc) hr hm hx⟩
  · exact ⟨_, exec_winWrite hf h, winAccess_writeFails (winRefusal_accessed hb hc) hr hm hx⟩
  · exact ⟨_, _, rfl, exec_winRead hf, winAccess_csrRead (winRefusal_accessed hb hc) hs⟩
  · exact ⟨_, _, rfl, exec_winWrite hf h, winAccess_csrWrite _ (winRefusal_accessed hb hc) hs⟩

end Sys2Proof
end

section
/-! PROOFS. The Deck window: accesses of the peer, time-outs and late completions (05 R221, R224; 20 R822–R827; log 30). -/

namespace Sys2Proof.Machine.State

open Sys2Proof.Spec

/-! ### A time-out -/

theorem winEnded_mono {u t : State} {write : Bool} {l m : List Nat} (h : winEnded u t write l) (hlm : ∀ o ∈ l, o ∈ m) :
    winEnded u t write m := by
  cases write with
  | true => exact deckRegs_mono h hlm
  | false =>
    obtain ⟨⟨hdeck, hk⟩, hdata⟩ := h
    refine ⟨⟨hdeck, fun o ho => hk o fun hl => ho ?_⟩, hdata⟩
    simp only [List.mem_cons] at hl ⊢
    exact hl.imp_right (Or.imp_right (hlm o))

/-- An access outstanding with ERR TIMEOUT, before its address advances. -/
def winLate (s : State) (write : Bool) : State := ((s.setDkf DK_WIN_CTRL 4 1 1).winNothing write).winError winTIMEOUT

theorem winLate_spec (s : State) (write : Bool) :
    s.winLate write = { s with deck := (s.winLate write).deck } ∧ winEnded s (s.winLate write) write [DK_WIN_CTRL, DK_IRQ_RAW] ∧
    (s.winLate write).dk DK_WIN_CTRL = putFld (putFld (s.dk DK_WIN_CTRL) 4 1 1) 8 4 4 ∧
    raised s (s.winLate write) [irqWIN] := by
  have hset := deckRegs_setDk s DK_WIN_CTRL (putFld (s.dk DK_WIN_CTRL) 4 1 1)
  have hkeep := fun o => winNothing_dk (s.setDkf DK_WIN_CTRL 4 1 1) write (o := o)
  obtain ⟨hregs, hctrl, hraised⟩ := winError_spec ((s.setDkf DK_WIN_CTRL 4 1 1).winNothing write) winTIMEOUT
  refine ⟨deck_trans (deck_trans (setDkf_frame s _ _ _ _) (winNothing_frame _ write)) (winError_frame _ _),
    winEnded_mono (winEnded_then (winEnded_winNothing hset rfl write) hregs (by decide)) (by decide), hctrl.trans ?_,
    raised_congr hraised ?_ rfl⟩
  · rw [hkeep _ (by decide) (by decide), setDkf, dk_setDk_self]
    rfl
  · rw [hkeep _ (by decide) (by decide), dk_setDkf_ne _ _ _ _ (by decide)]

theorem timedOut_winLate (s : State) (write : Bool) : timedOut s (s.winLate write).winInc write := by
  obtain ⟨hf, hend, hctrl, hraised⟩ := winLate_spec s write
  obtain ⟨hregs, hinc⟩ := winInc_spec (s.winLate write)
  have hkept : ∀ o, o ≠ DK_WIN_DATA → o ≠ DK_WIN_DATA_HI → o ∉ [DK_WIN_CTRL, DK_IRQ_RAW] → (s.winLate write).dk o = s.dk o := by
    intro o h1 h2 ho
    cases write with
    | true => exact hend.2 o ho
    | false => exact hend.1.2 o fun hm => by simp only [List.mem_cons] at hm ho; tauto
  refine ⟨deck_trans hf (winInc_frame _), winEnded_mono (winEnded_then hend hregs (by decide)) (by decide),
    (hregs.2 _ (by decide)).trans hctrl, raised_congr hraised rfl (hregs.2 _ (by decide)),
    incDone_congr hinc ?_ (hkept _ (by decide) (by decide) (by decide)) (hkept _ (by decide) (by decide) (by decide))⟩
  rw [dkbit, dkf, hctrl, fld_putFld_ne _ _ _ _ _ _ (by decide), fld_putFld_ne _ _ _ _ _ _ (by decide)]
  rfl

theorem winExpire_eq {s : State} {x : WinAccess} (h : s.deck.win = some x) :
    s.winExpire = ((withWin s (some { x with late := true })).winLate x.write.isSome).winInc := by
  unfold winExpire
  rw [h]
  rfl

theorem winExpire_none {s : State} (h : s.deck.win = none) : s.winExpire = s := by
  unfold winExpire
  rw [h]

theorem timedOut_winExpire {s : State} {x : WinAccess} (h : s.deck.win = some x) :
    timedOut (withWin s (some { x with late := true })) s.winExpire x.write.isSome := by
  rw [winExpire_eq h]
  exact timedOut_winLate _ _

/-! ### Operations of the peer -/

/-- A run of four bytes is one operation (20 R821). -/
theorem issueRun_four (s : State) (o : RemOwner) (write : Bool) (a : Nat) {data : List Byte} (hd : data.length ≤ 4) :
    s.issueRun o write a data 4 = { s with sw := { s.sw with
      ops := s.sw.ops ++ [{ owner := o, write := write, addr := a, data := data, len := 4, runAddr := a, runLen := 4
                            num := s.sw.issued, answer := (s.remoteRefusal a 4).map fun r => (r, []) }]
      issued := s.sw.issued + 1 } } := by
  have hp : pieces (4 / 224 + 1) a 4 = [(a, 4)] := rfl
  have hdata : (data.drop (a - a)).take 4 = data := by rw [Nat.sub_self, List.drop_zero, List.take_of_length_le hd]
  unfold issueRun
  rw [hp, List.foldl_cons, List.foldl_nil]
  dsimp only
  rw [hdata]

/-- The outcome of an owner's only operation. -/
theorem runOutcome_single {s : State} {o : RemOwner} {l : List RemOp} {p : RemOp} (hops : s.sw.ops = l ++ [p])
    (hl : ∀ q ∈ l, q.owner ≠ o) (hp : p.owner = o) :
    (p.answer = none → s.runOutcome o = none) ∧ ∀ r, r ≠ 0 → p.answer = some (r, []) → s.runOutcome o = some (r, []) := by
  have hfilter : (s.sw.ops.filter fun q => decide (q.owner = o)) = [p] := by
    rw [hops, List.filter_append, List.filter_eq_nil_iff.2 fun q hq => by simpa using hl q hq]
    simp [hp]
  unfold runOutcome
  dsimp only
  rw [hfilter]
  refine ⟨fun ha => ?_, fun r hr ha => ?_⟩
  · simp [ha]
  · simp [ha, hr]

theorem remoteRefusal_ne_zero {s : State} {a n r : Nat} (h : s.remoteRefusal a n = some r) : r ≠ 0 := by
  unfold remoteRefusal at h
  split at h
  · cases h
    decide
  · split at h
    · cases h
      decide
    · split at h
      · cases h
        decide
      · cases h

/-! ### An access of the peer -/

/-- The bytes that an access sends. -/
def winData (w : Option Word) : List Byte := match w with | some v => leBytes 4 v.toNat | none => []

theorem winData_length (w : Option Word) : (winData w).length ≤ 4 := by
  cases w with
  | none => exact Nat.zero_le _
  | some v => exact le_of_eq (length_leBytes _ _)

/-- The access that holds the Deck from a state. -/
def winOpened (s : State) (w : Option Word) (remote late : Bool) : State :=
  withWin s (some ⟨s.winAddr, w, remote, late, s.deck.doors.length⟩)

theorem winAccess_remote {s : State} {w : Option Word} (h : s.winRefusal w.isSome = none)
    (hr : spaceOf s.part s.winAddr = .remote) (slow : Bool) :
    s.winAccess w slow =
      let y := ((s.winOpened w true false).issueRun .window w.isSome s.winAddr (winData w) 4).winSettle
      if slow then y.winExpire else y := by
  obtain ⟨hb, hc⟩ := winRefusal_none h
  unfold winAccess
  dsimp only
  rw [hb, hc]
  dsimp only
  rw [if_neg Bool.false_ne_true, if_pos hr]
  rfl

theorem winAccess_slow {s : State} {w : Option Word} (h : s.winRefusal w.isSome = none)
    (hr : spaceOf s.part s.winAddr ≠ .remote) : s.winAccess w true = (s.winOpened w false false).winExpire := by
  obtain ⟨hb, hc⟩ := winRefusal_none h
  unfold winAccess
  dsimp only
  rw [hb, hc]
  dsimp only
  rw [if_neg Bool.false_ne_true, if_neg hr, if_pos rfl]
  rfl

/-- The access issued to the peer, with what answers it. -/
def winIssued (s : State) (w : Option Word) (answer : Option (Nat × List Byte)) : State :=
  { s.winOpened w true false with
    sw := { s.sw with
      ops := s.sw.ops ++ [{ winOp s w.isSome (winData w) with answer := answer }], issued := s.sw.issued + 1 } }

theorem issueRun_winOpened (s : State) (w : Option Word) :
    (s.winOpened w true false).issueRun .window w.isSome s.winAddr (winData w) 4 =
      s.winIssued w ((s.remoteRefusal s.winAddr 4).map fun r => (r, [])) :=
  issueRun_four _ _ _ _ (winData_length w)

theorem winSettle_open {s : State} {x : WinAccess} (h : s.deck.win = some x) (ho : s.runOutcome .window = none) :
    s.winSettle = s := by
  unfold winSettle
  rw [h, ho]
  dsimp only
  split
  · rfl
  · rfl

/-- The Deck and the operations once the access has its answer. -/
def winDropped (s : State) : State := withWin (s.dropOps .window) none

/-- An access to the peer with its answer (05 R224; 20 R825). -/
def settled (s : State) (x : WinAccess) (reason : Nat) (l : List Byte) : State :=
  if x.late then
    if reason = 0 then s.winDropped.setDkf DK_WIN_CTRL 4 1 0 else (s.winDropped.setDkf DK_WIN_CTRL 4 1 0).winError winREMOTE
  else if reason = 0 then (if x.write.isSome then s.winDropped else s.winDropped.winReturn (leWord l)).winInc
  else s.winDropped.winRefuse x.write.isSome winREMOTE

theorem winSettle_answered {s : State} {x : WinAccess} {reason : Nat} {l : List Byte} (h : s.deck.win = some x)
    (hr : x.remote = true) (ho : s.runOutcome .window = some (reason, l)) : s.winSettle = s.settled x reason l := by
  unfold winSettle
  rw [h, ho]
  dsimp only
  rw [hr]
  rfl

theorem winRefuse_win (s : State) (write : Bool) (e : Nat) : (s.winRefuse write e).deck.win = s.deck.win := by
  have hend := (winErred_winRefuse (deckRegs_refl s) rfl (by decide) write e).1
  cases write with
  | true => rw [(show deckRegs s (s.winRefuse true e) _ from hend).1]
  | false => rw [(show winGives s (s.winRefuse false e) 0 _ from hend).1.1]

theorem winAccess_issues {s : State} {w : Option Word} (h : s.winRefusal w.isSome = none)
    (hr : spaceOf s.part s.winAddr = .remote) (hn : ∀ p, p ∈ s.sw.ops → p.owner ≠ .window)
    (hs : s.remoteRefusal s.winAddr 4 = none) (slow : Bool) :
    s.winAccess w slow = if slow then (s.winIssued w none).winExpire else s.winIssued w none := by
  have hout := (runOutcome_single (s := s.winIssued w none) (l := s.sw.ops) rfl hn rfl).1 rfl
  rw [winAccess_remote h hr, issueRun_winOpened, hs, Option.map_none, winSettle_open (s := s.winIssued w none) rfl hout]

/-- The number of the access is spent, and nothing waits. -/
def winSpent (s : State) : State := { withWin s none with sw := { s.sw with issued := s.sw.issued + 1 } }

theorem winDropped_winIssued {s : State} (hn : ∀ p, p ∈ s.sw.ops → p.owner ≠ .window) (w : Option Word)
    (answer : Option (Nat × List Byte)) : (s.winIssued w answer).winDropped = s.winSpent := by
  have hdrop : (s.winIssued w answer).sw.ops.filter (fun p => !decide (p.owner = .window)) = s.sw.ops := by
    change (s.sw.ops ++ _).filter _ = _
    rw [List.filter_append, List.filter_eq_self.2 fun p hp => by simpa using hn p hp]
    exact List.append_nil _
  rw [winDropped, dropOps, hdrop]
  rfl

theorem winAccess_remoteRefused {s : State} {w : Option Word} {r : Nat} (h : s.winRefusal w.isSome = none)
    (hr : spaceOf s.part s.winAddr = .remote) (hn : ∀ p, p ∈ s.sw.ops → p.owner ≠ .window)
    (hs : s.remoteRefusal s.winAddr 4 = some r) (slow : Bool) :
    s.winAccess w slow = s.winSpent.winRefuse w.isSome winREMOTE := by
  have hr0 := remoteRefusal_ne_zero hs
  have hset : (s.winIssued w (some (r, []))).winSettle = s.winSpent.winRefuse w.isSome winREMOTE := by
    rw [winSettle_answered (x := ⟨s.winAddr, w, true, false, s.deck.doors.length⟩) rfl rfl
      ((runOutcome_single (l := s.sw.ops) rfl hn rfl).2 r hr0 rfl), settled, if_neg Bool.false_ne_true, if_neg hr0,
      winDropped_winIssued hn]
  have hwin : (s.winSpent.winRefuse w.isSome winREMOTE).deck.win = none := winRefuse_win _ _ _
  rw [winAccess_remote h hr, issueRun_winOpened, hs, Option.map_some, hset]
  dsimp only
  rw [winExpire_none hwin, ite_self]

end Sys2Proof.Machine.State
end

section
/-! PROOFS. What a CSR read leaves of the Deck, and window accesses that complete late (05 R224; 20 R822, R827). -/

namespace Sys2Proof.Machine.State

open Sys2Proof.Spec

/-! ### A CSR read leaves the Deck -/

theorem bsRead_deck (s : State) (n : Nat) : (s.bsRead n).2.deck = s.deck := by
  unfold bsRead
  split
  · rfl
  · split
    · dsimp only
      split
      · rfl
      · rfl
    · split
      · rfl
      · split
        · rfl
        · split
          · rfl
          · rfl

theorem bsSlot_deck (s : State) (o : Nat) : (s.bsSlot o).2.deck = s.deck := by
  unfold bsSlot
  split
  · rfl
  · split
    · exact bsRead_deck s _
    · rfl

theorem mlRead_deck (s : State) (i o : Nat) : (s.mlRead i o).2.deck = s.deck := by
  unfold mlRead
  split
  · rfl
  · split
    · rfl
    · split
      · rfl
      · split
        · rfl
        · rfl

theorem readCnEvent_deck (s : State) : s.readCnEvent.2.deck = s.deck := by
  unfold readCnEvent
  dsimp only
  split
  · rfl
  · rfl

theorem lkComputed_deck {s : State} {o : Nat} {x : Word × State} (h : s.lkComputed o = some x) : x.2.deck = s.deck := by
  unfold lkComputed at h
  split at h
  · cases h; rfl
  · split at h
    · cases h; rfl
    · split at h
      · cases h; rfl
      · split at h
        · cases h; rfl
        · cases h

theorem deck_snd_ite (c : Prop) [Decidable c] (x y : Word × State) :
    (if c then x else y).2.deck = if c then x.2.deck else y.2.deck := apply_ite (fun z : Word × State => z.2.deck) _ _ _

theorem i2cStat_deck (s : State) (c : Nat) : (s.i2cStat c).2.deck = s.deck := rfl
theorem plainRead_deck (s : State) (a : Nat) : (s.plainRead a).2.deck = s.deck := rfl

/-- A CSR read has no effect on the Deck (00 R16, R22). -/
theorem csrRead_deck (s : State) (a : Nat) : (s.csrRead a).2.deck = s.deck := by
  unfold csrRead
  dsimp only
  split
  case h_21 =>
    split
    · next hx => exact lkComputed_deck hx
    · rfl
  case h_24 =>
    split
    · rfl
    · rfl
  all_goals simp only [deck_snd_ite, plainRead_deck, bsSlot_deck, mlRead_deck, readCnEvent_deck, i2cStat_deck, ite_self]

/-! ### Late completions -/

/-- BUSY clears (05 R224). -/
def winFreed (s : State) : State := s.setDkf DK_WIN_CTRL 4 1 0

theorem winFreed_spec (s : State) : s.winFreed = { s with deck := s.winFreed.deck } ∧ deckRegs s s.winFreed [DK_WIN_CTRL] ∧
    s.winFreed.dk DK_WIN_CTRL = putFld (s.dk DK_WIN_CTRL) 4 1 0 := ⟨rfl, deckRegs_setDk s _ _, dk_setDk_self s _ _⟩

/-- A late local access ends without an error. -/
theorem winComplete_local {s y : State} {x : WinAccess} {v : Word} (h : s.deck.win = some x) (hl : x.late = true)
    (hr : x.remote = false) (hm : (withWin s none).mapAccess x.addr x.write = (y, v, false)) (hd : y.deck.doors = []) :
    exec .winLateCompletion s = .next y.winFreed := by
  have hdoors : y.winFreed.deck.doors = [] := hd
  have hend : s.winComplete = y.winFreed.drainHost := by
    unfold winComplete
    rw [h]
    dsimp only
    rw [hl, hr, Bool.not_true, if_neg Bool.false_ne_true, if_neg Bool.false_ne_true]
    change (let (z, _, ue) := (withWin s none).mapAccess x.addr x.write
      let z := z.setDkf DK_WIN_CTRL 4 1 0
      (if ue then z.winError winECC else z).drainHost) = _
    rw [hm]
    dsimp only
    rw [if_neg Bool.false_ne_true]
    rfl
  rw [← drainHost_still (.inl hdoors), ← hend]
  rfl

/-- What a late access leaves, as seen from a state with the same Deck. -/
theorem winFreed_ends {u y : State} (hd : y.deck = u.deck) : deckRegs u y.winFreed [DK_WIN_CTRL] ∧
    y.winFreed.dk DK_WIN_CTRL = putFld (u.dk DK_WIN_CTRL) 4 1 0 := by
  obtain ⟨-, hregs, hctrl⟩ := winFreed_spec y
  exact ⟨deckRegs_trans (deckRegs_of_deck_eq hd) hregs, hctrl.trans (by rw [dk_of_deck_eq hd])⟩

theorem winComplete_reads {s y : State} {x : WinAccess} (h : s.deck.win = some x) (hl : x.late = true)
    (hr : x.remote = false) (hd : s.deck.doors = []) (hs : spaceOf s.part x.addr ≠ .csr) (hw : x.write = none)
    (he : (withWin s none).eccRead srcWindow x.addr 4 = (y, none)) :
    ∃ t, exec .winLateCompletion s = .next t ∧
      t = { withWin s none with deck := t.deck, regs := y.regs, ecc := y.ecc, free := t.free } ∧
      deckRegs (withWin s none) t [DK_WIN_CTRL] ∧ t.dk DK_WIN_CTRL = putFld ((withWin s none).dk DK_WIN_CTRL) 4 1 0 := by
  have hy := eccRead_frame (withWin s none) srcWindow x.addr 4
  rw [show ((withWin s none).eccRead srcWindow x.addr 4).1 = y from congrArg Prod.fst he] at hy
  have hz := readBytes_frame y x.addr 4
  have hm := mapAccess_read (s := withWin s none) hs he
  rw [← hw] at hm
  generalize (y.readBytes x.addr 4).2 = z at *
  have hdeck : z.deck = (withWin s none).deck := by rw [hz, hy]
  refine ⟨_, winComplete_local h hl hr hm (by rw [hdeck]; exact hd), ?_, winFreed_ends hdeck⟩
  rw [(winFreed_spec z).1, hz]
  dsimp only
  rw [hy]

theorem winComplete_writes {s y : State} {x : WinAccess} {w : Word} (h : s.deck.win = some x) (hl : x.late = true)
    (hr : x.remote = false) (hd : s.deck.doors = []) (hs : spaceOf s.part x.addr ≠ .csr) (hw : x.write = some w)
    (he : (withWin s none).eccWrite srcWindow x.addr (leBytes 4 w.toNat) = (y, none)) :
    ∃ t, exec .winLateCompletion s = .next t ∧ wordWritten (withWin s none) y t x.addr (leBytes 4 w.toNat) ∧
      deckRegs (withWin s none) t [DK_WIN_CTRL] ∧ t.dk DK_WIN_CTRL = putFld ((withWin s none).dk DK_WIN_CTRL) 4 1 0 := by
  have hy := eccWrite_frame (withWin s none) srcWindow x.addr (leBytes 4 w.toNat)
  rw [show ((withWin s none).eccWrite srcWindow x.addr (leBytes 4 w.toNat)).1 = y from congrArg Prod.fst he] at hy
  have hm := mapAccess_write (s := withWin s none) hs he
  rw [← hw] at hm
  have hdeck : (y.withDev ((withWin s none).bindTouch x.addr).dev).deck = (withWin s none).deck := by rw [hy]; rfl
  exact ⟨_, winComplete_local h hl hr hm (by rw [hdeck]; exact hd), wordWritten_withDev he (winFreed_spec _).1,
    winFreed_ends hdeck⟩

theorem winComplete_csr {s y : State} {x : WinAccess} {v : Word} (h : s.deck.win = some x) (hl : x.late = true)
    (hr : x.remote = false) (hm : (withWin s none).mapAccess x.addr x.write = (y, v, false)) (hd : y.deck.doors = []) :
    ∃ t, exec .winLateCompletion s = .next t ∧ t = { y with deck := t.deck } ∧ deckRegs y t [DK_WIN_CTRL] ∧
      t.dk DK_WIN_CTRL = putFld (y.dk DK_WIN_CTRL) 4 1 0 :=
  ⟨_, winComplete_local h hl hr hm hd, winFreed_spec y⟩

/-- One to the peer completes with its responses (20 R825). -/
theorem winComplete_remote {s : State} {x : WinAccess} (h : s.deck.win = some x) (hl : x.late = true) (hr : x.remote = true) :
    exec .winLateCompletion s = .next s.winSettle.drainHost := by
  refine congrArg Host.Outcome.next ?_
  unfold winComplete
  rw [h]
  dsimp only
  rw [hl, hr, Bool.not_true, if_neg Bool.false_ne_true, if_pos rfl]

theorem winComplete_waits {s : State} {x : WinAccess} (h : s.deck.win = some x) (hl : x.late = true) (hr : x.remote = true)
    (hd : s.deck.doors = []) (ho : s.runOutcome .window = none) : exec .winLateCompletion s = .next s := by
  rw [winComplete_remote h hl hr, winSettle_open h ho, drainHost_still (.inl hd)]

theorem winComplete_answered {s : State} {x : WinAccess} {reason : Nat} {l : List Byte} (h : s.deck.win = some x)
    (hl : x.late = true) (hr : x.remote = true) (hd : s.deck.doors = []) (ho : s.runOutcome .window = some (reason, l)) :
    ∃ t, exec .winLateCompletion s = .next t ∧
      t = { withWin s none with deck := t.deck
                                sw := { s.sw with ops := s.sw.ops.filter fun p => !decide (p.owner = .window) } } ∧
      deckRegs (withWin s none) t [DK_WIN_CTRL, DK_IRQ_RAW] ∧
      t.dk DK_WIN_CTRL = (if reason = 0 then putFld (s.dk DK_WIN_CTRL) 4 1 0
        else putFld (putFld (s.dk DK_WIN_CTRL) 4 1 0) 8 4 8) ∧
      raised s t (if reason = 0 then [] else [irqWIN]) := by
  have hset : s.winSettle = if reason = 0 then s.winDropped.winFreed else s.winDropped.winFreed.winError winREMOTE := by
    rw [winSettle_answered h hr ho, settled, if_pos hl]
    rfl
  obtain ⟨hf, hregs, hctrl⟩ := winFreed_spec s.winDropped
  have hdeck : s.winDropped.deck = (withWin s none).deck := rfl
  have hs : ∀ t, s.winSettle = t → t.deck.doors = [] → exec .winLateCompletion s = .next t := fun t ht hdoors => by
    rw [winComplete_remote h hl hr, ht, drainHost_still (.inl hdoors)]
  by_cases h0 : reason = 0
  · rw [if_pos h0] at hset
    refine ⟨_, hs _ hset hd, hf, deckRegs_mono hregs (by decide), ?_, ?_⟩
    · rw [if_pos h0]
      exact hctrl
    · rw [if_pos h0]
      exact raised_nil (dk_setDkf_ne s.winDropped 4 1 0 (by decide))
  · rw [if_neg h0] at hset
    obtain ⟨kregs, kctrl, kraised⟩ := winError_spec s.winDropped.winFreed winREMOTE
    refine ⟨_, hs _ hset hd, deck_trans hf (winError_frame _ _), deckRegs_mono (deckRegs_trans hregs kregs) (by decide), ?_, ?_⟩
    · rw [if_neg h0, kctrl, hctrl]
      rfl
    · rw [if_neg h0]
      exact raised_congr kraised (dk_setDkf_ne s.winDropped 4 1 0 (by decide)).symm rfl

theorem winLateCompletion_none {s : State} (h : ∀ x, s.deck.win = some x → x.late = false) :
    exec .winLateCompletion s = .next s := by
  refine congrArg Host.Outcome.next ?_
  unfold winComplete
  split
  · next w hw => exact if_pos (by rw [h w hw]; rfl)
  · rfl

/-! ### The accesses and their time-outs -/

theorem winRefusal_some {s : State} {write : Bool} (h : s.dkbit DK_WIN_CTRL 4 = true ∨ s.winCheck s.winAddr write ≠ none) :
    ∃ e, s.winRefusal write = some e :=
  Option.ne_none_iff_exists'.1 fun hn => h.elim (fun hb => Bool.false_ne_true ((winRefusal_none hn).1.symm.trans hb))
    fun hc => hc (winRefusal_none hn).2


/-- WIN_TIMEOUT where an access can start: the access, too slow (log 30). -/
theorem exec_winTimeout_free {s : State} (hf : s.deckFree = true) (v : Option Half) :
    exec (.winTimeout v) s = .next ((accessed s).winAccess (v.map s.winWord) true) := congrArg Host.Outcome.next (if_pos hf)

theorem deckFree_held {s : State} {x : WinAccess} (h : s.deck.win = some x) (hl : x.late = false) : s.deckFree = false := by
  rw [deckFree, h]
  dsimp only
  rw [hl, Bool.and_false]

/-- WIN_TIMEOUT of the access that holds the Deck. -/
theorem exec_winTimeout_held {s : State} {x : WinAccess} (h : s.deck.win = some x) (hl : x.late = false) (v : Option Half) :
    exec (.winTimeout v) s = .next s.winExpire := by
  have hf := deckFree_held h hl
  refine congrArg Host.Outcome.next ?_
  rw [hf, if_neg Bool.false_ne_true, h]
  exact if_neg (by rw [hl]; exact Bool.false_ne_true)

/-- A read or a write of the window with the time-out that names it. -/
def winPair (s : State) (write : Bool) (c z : Instr) (w : Option Word) (data : List Byte) : Prop :=
  ∃ v : Option Half, z = .winTimeout v ∧ w = v.map s.winWord ∧ write = w.isSome ∧ data = winData w ∧
    (s.deckFree = true → exec c s = .next ((accessed s).winAccess w false))

theorem winPair_of_mem {s : State} {h : Half} {write : Bool} {c z : Instr} {w : Option Word} {data : List Byte}
    (hm : (write, c, z, w, data) ∈ [(false, Instr.winRead, Instr.winTimeout none, none, []),
      (true, .winWrite h, .winTimeout (some h), some (s.winWord h), leBytes 4 (s.winWord h).toNat)]) :
    winPair s write c z w data := by
  simp only [List.mem_cons, Prod.mk.injEq, List.not_mem_nil, or_false] at hm
  rcases hm with ⟨rfl, rfl, rfl, rfl, rfl⟩ | ⟨rfl, rfl, rfl, rfl, rfl⟩
  · exact ⟨none, rfl, rfl, rfl, rfl, exec_winRead⟩
  · exact ⟨some h, rfl, rfl, rfl, rfl, fun hf => exec_winWrite hf h⟩

end Sys2Proof.Machine.State

namespace Sys2Proof

open Machine Machine.State Spec

/-- Settles O28: an access by where it goes and whether the peer's operation is refused, a time-out by what is outstanding,
and a late completion by what the access does. -/
theorem windowTimeoutsAndLateCompletions : Obligations.WindowTimeoutsAndLateCompletions := by
  intro s h u hu
  subst hu
  refine ⟨fun write c z w data hm hf => ?_, fun x w hx hl => ?_, fun x hx hl hd v hv => ?_, fun hn => winLateCompletion_none hn⟩
  · obtain ⟨v, rfl, rfl, rfl, rfl, hc⟩ := winPair_of_mem hm
    rw [hc hf, exec_winTimeout_free hf]
    refine ⟨fun hr => ?_, fun hb hk => ⟨fun hp => ⟨_, rfl, ?_⟩, fun hp hn => ⟨fun hs => ?_, fun r hs => ?_⟩⟩⟩
    · obtain ⟨e, he⟩ := winRefusal_some (s := accessed s) hr
      rw [winAccess_refused he, winAccess_refused he]
    · rw [winAccess_slow (s := accessed s) (winRefusal_accessed hb hk) hp]
      exact timedOut_winExpire (s := (accessed s).winOpened _ false false) (x := ⟨s.winAddr, _, false, false, _⟩) rfl
    · have hi := winAccess_issues (s := accessed s) (winRefusal_accessed hb hk) hp hn hs
      rw [hi, hi, if_pos rfl, if_neg Bool.false_ne_true]
      exact ⟨_, rfl, rfl, deckFree_held (x := ⟨s.winAddr, _, true, false, _⟩) rfl rfl,
        (exec_winTimeout_held (x := ⟨s.winAddr, _, true, false, _⟩) rfl rfl v).symm⟩
    · have hi := winAccess_remoteRefused (s := accessed s) (winRefusal_accessed hb hk) hp hn hs
      rw [hi, hi]
      exact ⟨_, rfl, winRefuse_frame _ _ _,
        winErred_winRefuse (x := (accessed s).winSpent) (deckRegs_of_deck_eq rfl) rfl (by decide) _ _, rfl⟩
  · exact ⟨_, exec_winTimeout_held hx hl w, timedOut_winExpire hx⟩
  · subst hv
    refine ⟨fun y hr hs => ⟨fun hw he => winComplete_reads hx hl hr hd hs hw he,
      fun w hw he => winComplete_writes hx hl hr hd hs hw he⟩, fun hr hs => ⟨fun hw => ?_, fun w hw hq => ?_⟩,
      fun hr ho => winComplete_waits hx hl hr hd ho, fun reason l hr ho => winComplete_answered hx hl hr hd ho⟩
    · exact winComplete_csr hx hl hr (by rw [hw]; exact mapAccess_csrRead (s := withWin s none) hs) (by rw [csrRead_deck]; exact hd)
    · exact winComplete_csr hx hl hr (by rw [hw]; exact mapAccess_csrWrite (s := withWin s none) hs w) hq

end Sys2Proof
end

section
/-! PROOFS. Accesses of the debug access port: refused, of a memory, of a CSR, and of the peer (06 R268, R269; 16 R698; 20 R822;
21 R858, R861). -/

namespace Sys2Proof.Machine.State

open Sys2Proof.Spec

/-! ### Which access it is -/

/-- The port holds `v`. -/
def dapHolds (s : State) (v : Word) : State := { s with dev := { s.dev with dap := v } }

/-- A read leaves its value in the port; a write leaves the port as it is. -/
def dapGiven (s : State) (w : Option Word) (v : Word) : State := if w.isSome then s else s.dapHolds v

/-- An access of the port can start: the lock is open, the device answers, and no access of the port is under way. -/
def dapOpen (s : State) : Prop := s.part.lock = false ∧ s.answers = true ∧ ∀ p, p ∈ s.sw.ops → p.owner ≠ .dap

/-- The word of the address map that an access names. -/
def dapWord (d : Word) : Nat := d.toNat / 4 * 4

/-- An access that cannot start has no effect (log 99). -/
theorem exec_dapAccess_shut {s : State} (h : s.part.lock = true ∨ s.answers = false ∨ ∃ p, p ∈ s.sw.ops ∧ p.owner = .dap)
    (d : Word) (w : Option Word) : exec (.dapAccess d w) s = .next s.closeTie := by
  refine congrArg Host.Outcome.next (if_pos ?_)
  change (!s.answers || s.part.lock || s.sw.ops.any fun p => decide (p.owner = .dap)) = true
  rw [Bool.or_eq_true, Bool.or_eq_true, List.any_eq_true]
  rcases h with hl | ha | ⟨p, hp, ho⟩
  · exact .inl (.inr hl)
  · exact .inl (.inl (by rw [ha]; rfl))
  · exact .inr ⟨p, hp, decide_eq_true ho⟩

/-- An access that can start goes where the window's would (21 R861). -/
theorem exec_dapAccess_open {s : State} (h : s.dapOpen) (d : Word) (w : Option Word) :
    exec (.dapAccess d w) s = .next (match s.winCheck (dapWord d) w.isSome with
      | some _ => s.closeTie.dapGiven w 0
      | none =>
        if spaceOf s.part (dapWord d) = .remote then
          ((s.closeTie.dapGiven w 0).issueRun .dap w.isSome (dapWord d) (winData w) 4).settleAll
        else (s.closeTie.mapAccess (dapWord d) w).1.dapGiven w (s.closeTie.mapAccess (dapWord d) w).2.1) := by
  obtain ⟨hl, ha, hn⟩ := h
  refine congrArg Host.Outcome.next (if_neg ?_)
  change ¬ (!s.answers || s.part.lock || s.sw.ops.any fun p => decide (p.owner = .dap)) = true
  rw [ha, hl, Bool.not_true, Bool.false_or, Bool.false_or, List.any_eq_true]
  rintro ⟨p, hp, ho⟩
  exact hn p hp (of_decide_eq_true ho)

theorem exec_dapAccess_refused {s : State} (h : s.dapOpen) {d : Word} {w : Option Word}
    (hc : s.winCheck (dapWord d) w.isSome ≠ none) : exec (.dapAccess d w) s = .next (s.closeTie.dapGiven w 0) := by
  obtain ⟨e, he⟩ := Option.ne_none_iff_exists'.1 hc
  rw [exec_dapAccess_open h, he]

theorem exec_dapAccess_local {s : State} (h : s.dapOpen) {d : Word} {w : Option Word}
    (hc : s.winCheck (dapWord d) w.isSome = none) (hr : spaceOf s.part (dapWord d) ≠ .remote) :
    exec (.dapAccess d w) s =
      .next ((s.closeTie.mapAccess (dapWord d) w).1.dapGiven w (s.closeTie.mapAccess (dapWord d) w).2.1) := by
  rw [exec_dapAccess_open h, hc]
  exact congrArg Host.Outcome.next (if_neg hr)

theorem exec_dapAccess_remote {s : State} (h : s.dapOpen) {d : Word} {w : Option Word}
    (hc : s.winCheck (dapWord d) w.isSome = none) (hr : spaceOf s.part (dapWord d) = .remote) :
    exec (.dapAccess d w) s =
      .next ((s.closeTie.dapGiven w 0).issueRun .dap w.isSome (dapWord d) (winData w) 4).settleAll := by
  rw [exec_dapAccess_open h, hc]
  exact congrArg Host.Outcome.next (if_pos hr)

/-! ### Accesses of a CSR -/

theorem exec_dapAccess_csrRead {s : State} (h : s.dapOpen) {d : Word} (hc : s.winCheck (dapWord d) false = none)
    (hs : spaceOf s.part (dapWord d) = .csr) : exec (.dapAccess d none) s =
      .next ((s.closeTie.csrRead (dapWord d)).2.dapHolds (s.closeTie.csrRead (dapWord d)).1) := by
  rw [exec_dapAccess_local (w := none) h hc (hs ▸ nofun), mapAccess_csrRead (s := s.closeTie) hs]
  rfl

theorem exec_dapAccess_csrWrite {s : State} (h : s.dapOpen) {d : Word} (hc : s.winCheck (dapWord d) true = none)
    (hs : spaceOf s.part (dapWord d) = .csr) (v : Word) :
    exec (.dapAccess d (some v)) s = .next (s.closeTie.csrWrite (dapWord d) v) := by
  rw [exec_dapAccess_local (w := some v) h hc (hs ▸ nofun), mapAccess_csrWrite (s := s.closeTie) hs]
  rfl

/-! ### What an access of a memory leaves -/

/-- What a read under ECC leaves, by the state that it gives. -/
theorem eccRead_frame_of_eq {s x : State} {src a n : Nat} {ue : Option Nat} (h : s.eccRead src a n = (x, ue)) :
    x = { s with regs := x.regs, ecc := x.ecc, free := x.free } := by
  have hf := eccRead_frame s src a n
  rw [h] at hf
  exact hf

/-- A word read leaves the port that reads it out of account. -/
theorem wordRead_dapHolds {u x t : State} {a : Nat} {v : Word} (h : wordRead u x t a v) (y : Word) :
    wordRead u x (t.dapHolds y) a v :=
  ⟨congrArg (fun z : State => z.dapHolds y) h.1, h.2⟩

/-- The record of an uncorrectable word looks at the device block for its mode alone. -/
theorem eccRecord_of_withDev {x t : State} {d : Device} {src a : Nat} (hd : d.mode = x.dev.mode)
    (h : eccRecord (x.withDev d) t src a) : eccRecord x t src a := by
  obtain ⟨hkept, hb, hn⟩ := h
  exact ⟨hkept, fun hm => hb (hd.trans hm), fun hm => hn fun hm' => hm (hd.symm.trans hm')⟩

theorem dapRead_gives {u x : State} {a : Nat} (hs : spaceOf u.part a ≠ .csr) (h : u.eccRead srcWindow a 4 = (x, none)) :
    let t := (u.mapAccess a none).1.dapGiven none (u.mapAccess a none).2.1
    ∃ v, wordRead u x t a v ∧ t.deck = u.deck ∧ t.dev = (u.dapHolds v).dev := by
  have hx := eccRead_frame_of_eq h
  have hword := wordRead_readBytes h (t := (x.readBytes a 4).2) rfl
  have hf := readBytes_frame x a 4
  rw [mapAccess_read hs h]
  generalize (x.readBytes a 4).2 = y at *
  refine ⟨_, wordRead_dapHolds hword _, ?_, ?_⟩
  · change y.deck = u.deck
    rw [hf, hx]
  · have hdev : y.dev = u.dev := by rw [hf, hx]
    exact congrArg (fun e : Device => { e with dap := leWord (x.readBytes a 4).1 }) hdev

theorem dapRead_fails {u x : State} {a w : Nat} (hs : spaceOf u.part a ≠ .csr)
    (h : u.eccRead srcWindow a 4 = (x, some w)) :
    let t := (u.mapAccess a none).1.dapGiven none (u.mapAccess a none).2.1
    t = { u.dapHolds 0 with deck := t.deck, regs := t.regs, ecc := x.ecc, free := t.free } ∧ eccRecord x t srcWindow w ∧
    deckRegs u t [DK_FAULT_LO, DK_FAULT_HI, DK_FAULT_SEQ] := by
  have hx := eccRead_frame_of_eq h
  have hf := recordEcc_frame x srcWindow w
  have hrec := eccRecord_recordEcc x srcWindow w
  have hregs := deckRegs_trans (deckRegs_of_deck_eq (s := u) (by rw [hx])) (recordEcc_deckRegs x srcWindow w)
  rw [mapAccess_readErr hs h]
  generalize x.recordEcc srcWindow w = y at *
  refine ⟨?_, eccRecord_then (z := y.dapHolds 0) hrec rfl fun _ _ => rfl, hregs⟩
  rw [hf, hx]
  rfl

theorem dapWrite_stores {u x : State} {a : Nat} {v : Word} (hs : spaceOf u.part a ≠ .csr)
    (h : u.eccWrite srcWindow a (leBytes 4 v.toNat) = (x, none)) :
    let t := (u.mapAccess a (some v)).1
    wordWritten u x t a (leBytes 4 v.toNat) ∧ t.deck = u.deck := by
  have hx := eccWrite_frame u srcWindow a (leBytes 4 v.toNat)
  rw [show (u.eccWrite srcWindow a (leBytes 4 v.toNat)).1 = x from congrArg Prod.fst h] at hx
  rw [mapAccess_write hs h]
  refine ⟨wordWritten_withDev h rfl, ?_⟩
  change x.deck = u.deck
  rw [hx]

theorem dapWrite_fails {u x : State} {a w : Nat} {v : Word} (hs : spaceOf u.part a ≠ .csr)
    (h : u.eccWrite srcWindow a (leBytes 4 v.toNat) = (x, some w)) :
    let t := (u.mapAccess a (some v)).1
    bindMet u t.dev a ∧ memKeptBut u t a 4 ∧
    t = { u with deck := t.deck, regs := t.regs, ecc := x.ecc, free := t.free, mem := x.mem, inject := x.inject
                 dev := t.dev } ∧
    eccRecord x t srcWindow w ∧ deckRegs u t [DK_FAULT_LO, DK_FAULT_HI, DK_FAULT_SEQ] := by
  have hx := eccWrite_frame u srcWindow a (leBytes 4 v.toNat)
  have hk := eccWrite_keeps u srcWindow a (leBytes 4 v.toNat)
  rw [show (u.eccWrite srcWindow a (leBytes 4 v.toNat)).1 = x from congrArg Prod.fst h] at hx hk
  rw [mapAccess_writeErr hs h]
  have hmet := bindMet_bindTouch u a
  generalize (u.bindTouch a).dev = e at *
  have hmode : e.mode = x.dev.mode := by rw [hmet.1, hx]
  have hdeck : (x.withDev e).deck = u.deck := by rw [hx]; rfl
  have hf := recordEcc_frame (x.withDev e) srcWindow w
  have hrec := eccRecord_of_withDev hmode (eccRecord_recordEcc (x.withDev e) srcWindow w)
  have hregs := deckRegs_trans (deckRegs_of_deck_eq hdeck) (recordEcc_deckRegs (x.withDev e) srcWindow w)
  dsimp only
  generalize (x.withDev e).recordEcc srcWindow w = y at *
  have hdev : y.dev = e := by rw [hf]; rfl
  have hmem : y.mem = x.mem := by rw [hf]; rfl
  refine ⟨hdev ▸ hmet, fun b hb => (byteAt_of_mem_eq hmem b).trans (hk b hb), ?_, hrec, hregs⟩
  rw [hf, hx]
  rfl

/-! ### What an access of the peer leaves -/

theorem runOutcome_waits {s : State} {p : RemOp} (hp : p ∈ s.sw.ops) (ha : p.answer = none) : s.runOutcome p.owner = none := by
  refine if_neg fun h => ?_
  have hall := List.all_eq_true.1 h p (List.mem_filter.2 ⟨hp, decide_eq_true rfl⟩)
  rw [ha] at hall
  exact Bool.noConfusion hall

/-- Where no operation of the peer is answered, none takes effect on a descriptor. -/
theorem settleFlight_unanswered {s : State} (h : ∀ p ∈ s.sw.ops, p.answer = none) (ring idx : Nat) :
    s.settleFlight ring idx = s := by
  have hrun : s.settleRun ring idx = s := by
    refine if_pos ?_
    cases hops : s.sw.ops.filter (ownedBy ring idx) with
    | nil => rfl
    | cons p l =>
      have hp : p ∈ s.sw.ops := (List.mem_filter.1 (hops ▸ List.mem_cons_self)).1
      rw [List.all_cons, h p hp]
      rfl
  rw [settleFlight, hrun, hrun]

theorem drainHost_empty {s : State} (h : s.deck.doors = []) : s.drainHost = s := by
  rw [drainHost, h]
  rfl

/-- Operations under way, one of them the port's, and none of them answered leave everything as it is (20 R825). -/
theorem settleAll_unanswered {s : State} (h : ∀ p ∈ s.sw.ops, p.answer = none) {p : RemOp} (hp : p ∈ s.sw.ops)
    (ho : p.owner = .dap) (hw : s.deck.win = none) (hq : s.deck.doors = []) : s.settleAll = s := by
  have hflights : s.cap.flights.foldl (fun s f => s.settleFlight f.ring f.idx) s = s :=
    List.foldl_fixed' (fun f => settleFlight_unanswered h f.ring f.idx) _
  have hreader : (s.sw.ops.filter fun o => !(decide (o.owner = RemOwner.reader) && o.answer.isSome)) = s.sw.ops :=
    List.filter_eq_self.2 fun q hq => by rw [h q hq, Option.isSome_none, Bool.and_false]; rfl
  have hdap : s.runOutcome .dap = none := ho ▸ runOutcome_waits hp (h p hp)
  have hwin : s.winSettle = s := by rw [winSettle, hw]
  unfold settleAll
  dsimp only
  rw [hflights, hreader, hdap]
  dsimp only
  rw [hdap, Option.isSome_none, if_neg Bool.false_ne_true, hwin, drainHost_empty hq]

/-- The state with the port's operation of the peer issued behind the others. -/
def dapIssued (s : State) (write : Bool) (a : Nat) (data : List Byte) : State :=
  { s with sw := { s.sw with
      issued := s.sw.issued + 1
      ops := s.sw.ops ++ [{ owner := .dap, write := write, addr := a, data := data, len := 4, runAddr := a, runLen := 4
                            num := s.sw.issued }] } }

theorem settleAll_issueRun_dap {s : State} {a : Nat} {data : List Byte} (hd : data.length ≤ 4)
    (hs : s.remoteRefusal a 4 = none) (h : ∀ p ∈ s.sw.ops, p.answer = none) (hw : s.deck.win = none)
    (hq : s.deck.doors = []) (write : Bool) :
    (s.issueRun .dap write a data 4).settleAll = s.dapIssued write a data := by
  have hall : ∀ p ∈ (s.dapIssued write a data).sw.ops, p.answer = none := fun p hp => by
    rcases List.mem_append.1 hp with hp | hp
    · exact h p hp
    · rw [List.mem_singleton.1 hp]
  rw [issueRun_four s .dap write a hd, hs]
  exact settleAll_unanswered (s := s.dapIssued write a data) hall (List.mem_append_right _ List.mem_cons_self) rfl hw hq

end Sys2Proof.Machine.State

namespace Sys2Proof

open Machine Machine.State Spec

/-- Settles O32: an access that cannot start or is refused, one of a memory by the ECC of its word, one of a CSR, and one of
the peer. That a refused or failed access reads 0, and that LOCK leaves it without effect, is the model's choice (log 99). -/
theorem theDebugPortReachesWhatTheWindowDoes : Obligations.TheDebugPortReachesWhatTheWindowDoes := by
  intro s d a u ha hu
  subst ha hu
  refine ⟨fun h w => exec_dapAccess_shut h d w, fun hl hs hn => ?_⟩
  have ho : s.dapOpen := ⟨hl, hs, hn⟩
  refine ⟨fun hc => exec_dapAccess_refused (w := none) ho hc, fun hc w => exec_dapAccess_refused (w := some w) ho hc,
    fun hr hm x => ⟨fun hc he => ?_, fun w hc he => ?_, fun v hc he => ?_, fun v w hc he => ?_⟩,
    fun hm => ⟨fun hc => exec_dapAccess_csrRead ho hc hm, fun hc v => exec_dapAccess_csrWrite ho hc hm v⟩,
    fun hr hp hq hw hd => ⟨fun hc => ?_, fun hc v => ?_⟩⟩
  · obtain ⟨v, hv⟩ := dapRead_gives (u := s.closeTie) hm he
    exact ⟨v, _, exec_dapAccess_local ho hc hr, hv⟩
  · exact ⟨_, exec_dapAccess_local ho hc hr, dapRead_fails (u := s.closeTie) hm he⟩
  · exact ⟨_, exec_dapAccess_local ho hc hr, dapWrite_stores (u := s.closeTie) hm he⟩
  · exact ⟨_, exec_dapAccess_local ho hc hr, dapWrite_fails (u := s.closeTie) hm he⟩
  · rw [exec_dapAccess_remote (w := none) ho hc hr]
    exact congrArg Host.Outcome.next
      (settleAll_issueRun_dap (s := s.closeTie.dapHolds 0) (winData_length none) hp hq hw hd false)
  · rw [exec_dapAccess_remote (w := some v) ho hc hr]
    exact congrArg Host.Outcome.next (settleAll_issueRun_dap (s := s.closeTie) (winData_length (some v)) hp hq hw hd true)

end Sys2Proof
end

section
/-! PROOFS. A read under ECC, word by word, and the scrubber (06 R266–R268, R272, R273; 16 R698). -/

namespace Sys2Proof.Machine.Store

theorem mem_of_get_ne {α : Type} {d : α} {m : List (Nat × α)} {k : Nat} (h : get d m k ≠ d) : (k, get d m k) ∈ m := by
  induction m with
  | nil => exact absurd rfl h
  | cons e m ih =>
    obtain ⟨j, v⟩ := e
    by_cases hj : j = k
    · rw [get, if_pos hj, hj]
      exact List.mem_cons_self
    · rw [get, if_neg hj] at h ⊢
      exact List.mem_cons_of_mem _ (ih h)

end Sys2Proof.Machine.Store

namespace Sys2Proof.Machine.State

open Sys2Proof.Spec

/-! ### A read under ECC -/

/-- One damaged word under a read (06 R267, R268). -/
def checkOne (src : Nat) (x : State × Option Nat) (e : Nat × Ecc) : State × Option Nat :=
  match e.2 with
  | .single => ((x.1.noteEcc src e.1 false).setEcc e.1 .ok, x.2)
  | .double => (x.1.noteEcc src e.1 true, some (x.2.getD e.1))
  | .ok => x

theorem eccRead_eq (s : State) (src a n : Nat) : s.eccRead src a n = (s.damaged a n).foldl (checkOne src) (s, none) := by
  refine congrArg (fun f => List.foldl f (s, none) (s.damaged a n)) ?_
  funext ⟨t, ue⟩ ⟨w, k⟩
  cases k with
  | ok => rfl
  | single => rfl
  | double =>
    cases ue with
    | none => rfl
    | some x => rfl

theorem eccRead_undamaged {s : State} {src a n : Nat} (h : s.damaged a n = []) : s.eccRead src a n = (s, none) := by
  rw [eccRead_eq, h, List.foldl_nil]

/-- A check of a word damages none. -/
theorem checkOne_ok {src : Nat} {x : State × Option Nat} {k : Nat} (h : Store.get .ok x.1.ecc k = .ok) (e : Nat × Ecc) :
    Store.get .ok (checkOne src x e).1.ecc k = .ok := by
  obtain ⟨w, d⟩ := e
  cases d with
  | ok => exact h
  | double => exact (congrArg (fun m => Store.get .ok m k) (noteEcc_ecc x.1 src w true)).trans h
  | single =>
    change Store.get .ok (Store.set .ok (x.1.noteEcc src w false).ecc w .ok) k = .ok
    rw [noteEcc_ecc]
    by_cases hk : k = w
    · rw [hk, Store.get_set_self]
    · rw [Store.get_set_ne _ _ _ hk, h]

/-- A single error among the words checked is corrected, and a word that reads whole stays so. -/
theorem foldl_checkOne_ok {src k : Nat} {l : List (Nat × Ecc)} {x : State × Option Nat}
    (h : Store.get .ok x.1.ecc k = .ok ∨ (k, .single) ∈ l) : Store.get .ok (l.foldl (checkOne src) x).1.ecc k = .ok := by
  induction l generalizing x with
  | nil => exact h.resolve_right List.not_mem_nil
  | cons e l ih =>
    rcases h with h | h
    · exact ih (.inl (checkOne_ok h e))
    · rcases List.mem_cons.1 h with rfl | h
      · exact ih (.inl (Store.get_set_self _ _ _ _))
      · exact ih (.inr h)

/-- An uncorrectable word among the words checked is answered, or one before it. -/
theorem foldl_checkOne_some {src : Nat} {l : List (Nat × Ecc)} {x : State × Option Nat}
    (h : x.2 ≠ none ∨ ∃ k, (k, .double) ∈ l) : (l.foldl (checkOne src) x).2 ≠ none := by
  induction l generalizing x with
  | nil => exact h.resolve_right fun ⟨_, he⟩ => List.not_mem_nil he
  | cons e l ih =>
    rcases h with h | ⟨k, h⟩
    · refine ih (.inl ?_)
      obtain ⟨w, d⟩ := e
      cases d with
      | ok => exact h
      | single => exact h
      | double => exact nofun
    · rcases List.mem_cons.1 h with rfl | h
      · exact ih (.inl nofun)
      · exact ih (.inr ⟨k, h⟩)

/-- Which entries are damage that a run touches depends on their words alone. -/
theorem mem_damaged_of_word {s : State} {a n w : Nat} {d e : Ecc} (h : (w, d) ∈ s.damaged a n) (he : (w, e) ∈ s.ecc) :
    (w, e) ∈ s.damaged a n := by
  unfold damaged at h ⊢
  split at h
  · exact absurd h List.not_mem_nil
  · next hn =>
    rw [if_neg hn]
    exact List.mem_filter.2 ⟨he, (List.mem_filter.1 h).2⟩

/-- A read that meets no uncorrectable word leaves every word it touches whole. -/
theorem eccRead_corrects {s u : State} {src a n : Nat} (h : s.eccRead src a n = (u, none)) {e : Nat × Ecc}
    (he : e ∈ s.damaged a n) : Store.get .ok u.ecc e.1 = .ok := by
  rw [eccRead_eq] at h
  have hu : u = ((s.damaged a n).foldl (checkOne src) (s, none)).1 := by rw [h]
  rw [hu]
  refine foldl_checkOne_ok ?_
  by_cases hk : Store.get .ok s.ecc e.1 = .ok
  · exact .inl hk
  · have hm := mem_damaged_of_word he (Store.mem_of_get_ne hk)
    cases hd : Store.get .ok s.ecc e.1 with
    | ok => exact .inl rfl
    | single => exact .inr (hd ▸ hm)
    | double => exact absurd (congrArg Prod.snd h) (foldl_checkOne_some (.inr ⟨e.1, hd ▸ hm⟩))

/-! ### The scrubber -/

/-- The scrubber has moved on to its next block. -/
def scrubNext (s : State) : State :=
  if s.scrubAt + 1 < scrubBlocks s.part then { s with scrubAt := s.scrubAt + 1 }
  else { s with scrubAt := 0 }.bump RG_SCRUB_CFG 16 16

theorem scrubbed_scrubNext (s : State) : scrubbed s s.scrubNext := by
  refine ⟨fun h => if_pos h, fun h => ?_⟩
  have hend : s.scrubNext = { s with scrubAt := 0 }.bump RG_SCRUB_CFG 16 16 := if_neg (by omega)
  rw [hend]
  exact ⟨rfl, fun a ha => reg_bump_ne { s with scrubAt := 0 } 16 16 (by simpa using ha),
    reg_bump_self { s with scrubAt := 0 } RG_SCRUB_CFG 16 16⟩

theorem scrubNext_mem (s : State) : s.scrubNext.mem = s.mem := by
  unfold scrubNext
  split
  · rfl
  · rfl

theorem exec_scrubBlock_idle {s : State} (h : s.rbit RG_SCRUB_CFG 4 = false ∨ s.dieUp = false) :
    exec .scrubBlock s = .next s := by
  refine congrArg Host.Outcome.next (if_neg ?_)
  rw [Bool.and_eq_true]
  rintro ⟨hr, hd⟩
  rcases h with h | h
  · exact Bool.false_ne_true (h.symm.trans hr)
  · exact Bool.false_ne_true (h.symm.trans hd)

/-- A block read, its uncorrectable word recorded (16 R698), and the next block. -/
theorem exec_scrubBlock_runs {s u : State} {ue : Option Nat} (hr : s.rbit RG_SCRUB_CFG 4 = true) (hd : s.dieUp = true)
    (he : s.eccRead srcScrub (scrubAddr s.scrubAt) 64 = (u, ue)) :
    exec .scrubBlock s = .next (ue.elim u (u.recordEcc srcScrub)).scrubNext := by
  refine congrArg Host.Outcome.next ((if_pos (by rw [hr, hd]; rfl)).trans ?_)
  rw [he]
  cases ue with
  | none => rfl
  | some a => rfl

/-- An uncorrectable word of the block is recorded, and no byte changes. -/
theorem scrubBlock_records {s u : State} {a n w : Nat} (he : s.eccRead srcScrub a n = (u, some w)) :
    let v := u.recordEcc srcScrub w
    v = { u with regs := v.regs, deck := v.deck, free := v.free } ∧ eccRecord u v srcScrub w ∧
    deckRegs s v [DK_FAULT_LO, DK_FAULT_HI, DK_FAULT_SEQ] ∧ scrubbed v v.scrubNext ∧ memKept s v.scrubNext := by
  have hu := eccRead_frame_of_eq he
  have hdeck : u.deck = s.deck := by rw [hu]
  have hmem : u.mem = s.mem := by rw [hu]
  have hkept : (u.recordEcc srcScrub w).mem = u.mem := by rw [recordEcc_frame]
  exact ⟨recordEcc_frame u srcScrub w, eccRecord_recordEcc u srcScrub w,
    deckRegs_trans (deckRegs_of_deck_eq hdeck) (recordEcc_deckRegs u srcScrub w), scrubbed_scrubNext _,
    byteAt_of_mem_eq ((scrubNext_mem _).trans (hkept.trans hmem))⟩

end Sys2Proof.Machine.State
end

section
/-! PROOFS. An injection armed, withdrawn, and met by a write (06 R275). -/

namespace Sys2Proof.Machine.State

open Sys2Proof.Spec

/-! ### Arming -/

/-- A memory on which an injection can be armed. -/
def injectable : Space → Bool
  | .pantry | .ringTable | .granary | .itcm | .dtcm => true
  | _ => false

theorem injectable_iff (p : Space) : injectable p = true ↔ p ∈ [Space.pantry, .ringTable, .granary, .itcm, .dtcm] := by
  cases p <;> decide

/-- RG_ECC_INJ holds `v`, and the injection armed is `i`. -/
def injectSet (s : State) (v : Word) (i : Option Inject) : State := { s.setReg RG_ECC_INJ v with inject := i }

theorem injectSet_spec (s : State) (v : Word) (i : Option Inject) :
    s.injectSet v i = { s with regs := (s.injectSet v i).regs, inject := i } ∧ csrKept s (s.injectSet v i) [RG_ECC_INJ] ∧
    (s.injectSet v i).reg RG_ECC_INJ = v :=
  ⟨rfl, fun _ ha => reg_setReg_ne s v (by simpa using ha), reg_setReg_self s RG_ECC_INJ v⟩

theorem exec_eccInjectArm (s : State) {mode : Nat} (hm : mode = 1 ∨ mode = 2) :
    exec (.eccInjectArm mode) s = .next (
      let a := (s.reg RG_ECC_INJ_ADDR).toNat
      if injectable (spaceOf s.part a) then
        s.injectSet (Word.nat (mode + 4)) (some ⟨a / wordSize a * wordSize a, if mode = 1 then .single else .double⟩)
      else s.injectSet 0 none) := by
  refine congrArg Host.Outcome.next ((if_pos hm).trans ?_)
  rcases hm with rfl | rfl
  · rfl
  · rfl

/-! ### A write that meets it -/

theorem mended_inject (s : State) (src a n : Nat) : (s.mended src a n).1.inject = s.inject := by
  refine foldl_keeps (fun x : State × List Nat => x.1.inject = s.inject) _ ?_ _ _ rfl
  rintro ⟨t, bad⟩ ⟨w, d⟩ h
  unfold mendOne
  split
  · exact h
  · cases d with
    | ok => exact h
    | single => exact (noteEcc_inject t src w false).trans h
    | double => exact (noteEcc_inject t src w true).trans h

/-- A word that cannot be mended is written in part. -/
theorem mended_partial (s : State) (src a n : Nat) : ∀ w ∈ (s.mended src a n).2, ¬ (a ≤ w ∧ w + wordSize w ≤ a + n) := by
  refine foldl_keeps (fun x : State × List Nat => ∀ w ∈ x.2, ¬ (a ≤ w ∧ w + wordSize w ≤ a + n)) _ ?_ _ _
    fun _ h => absurd h List.not_mem_nil
  rintro ⟨t, bad⟩ ⟨w, d⟩ h
  unfold mendOne
  split
  · exact h
  · next hw =>
    cases d with
    | ok => exact h
    | single => exact h
    | double =>
      intro v hv
      rcases List.mem_append.1 hv with hv | hv
      · exact h v hv
      · rw [List.mem_singleton.1 hv]
        simpa using hw

theorem wordSize_ram {a : Nat} (h : a < 0x40000000) : wordSize a = 8 := by
  unfold wordSize
  rw [if_pos h, ite_self]

/-- A code word of the Pantry or the Granary that is written whole is not left out. -/
theorem spared_covers {bad : List Nat} {a w : Nat} {l : List Byte}
    (hbad : ∀ v ∈ bad, ¬ (a ≤ v ∧ v + wordSize v ≤ a + l.length)) (ha : a ≤ w) (hl : w + 8 ≤ a + l.length)
    (hw : w < 0x40000000) (h8 : w % 8 = 0) :
    (spared bad a l).1 ≤ w ∧ w < (spared bad a l).1 + (spared bad a l).2.length := by
  have hsize : max (wordSize a) 1 = 8 := by rw [wordSize_ram (by omega)]; rfl
  have hfirst : a / 8 * 8 ∈ bad → a / 8 * 8 + 8 ≤ w := fun h => by
    have := hbad _ h
    rw [wordSize_ram (by omega)] at this
    omega
  have hlast : (a + l.length - 1) / 8 * 8 ∈ bad → w < (a + l.length - 1) / 8 * 8 := fun h => by
    by_contra hn
    have heq : (a + l.length - 1) / 8 * 8 = w := by omega
    rw [heq] at h
    exact hbad w h ⟨ha, by rw [wordSize_ram hw]; exact hl⟩
  unfold spared
  dsimp only
  rw [hsize]
  simp only [List.contains_iff_mem]
  split
  · next hf =>
    have hf := hfirst hf
    split
    · next ht =>
      have ht := hlast ht.1
      rw [List.length_take, List.length_drop]
      omega
    · rw [List.length_drop]
      omega
  · dsimp only
    split
    · next ht =>
      have ht := hlast ht.1
      rw [List.length_take]
      omega
    · omega

theorem injectOn_meets {s : State} {i : Inject} (hi : s.inject = some i) {a n : Nat} (hn : n ≠ 0) (hlt : i.word < a + n)
    (hgt : a < i.word + wordSize i.word) : s.injectOn a n = (s.setEcc i.word i.kind).injectSet 0 none := by
  unfold injectOn
  rw [hi]
  exact if_pos ⟨hn, hlt, hgt⟩

/-- A write that covers the armed word damages it and disarms. -/
theorem eccPut_injects {s : State} {i : Inject} (hi : s.inject = some i) {a : Nat} {l : List Byte} (ha : a ≤ i.word)
    (hl : i.word + 8 ≤ a + l.length) (hw : i.word < 0x40000000) (h8 : i.word % 8 = 0) (src : Nat) :
    ∃ t : State, (s.eccPut src a l).1 = (t.setEcc i.word i.kind).injectSet 0 none := by
  have hne : l ≠ [] := List.ne_nil_of_length_pos (by omega)
  obtain ⟨hlo, hhi⟩ := spared_covers (mended_partial s src a l.length) ha hl hw h8
  rw [eccPut_eq s src a hne]
  exact ⟨(s.mended src a l.length).1.poke _ _, injectOn_meets (s := (s.mended src a l.length).1.poke _ _)
    ((mended_inject s src a l.length).trans hi) (by omega) hhi (by rw [wordSize_ram hw]; omega)⟩

end Sys2Proof.Machine.State

namespace Sys2Proof

open Machine Machine.State Spec

/-- Settles O38: the scrubber by what its block holds, arming by where the address lies, a withdrawal, and the write that
covers the armed word. That the write-back of a correction leaves an injection armed is the model's choice (log 129). -/
theorem scrubbingAndInjection : Obligations.ScrubbingAndInjection := by
  intro s
  refine ⟨exec_scrubBlock_idle, fun hr hd b hb => ?_, fun mode a hm ha => ?_, ⟨_, rfl, injectSet_spec s 0 none⟩,
    fun i src a l hi ha hl hw h8 => ?_⟩
  · subst hb
    exact ⟨fun hn => ⟨_, exec_scrubBlock_runs hr hd (eccRead_undamaged hn), scrubbed_scrubNext s⟩,
      fun u he => ⟨eccRead_frame_of_eq he, fun e => eccRead_corrects he, _, exec_scrubBlock_runs hr hd he,
        scrubbed_scrubNext u⟩,
      fun u a he => ⟨_, _, exec_scrubBlock_runs hr hd he, scrubBlock_records he⟩⟩
  · subst ha
    rw [exec_eccInjectArm s hm]
    refine ⟨fun hs => ?_, fun hs => ?_⟩
    · rw [if_pos ((injectable_iff _).2 hs)]
      obtain ⟨hf, hk, hreg⟩ := injectSet_spec s (Word.nat (mode + 4)) _
      exact ⟨_, rfl, hf, hk, hreg, rfl⟩
    · rw [if_neg fun h => hs ((injectable_iff _).1 h)]
      exact ⟨_, rfl, injectSet_spec s 0 none⟩
  · obtain ⟨t, ht⟩ := eccPut_injects hi ha hl hw h8 src
    rw [ht]
    exact ⟨rfl, Store.get_set_self _ _ _ _, reg_setReg_self _ _ _⟩

end Sys2Proof
end

section
/-! PROOFS. What leaves the ring table as it is (07 R295): registers, memory, the device, regions and the Capstan's other state. -/

namespace Sys2Proof.Machine.State

open Sys2Proof.Spec

/-! ### A state's ring table -/

@[simp] theorem rings_ite (c : Prop) [Decidable c] (s t : State) :
    (if c then s else t).cap.rings = if c then s.cap.rings else t.cap.rings := apply_ite (fun u : State => u.cap.rings) _ _ _
@[simp] theorem rings_fst_ite {α : Type} (c : Prop) [Decidable c] (x y : State × α) :
    (if c then x else y).1.cap.rings = if c then x.1.cap.rings else y.1.cap.rings :=
  apply_ite (fun z : State × α => z.1.cap.rings) _ _ _
@[simp] theorem rings_snd_ite {α : Type} (c : Prop) [Decidable c] (x y : α × State) :
    (if c then x else y).2.cap.rings = if c then x.2.cap.rings else y.2.cap.rings :=
  apply_ite (fun z : α × State => z.2.cap.rings) _ _ _

@[simp] theorem rings_foldl {α : Type} (f : State → α → State) (h : ∀ t a, (f t a).cap.rings = t.cap.rings) (l : List α)
    (s : State) : (l.foldl f s).cap.rings = s.cap.rings :=
  foldl_keeps (fun t : State => t.cap.rings = s.cap.rings) f (fun t a e => (h t a).trans e) l s rfl
@[simp] theorem rings_foldl_fst {α β : Type} (f : State × β → α → State × β) (h : ∀ t a, (f t a).1.cap.rings = t.1.cap.rings)
    (l : List α) (x : State × β) : (l.foldl f x).1.cap.rings = x.1.cap.rings :=
  foldl_keeps (fun t : State × β => t.1.cap.rings = x.1.cap.rings) f (fun t a e => (h t a).trans e) l x rfl

/-! ### Registers (00 R17) -/

@[simp] theorem rings_setReg (s : State) (a v) : (s.setReg a v).cap.rings = s.cap.rings := by simp [setReg]
@[simp] theorem rings_setRf (s : State) (a lo w x) : (s.setRf a lo w x).cap.rings = s.cap.rings := by simp [setRf]
@[simp] theorem rings_bumpBy (s : State) (a lo w k) : (s.bumpBy a lo w k).cap.rings = s.cap.rings := by simp [bumpBy]
@[simp] theorem rings_bump (s : State) (a lo w) : (s.bump a lo w).cap.rings = s.cap.rings := by simp [bump]
@[simp] theorem rings_setForce (s : State) (a v) : (s.setForce a v).cap.rings = s.cap.rings := by simp [setForce]
@[simp] theorem rings_commit (s : State) (as) : (s.commit as).cap.rings = s.cap.rings := by
  unfold commit
  refine rings_foldl _ ?_ _ _
  exact fun _ _ => rfl
@[simp] theorem rings_setDk (s : State) (o v) : (s.setDk o v).cap.rings = s.cap.rings := by simp [setDk]
@[simp] theorem rings_setDkf (s : State) (o lo w x) : (s.setDkf o lo w x).cap.rings = s.cap.rings := by simp [setDkf]
@[simp] theorem rings_draw (s : State) (w) : (s.draw w).2.cap.rings = s.cap.rings := by simp [draw]
@[simp] theorem rings_drawBytes (s : State) (n : Nat) : (s.drawBytes n).2.cap.rings = s.cap.rings := by
  induction n generalizing s with
  | zero => rfl
  | succ n ih => exact ih _
@[simp] theorem rings_raise (s : State) (src) : (s.raise src).cap.rings = s.cap.rings := by simp [raise]

/-! ### Memory under ECC (06.5) -/

@[simp] theorem rings_poke (s : State) (a l) : (s.poke a l).cap.rings = s.cap.rings := by simp [poke]
@[simp] theorem rings_readBytes (s : State) (a n) : (s.readBytes a n).2.cap.rings = s.cap.rings := by simp [readBytes]
@[simp] theorem rings_noteCnEcc (s : State) (a ue) : (s.noteCnEcc a ue).cap.rings = s.cap.rings := by simp [noteCnEcc]
@[simp] theorem rings_noteEcc (s : State) (src a : Nat) (ue : Bool) : (s.noteEcc src a ue).cap.rings = s.cap.rings := by
  simp only [noteEcc, rings_ite, rings_noteCnEcc, rings_setReg, rings_draw, rings_bump, ite_self]
@[simp] theorem rings_setEcc (s : State) (w e) : (s.setEcc w e).cap.rings = s.cap.rings := by simp [setEcc]
@[simp] theorem rings_eccRead (s : State) (src a n : Nat) : (s.eccRead src a n).1.cap.rings = s.cap.rings := by
  unfold eccRead
  refine rings_foldl_fst _ ?_ _ _
  rintro ⟨t, ue⟩ ⟨w, e⟩
  cases e <;> simp
@[simp] theorem rings_injectOn (s : State) (a n) : (s.injectOn a n).cap.rings = s.cap.rings := by unfold injectOn; split <;> simp
@[simp] theorem rings_eccPut (s : State) (src a : Nat) (l : List Byte) : (s.eccPut src a l).1.cap.rings = s.cap.rings := by
  unfold eccPut
  dsimp only
  split
  · rfl
  · simp only [rings_injectOn, rings_poke]
    refine rings_foldl_fst _ ?_ _ _
    rintro ⟨t, bad⟩ ⟨w, e⟩
    cases e <;> simp
@[simp] theorem rings_eccWrite (s : State) (src a l) : (s.eccWrite src a l).1.cap.rings = s.cap.rings := by simp [eccWrite]
@[simp] theorem rings_readMem (s : State) (src a n) : (s.readMem src a n).1.cap.rings = s.cap.rings := by
  unfold readMem
  dsimp only
  (repeat' split) <;> simp
@[simp] theorem rings_writeMem (s : State) (src a l) : (s.writeMem src a l).1.cap.rings = s.cap.rings := by simp [writeMem]

/-! ### Faults and device states (03; 16.6) -/

@[simp] theorem rings_lkTime (s : State) : s.lkTime.2.cap.rings = s.cap.rings := by simp [lkTime]
@[simp] theorem rings_testUnit (s : State) : s.testUnit.cap.rings = s.cap.rings := by simp [testUnit]
@[simp] theorem rings_hailStart (s : State) : s.hailStart.cap.rings = s.cap.rings := by simp [hailStart]
@[simp] theorem rings_hailDue (s : State) : s.hailDue.cap.rings = s.cap.rings := by simp [hailDue]
@[simp] theorem rings_hailEnd (s : State) : s.hailEnd.cap.rings = s.cap.rings := by unfold hailEnd; split <;> simp
@[simp] theorem rings_enter (s : State) (m : Mode) : (s.enter m).cap.rings = s.cap.rings := by simp [enter]
@[simp] theorem rings_updateWork (s : State) : s.updateWork.cap.rings = s.cap.rings := by unfold updateWork; split <;> simp
@[simp] theorem rings_setCause (s : State) (c) : (s.setCause c).cap.rings = s.cap.rings := by simp [setCause]
@[simp] theorem rings_recordFault (s : State) (cls code multi detail at? addr) :
    (s.recordFault cls code multi detail at? addr).cap.rings = s.cap.rings := by simp [recordFault]
@[simp] theorem rings_passCycles (s : State) : s.passCycles.cap.rings = s.cap.rings := by simp [passCycles]
@[simp] theorem rings_mergeFault (s : State) (code detail addr) : (s.mergeFault code detail addr).cap.rings = s.cap.rings := by
  simp [mergeFault]
@[simp] theorem rings_closeTie (s : State) : s.closeTie.cap.rings = s.cap.rings := by simp [closeTie]
@[simp] theorem rings_recordEcc (s : State) (src a) : (s.recordEcc src a).cap.rings = s.cap.rings := by simp [recordEcc]
@[simp] theorem rings_linkDown (s : State) : s.linkDown.cap.rings = s.cap.rings := by simp [linkDown]
@[simp] theorem rings_deckReturn (s : State) (o v) : (s.deckReturn o v).cap.rings = s.cap.rings := by simp [deckReturn]
@[simp] theorem rings_winReturn (s : State) (v) : (s.winReturn v).cap.rings = s.cap.rings := by simp [winReturn]
@[simp] theorem rings_dropHost (s : State) : s.dropHost.cap.rings = s.cap.rings := by simp [dropHost]
@[simp] theorem rings_winDown (s : State) : s.winDown.cap.rings = s.cap.rings := by unfold winDown; split <;> simp
@[simp] theorem rings_codes40 (s : State) : s.codes40.cap.rings = s.cap.rings := by simp [codes40]
@[simp] theorem rings_finishCmd (s : State) (op result) : (s.finishCmd op result).cap.rings = s.cap.rings := by simp [finishCmd]
@[simp] theorem rings_setI2c (s : State) (c r) : (s.setI2c c r).cap.rings = s.cap.rings := by simp [setI2c]
@[simp] theorem rings_setI2cOut (s : State) (c l) : (s.setI2cOut c l).cap.rings = s.cap.rings := by simp [setI2cOut]
@[simp] theorem rings_i2cCut (s : State) (c stop) : (s.i2cCut c stop).2.cap.rings = s.cap.rings := by
  unfold i2cCut; split <;> simp
@[simp] theorem rings_i2cStop (s : State) (c) : (s.i2cStop c).cap.rings = s.cap.rings := by simp [i2cStop]
@[simp] theorem rings_safeStates (s : State) : s.safeStates.cap.rings = s.cap.rings := by
  unfold safeStates
  dsimp only
  split <;> simp
@[simp] theorem rings_spoilBind (s : State) : s.spoilBind.cap.rings = s.cap.rings := by simp [spoilBind]
@[simp] theorem rings_becalm (s : State) (code multi detail addr) :
    (s.becalm code multi detail addr).cap.rings = s.cap.rings := by
  unfold becalm
  dsimp only
  (repeat' split) <;> simp

/-! ### Regions (06) -/

@[simp] theorem rings_charge (s : State) (es) : (s.charge es).cap.rings = s.cap.rings := by simp [charge]
@[simp] theorem rings_uncharge (s : State) (es) : (s.uncharge es).cap.rings = s.cap.rings := by simp [uncharge]
@[simp] theorem rings_syncPend (s : State) : s.syncPend.cap.rings = s.cap.rings := by simp [syncPend]
@[simp] theorem rings_rgCommit (s : State) (n) : (rgCommit n s).cap.rings = s.cap.rings := by simp [rgCommit]
@[simp] theorem rings_rgApply (s : State) (n) : (rgApply n s).cap.rings = s.cap.rings := by
  unfold rgApply
  dsimp only
  (repeat' split) <;> simp
@[simp] theorem rings_rgStale (s : State) (n) : (rgStale n s).cap.rings = s.cap.rings := by simp [rgStale]
@[simp] theorem rings_scrub (s : State) : (scrub s).cap.rings = s.cap.rings := by
  unfold scrub
  dsimp only
  (repeat' split) <;> simp
@[simp] theorem rings_injectMode (s : State) (mode) : (injectMode mode s).cap.rings = s.cap.rings := by
  unfold injectMode; split <;> simp

/-! ### Rings (07) -/

@[simp] theorem rings_updateHolder (s : State) : s.updateHolder.cap.rings = s.cap.rings := by
  unfold updateHolder
  (repeat' split) <;> simp
@[simp] theorem rings_latchBosun (s : State) (n) : (s.latchBosun n).cap.rings = s.cap.rings := by
  unfold latchBosun; split <;> simp
@[simp] theorem rings_evalThreshold (s : State) (n) : (s.evalThreshold n).cap.rings = s.cap.rings := by simp [evalThreshold]
@[simp] theorem rings_clearSize (s : State) (n) : (s.clearSize n).cap.rings = s.cap.rings := by
  unfold clearSize
  dsimp only
  split <;> simp
@[simp] theorem rings_unbindRing (s : State) (n) : (s.unbindRing n).cap.rings = s.cap.rings := by simp [unbindRing]
@[simp] theorem rings_opStat (x : State × Nat) (op n : Nat) : (opStat x op n).cap.rings = x.1.cap.rings := by simp [opStat]
@[simp] theorem rings_ringEnd (s : State) : s.ringEnd.cap.rings = s.cap.rings := by
  unfold ringEnd
  dsimp only
  (repeat' split) <;> simp

/-! ### The engines' state (10–13) -/

@[simp] theorem rings_setLoom (s : State) (i x) : (s.setLoom i x).cap.rings = s.cap.rings := by simp [setLoom]
@[simp] theorem rings_setHarrow (s : State) (i x) : (s.setHarrow i x).cap.rings = s.cap.rings := by simp [setHarrow]
@[simp] theorem rings_setMill (s : State) (i x) : (s.setMill i x).cap.rings = s.cap.rings := by simp [setMill]
@[simp] theorem rings_drawNats (s : State) (w n : Nat) : (s.drawNats w n).2.cap.rings = s.cap.rings := by
  induction n generalizing s with
  | zero => rfl
  | succ n ih => exact ih _
@[simp] theorem rings_spoilGroup (s : State) (i c32 reg n) : (s.spoilGroup i c32 reg n).cap.rings = s.cap.rings := by
  simp [spoilGroup]
@[simp] theorem rings_spoilMask (s : State) (i k n) : (s.spoilMask i k n).cap.rings = s.cap.rings := by simp [spoilMask]
@[simp] theorem rings_spoilMill (s : State) (i d) : (s.spoilMill i d).cap.rings = s.cap.rings := by simp [spoilMill]
@[simp] theorem rings_setFifo (s : State) (i l) : (s.setFifo i l).cap.rings = s.cap.rings := by simp [setFifo]
@[simp] theorem rings_releaseBlocks (s : State) (i slot) : (s.releaseBlocks i slot).cap.rings = s.cap.rings := by
  unfold releaseBlocks
  dsimp only
  refine (rings_setMill _ _ _).trans ((rings_foldl _ (fun t h => ?_) _ _).trans (by simp))
  split <;> rfl
@[simp] theorem rings_freeCycles (s : State) (n) : (s.freeCycles n).2.cap.rings = s.cap.rings := by simp [freeCycles]
@[simp] theorem rings_loomEnded (s : State) (f) : (s.loomEnded f).cap.rings = s.cap.rings := by simp [loomEnded]
@[simp] theorem rings_loseKept (s : State) (f) : (s.loseKept f).cap.rings = s.cap.rings := by simp [loseKept]
@[simp] theorem rings_loseRows (s : State) (f) : (s.loseRows f).cap.rings = s.cap.rings := by simp [loseRows]
@[simp] theorem rings_abandonEngine (s : State) (f) : (s.abandonEngine f).cap.rings = s.cap.rings := by
  unfold abandonEngine
  dsimp only
  split <;> simp
@[simp] theorem rings_engineFault (s : State) (f) : (s.engineFault f).cap.rings = s.cap.rings := by
  unfold engineFault; split <;> simp

/-! ### Bells, records and drains (07) -/

@[simp] theorem rings_sendBell (s : State) (b set v) : (s.sendBell b set v).cap.rings = s.cap.rings := by simp [sendBell]
@[simp] theorem rings_exportBell (s : State) (n set v) : (s.exportBell n set v).cap.rings = s.cap.rings := by simp [exportBell]
@[simp] theorem rings_writeRecord (s : State) (n k status epoch detail cycles inst) :
    (s.writeRecord n k status epoch detail cycles inst).cap.rings = s.cap.rings := by simp [writeRecord]
@[simp] theorem rings_scramble (s : State) (ws) : (s.scramble ws).cap.rings = s.cap.rings := by simp [scramble]
@[simp] theorem rings_abandonStream (s : State) (f) : (s.abandonStream f).cap.rings = s.cap.rings := by
  unfold abandonStream; split <;> simp
@[simp] theorem rings_cancelFlight (s : State) (f) : (s.cancelFlight f).cap.rings = s.cap.rings := by
  unfold cancelFlight; split <;> simp
@[simp] theorem rings_noteHalt (s : State) (n) : (s.noteHalt n).cap.rings = s.cap.rings := by simp [noteHalt]
@[simp] theorem rings_mapFlight (s : State) (n k g) : (s.mapFlight n k g).cap.rings = s.cap.rings := by simp [mapFlight]
@[simp] theorem rings_engineFinish (s : State) (n k) : (s.engineFinish n k).cap.rings = s.cap.rings := by simp [engineFinish]
@[simp] theorem rings_drainStale (s : State) : s.drainStale.cap.rings = s.cap.rings := by unfold drainStale; split <;> simp
@[simp] theorem rings_tackRelease (s : State) : s.tackRelease.cap.rings = s.cap.rings := by simp [tackRelease]
@[simp] theorem rings_writeBtcfg (s : State) (n v) : (s.writeBtcfg n v).cap.rings = s.cap.rings := by simp [writeBtcfg]

end Sys2Proof.Machine.State
end

section
/-! PROOFS. The ring table under the engines (08–13). -/

namespace Sys2Proof.Machine.State

open Sys2Proof.Spec

/-! ### An engine's work (07; 20 R826) -/

@[simp] theorem rings_writeElems (s : State) (src a l) : (writeElems src s a l).1.cap.rings = s.cap.rings := by
  unfold writeElems
  dsimp only
  split <;> simp
@[simp] theorem rings_writeRow (s : State) (src a l free) : (writeRow src s a l free).1.cap.rings = s.cap.rings := by
  unfold writeRow; split <;> simp
/-- What an engine's work leaves has the rings `z`; a wait leaves nothing (07 R306). -/
def EngRings (z : List (Nat × Ring)) : EngRes → Prop
  | .ended s _ _ _ _ => s.cap.rings = z
  | .stay s _ => s.cap.rings = z
  | .wait _ _ _ => True
@[simp] theorem engRings_ended (z s st d c a) : EngRings z (EngRes.ended s st d c a) ↔ s.cap.rings = z := Iff.rfl
@[simp] theorem engRings_stay (z s p) : EngRings z (EngRes.stay s p) ↔ s.cap.rings = z := Iff.rfl
@[simp] theorem engRings_wait (z a n g) : EngRings z (EngRes.wait a n g) := trivial
@[simp] theorem engRings_ite (z) (c : Prop) [Decidable c] (a b : EngRes) :
    EngRings z (if c then a else b) ↔ if c then EngRings z a else EngRings z b := by split <;> rfl
/-- What an engine starts with, or ends with before it starts, has the rings `z`. -/
def StartRings (z : List (Nat × Ring)) : Except EngRes State → Prop
  | .error r => EngRings z r
  | .ok s => s.cap.rings = z
@[simp] theorem startRings_error (z r) : StartRings z (.error r) ↔ EngRings z r := Iff.rfl
@[simp] theorem startRings_ok (z s) : StartRings z (.ok s) ↔ s.cap.rings = z := Iff.rfl
theorem engRings_andThen {z} {r : EngRes} {g : State → State} (h : EngRings z r) (hg : ∀ s, (g s).cap.rings = s.cap.rings) :
    EngRings z (r.andThen g) := by
  cases r <;> simp_all [EngRes.andThen]
@[simp] theorem engRings_memStop {z} {s : State} (h : s.cap.rings = z) (e r c) : EngRings z (memStop s e r c) := by
  cases e <;> simp [memStop, h]
@[simp] theorem rings_issueRun (s : State) (o write a data n) : (s.issueRun o write a data n).cap.rings = s.cap.rings := by
  simp [issueRun]
@[simp] theorem rings_dropOps (s : State) (o) : (s.dropOps o).cap.rings = s.cap.rings := by simp [dropOps]
@[simp] theorem rings_settleRun (s : State) (ring idx) : (s.settleRun ring idx).cap.rings = s.cap.rings := by
  unfold settleRun
  dsimp only
  (repeat' split) <;> simp
@[simp] theorem rings_settleFlight (s : State) (ring idx) : (s.settleFlight ring idx).cap.rings = s.cap.rings := by
  simp [settleFlight]
@[simp] theorem rings_stalls (s : State) (base ks) : (s.stalls base ks).cap.rings = s.cap.rings := by
  unfold stalls
  refine rings_foldl _ ?_ _ _
  exact fun _ _ => rfl
@[simp] theorem rings_endFlight (s : State) (ring idx status detail cycles) :
    (s.endFlight ring idx status detail cycles).cap.rings = s.cap.rings := by simp [endFlight]
@[simp] theorem rings_advance (s : State) (cls inst opc wr : Nat) {g : Flight → State → EngRes}
    (hg : ∀ f t, EngRings t.cap.rings (g f t)) :
    (s.advance cls inst opc wr g).cap.rings = s.cap.rings := by
  unfold advance
  split
  · rfl
  · split
    · rfl
    · next f _ =>
      dsimp only
      split
      · rfl
      · have h := hg f { s with view := f.rem, viewOut := f.out }
        split
        · simp
        · next e => rw [e] at h; simpa using h
        · next e =>
          rw [e] at h
          split
          · simpa using h
          · simpa using h

/-! ### The Halyard (08) -/

@[simp] theorem rings_moveCells (size free rs rd k a b) (s : State) (acc) :
    (moveCells size free rs rd k a b s acc).1.cap.rings = s.cap.rings := by
  induction k generalizing a b s acc with
  | zero => rfl
  | succ k ih =>
    unfold moveCells
    dsimp only
    split
    · simp
    · split <;> simp [ih]
@[simp] theorem rings_moveRow (size n free rs rd fb h row) :
    (moveRow size n free rs rd fb h row).s.cap.rings = h.s.cap.rings := by
  unfold moveRow
  dsimp only
  split
  · rfl
  · split
    · simp
    · obtain ⟨_ | a, _ | b⟩ := row <;> simp
@[simp] theorem rings_halCycles (h ib check s0) : (halCycles h ib check s0).2.cap.rings = h.s.cap.rings := by
  simp [halCycles]
@[simp] theorem engRings_halEnd {z} (d) {h : Hal} (hz : h.s.cap.rings = z) (ib s0 fc) : EngRings z (halEnd d h ib s0 fc) := by
  unfold halEnd
  dsimp only
  split <;> simp [hz]
theorem rings_foldl_hal {α : Type} (f : Hal → α → Hal) (hf : ∀ h a, (f h a).s.cap.rings = h.s.cap.rings) (l : List α) (h : Hal) :
    (l.foldl f h).s.cap.rings = h.s.cap.rings :=
  foldl_keeps (fun t : Hal => t.s.cap.rings = h.s.cap.rings) f (fun t a e => (hf t a).trans e) l h rfl
@[simp] theorem engRings_doCopy (f s) : EngRings s.cap.rings (doCopy f s) := by
  unfold doCopy
  exact engRings_halEnd _ (rings_foldl_hal _ (fun _ _ => rings_moveRow ..) _ _) _ _ _
@[simp] theorem engRings_doFill (f s) : EngRings s.cap.rings (doFill f s) := by
  unfold doFill
  extract_lets d size n0 row h
  have hk : h.s.cap.rings = s.cap.rings := rings_foldl_hal _ (fun _ _ => rings_moveRow ..) _ { s := s }
  refine engRings_halEnd _ ?_ _ _ _
  exact hk
@[simp] theorem engRings_doGather (f s) : EngRings s.cap.rings (doGather f s) := by
  unfold doGather
  extract_lets d nodst size n iw nidx idx dst srows ib de free
  split
  next s1 e l he =>
  have h1 : s1.cap.rings = s.cap.rings := by
    have := rings_readMem s srcHalyard idx (nidx * iw)
    rwa [he] at this
  extract_lets good l h h'
  have hk : h.s.cap.rings = s.cap.rings := by
    refine (rings_foldl_hal _ (fun h a => ?_) _ { s := s1 }).trans h1
    split
    · rfl
    · dsimp only
      split
      · rfl
      · exact rings_moveRow ..
  refine engRings_halEnd _ ?_ _ _ _
  unfold h'
  split
  · split <;> exact hk
  · exact hk
@[simp] theorem rings_readRuns (s : State) (l acc) : (readRuns s l acc).1.cap.rings = s.cap.rings := by
  induction l generalizing s acc with
  | nil => rfl
  | cons x t ih => unfold readRuns; simp; split <;> simp [ih]
@[simp] theorem engRings_doRelayout (f s) : EngRings s.cap.rings (doRelayout f s) := by
  unfold doRelayout
  dsimp only
  refine engRings_halEnd _ ?_ _ _ _
  dsimp only
  refine rings_foldl_hal _ (fun h i => rings_foldl_hal _ (fun h p => ?_) _ _) _ _
  split
  · rfl
  · split
    · simp
    · refine (rings_foldl_fst _ ?_ _ _).trans (by simp)
      rintro ⟨t, e, l⟩ ⟨a, n⟩
      cases e <;> simp
@[simp] theorem rings_takeGap (s : State) (sid) : (s.takeGap sid).2.cap.rings = s.cap.rings := by simp [takeGap]
@[simp] theorem rings_markGap (s : State) (sid) : (s.markGap sid).cap.rings = s.cap.rings := by simp [markGap]
@[simp] theorem rings_endStream (s : State) (f n status detail addr) :
    (s.endStream f n status detail addr).cap.rings = s.cap.rings := by simp [endStream]
@[simp] theorem rings_fillUnit (s : State) (f gap l) : (s.fillUnit f gap l).cap.rings = s.cap.rings := by
  unfold fillUnit
  dsimp only
  split <;> simp
@[simp] theorem rings_deliver (s : State) (sid l) : (s.deliver sid l).1.cap.rings = s.cap.rings := by
  unfold deliver; split <;> simp
@[simp] theorem rings_stopStream (s : State) (sid) : (s.stopStream sid).cap.rings = s.cap.rings := by simp [stopStream]
@[simp] theorem rings_startStream (s : State) (inst opc) : (s.startStream inst opc).cap.rings = s.cap.rings := by
  unfold startStream; split <;> simp
@[simp] theorem rings_takeBlockTurn (s : State) (inst) : (s.takeBlockTurn inst).cap.rings = s.cap.rings := by
  unfold takeBlockTurn; split <;> simp
@[simp] theorem rings_putBlock (s : State) (f l) : (s.putBlock f l).cap.rings = s.cap.rings := by simp [putBlock]
@[simp] theorem rings_streamOut (s : State) (inst) : (s.streamOut inst).cap.rings = s.cap.rings := by
  unfold streamOut
  dsimp only
  (repeat' split) <;> simp

/-! ### The Looms (10) -/

@[simp] theorem rings_loomFault (s : State) (f) : (loomFault f s).cap.rings = s.cap.rings := by simp [loomFault]
theorem engRings_loomStop {z} (f) {s : State} (h : s.cap.rings = z) (st d a) :
    EngRings z (loomStop f s st d a) := by simp [loomStop, h]
theorem engRings_loomErr {z} (f) {s : State} (h : s.cap.rings = z) (e r) : EngRings z (loomErr f s e r) := by
  cases e <;> simp [loomErr, engRings_loomStop, h]
theorem startRings_loomLoad (f s) : StartRings s.cap.rings (loomLoad f s) := by
  unfold loomLoad
  dsimp only
  split
  · simp [engRings_loomErr]
  · split
    · simp [engRings_loomErr]
    · split
      · simp [engRings_loomErr]
      · split <;> simp [engRings_loomStop]
@[simp] theorem rings_loomRows (d x) (s : State) (p n) : (loomRows d x s p n).1.cap.rings = s.cap.rings := by
  induction n generalizing s p with
  | zero => rfl
  | succ n ih => unfold loomRows; simp; split <;> simp [ih]
@[simp] theorem rings_loomWrite (d x w) (s : State) (p0 p n) : (loomWrite d x w s p0 p n).1.cap.rings = s.cap.rings := by
  induction n generalizing s p with
  | zero => rfl
  | succ n ih => unfold loomWrite; dsimp only; split <;> simp [ih]
/-- What a Loom takes its windows from has the rings `z`. -/
def FeedRings (z : List (Nat × Ring)) : Except EngRes (State × Nat × List Window) → Prop
  | .error r => EngRings z r
  | .ok x => x.1.cap.rings = z
@[simp] theorem feedRings_error (z r) : FeedRings z (.error r) ↔ EngRings z r := Iff.rfl
@[simp] theorem feedRings_ok (z x) : FeedRings z (.ok x) ↔ x.1.cap.rings = z := Iff.rfl
theorem startRings_loomOne (f w s b) : StartRings s.cap.rings (loomOne f w s b) := by
  unfold loomOne
  extract_lets d x l bank m src
  split
  · simp
  · have hs : FeedRings s.cap.rings src := by
      unfold src
      split
      · split
        · simp
        · split
          · simp
          · split
            · rw [feedRings_error]
              exact engRings_loomStop f (by simp) _ _ _
            · rfl
      · dsimp only
        split <;> simp [engRings_loomErr]
    generalize src = q at hs ⊢
    rcases q with r | ⟨t, c, ws⟩
    · exact hs
    · have hs : t.cap.rings = s.cap.rings := hs
      have hacc : (if x.chain = true then match (t.loom f.inst).kept with
          | some (fst, w) => (some w, t)
          | none => (some ((t.drawNats 32 2048).1.map Word.nat), (t.drawNats 32 2048).2)
        else ((none : Option (List Word)), t)).2.cap.rings = s.cap.rings := by
        split
        · split <;> simp [hs]
        · exact hs
      dsimp only
      generalize (if x.chain = true then match (t.loom f.inst).kept with
          | some (fst, w) => (some w, t)
          | none => (some ((t.drawNats 32 2048).1.map Word.nat), (t.drawNats 32 2048).2)
        else ((none : Option (List Word)), t)) = y at hacc ⊢
      split
      · simp [hacc]
      · split
        · simp [hacc]
        · simp [hacc]
        · split <;> simp [engRings_loomErr, hacc]
theorem engRings_loomRun {z} (f w n) {s : State} (h : s.cap.rings = z) (b) : EngRings z (loomRun f w n s b) := by
  induction n generalizing s b with
  | zero => simp [loomRun, h]
  | succ n ih =>
    have k := startRings_loomOne f w s b
    unfold loomRun
    split
    · next r e => rw [e] at k; rw [← h]; exact k
    · next t e => rw [e] at k; exact ih (h ▸ k) _
@[simp] theorem engRings_doProduct (f s) : EngRings s.cap.rings (doProduct f s) := by
  unfold doProduct
  dsimp only
  split
  · exact engRings_loomRun _ _ _ rfl _
  · split
    · exact engRings_loomStop _ rfl _ _ _
    · have k := startRings_loomLoad f s
      split
      · next r e => rw [e] at k; exact k
      · next t e => rw [e] at k; exact engRings_loomRun _ _ _ k _
@[simp] theorem rings_loomStart (s : State) (inst) : (s.loomStart inst).cap.rings = s.cap.rings := by
  unfold loomStart
  dsimp only
  (repeat' split) <;> simp
@[simp] theorem rings_loomAdmit (s : State) (inst d) : (s.loomAdmit inst d).cap.rings = s.cap.rings := by simp [loomAdmit]
@[simp] theorem rings_feedTimeout (s : State) (inst) : (s.feedTimeout inst).cap.rings = s.cap.rings := by
  unfold feedTimeout
  dsimp only
  (repeat' split) <;> simp

/-! ### The Harrows (11) -/

@[simp] theorem rings_readBlocks (d x i b n) (s : State) (acc) : (readBlocks d x i b n s acc).1.cap.rings = s.cap.rings := by
  induction n generalizing s b acc with
  | zero => rfl
  | succ n ih => unfold readBlocks; dsimp only; split <;> simp [ih]
@[simp] theorem rings_readRow (s : State) (d x i) : (readRow d x s i).1.cap.rings = s.cap.rings := by
  unfold readRow
  dsimp only
  split <;> simp
@[simp] theorem rings_readRows (d x l) (s : State) (acc) : (readRows d x l s acc).1.cap.rings = s.cap.rings := by
  induction l generalizing s acc with
  | nil => rfl
  | cons i t ih => unfold readRows; dsimp only; split <;> simp [ih]
@[simp] theorem rings_writePixels (d x r free l) (s : State) : (writePixels d x r free l s).1.cap.rings = s.cap.rings := by
  induction l generalizing s with
  | nil => rfl
  | cons i t ih => unfold writePixels; dsimp only; split <;> simp [ih]
theorem engRings_harrowStop {z} (f) {s : State} (h : s.cap.rings = z) (st d a) :
    EngRings z (harrowStop f s st d a) := by simp [harrowStop, h]
@[simp] theorem engRings_doMemOp (f s) : EngRings s.cap.rings (doMemOp f s) := by
  unfold doMemOp
  dsimp only
  split
  · simp
  · split <;> simp [engRings_harrowStop]
@[simp] theorem rings_freeRows (x) (s : State) (n) : (freeRows x s n).1.cap.rings = s.cap.rings := by
  induction n generalizing s with
  | zero => rfl
  | succ n ih => unfold freeRows; simp [ih]
theorem startRings_feedRead (f s) : StartRings s.cap.rings (feedRead f s) := by
  unfold feedRead
  dsimp only
  split
  · simp
  · simp
    split <;> simp
theorem rings_feedJoin {f s t} (h : feedJoin f s = some t) : t.cap.rings = s.cap.rings := by
  unfold feedJoin at h
  dsimp only at h
  split at h
  · simp_all
  · split at h
    · cases h
    · cases h; rfl
@[simp] theorem rings_loomEnd (s : State) (f status detail) : (loomEnd f s status detail).cap.rings = s.cap.rings := by
  simp [loomEnd]
@[simp] theorem rings_noteFeedFault (s : State) (f e) : (noteFeedFault f s e).cap.rings = s.cap.rings := by
  unfold noteFeedFault
  dsimp only
  (repeat' split) <;> simp
theorem engRings_feedFail {z} (f) {s : State} (h : s.cap.rings = z) : EngRings z (feedFail f s) := by
  unfold feedFail
  split <;> simp [engRings_harrowStop, h]
theorem engRings_feedDeliver {z} (f) {s : State} (h : s.cap.rings = z) : EngRings z (feedDeliver f s) := by
  unfold feedDeliver
  dsimp only
  split
  · simp [engRings_feedFail, h]
  · simp [engRings_feedFail, engRings_harrowStop, h]
@[simp] theorem engRings_doFeed (f s) : EngRings s.cap.rings (doFeed f s) := by
  unfold doFeed
  dsimp only
  have join : ∀ t : State, t.cap.rings = s.cap.rings → EngRings s.cap.rings (match feedJoin f t with
      | some s => feedDeliver f s
      | none => EngRes.stay t (.harrow 2)) := by
    intro t h
    split
    · next e => exact engRings_feedDeliver _ ((rings_feedJoin e).trans h)
    · simpa
  split
  · have k := startRings_feedRead f s
    split
    · next r e => rw [e] at k; exact k
    · next t e => rw [e] at k; exact join t k
  · exact join s rfl
  · exact engRings_feedDeliver _ rfl
  · simp
@[simp] theorem rings_feedStart (s : State) (inst ring idx) : (s.feedStart inst ring idx).cap.rings = s.cap.rings := by
  unfold feedStart; split <;> simp
@[simp] theorem rings_harrowBegin (s : State) (inst opc) : (s.harrowBegin inst opc).cap.rings = s.cap.rings := by
  unfold harrowBegin; split <;> simp
@[simp] theorem rings_haloPair (s : State) : s.haloPair.cap.rings = s.cap.rings := by
  unfold haloPair
  dsimp only
  (repeat' split) <;> simp
@[simp] theorem rings_haloTimeout (s : State) (inst) : (s.haloTimeout inst).cap.rings = s.cap.rings := by
  unfold haloTimeout; split <;> simp
@[simp] theorem rings_feedEnd (s : State) (g status detail) : (s.feedEnd g status detail).cap.rings = s.cap.rings := by
  simp [feedEnd]
@[simp] theorem rings_feedPair (s : State) (tile) : (s.feedPair tile).cap.rings = s.cap.rings := by
  unfold feedPair
  dsimp only
  (repeat' split) <;> simp
@[simp] theorem rings_harrowAdmit (s : State) (inst d) : (s.harrowAdmit inst d).cap.rings = s.cap.rings := by simp [harrowAdmit]
@[simp] theorem rings_feed (s : State) (inst opc : Nat) : (s.feed inst opc).cap.rings = s.cap.rings := by
  simp [feed]

/-! ### Two engines on one Mill (12; 13) -/

@[simp] theorem rings_clash (s : State) (inst md sd) : (s.clash inst md sd).cap.rings = s.cap.rings := by simp [clash]
@[simp] theorem rings_millClash (s : State) (inst d) : (s.millClash inst d).cap.rings = s.cap.rings := by
  unfold millClash; split <;> simp
@[simp] theorem rings_sheafClash (s : State) (inst d) : (s.sheafClash inst d).cap.rings = s.cap.rings := by
  unfold sheafClash; split <;> simp

/-! ### The Mills (12) -/

@[simp] theorem rings_readElems (fmt l) (s : State) (acc) : (readElems fmt l s acc).1.cap.rings = s.cap.rings := by
  induction l generalizing s acc with
  | nil => rfl
  | cons i t ih => unfold readElems; dsimp only; split <;> simp [ih]
/-- What a Mill's load leaves has the rings `z`. -/
def LoadRings (z : List (Nat × Ring)) : LoadRes → Prop
  | .done s => s.cap.rings = z
  | .block s _ => s.cap.rings = z
  | .err s _ => s.cap.rings = z
@[simp] theorem loadRings_done (z s) : LoadRings z (.done s) ↔ s.cap.rings = z := Iff.rfl
@[simp] theorem loadRings_block (z s e) : LoadRings z (.block s e) ↔ s.cap.rings = z := Iff.rfl
@[simp] theorem loadRings_err (z s e) : LoadRings z (.err s e) ↔ s.cap.rings = z := Iff.rfl
theorem loadRings_loadAcc {z} (inst t slot base vl n) {s : State} (h : s.cap.rings = z) (j) :
    LoadRings z (loadAcc inst t slot base vl n s j) := by
  induction n generalizing s j with
  | zero => exact h
  | succ n ih =>
    unfold loadAcc
    split
    · exact h
    · split
      · exact h
      · exact ih (by simp [h]) _
theorem loadRings_loadSlot {z} (f) {s : State} (h : s.cap.rings = z) (i slot j) : LoadRings z (loadSlot f s i slot j) := by
  unfold loadSlot
  dsimp only
  split
  · split <;> simp [h]
  · exact loadRings_loadAcc _ _ _ _ _ _ h _
  · split <;> simp [h]
  · exact h
@[simp] theorem rings_storeOut (f) (s : State) (i) : (storeOut f s i).1.cap.rings = s.cap.rings := by
  unfold storeOut
  dsimp only
  have stored : ∀ (l : List Nat) (r : List (Int × Nat)), (r.foldl (fun
      (x : State × Option MemErr × List Nat) (p : Int × Nat) =>
      match x.2.1 with
      | some e => (x.1, some e, x.2.2)
      | none =>
        let (t, e) := x.1.writeMem srcMill (p.1 / 8).toNat (storeBytes (strm f.desc 2).fmt (x.2.2.take p.2))
        (t, e, x.2.2.drop p.2)) (s, none, l)).1.cap.rings = s.cap.rings := by
    intro l r
    refine rings_foldl_fst _ ?_ _ _
    rintro ⟨t, e, l⟩ ⟨a, n⟩
    cases e <;> simp
  split
  · rfl
  · split
    · exact stored _ _
    · refine (rings_foldl _ (by simp) _ _).trans (stored _ _)
theorem engRings_millStop {z} (f) {s : State} (h : s.cap.rings = z) (st d a) :
    EngRings z (millStop f s st d a) := by simp [millStop, h]
theorem engRings_millErr {z} (f) {s : State} (h : s.cap.rings = z) (e r) : EngRings z (millErr f s e r) := by
  cases e <;> simp [millErr, engRings_millStop, h]
theorem startRings_finishIter {z} (f) {s : State} (h : s.cap.rings = z) (i) : StartRings z (finishIter f s i) := by
  unfold finishIter
  dsimp only
  split
  · simp [engRings_millStop, h]
  · split <;> simp [engRings_millErr, h]
@[simp] theorem rings_askBlock (s : State) (f k) : (s.askBlock f k).cap.rings = s.cap.rings := by simp [askBlock]
theorem startRings_runIter {z} (f) {s : State} (h : s.cap.rings = z) (i k j) : StartRings z (runIter f s i k j) := by
  have second : ∀ (s : State) (j), s.cap.rings = z → StartRings z (match loadSlot f s i 1 j with
    | .done s => finishIter f s i
    | .block s j => .error (.stay (s.askBlock f 1) (.mill i 1 j))
    | .err s e => .error (millErr f s e 2)) := by
    intro s j h
    have k := loadRings_loadSlot f h i 1 j
    split <;> next e => rw [e] at k; simp_all [startRings_finishIter, engRings_millErr]
  unfold runIter
  dsimp only
  split
  · exact second _ _ h
  · have k := loadRings_loadSlot f h i 0 j
    split
    · next e => rw [e] at k; exact second _ _ k
    · next e => rw [e] at k; simpa using k
    · next e => rw [e] at k; exact engRings_millErr _ k _ _
theorem engRings_runIters {z} (f n) {s : State} (h : s.cap.rings = z) (i k j) : EngRings z (runIters f n s i k j) := by
  induction n generalizing s i k j with
  | zero => simp [runIters, h]
  | succ n ih =>
    have w := startRings_runIter f h i k j
    unfold runIters
    split
    · next r e => rw [e] at w; exact w
    · next t e => rw [e] at w; exact ih w _ _ _
theorem startRings_loadRecipe (f s) : StartRings s.cap.rings (loadRecipe f s) := by
  unfold loadRecipe
  dsimp only
  split
  · simp
  · split
    · refine engRings_millErr _ ?_ _ _
      split <;> simp
    · split <;> simp [engRings_millStop]
@[simp] theorem engRings_doRun (f s) : EngRings s.cap.rings (doRun f s) := by
  have go : ∀ (t : State) (i k j), t.cap.rings = s.cap.rings → EngRings s.cap.rings
      ((runIters f (millIters f.desc - i) (t.millClash f.inst f.desc) i k j).andThen fun s => s.millClash f.inst f.desc) :=
    fun t i k j h => engRings_andThen (engRings_runIters _ _ (by simp [h]) _ _ _) (by simp)
  unfold doRun
  dsimp only
  split
  · exact go _ _ _ _ rfl
  · exact go _ _ _ _ rfl
  · have k := startRings_loadRecipe f s
    split
    · next r e => rw [e] at k; exact k
    · next t e => rw [e] at k; exact go _ _ _ _ k
@[simp] theorem rings_millStart (s : State) (inst) : (s.millStart inst).cap.rings = s.cap.rings := by
  unfold millStart; split <;> simp
@[simp] theorem rings_takeBlock (s : State) (inst) : (s.takeBlock inst).cap.rings = s.cap.rings := by
  unfold takeBlock
  dsimp only
  (repeat' split) <;> simp
@[simp] theorem rings_accTimeout (s : State) (inst : Nat) : (s.accTimeout inst).cap.rings = s.cap.rings := by
  unfold accTimeout
  split
  · next f k _ =>
    split
    · have h := engRings_millStop f (rfl : s.cap.rings = s.cap.rings) 0x52 (Word.nat k) 0
      split
      · next e => rw [e] at h; simpa using h
      · rfl
    · rfl
  · rfl

/-! ### The Sheaf (13) -/

theorem engRings_sheafStop {z} (f) {s : State} (h : s.cap.rings = z) (st d) :
    EngRings z (sheafStop f s st d) := by simp [sheafStop, h]
@[simp] theorem engRings_doSheaf (f s) : EngRings s.cap.rings (doSheaf f s) := by
  unfold doSheaf
  dsimp only
  split
  · simp
  · split
    · exact engRings_sheafStop _ (by simp) _ _
    · simp
@[simp] theorem rings_summaryPush (s : State) (inst) : (s.summaryPush inst).cap.rings = s.cap.rings := by
  unfold summaryPush
  (repeat' split) <;> simp
@[simp] theorem rings_summaryTimeout (s : State) (inst) : (s.summaryTimeout inst).cap.rings = s.cap.rings := by
  unfold summaryTimeout
  (repeat' split) <;> simp
@[simp] theorem rings_sheaf (s : State) (inst opc : Nat) : (s.sheaf inst opc).cap.rings = s.cap.rings := by
  unfold sheaf
  dsimp only
  split
  · rfl
  · rw [rings_advance _ _ _ _ _ engRings_doSheaf]
    split <;> simp

end Sys2Proof.Machine.State
end

section
/-! PROOFS. The ring table under trim, admission's reads, the link, audio, the Crowsnest, the cameras and the CSRs (04; 07;
17–20). -/

namespace Sys2Proof.Machine.State

open Sys2Proof.Spec

/-! ### Trim (04) -/

@[simp] theorem rings_setIsland (s : State) (i x) : (s.setIsland i x).cap.rings = s.cap.rings := by simp [setIsland]
@[simp] theorem rings_setCode (s : State) (i c) : (s.setCode i c).cap.rings = s.cap.rings := by simp [setCode]
@[simp] theorem rings_upReq (s : State) (i) : (s.upReq i).cap.rings = s.cap.rings := by simp [upReq]
@[simp] theorem rings_vtrimEval (s : State) (i pass margin) : (s.vtrimEval i pass margin).cap.rings = s.cap.rings := by
  simp [vtrimEval]
@[simp] theorem rings_vtrimDown (s : State) (i) : (s.vtrimDown i).cap.rings = s.cap.rings := by simp [vtrimDown]
@[simp] theorem rings_vtrimUp (s : State) (i) : (s.vtrimUp i).cap.rings = s.cap.rings := by simp [vtrimUp]
@[simp] theorem rings_replay (s : State) (i) : (s.replay i).cap.rings = s.cap.rings := by
  unfold replay
  dsimp only
  (repeat' split) <;> simp
@[simp] theorem rings_trApply (s : State) : s.trApply.cap.rings = s.cap.rings := by simp [trApply]
@[simp] theorem rings_ftrimSlower (s : State) : s.ftrimSlower.cap.rings = s.cap.rings := by simp [ftrimSlower]
@[simp] theorem rings_ftrimFaster (s : State) : s.ftrimFaster.cap.rings = s.cap.rings := by simp [ftrimFaster]
@[simp] theorem rings_writeTrCtrl (s : State) (v) : (s.writeTrCtrl v).cap.rings = s.cap.rings := by simp [writeTrCtrl]
@[simp] theorem rings_trStale (s : State) : s.trStale.cap.rings = s.cap.rings := by simp [trStale]

/-! ### Admission (07) -/

@[simp] theorem rings_admitEffects (s : State) (n cls inst epoch d) :
    (s.admitEffects n cls inst epoch d).1.cap.rings = s.cap.rings := by unfold admitEffects; split <;> simp

/-! ### The Deck window (05.6) -/

@[simp] theorem rings_winInc (s : State) : s.winInc.cap.rings = s.cap.rings := by simp [winInc]
@[simp] theorem rings_winError (s : State) (e) : (s.winError e).cap.rings = s.cap.rings := by simp [winError]
@[simp] theorem rings_winRefuse (s : State) (write e) : (s.winRefuse write e).cap.rings = s.cap.rings := by simp [winRefuse]
@[simp] theorem rings_winSettle (s : State) : s.winSettle.cap.rings = s.cap.rings := by
  unfold winSettle
  (repeat' split) <;> simp

/-! ### The link and what follows when it leaves LINKED (20) -/

@[simp] theorem rings_popHost (s : State) : s.popHost.cap.rings = s.cap.rings := by simp [popHost]
@[simp] theorem rings_deliverMsg (s : State) (m trunc incomplete) :
    (s.deliverMsg m trunc incomplete).cap.rings = s.cap.rings := by
  unfold deliverMsg
  (repeat' split) <;> simp
@[simp] theorem rings_unpaired (s : State) : s.unpaired.cap.rings = s.cap.rings := by simp [unpaired]
@[simp] theorem rings_portStart (s : State) : s.portStart.cap.rings = s.cap.rings := by simp [portStart]
@[simp] theorem rings_writeRbell (s : State) (v) : (s.writeRbell v).cap.rings = s.cap.rings := by simp [writeRbell]
@[simp] theorem rings_forward (s : State) (sid began time l) : (s.forward sid began time l).cap.rings = s.cap.rings := by
  unfold forward
  dsimp only
  (repeat' split) <;> simp

/-! ### Audio (18) -/

@[simp] theorem rings_auStop (s : State) : s.auStop.cap.rings = s.cap.rings := by simp [auStop]
@[simp] theorem rings_takeFrame (s : State) : s.takeFrame.2.cap.rings = s.cap.rings := by
  unfold takeFrame
  split
  · rfl
  · split
    · rfl
    · rfl
    · split <;> rfl
@[simp] theorem rings_rxTick (s : State) : s.rxTick.cap.rings = s.cap.rings := by simp [rxTick]
@[simp] theorem rings_playTick (s : State) : s.playTick.cap.rings = s.cap.rings := by simp [playTick]
@[simp] theorem rings_i2sFrame (s : State) (slots) : (s.i2sFrame slots).cap.rings = s.cap.rings := by simp [i2sFrame]
@[simp] theorem rings_sendBlock (s : State) (sid pdm adc short) : (s.sendBlock sid pdm adc short).cap.rings = s.cap.rings := by
  simp [sendBlock]
@[simp] theorem rings_gtrim (s : State) (adc) : (s.gtrim adc).cap.rings = s.cap.rings := by simp [gtrim]
@[simp] theorem rings_endBlock (s : State) (pdm adc short) : (s.endBlock pdm adc short).cap.rings = s.cap.rings := by
  simp [endBlock]
@[simp] theorem rings_blockBoundary (s : State) (pdm adc) : (s.blockBoundary pdm adc).cap.rings = s.cap.rings := by
  simp [blockBoundary]
@[simp] theorem rings_writeAuCtrl (s : State) (v) : (s.writeAuCtrl v).cap.rings = s.cap.rings := by simp [writeAuCtrl]
@[simp] theorem rings_writeCap6 (s : State) (v) : (s.writeCap6 v).cap.rings = s.cap.rings := by simp [writeCap6]
@[simp] theorem rings_auRestart (s : State) : s.auRestart.cap.rings = s.cap.rings := by simp [auRestart]
@[simp] theorem rings_auApply (s : State) : s.auApply.cap.rings = s.cap.rings := by
  unfold auApply
  dsimp only
  split
  · simp
  · simp only [rings_auStop, rings_ite, rings_auRestart, rings_setReg, rings_commit, rings_setRf,
      ite_self]
@[simp] theorem rings_auCommitApply (s : State) : s.auCommitApply.cap.rings = s.cap.rings := by simp [auCommitApply]
@[simp] theorem rings_auCommitNow (s : State) (pdm adc) : (s.auCommitNow pdm adc).cap.rings = s.cap.rings := by simp [auCommitNow]
@[simp] theorem rings_auRelocked (s : State) : s.auRelocked.cap.rings = s.cap.rings := by simp [auRelocked]
@[simp] theorem rings_auStale (s : State) : s.auStale.cap.rings = s.cap.rings := by simp [auStale]

/-! ### Bosun's registers (14.9) -/

@[simp] theorem rings_setCore (s : State) (c) : (s.setCore c).cap.rings = s.cap.rings := by simp [setCore]
@[simp] theorem rings_setBw (s : State) (r v) : (s.setBw r v).cap.rings = s.cap.rings := by simp [setBw]
@[simp] theorem rings_setBs (s : State) (n v) : (s.setBs n v).cap.rings = s.cap.rings := by simp [setBs]
@[simp] theorem rings_setBsf (s : State) (n lo w x) : (s.setBsf n lo w x).cap.rings = s.cap.rings := by simp [setBsf]
@[simp] theorem rings_bsRead (s : State) (n) : (s.bsRead n).2.cap.rings = s.cap.rings := by simp [bsRead]
@[simp] theorem rings_emit (s : State) (b) : (s.emit b).cap.rings = s.cap.rings := by simp [emit]
@[simp] theorem rings_emitFetch (s : State) (pc) : (s.emitFetch pc).cap.rings = s.cap.rings := by simp [emitFetch]
@[simp] theorem rings_emitData (s : State) (size addr st) : (s.emitData size addr st).cap.rings = s.cap.rings := by
  simp [emitData]
@[simp] theorem rings_emitItem (s : State) (fn a b) : (s.emitItem fn a b).cap.rings = s.cap.rings := by simp [emitItem]
@[simp] theorem rings_emitSum (s : State) (sh nb) : (s.emitSum sh nb).cap.rings = s.cap.rings := by simp [emitSum]
@[simp] theorem rings_emitHalt (s : State) : s.emitHalt.cap.rings = s.cap.rings := by simp [emitHalt]

/-! ### The Crowsnest's networks (19) -/

@[simp] theorem rings_setNet (s : State) (gesture n) : (s.setNet gesture n).cap.rings = s.cap.rings := by simp [setNet]
@[simp] theorem rings_setFloor (s : State) (gesture n) : (s.setFloor gesture n).cap.rings = s.cap.rings := by simp [setFloor]
@[simp] theorem rings_netOff (s : State) (gesture) : (s.netOff gesture).cap.rings = s.cap.rings := by simp [netOff]
@[simp] theorem rings_datapathWords (s : State) (g ws) : (s.datapathWords g ws).1.cap.rings = s.cap.rings := by
  have h : ∀ (t : State × Bool) (p : Nat × Ecc), (match t, p with
      | (s, ok), (w, e) => match ok, e with
        | true, .single => ((s.noteCnEcc w false).setEcc w .ok, true)
        | true, .double => (s.noteCnEcc w true, false)
        | _, _ => (s, ok)).1.cap.rings = t.1.cap.rings := by
    rintro ⟨t, _ | _⟩ ⟨w, _ | _ | _⟩ <;> simp
  unfold datapathWords
  dsimp only
  split
  · exact rings_foldl_fst _ h _ _
  · simp only [rings_setRf, rings_netOff]
    exact rings_foldl_fst _ h _ _
@[simp] theorem rings_workingWords (s : State) : s.workingWords.1.cap.rings = s.cap.rings := by simp [workingWords]
@[simp] theorem rings_datapathWork (s : State) (gesture) : (s.datapathWork gesture).1.cap.rings = s.cap.rings := by
  simp [datapathWork]
@[simp] theorem rings_netEnable (s : State) (gesture) : (s.netEnable gesture).cap.rings = s.cap.rings := by simp [netEnable]
@[simp] theorem rings_writeCnCtrl (s : State) (v) : (s.writeCnCtrl v).cap.rings = s.cap.rings := by simp [writeCnCtrl]
@[simp] theorem rings_level (s : State) (gesture l) : (s.level gesture l).cap.rings = s.cap.rings := by simp [level]
@[simp] theorem rings_featureFrame (s : State) (samples) : (s.featureFrame samples).cap.rings = s.cap.rings := by
  simp [featureFrame]
@[simp] theorem rings_gestureFrame (s : State) (codes : List Nat) : (s.gestureFrame codes).cap.rings = s.cap.rings := by
  simp only [gestureFrame, rings_ite, rings_level, rings_setNet, rings_datapathWork, ite_self]
@[simp] theorem rings_detect (s : State) (gesture codes) : (s.detect gesture codes).1.cap.rings = s.cap.rings := by simp [detect]
@[simp] theorem rings_datapathRead (s : State) (gesture) : (s.datapathRead gesture).1.cap.rings = s.cap.rings := by
  simp [datapathRead]
@[simp] theorem rings_infer (s : State) : s.infer.1.cap.rings = s.cap.rings := by
  unfold infer
  dsimp only
  split <;> simp
@[simp] theorem rings_readCnEvent (s : State) : s.readCnEvent.2.cap.rings = s.cap.rings := by unfold readCnEvent; split <;> simp

/-! ### CSI-2 and I²C (17) -/

@[simp] theorem rings_setOpen (s : State) (vc f) : (s.setOpen vc f).cap.rings = s.cap.rings := by simp [setOpen]
@[simp] theorem rings_csiErr (s : State) (i) : (s.csiErr i).cap.rings = s.cap.rings := by simp [csiErr]
@[simp] theorem rings_csiStop (s : State) : s.csiStop.cap.rings = s.cap.rings := by simp [csiStop]
@[simp] theorem rings_csiEnd (s : State) (vc) : (s.csiEnd vc).cap.rings = s.cap.rings := by unfold csiEnd; split <;> simp
@[simp] theorem rings_csiStart (s : State) (vc fnum) : (s.csiStart vc fnum).cap.rings = s.cap.rings := by simp [csiStart]
@[simp] theorem rings_csiFinish (s : State) (vc) : (s.csiFinish vc).cap.rings = s.cap.rings := by
  unfold csiFinish
  (repeat' split) <;> simp
@[simp] theorem rings_csiLine (s : State) (vc dt l crcOk) : (s.csiLine vc dt l crcOk).cap.rings = s.cap.rings := by
  unfold csiLine
  (repeat' split) <;> simp
@[simp] theorem rings_csiDiscard (s : State) (kind) : (s.csiDiscard kind).cap.rings = s.cap.rings := by
  unfold csiDiscard
  (repeat' split) <;> simp
@[simp] theorem rings_writeCsiCtrl (s : State) (v) : (s.writeCsiCtrl v).cap.rings = s.cap.rings := by simp [writeCsiCtrl]
@[simp] theorem rings_csiApply (s : State) : s.csiApply.cap.rings = s.cap.rings := by
  unfold csiApply
  dsimp only
  (repeat' split) <;> simp
@[simp] theorem rings_csiStale (s : State) : s.csiStale.cap.rings = s.cap.rings := by simp [csiStale]
@[simp] theorem rings_writeXfer (s : State) (c v) : (s.writeXfer c v).cap.rings = s.cap.rings := by simp [writeXfer]
@[simp] theorem rings_i2cEnd (s : State) (c result n) : (s.i2cEnd c result n).cap.rings = s.cap.rings := by simp [i2cEnd]
@[simp] theorem rings_i2cMeet (s : State) (c free addr acks again rd) :
    (s.i2cMeet c free addr acks again rd).cap.rings = s.cap.rings := by unfold i2cMeet; split <;> simp
@[simp] theorem rings_i2cAbort (s : State) (c) : (s.i2cAbort c).cap.rings = s.cap.rings := by simp [i2cAbort]
@[simp] theorem rings_i2cRecover (s : State) (c) : (s.i2cRecover c).cap.rings = s.cap.rings := by simp [i2cRecover]
@[simp] theorem rings_writeI2cCtrl (s : State) (c v) : (s.writeI2cCtrl c v).cap.rings = s.cap.rings := by simp [writeI2cCtrl]
@[simp] theorem rings_i2cStat (s : State) (c) : (s.i2cStat c).2.cap.rings = s.cap.rings := by simp [i2cStat]

/-! ### Lookout (17) -/

@[simp] theorem rings_setExp (s : State) (e g) : (s.setExp e g).cap.rings = s.cap.rings := by simp [setExp]
@[simp] theorem rings_etrimApply (s : State) (x) : (s.etrimApply x).cap.rings = s.cap.rings := by simp [etrimApply]
@[simp] theorem rings_frameStart (s : State) (t0) : (s.frameStart t0).cap.rings = s.cap.rings := by simp [frameStart]
@[simp] theorem rings_frameEnd (s : State) (long short) : (s.frameEnd long short).cap.rings = s.cap.rings := by
  unfold frameEnd
  dsimp only
  (repeat' split) <;> simp
@[simp] theorem rings_writeLkCtrl (s : State) (v) : (s.writeLkCtrl v).cap.rings = s.cap.rings := by simp [writeLkCtrl]
@[simp] theorem rings_lkApply (s : State) : s.lkApply.cap.rings = s.cap.rings := by
  unfold lkApply
  dsimp only
  (repeat' split) <;> simp
@[simp] theorem rings_lkStale (s : State) : s.lkStale.cap.rings = s.cap.rings := by simp [lkStale]
theorem rings_lkComputed {s : State} {o} {x : Word × State} (h : s.lkComputed o = some x) : x.2.cap.rings = s.cap.rings := by
  unfold lkComputed at h
  split at h
  · cases h; rfl
  · split at h
    · cases h; rfl
    · split at h
      · cases h; simp
      · split at h
        · cases h; rfl
        · cases h

/-! ### The flash reader (21 R864) -/

@[simp] theorem rings_qrdDone (s : State) (result) : (s.qrdDone result).cap.rings = s.cap.rings := by simp [qrdDone]
@[simp] theorem rings_qrdGo (s : State) : s.qrdGo.cap.rings = s.cap.rings := by
  unfold qrdGo
  dsimp only
  (repeat' split) <;> simp
@[simp] theorem rings_writeQrdCtrl (s : State) (v) : (s.writeQrdCtrl v).cap.rings = s.cap.rings := by simp [writeQrdCtrl]
@[simp] theorem rings_qrdEnd (s : State) (data) : (s.qrdEnd data).cap.rings = s.cap.rings := by unfold qrdEnd; split <;> simp

/-! ### CSR accesses (00 R16–R22) -/

@[simp] theorem rings_mlRead (s : State) (i o) : (s.mlRead i o).2.cap.rings = s.cap.rings := by simp [mlRead]
@[simp] theorem rings_mlWrite (s : State) (i o v) : (s.mlWrite i o v).cap.rings = s.cap.rings := by simp [mlWrite]
@[simp] theorem rings_bsSlot (s : State) (o) : (s.bsSlot o).2.cap.rings = s.cap.rings := by simp [bsSlot]
@[simp] theorem rings_plainRead (s : State) (a) : (s.plainRead a).2.cap.rings = s.cap.rings := by simp [plainRead]
@[simp] theorem rings_plainWrite (s : State) (a v) : (s.plainWrite a v).cap.rings = s.cap.rings := by simp [plainWrite]
@[simp] theorem rings_csrRead (s : State) (a : Nat) : (s.csrRead a).2.cap.rings = s.cap.rings := by
  unfold csrRead
  dsimp only
  split
  case h_21 =>
    split
    · exact rings_lkComputed ‹_›
    · simp
  case h_24 => split <;> simp
  all_goals simp

end Sys2Proof.Machine.State
end

section
/-! PROOFS. The ring table under Bosun's own state (14–16). -/

namespace Sys2Proof.Machine.State

open Sys2Proof.Spec

/-! ### One instruction (14) -/

@[simp] theorem rings_bosunEcc (s : State) (a) : (s.bosunEcc a).cap.rings = s.cap.rings := by simp [bosunEcc]
@[simp] theorem rings_fetchWord (s : State) (pc) : (s.fetchWord pc).1.cap.rings = s.cap.rings := by
  unfold fetchWord
  dsimp only
  split <;> simp
@[simp] theorem rings_loopNext (s : State) (pc : Word) : (s.loopNext pc).2.cap.rings = s.cap.rings := by
  unfold loopNext
  extract_lets one
  have h : ∀ t n, (one t n).2.cap.rings = t.cap.rings := fun t n => by simp [one]
  have h1 := h s 1
  split
  · next e => rwa [e] at h1
  · next t e =>
    have h0 := h t 0
    rw [e] at h1
    split <;> next e => rw [e] at h0; exact h0.trans h1
@[simp] theorem rings_shadowStep (s : State) : s.shadowStep.cap.rings = s.cap.rings := by unfold shadowStep; split <;> simp
@[simp] theorem rings_retire (s : State) : s.retire.cap.rings = s.cap.rings := by simp [retire]
@[simp] theorem rings_divergeTrail (s : State) : s.divergeTrail.cap.rings = s.cap.rings := by unfold divergeTrail; split <;> simp
@[simp] theorem rings_goesOn (a b : State) : (goesOn a b).cap.rings = a.cap.rings := by simp [goesOn]

/-! ### The instructions (14.11) -/

@[simp] theorem rings_bsWrite (s : State) (n v) : (s.bsWrite n v).cap.rings = s.cap.rings := by simp [bsWrite]
@[simp] theorem rings_sumEmpty (s : State) (rd rb) : (s.sumEmpty rd rb).cap.rings = s.cap.rings := by simp [sumEmpty]
@[simp] theorem rings_hsig (s : State) (v) : (s.hsig v).cap.rings = s.cap.rings := by simp [hsig]

/-! ### Waits, interrupts and lockstep (14–16) -/

@[simp] theorem rings_clearLatch (s : State) (i) : (s.clearLatch i).cap.rings = s.cap.rings := by
  unfold clearLatch; split <;> simp
@[simp] theorem rings_backstay (s : State) (iob n) : (s.backstay iob n).cap.rings = s.cap.rings := by simp [backstay]

end Sys2Proof.Machine.State
end

section
/-! PROOFS. The ring table under images, Muster, the Deck, streams and flits (03; 05; 08; 20; 21). -/

namespace Sys2Proof.Machine.State

open Sys2Proof.Spec

/-! ### Images (21) -/

@[simp] theorem rings_readImage (src) (s : State) (o n) : (readImage src s o n).1.cap.rings = s.cap.rings := by
  unfold readImage
  split
  · rfl
  · dsimp only; split <;> simp
@[simp] theorem rings_checkImage (src) (s : State) : (checkImage src s).1.cap.rings = s.cap.rings :=
  checkImage_keeps (P := fun t => t.cap.rings = s.cap.rings) (fun t o n h => by simp [h]) rfl
@[simp] theorem rings_placeSect (src x) (s : State) : (placeSect src x s).1.cap.rings = s.cap.rings := by
  unfold placeSect
  extract_lets put
  have hp : ∀ t l, (put t l).1.cap.rings = t.cap.rings := by
    intro t l
    simp only [put]
    split <;> simp
  split
  · exact hp _ _
  · split
    · exact Chk.next_keeps (P := fun t => t.cap.rings = s.cap.rings) (by simp) fun u a h => (hp _ _).trans h
    · rfl
@[simp] theorem rings_placeSects (src l) (s : State) : (placeSects src l s).1.cap.rings = s.cap.rings := by
  induction l generalizing s with
  | nil => rfl
  | cons x t ih => exact Chk.next_keeps (P := fun t => t.cap.rings = s.cap.rings) (by simp) fun u a h => (ih _).trans h
@[simp] theorem rings_placeNet (src l g) (s : State) : (placeNet src l g s).1.cap.rings = s.cap.rings := by
  unfold placeNet
  split
  · rfl
  · refine Chk.next_keeps (P := fun t => t.cap.rings = s.cap.rings) (by simp) fun t a h => ?_
    dsimp only
    split <;> simp [h]
@[simp] theorem rings_loadRegions (s : State) (rs) : (s.loadRegions rs).cap.rings = s.cap.rings := by
  unfold loadRegions
  simp only [rings_commit, rings_syncPend]
  refine (rings_foldl _ ?_ _ _).trans ?_
  · exact fun _ _ => rfl
  refine rings_foldl _ ?_ _ _
  exact fun _ _ => rfl
@[simp] theorem rings_resetBells (s : State) : s.resetBells.cap.rings = s.cap.rings := by simp [resetBells]
@[simp] theorem rings_clearEngines (s : State) : s.clearEngines.cap.rings = s.cap.rings := by simp [clearEngines]
@[simp] theorem rings_spoilEsave (s : State) : s.spoilEsave.cap.rings = s.cap.rings := by simp [spoilEsave]
@[simp] theorem rings_startBosun (s : State) (entry) : (s.startBosun entry).cap.rings = s.cap.rings := by simp [startBosun]
@[simp] theorem rings_finishBind (s : State) (x) : (s.finishBind x).cap.rings = s.cap.rings := by simp [finishBind]
@[simp] theorem rings_keepCn (s s0 : State) : (keepCn s s0).cap.rings = s.cap.rings := by simp [keepCn]
@[simp] theorem rings_voidBind (s s0 : State) (x) : (voidBind s s0 x).cap.rings = s.cap.rings := by
  unfold voidBind
  simp

/-! ### Muster, wakes and resets (03) -/

@[simp] theorem rings_spoilRam (s : State) (q) : (s.spoilRam q).cap.rings = s.cap.rings := by simp [spoilRam]
@[simp] theorem rings_loseRam (s : State) : s.loseRam.cap.rings = s.cap.rings := by simp [loseRam]
@[simp] theorem rings_loseFt (s : State) : s.loseFt.cap.rings = s.cap.rings := by
  unfold loseFt
  refine rings_foldl _ ?_ _ _
  exact fun _ _ => rfl
@[simp] theorem rings_startMuster (s : State) : s.startMuster.cap.rings = s.cap.rings := by simp [startMuster]
@[simp] theorem rings_release (s : State) : s.release.cap.rings = s.cap.rings := by simp [release]
@[simp] theorem rings_setStage (s : State) (st unit fail) : (s.setStage st unit fail).cap.rings = s.cap.rings := by
  simp [setStage]
@[simp] theorem rings_failStage (s : State) (unit detail) : (s.failStage unit detail).cap.rings = s.cap.rings := by
  simp [failStage]
@[simp] theorem rings_reachHoveTo (s : State) : s.reachHoveTo.cap.rings = s.cap.rings := by
  unfold reachHoveTo
  dsimp only
  split <;> simp
@[simp] theorem rings_mustered (s : State) : s.mustered.cap.rings = s.cap.rings := by
  unfold mustered
  dsimp only
  split <;> simp
@[simp] theorem rings_stageEnd (s : State) (pass unit detail) : (s.stageEnd pass unit detail).cap.rings = s.cap.rings := by
  simp [stageEnd]
@[simp] theorem rings_regChkTimeout (s : State) (gr) : (s.regChkTimeout gr).cap.rings = s.cap.rings := by simp [regChkTimeout]
@[simp] theorem rings_musterTime (s : State) : s.musterTime.cap.rings = s.cap.rings := by simp [musterTime]
@[simp] theorem rings_bootCause (s : State) (first c) : (s.bootCause first c).cap.rings = s.cap.rings := by simp [bootCause]
@[simp] theorem rings_supplyLoss (s : State) (gr) : (s.supplyLoss gr).cap.rings = s.cap.rings := by simp [supplyLoss]
@[simp] theorem rings_grDip (s : State) : s.grDip.cap.rings = s.cap.rings := by simp [grDip]
@[simp] theorem rings_vinRemoved (s : State) : s.vinRemoved.cap.rings = s.cap.rings := by simp [vinRemoved]
@[simp] theorem rings_vinRise (s : State) : s.vinRise.cap.rings = s.cap.rings := by simp [vinRise]
@[simp] theorem rings_clockLoss (s : State) (unit) : (s.clockLoss unit).cap.rings = s.cap.rings := by simp [clockLoss]
@[simp] theorem rings_dropCkpt (s : State) : s.dropCkpt.cap.rings = s.cap.rings := by simp [dropCkpt]
@[simp] theorem rings_wakeTimeout (s : State) : s.wakeTimeout.cap.rings = s.cap.rings := by
  unfold wakeTimeout
  dsimp only
  (repeat' split) <;> simp
@[simp] theorem rings_tempSample (s : State) (code) : (s.tempSample code).cap.rings = s.cap.rings := by simp [tempSample]

/-! ### The Deck (05) -/

@[simp] theorem rings_clearTags (s : State) : s.clearTags.cap.rings = s.cap.rings := by simp [clearTags]
@[simp] theorem rings_bindTouch (s : State) (a) : (s.bindTouch a).cap.rings = s.cap.rings := by simp [bindTouch]
@[simp] theorem rings_winExpire (s : State) : s.winExpire.cap.rings = s.cap.rings := by unfold winExpire; split <;> simp
@[simp] theorem rings_doorWrite (s : State) (v) : (s.doorWrite v).cap.rings = s.cap.rings := by simp [doorWrite]
@[simp] theorem rings_bellLoad (s : State) : s.bellLoad.cap.rings = s.cap.rings := by simp [bellLoad]
@[simp] theorem rings_cmdRefuse (s : State) (op result) : (s.cmdRefuse op result).cap.rings = s.cap.rings := by simp [cmdRefuse]

/-! ### Streams (08) -/

@[simp] theorem rings_stopIfStopped (s : State) (sid) : (s.stopIfStopped sid).cap.rings = s.cap.rings := by simp [stopIfStopped]
@[simp] theorem rings_streamIn (s : State) (inst) : (s.streamIn inst).cap.rings = s.cap.rings := by simp [streamIn]
@[simp] theorem rings_countLost (s : State) (sid) : (s.countLost sid).cap.rings = s.cap.rings := by
  unfold countLost; split <;> simp
@[simp] theorem rings_streamUnit (s : State) (sid) : (s.streamUnit sid).cap.rings = s.cap.rings := by
  unfold streamUnit; split <;> simp

/-! ### Flits (20) -/

@[simp] theorem rings_setLink (s : State) (st) : (s.setLink st).cap.rings = s.cap.rings := by simp [setLink]
@[simp] theorem rings_retreat (s : State) : s.retreat.cap.rings = s.cap.rings := by simp [retreat]
@[simp] theorem rings_equalised (s : State) (m0 m1) : (s.equalised m0 m1).cap.rings = s.cap.rings := by simp [equalised]
@[simp] theorem rings_aligned (s : State) (role sn swap pol) : (s.aligned role sn swap pol).cap.rings = s.cap.rings := by
  unfold aligned
  (repeat' split) <;> simp
@[simp] theorem rings_ltrimAdapt (s : State) (lane lower here upper) :
    (s.ltrimAdapt lane lower here upper).cap.rings = s.cap.rings := by simp [ltrimAdapt]
@[simp] theorem rings_takeAck (s : State) (f) : (s.takeAck f).cap.rings = s.cap.rings := by simp [takeAck]
@[simp] theorem rings_inOrder (s : State) (f) : (s.inOrder f).1.cap.rings = s.cap.rings := by simp [inOrder]
@[simp] theorem rings_discardFlit (s : State) : s.discardFlit.cap.rings = s.cap.rings := by simp [discardFlit]
@[simp] theorem rings_freeReq (s : State) : s.freeReq.cap.rings = s.cap.rings := by simp [freeReq]
@[simp] theorem rings_freeRsp (s : State) : s.freeRsp.cap.rings = s.cap.rings := by simp [freeRsp]
@[simp] theorem rings_freeMsg (s : State) : s.freeMsg.cap.rings = s.cap.rings := by simp [freeMsg]
@[simp] theorem rings_respond (s : State) (f typ status data) : (s.respond f typ status data).cap.rings = s.cap.rings := by
  simp [respond]
@[simp] theorem rings_peerWrite (s : State) (f) : (s.peerWrite f).cap.rings = s.cap.rings := by
  unfold peerWrite
  dsimp only
  (repeat' split) <;> simp
@[simp] theorem rings_peerRead (s : State) (f) : (s.peerRead f).cap.rings = s.cap.rings := by
  unfold peerRead
  dsimp only
  (repeat' split) <;> simp
@[simp] theorem rings_startMsg (s : State) (m) : (s.startMsg m).cap.rings = s.cap.rings := by unfold startMsg; split <;> simp
@[simp] theorem rings_msgFlit (s : State) (f) : (s.msgFlit f).cap.rings = s.cap.rings := by
  unfold msgFlit
  dsimp only
  (repeat' split) <;> simp
@[simp] theorem rings_sendFlit (s : State) (t) : (s.sendFlit t).cap.rings = s.cap.rings := by simp [sendFlit]
@[simp] theorem rings_trainSlot (s : State) : s.trainSlot.cap.rings = s.cap.rings := by simp [trainSlot]
@[simp] theorem rings_sendNew (s : State) (t) : (s.sendNew t).cap.rings = s.cap.rings := by simp [sendNew]
theorem rings_nextReq {s : State} {x} (h : s.nextReq = some x) : x.1.cap.rings = s.cap.rings := by
  unfold nextReq at h
  dsimp only at h
  split at h
  · cases h
  · cases h; rfl
  · cases h; rfl
  · split at h <;> cases h <;> rfl

end Sys2Proof.Machine.State
end

section
/-! PROOFS. What keeps the ring table in its canonical form (07 R295, R297): the Capstan, the link, the host and the CSRs. -/

namespace Sys2Proof.Machine.State

open Sys2Proof.Spec

/-! ### The table's form -/

/-- A ring table in its canonical form: numbers below 16,384 that rise, and no ring as at reset (07 R295). -/
def tableOk (l : List (Nat × Ring)) : Prop := Store.wf {} l = true ∧ ∀ e ∈ l, e.1 < 16384

theorem ringsWf_iff (s : State) : ringsWf s ↔ tableOk s.cap.rings := Iff.rfl

@[simp] theorem tableOk_nil : tableOk [] := ⟨rfl, List.forall_mem_nil _⟩
@[simp] theorem tableOk_ite (c : Prop) [Decidable c] (l m : List (Nat × Ring)) :
    tableOk (if c then l else m) ↔ if c then tableOk l else tableOk m := by split <;> rfl

theorem tableOk_foldl {α : Type} {f : State → α → State} (hf : ∀ t a, tableOk t.cap.rings → tableOk (f t a).cap.rings)
    (l : List α) {s : State} (h : tableOk s.cap.rings) : tableOk (l.foldl f s).cap.rings :=
  foldl_keeps (fun t : State => tableOk t.cap.rings) f hf l s h

/-- A ring that is not as at reset is listed. -/
theorem mem_of_get_ne {l : List (Nat × Ring)} {n : Nat} (h : Store.get {} l n ≠ {}) : ∃ r, (n, r) ∈ l := by
  by_contra hn
  refine h (get_of_not_mem fun hm => ?_)
  obtain ⟨e, he, rfl⟩ := List.mem_map.1 hm
  exact hn ⟨e.2, he⟩

/-- A ring that is not as at reset is one of the table's. -/
theorem ring_lt {s : State} (h : tableOk s.cap.rings) {n : Nat} (hr : s.ring n ≠ {}) : n < 16384 := by
  obtain ⟨r, hm⟩ := mem_of_get_ne hr
  exact h.2 _ hm

theorem ring_lt_of_st {s : State} (h : tableOk s.cap.rings) {n : Nat} (hr : (s.ring n).st ≠ .disabled) : n < 16384 :=
  ring_lt h fun e => hr (by rw [e])

@[simp] theorem rings_setRing (s : State) (n : Nat) (r : Ring) :
    (s.setRing n r).cap.rings = Store.set {} s.cap.rings n r := by rw [setRing_frame]

theorem tableOk_set {l : List (Nat × Ring)} (h : tableOk l) {n : Nat} (hn : n < 16384) (r : Ring) :
    tableOk (Store.set {} l n r) := by
  refine ⟨Store.wf_set _ h.1 n r, fun e he => ?_⟩
  rcases Store.mem_of_mem_set he with he | ⟨rfl, -⟩
  · exact h.2 e he
  · exact hn

theorem tableOk_setRing {s : State} (h : tableOk s.cap.rings) {n : Nat} (hn : n < 16384) (r : Ring) :
    tableOk (s.setRing n r).cap.rings := by
  rw [rings_setRing]
  exact tableOk_set h hn r

/-! ### Bell waits judged, drains and Bells (07 R304, R312–R320) -/

/-- A ring judged has not become one as at reset: only an enabled one is judged. -/
theorem latchOne_ne_default (s : State) {r : Ring} (h : r ≠ {}) : s.latchOne r ≠ {} := by
  unfold latchOne
  split
  · next hc =>
    split
    · intro e
      have hst : r.st = .disabled := congrArg Ring.st e
      exact nomatch hst.symm.trans hc.1
    · exact h
  · exact h

theorem wfFrom_latch (s : State) (l : List (Nat × Ring)) {lo : Nat} (h : Store.wfFrom {} lo l = true) :
    Store.wfFrom {} lo (l.map fun (n, r) => (n, s.latchOne r)) = true := by
  induction l generalizing lo with
  | nil => rfl
  | cons e l ih =>
    obtain ⟨n, r⟩ := e
    simp only [Store.wfFrom, Bool.and_eq_true, Bool.not_eq_true', decide_eq_true_eq, decide_eq_false_iff_not,
      List.map_cons] at h ⊢
    exact ⟨⟨h.1.1, latchOne_ne_default s h.1.2⟩, ih h.2⟩

@[simp] theorem tableOk_latchWaits {s : State} (h : tableOk s.cap.rings) : tableOk s.latchWaits.cap.rings := by
  refine ⟨wfFrom_latch s _ h.1, fun e he => ?_⟩
  obtain ⟨f, hf, rfl⟩ := List.mem_map.1 he
  exact h.2 f hf

@[simp] theorem tableOk_bellOp {s : State} (h : tableOk s.cap.rings) (n set v) : tableOk (s.bellOp n set v).cap.rings := by
  simp [bellOp, h]
@[simp] theorem tableOk_signals {s : State} (h : tableOk s.cap.rings) (d) : tableOk (s.signals d).cap.rings := by
  have hone : ∀ {t : State} (op b v : Nat), tableOk t.cap.rings → tableOk (if op = 1 then t.bellOp b false (Word.nat v)
      else if op = 2 then t.bellOp b true (Word.nat v) else t).cap.rings := fun op b v ht => by simp [ht]
  exact hone _ _ _ (hone _ _ _ h)

/-- The rings of a table in canonical form, each changed in turn, leave one. -/
theorem tableOk_foldRings {f : State → Nat × Ring → State}
    (hf : ∀ t e, e.1 < 16384 → tableOk t.cap.rings → tableOk (f t e).cap.rings) {l : List (Nat × Ring)}
    (hl : ∀ e ∈ l, e.1 < 16384) {s : State} (h : tableOk s.cap.rings) : tableOk (l.foldl f s).cap.rings := by
  induction l generalizing s with
  | nil => exact h
  | cons e l ih =>
    obtain ⟨he, hl⟩ := List.forall_mem_cons.1 hl
    exact ih hl (hf s e he h)

@[simp] theorem tableOk_tack {s : State} (h : tableOk s.cap.rings) : tableOk s.tack.1.cap.rings := by
  unfold tack
  split
  · exact h
  · have hw := tableOk_latchWaits h
    refine tableOk_foldRings (fun t e he ht => ?_) hw.2 hw
    dsimp only
    split
    · exact tableOk_setRing ht he _
    · exact ht
@[simp] theorem tableOk_drainComplete {s : State} (h : tableOk s.cap.rings) : tableOk s.drainComplete.cap.rings := by
  unfold drainComplete
  split
  · have hw : tableOk ((s.latchWaits.setRf CAP_EPOCH 8 1 0).setRf CAP_EPOCH 30 1 0).cap.rings := by
      simpa using tableOk_latchWaits h
    dsimp only
    generalize (s.latchWaits.setRf CAP_EPOCH 8 1 0).setRf CAP_EPOCH 30 1 0 = u at *
    have hcut : tableOk (u.cap.rings.foldl (fun t (n, r) => if r.cutV then t.setRing n { r with cutV := false } else t)
        u).cap.rings := tableOk_foldRings (fun t e he ht => by
      dsimp only
      split
      · exact tableOk_setRing ht he _
      · exact ht) hw.2 hw
    simp [hcut]
  · exact h

/-! ### Ring operations (07.2, 07.3) -/

@[simp] theorem tableOk_ringEnable {s : State} (h : tableOk s.cap.rings) {n : Nat} (hn : n < 16384) :
    tableOk (s.ringEnable n).1.cap.rings := by
  unfold ringEnable
  split
  · exact h
  · dsimp only
    split
    · simpa using h
    · split
      · exact tableOk_setRing (by simpa using h) hn _
      · simpa using h
@[simp] theorem tableOk_ringDisable {s : State} (h : tableOk s.cap.rings) (n : Nat) :
    tableOk (s.ringDisable n).1.cap.rings := by
  unfold ringDisable
  dsimp only
  split
  · simpa using h
  · next hst =>
    split
    · exact h
    · simpa using tableOk_set h (ring_lt_of_st h hst) _
@[simp] theorem tableOk_ringRetry {s : State} (h : tableOk s.cap.rings) (n : Nat) : tableOk (s.ringRetry n).1.cap.rings := by
  unfold ringRetry
  dsimp only
  split
  · exact h
  · next hst => exact tableOk_setRing h (ring_lt_of_st h (by simp_all)) _
@[simp] theorem tableOk_ringSkip {s : State} (h : tableOk s.cap.rings) (n : Nat) : tableOk (s.ringSkip n).1.cap.rings := by
  unfold ringSkip
  dsimp only
  split
  · exact h
  · next hst => simpa using tableOk_set h (ring_lt_of_st h (by simp_all)) _
@[simp] theorem tableOk_ringPrio {s : State} (h : tableOk s.cap.rings) (n arg : Nat) :
    tableOk (s.ringPrio n arg).1.cap.rings := by
  unfold ringPrio
  dsimp only
  split
  · exact h
  · next hst => exact tableOk_setRing h (ring_lt_of_st h hst) _
@[simp] theorem tableOk_ringAct {s : State} (h : tableOk s.cap.rings) {n : Nat} (hn : n < 16384) (op arg : Nat) :
    tableOk (s.ringAct n op arg).1.cap.rings := by
  unfold ringAct
  split <;> simp [h, hn]
@[simp] theorem tableOk_ringStart {s : State} (h : tableOk s.cap.rings) {n : Nat} (hn : n < 16384) (op arg : Nat) :
    tableOk (s.ringStart n op arg).cap.rings := by
  simp [ringStart, h, hn]
@[simp] theorem tableOk_ringOp {s : State} (h : tableOk s.cap.rings) {n : Nat} (hn : n < 16384) (op arg : Nat) :
    tableOk (s.ringOp n op arg).cap.rings := by
  unfold ringOp
  split
  · exact h
  · split
    · split <;> simp [h, hn]
    · simp [h, hn]
@[simp] theorem tableOk_offerTail {s : State} (h : tableOk s.cap.rings) (n t : Nat) :
    tableOk (s.offerTail n t).1.cap.rings := by
  unfold offerTail
  dsimp only
  split
  · exact h
  · next hz =>
    have hn : n < 16384 := ring_lt h fun e => hz (by rw [e])
    split
    · exact h
    · split
      · exact h
      · simpa using tableOk_set h hn _

/-! ### Admission and completions (07.4, 07.5) -/

theorem tableOk_admissionFault {s : State} (h : tableOk s.cap.rings) {n : Nat} (hn : n < 16384) (status detail addr) :
    tableOk (s.admissionFault n status detail addr).cap.rings := tableOk_setRing h hn _
theorem tableOk_admitHead {s : State} (h : tableOk s.cap.rings) {n : Nat} (hn : n < 16384) (inst d null charged rs) :
    tableOk (s.admitHead n inst d null charged rs).cap.rings := by
  unfold admitHead
  dsimp only
  rw [rings_updateWork]
  exact tableOk_latchWaits (tableOk_setRing (by simpa using h) hn _)
theorem tableOk_judge {s : State} (h : tableOk s.cap.rings) {n : Nat} (hn : n < 16384) (r : Ring) :
    tableOk (s.judge n r).1.cap.rings := by
  unfold judge
  dsimp only
  (repeat' split) <;> simp [tableOk_admissionFault, tableOk_admitHead, h, hn]
/-- The winner is one of the rings that can win (07 R305). -/
theorem winner_listed {s : State} {held : List Nat} {e : Nat × Ring} (h : s.winner held = some e) :
    e ∈ s.cap.rings.filter fun e => s.eligible e.2 && !held.contains e.1 := by
  unfold winner at h
  dsimp only at h
  split at h
  · cases h
  · next f l hes =>
    rw [hes]
    split at h
    · next x hx =>
      cases h
      exact hes ▸ List.mem_of_mem_filter (List.mem_of_find?_eq_some hx)
    · exact hes ▸ List.mem_of_mem_filter (List.mem_of_head? h)
theorem winner_mem {s : State} {held : List Nat} {e : Nat × Ring} (h : s.winner held = some e) : e ∈ s.cap.rings :=
  (List.mem_filter.1 (winner_listed h)).1
theorem tableOk_arbitrate (k : Nat) (held : List Nat) {s : State} (h : tableOk s.cap.rings) :
    tableOk (arbitrate k held s).cap.rings := by
  induction k generalizing held s with
  | zero => exact h
  | succ k ih =>
    unfold arbitrate
    split
    · next n r hw =>
      have hj := tableOk_judge h (h.2 _ (winner_mem hw)) r
      split
      · next e => rw [e] at hj; exact ih _ hj
      · next e => rw [e] at hj; exact hj
    · exact h
@[simp] theorem tableOk_admission {s : State} (h : tableOk s.cap.rings) : tableOk s.admission.cap.rings := by
  unfold admission
  split
  · exact h
  · exact tableOk_arbitrate _ _ (tableOk_latchWaits h)
@[simp] theorem tableOk_bellTimeout {s : State} (h : tableOk s.cap.rings) (n : Nat) : tableOk (s.bellTimeout n).cap.rings := by
  unfold bellTimeout
  split
  · exact h
  · have hw := tableOk_latchWaits h
    dsimp only
    split
    · next hc => exact tableOk_admissionFault hw (ring_lt_of_st hw (by simp [hc.1])) _ _ _
    · exact hw
theorem tableOk_haltRing {s : State} (h : tableOk s.cap.rings) {n : Nat} (hn : n < 16384) (k head status detail addr) :
    tableOk (s.haltRing n k head status detail addr).cap.rings := by
  unfold haltRing
  dsimp only
  split <;> simp [tableOk_set, h, hn]
@[simp] theorem tableOk_completion {s : State} (h : tableOk s.cap.rings) (n : Nat) : tableOk (s.completion n).cap.rings := by
  unfold completion
  dsimp only
  split
  · exact h
  · next hc =>
    have hn : n < 16384 := ring_lt_of_st h (by simp_all)
    split
    · split
      · split
        · exact tableOk_haltRing (by simpa using h) hn _ _ _ _ _
        · rw [rings_updateWork, rings_updateHolder]
          exact tableOk_signals (tableOk_setRing (by simpa using h) hn _) _
      · exact h
    · split
      · split
        · exact tableOk_haltRing (by simpa using h) hn _ _ _ _ _
        · exact h
      · exact h

/-! ### The host's operations and the link (05.7; 20) -/

@[simp] theorem tableOk_hostBell {s : State} (h : tableOk s.cap.rings) (n set v) :
    tableOk (s.hostBell n set v).cap.rings := by simp [hostBell, h]
@[simp] theorem tableOk_hostCmd {s : State} (h : tableOk s.cap.rings) : tableOk s.hostCmd.cap.rings := by
  unfold hostCmd
  split <;> simp [h]
@[simp] theorem tableOk_drainHost {s : State} (h : tableOk s.cap.rings) : tableOk s.drainHost.cap.rings := by
  refine tableOk_foldl (fun t _ ht => ?_) _ h
  split <;> simp [ht]
@[simp] theorem tableOk_settleAll {s : State} (h : tableOk s.cap.rings) : tableOk s.settleAll.cap.rings := by
  unfold settleAll
  dsimp only
  split <;> simp [h]
@[simp] theorem tableOk_updatePair {s : State} (h : tableOk s.cap.rings) : tableOk s.updatePair.cap.rings := by
  simp [updatePair, h]
@[simp] theorem tableOk_leaveLinked {s : State} (h : tableOk s.cap.rings) : tableOk s.leaveLinked.cap.rings := by
  simp [leaveLinked, h]
@[simp] theorem tableOk_portStop {s : State} (h : tableOk s.cap.rings) : tableOk s.portStop.cap.rings := by
  simp [portStop, h]
@[simp] theorem tableOk_enterDetect {s : State} (h : tableOk s.cap.rings) : tableOk s.enterDetect.cap.rings := by
  simp [enterDetect, h]
@[simp] theorem tableOk_swRetrain {s : State} (h : tableOk s.cap.rings) : tableOk s.swRetrain.cap.rings := by
  simp [swRetrain, h]
@[simp] theorem tableOk_swDrop {s : State} (h : tableOk s.cap.rings) : tableOk s.swDrop.cap.rings := by simp [swDrop, h]
@[simp] theorem tableOk_writeSwCtrl {s : State} (h : tableOk s.cap.rings) (v) : tableOk (s.writeSwCtrl v).cap.rings := by
  have hset : tableOk (if s.swRole = 0 then s
      else s.setReg SW_CTRL (storeFields (swFields 0) (s.reg SW_CTRL) v)).cap.rings := by simp [h]
  unfold writeSwCtrl
  dsimp only
  generalize (if s.swRole = 0 then s else s.setReg SW_CTRL (storeFields (swFields 0) (s.reg SW_CTRL) v)) = t at *
  have hport : tableOk (if t.portOff then t.portStop else if s.portOff then t.portStart else t).cap.rings := by simp [hset]
  generalize (if t.portOff then t.portStop else if s.portOff then t.portStart else t) = u at *
  simp [hport]
@[simp] theorem tableOk_csrWrite {s : State} (h : tableOk s.cap.rings) (a v) : tableOk (s.csrWrite a v).cap.rings := by
  have hn : fld v 0 14 < 16384 := fld_lt v 0 14
  unfold csrWrite
  split <;> simp [h, hn]

end Sys2Proof.Machine.State
end

section
/-! PROOFS. What keeps the ring table in its canonical form (07 R295, R297): Bosun's instructions, waits and the pair. -/

namespace Sys2Proof.Machine.State

open Sys2Proof.Spec

/-! ### Stores and exceptions (14 R596; 15.3) -/

@[simp] theorem tableOk_performAt {s : State} (h : tableOk s.cap.rings) (a l) : tableOk (s.performAt a l).cap.rings := by
  unfold performAt
  dsimp only
  (repeat' split) <;> simp [h]
@[simp] theorem tableOk_performStore {s : State} (h : tableOk s.cap.rings) : tableOk s.performStore.cap.rings := by
  unfold performStore
  split <;> simp [h]
@[simp] theorem tableOk_drainStores {s : State} (h : tableOk s.cap.rings) : tableOk s.drainStores.cap.rings :=
  tableOk_foldl (fun _ _ ht => tableOk_performStore ht) _ h
@[simp] theorem tableOk_pairFault {s : State} (h : tableOk s.cap.rings) (code detail) :
    tableOk (s.pairFault code detail).cap.rings := by simp [pairFault, h]
@[simp] theorem tableOk_doubleFault {s : State} (h : tableOk s.cap.rings) (detail) :
    tableOk (s.doubleFault detail).cap.rings := by simp [doubleFault, h]
@[simp] theorem tableOk_pushWord {s : State} (h : tableOk s.cap.rings) (a v) : tableOk (s.pushWord a v).cap.rings := by
  simp [pushWord, h]
@[simp] theorem tableOk_vectorTo {s : State} (h : tableOk s.cap.rings) (vec) : tableOk (s.vectorTo vec).cap.rings := by
  unfold vectorTo
  dsimp only
  split
  · exact tableOk_doubleFault (by simpa using h) _
  · exact h
@[simp] theorem tableOk_stackFault {s : State} (h : tableOk s.cap.rings) (image epc cause bad sp code src) :
    tableOk (s.stackFault image epc cause bad sp code src).cap.rings := by simp [stackFault, h]
@[simp] theorem tableOk_enterExc {s : State} (h : tableOk s.cap.rings) (code sub src epc bd mcp bad vec) :
    tableOk (s.enterExc code sub src epc bd mcp bad vec).cap.rings := by
  unfold enterExc
  dsimp only
  split
  · simp [h]
  · split
    · refine tableOk_vectorTo ?_ _
      simp only [rings_setBs, rings_setBw]
      exact tableOk_pushWord (tableOk_pushWord (tableOk_pushWord (tableOk_pushWord h _ _) _ _) _ _) _ _
    · exact tableOk_stackFault h _ _ _ _ _ _ _
@[simp] theorem tableOk_trap {s : State} (h : tableOk s.cap.rings) (code sub bad) : tableOk (s.trap code sub bad).cap.rings := by
  unfold trap
  dsimp only
  split <;> simp [h]

/-! ### The instructions (14.5–14.11) -/

/-- What an instruction leaves has its ring table in canonical form. -/
def InsOk : BRes → Prop
  | .done s => tableOk s.cap.rings
  | .jump s _ => tableOk s.cap.rings
  | .goto s _ => tableOk s.cap.rings
  | .exc s _ _ _ => tableOk s.cap.rings
  | .block s _ => tableOk s.cap.rings
  | .stop s => tableOk s.cap.rings
@[simp] theorem insOk_done (s) : InsOk (.done s) ↔ tableOk s.cap.rings := Iff.rfl
@[simp] theorem insOk_jump (s t) : InsOk (.jump s t) ↔ tableOk s.cap.rings := Iff.rfl
@[simp] theorem insOk_goto (s t) : InsOk (.goto s t) ↔ tableOk s.cap.rings := Iff.rfl
@[simp] theorem insOk_exc (s c sub b) : InsOk (.exc s c sub b) ↔ tableOk s.cap.rings := Iff.rfl
@[simp] theorem insOk_block (s w) : InsOk (.block s w) ↔ tableOk s.cap.rings := Iff.rfl
@[simp] theorem insOk_stop (s) : InsOk (.stop s) ↔ tableOk s.cap.rings := Iff.rfl
@[simp] theorem insOk_ite (c : Prop) [Decidable c] (a b : BRes) :
    InsOk (if c then a else b) ↔ if c then InsOk a else InsOk b := by split <;> rfl

theorem tableOk_endIns (b) {r : BRes} (h : InsOk r) : tableOk (endIns b r).cap.rings := by
  cases r with
  | done s =>
    have h : tableOk s.cap.rings := h
    simp [endIns, h]
  | _ => simp_all [endIns]

theorem insOk_bload {s : State} (h : tableOk s.cap.rings) (size sg rd a) : InsOk (bload s size sg rd a) := by
  unfold bload
  dsimp only
  split
  · simp [h]
  · split
    · split
      · simp [h]
      · split <;> simp [h]
    · simp [h]
    · split <;> split
      · simp [h]
      · split <;> simp [h]
      · simp [h]
      · split <;> simp [h]
theorem insOk_bstore {s : State} (h : tableOk s.cap.rings) (size v a) : InsOk (bstore s size v a) := by
  unfold bstore
  dsimp only
  split
  · simp [h]
  · split
    · split
      · simp [h]
      · split <;> simp [h]
    · simp [h]
theorem insOk_jumpReg {s : State} (h : tableOk s.cap.rings) (t l) : InsOk (jumpReg s t l) := by
  cases l <;> simp [jumpReg, h]
theorem insOk_loopSetup {s : State} (h : tableOk s.cap.rings) (l c o) : InsOk (loopSetup s l c o) := by
  unfold loopSetup
  extract_lets n pc ls le fail
  have hf : ∀ k, InsOk (fail k) := fun k => h
  repeat' rw [insOk_ite]
  split
  · exact hf 1
  · split
    · exact hf 2
    · split
      · exact hf 3
      · split
        · exact hf 4
        · have h1 := rings_fetchWord s le
          split
          · next e => rw [e] at h1; exact (insOk_stop _).2 (by rw [h1]; exact h)
          · next t w e =>
            rw [e] at h1
            have h2 := rings_fetchWord t (le - 4)
            split
            · next e => rw [e] at h2; exact (insOk_stop _).2 (by rw [h2, h1]; exact h)
            · next e => rw [e] at h2; dsimp only at h1 h2 ⊢; simp [h1, h2, h]
theorem insOk_csrIns {s : State} (h : tableOk s.cap.rings) (w op rd ra n) : InsOk (csrIns s w op rd ra n) := by
  simp [csrIns, h]
theorem insOk_afterStores {s : State} {f} (h : tableOk s.cap.rings) (hf : ∀ t : State, tableOk t.cap.rings → InsOk (f t)) :
    InsOk (afterStores s f) := by
  simp [afterStores, h, hf]
theorem insOk_bellWait {s : State} (h : tableOk s.cap.rings) (fn eq rd ra rb) : InsOk (bellWait s fn eq rd ra rb) := by
  simp [bellWait, h]
theorem rings_sumPop {s : State} {sh rd rb t} (h : s.sumPop sh rd rb = some t) : t.cap.rings = s.cap.rings := by
  unfold sumPop at h
  split at h
  · cases h
  · cases h; simp
theorem insOk_sumrd {s : State} (h : tableOk s.cap.rings) (rd rb sh nb) : InsOk (sumrd s rd rb sh nb) := by
  unfold sumrd
  dsimp only
  split
  · next e => simpa [rings_sumPop e] using h
  · simp [h]
theorem insOk_eretTo {s : State} (h : tableOk s.cap.rings) (i t) : InsOk (eretTo s i t) := by
  simp [eretTo, h]
theorem insOk_eret {s : State} (h : tableOk s.cap.rings) : InsOk (eret s) := by
  unfold eret
  dsimp only
  split
  · exact insOk_eretTo h _ _
  · split
    · split
      · simp [h]
      · exact insOk_eretTo (by simp [h]) _ _
    · simp [h]
theorem insOk_keeperOnly {s : State} (hs : tableOk s.cap.rings) (w) {r} (h : InsOk r) : InsOk (keeperOnly s w r) := by
  simp [keeperOnly, hs, h]
theorem insOk_execIns {s : State} (h : tableOk s.cap.rings) (w i) : InsOk (execIns s w i) := by
  cases i with
  | post =>
    rw [execIns]
    refine insOk_afterStores (s := s.emitItem _ _ _) h ?_
    exact fun t ht => by simp [ht]
  | belladd =>
    rw [execIns]
    refine insOk_afterStores (s := s.emitItem _ _ _) h ?_
    exact fun t ht => by simp [ht]
  | bellset =>
    rw [execIns]
    refine insOk_afterStores (s := s.emitItem _ _ _) h ?_
    exact fun t ht => by simp [ht]
  | tack =>
    rw [execIns]
    refine insOk_keeperOnly h _ (insOk_afterStores (s := s.emitItem _ _ _) h ?_)
    exact fun t ht => by simp [ht]
  | hsig =>
    rw [execIns]
    refine insOk_afterStores (s := s.emitItem _ _ _) h ?_
    exact fun t ht => by simp [ht]
  | fence => exact insOk_afterStores h fun t ht => ht
  | _ => simp [execIns, insOk_jumpReg, insOk_bload, insOk_bstore, insOk_loopSetup, insOk_csrIns, insOk_bellWait,
      insOk_sumrd, insOk_eret, insOk_keeperOnly, h]

/-! ### A step of the two copies (16 R680, R681) -/

@[simp] theorem tableOk_keepPrefix {s : State} (h : tableOk s.cap.rings) (bs) : tableOk (s.keepPrefix bs).cap.rings :=
  tableOk_foldl (fun t b ht => by dsimp only; split <;> simp [ht]) _ h
@[simp] theorem tableOk_lockstep {f : State → State} (hf : ∀ t, tableOk t.cap.rings → tableOk (f t).cap.rings) {s : State}
    (h : tableOk s.cap.rings) : tableOk (lockstep f s).cap.rings := by
  unfold lockstep
  dsimp only
  split
  · simp [hf _ h]
  · split <;> simp [hf _ h, h]
@[simp] theorem tableOk_stepCopy {s : State} (h : tableOk s.cap.rings) : tableOk s.stepCopy.cap.rings := by
  unfold stepCopy
  dsimp only
  split
  · simp [h]
  · have hf := rings_fetchWord (s.emitFetch s.core.pc) s.core.pc
    split
    · next t e => rw [e] at hf; simpa [show t.cap.rings = _ from hf] using h
    · next t w e =>
      rw [e] at hf
      have ht : tableOk t.cap.rings := by simpa [show t.cap.rings = _ from hf] using h
      split
      · simp [ht]
      · split
        · simp [ht]
        · exact tableOk_endIns _ (insOk_execIns ht _ _)
@[simp] theorem tableOk_bosunRun (want) {s : State} (h : tableOk s.cap.rings) : tableOk (bosunRun want s).cap.rings := by
  rw [bosunRun, rings_ite, tableOk_ite]
  have hl := tableOk_lockstep (f := stepCopy) (fun _ ht => tableOk_stepCopy ht) h
  split_ifs
  · exact hl
  · exact h
@[simp] theorem tableOk_bosunIllegal {s : State} (h : tableOk s.cap.rings) : tableOk s.bosunIllegal.cap.rings := by
  unfold bosunIllegal
  split
  · exact tableOk_lockstep (fun _ ht => tableOk_stepCopy ht) h
  · exact h
@[simp] theorem tableOk_bosunNoFetch {s : State} (h : tableOk s.cap.rings) : tableOk s.bosunNoFetch.cap.rings := by
  unfold bosunNoFetch
  split
  · exact tableOk_lockstep (fun _ ht => tableOk_stepCopy ht) h
  · exact h

/-! ### Waits, interrupts and the pair's events (14 R617–R621; 15.6; 16) -/

theorem insOk_waitDone {s : State} (hs : tableOk s.cap.rings) {w r} (h : s.waitDone w = some r) : InsOk r := by
  unfold waitDone at h
  dsimp only at h
  split at h <;> simp at h
  · obtain ⟨_, rfl⟩ := h; simp [hs]
  · obtain ⟨_, rfl⟩ := h; simp [hs]
  · obtain ⟨a, h, rfl⟩ := h; simp [rings_sumPop h, hs]
  · obtain ⟨_, rfl⟩ := h; simp [hs]
  · obtain ⟨a, b, _, rfl⟩ := h; simp [hs]
  · obtain ⟨a, b, _, rfl⟩ := h; simp [hs]
@[simp] theorem tableOk_bosunWaitEnd {s : State} (h : tableOk s.cap.rings) : tableOk s.bosunWaitEnd.cap.rings := by
  unfold bosunWaitEnd
  split
  · exact h
  · next w _ =>
    extract_lets other
    split
    · refine tableOk_lockstep (fun t ht => ?_) h
      split
      · exact tableOk_endIns _ (insOk_waitDone ht ‹_›)
      · exact ht
    · exact h
@[simp] theorem tableOk_bosunWaitTimeout {s : State} (h : tableOk s.cap.rings) : tableOk s.bosunWaitTimeout.cap.rings := by
  unfold bosunWaitTimeout
  split
  · exact h
  · extract_lets own b first rd late
    split
    · have hl : ∀ g : State → State, (∀ t, tableOk t.cap.rings → tableOk (g t).cap.rings) →
          ∀ t, tableOk t.cap.rings → tableOk (late g t).cap.rings := by
        intro g hg t ht
        simp only [late]
        split
        · exact tableOk_endIns _ (hg t ht)
        · exact ht
      split
      · exact tableOk_lockstep (hl _ fun t ht => by simp [ht]) h
      · exact tableOk_lockstep (hl _ fun t ht => by simp [ht]) h
      · exact tableOk_lockstep (hl _ fun t ht => by simp [ht]) h
      · exact h
    · exact h
@[simp] theorem tableOk_copyInterrupt {s : State} (h : tableOk s.cap.rings) : tableOk s.copyInterrupt.cap.rings := by
  unfold copyInterrupt
  dsimp only
  split
  · split
    · simp [tableOk_endIns, h]
    · simp [h]
  · simp [h]
@[simp] theorem tableOk_interrupt {s : State} (h : tableOk s.cap.rings) : tableOk s.interrupt.cap.rings := by
  unfold interrupt
  split
  · exact tableOk_lockstep (fun _ ht => tableOk_copyInterrupt ht) h
  · exact h
@[simp] theorem tableOk_checkpoint {s : State} (h : tableOk s.cap.rings) : tableOk s.checkpoint.cap.rings := by
  unfold checkpoint
  split
  · exact tableOk_lockstep (fun _ ht => tableOk_enterExc ht _ _ _ _ _ _ _ _) h
  · exact h
@[simp] theorem tableOk_lockMismatch {s : State} (h : tableOk s.cap.rings) (low count) :
    tableOk (s.lockMismatch low count).cap.rings := by
  simp [lockMismatch, h]
@[simp] theorem tableOk_compFault {s : State} (h : tableOk s.cap.rings) : tableOk s.compFault.cap.rings := by
  simp [compFault, h]
@[simp] theorem tableOk_delayParity {s : State} (h : tableOk s.cap.rings) (out lane) :
    tableOk (s.delayParity out lane).cap.rings := by
  simp [delayParity, h]
@[simp] theorem tableOk_selfInject {s : State} (h : tableOk s.cap.rings) (rail0 rail1) :
    tableOk (s.selfInject rail0 rail1).cap.rings := by
  simp [selfInject, h]
@[simp] theorem tableOk_sweep {s : State} (h : tableOk s.cap.rings) : tableOk s.sweep.cap.rings := by simp [sweep, h]
@[simp] theorem tableOk_resync {s : State} (h : tableOk s.cap.rings) : tableOk s.resync.cap.rings := by
  unfold resync
  dsimp only
  split
  · split
    · simp [tableOk_endIns, h]
    · simp [h]
  · simp [h]

end Sys2Proof.Machine.State
end

section
/-! PROOFS. What keeps the ring table in its canonical form (07 R295, R297): images, Muster and the wakes. -/

namespace Sys2Proof.Machine

open Sys2Proof.Spec State

/-! ### What an image's records name (21 R852) -/

/-- What a check yields, where it passes, has `Q`. -/
def ChkYields {α : Type} (Q : α → Prop) (r : Chk α) : Prop := ∀ a, r.2 = .ok a → Q a

theorem ChkYields.next {α β : Type} {P : α → Prop} {Q : β → Prop} {r : Chk α} {f : State → α → Chk β}
    (hr : ChkYields P r) (hf : ∀ t a, P a → ChkYields Q (f t a)) : ChkYields Q (r.next f) := by
  obtain ⟨t, e⟩ := r
  cases e with
  | error c => exact fun _ h => nomatch h
  | ok a => exact hf t a (hr a rfl)

theorem ChkYields.any {α β : Type} {Q : β → Prop} {r : Chk α} {f : State → α → Chk β}
    (hf : ∀ t a, ChkYields Q (f t a)) : ChkYields Q (r.next f) :=
  ChkYields.next (P := fun _ => True) (fun _ _ => trivial) fun t a _ => hf t a

theorem chkYields_ok {α : Type} {Q : α → Prop} {s : State} {a : α} (h : Q a) : ChkYields Q ((s, .ok a) : Chk α) :=
  fun b hb => by cases hb; exact h

/-- The ring records name rings of the table. -/
theorem checkRecords_rings (src : ImgSrc) (sects : List Sect) (s : State) :
    ChkYields (fun x : List (Nat × Word × Word × Word) × List (Nat × List Word) => ∀ e ∈ x.2, e.1 < 16384)
      (checkRecords src sects s) := by
  refine ChkYields.any fun t l => ChkYields.any fun u m => ChkYields.any fun v _ => chkYields_ok fun e he => ?_
  obtain ⟨r, -, rfl⟩ := List.mem_map.1 he
  exact fld_lt _ 0 14

theorem checkImage_rings (src : ImgSrc) (s : State) :
    ChkYields (fun x : Fratitha => ∀ e ∈ x.rings, e.1 < 16384) (checkImage src s) :=
  ChkYields.any fun _ _ => ChkYields.any fun _ _ => ChkYields.any fun _ _ => ChkYields.any fun _ _ => ChkYields.any fun _ _ =>
    ChkYields.next (checkRecords_rings _ _ _) fun _ _ h => ChkYields.any fun _ _ => chkYields_ok h

namespace State

/-! ### The commit of an image (21 R856) -/

theorem tableOk_enableWith {s : State} (h : tableOk s.cap.rings) {n : Nat} (hn : n < 16384) (ws) :
    tableOk (s.enableWith n ws).cap.rings := tableOk_setRing h hn _
theorem tableOk_loadRings (s : State) {ns : List (Nat × List Word)} (hns : ∀ e ∈ ns, e.1 < 16384) :
    tableOk (s.loadRings ns).cap.rings := by
  unfold loadRings
  rw [rings_resetBells]
  dsimp only
  have h0 : tableOk ({ s with cap := { s.cap with rings := [], lastAdm := [] } } : State).cap.rings := tableOk_nil
  generalize ({ s with cap := { s.cap with rings := [], lastAdm := [] } } : State) = u at *
  induction ns generalizing u with
  | nil => exact h0
  | cons e ns ih =>
    obtain ⟨he, hns⟩ := List.forall_mem_cons.1 hns
    refine ih hns _ ?_
    dsimp only
    split
    · exact h0
    · split
      · simpa using h0
      · exact tableOk_enableWith (by simpa using h0) he _
@[simp] theorem tableOk_disableAll {s : State} (h : tableOk s.cap.rings) : tableOk s.disableAll.cap.rings := by
  refine tableOk_foldl (fun t n ht => ?_) _ h
  split <;> simp [ht]
theorem tableOk_commitImage (src) {s : State} (h : tableOk s.cap.rings) {x : Fratitha} (hx : ∀ e ∈ x.rings, e.1 < 16384) :
    tableOk (commitImage src s x).1.cap.rings := by
  have hd := tableOk_disableAll h
  unfold commitImage
  dsimp only
  split
  · exact hd
  · have hp : tableOk ((placeSects src x.sects s.disableAll).next fun s _ =>
      (placeNet src x.sects false s).next fun s _ => placeNet src x.sects true s).1.cap.rings :=
      Chk.next_keeps (P := fun t => tableOk t.cap.rings) (by simpa using hd) fun t _ ht =>
        Chk.next_keeps (P := fun t => tableOk t.cap.rings) (by simpa using ht) fun u _ hu => by simpa using hu
    split
    · next e => rw [e] at hp; simpa using hp
    · have hr := tableOk_loadRings (State.loadRegions ‹_› x.regions) hx
      split
      · exact hr
      · simpa using hr
@[simp] theorem tableOk_bindImage (src) {s : State} (h : tableOk s.cap.rings) : tableOk (bindImage src s).1.cap.rings := by
  have hc := rings_checkImage src s
  have hy := checkImage_rings src s
  unfold bindImage
  generalize checkImage src s = r at *
  obtain ⟨t, e⟩ := r
  have ht : tableOk t.cap.rings := by rw [show t.cap.rings = _ from hc]; exact h
  cases e with
  | error c => exact ht
  | ok x => exact tableOk_commitImage src ht (hy x rfl)

/-! ### Resets, the boot flow, REEF, BIND and the wakes (03) -/

@[simp] theorem tableOk_resetTo (s : State) (hold) : tableOk (s.resetTo hold).cap.rings := by simp [resetTo]
@[simp] theorem tableOk_bootTry {s : State} (h : tableOk s.cap.rings) (fl first block image) :
    tableOk (s.bootTry fl first block image).1.cap.rings := by
  unfold bootTry
  extract_lets q quad t off w reach far dests
  have ht : tableOk t.cap.rings := by simp [t, h]
  split
  · simp [ht]
  · have h := tableOk_bindImage (.flash image) ht
    split
    · next e => rw [e] at h; exact h
    · next e =>
      rw [e] at h
      split
      · exact h
      · simpa using h
@[simp] theorem tableOk_bootEnd {s : State} (h : tableOk s.cap.rings) (fl) : tableOk (s.bootEnd fl).cap.rings := by
  unfold bootEnd
  split
  · exact h
  · extract_lets bosun t a b done useB go
    have ht : tableOk t.cap.rings := h
    have hdone : ∀ (u : State) (ok : Bool), tableOk u.cap.rings → tableOk (done u ok).cap.rings := fun u ok hu => by
      simp [done, hu]
    have hgo : ∀ (u : State) (first second : Bool), tableOk u.cap.rings → tableOk (go u first second).1.cap.rings :=
      fun u first second hu => by simp [go, hu]
    split
    · exact hdone _ _ (by simpa using ht)
    · have h1 := hgo t true useB ht
      generalize go t true useB = x at *
      dsimp only
      split
      · exact hdone _ _ h1
      · split
        · exact hdone _ _ (hgo _ _ _ h1)
        · exact hdone _ _ h1
@[simp] theorem tableOk_reefAccept {s : State} (h : tableOk s.cap.rings) (retain) :
    tableOk (s.reefAccept retain).cap.rings := by
  unfold reefAccept
  have hd := tableOk_drainComplete h
  dsimp only
  generalize s.drainComplete = t at *
  cases retain <;> simpa using hd
@[simp] theorem tableOk_tryStop {s : State} (h : tableOk s.cap.rings) (c) : tableOk (s.tryStop c).cap.rings := by
  unfold tryStop
  split
  · exact h
  · extract_lets t dev bosun u
    have hu : tableOk u.cap.rings := tableOk_drainStores (by simp [t, h])
    split
    · exact hu
    · split
      · simpa using hu
      · split
        · exact tableOk_reefAccept hu _
        · exact hu
@[simp] theorem tableOk_bindEnd {s : State} (h : tableOk s.cap.rings) : tableOk s.bindEnd.cap.rings := by
  unfold bindEnd
  split
  · exact h
  · split
    · exact h
    · split
      · exact tableOk_tryStop h _
      · split
        · exact h
        · extract_lets stale dests idle fail
          have hidle : ∀ u : State, (idle u).cap.rings = u.cap.rings := fun _ => rfl
          have hfail : ∀ (u : State) (c : Nat), (fail u c).cap.rings = u.cap.rings := fun u c => by simp [fail]
          have hx : tableOk (if stale = true then s.draw 8 else (0, s)).2.cap.rings := by simp [h]
          generalize (if stale = true then s.draw 8 else (0, s)) = y at *
          dsimp only
          split
          · simp [hidle, hfail, hx]
          · have hb := tableOk_bindImage (.mem (‹Command›).arg.toNat) hx
            split
            · exact hb
            · split <;> simp [hidle, hfail, hb]
@[simp] theorem rings_restart (s : State) (retained : Bool) :
    (s.restart retained).cap.rings = if retained then s.cap.rings else [] := by cases retained <;> rfl
@[simp] theorem rings_coldStart (s : State) : s.coldStart.cap.rings = [] := by simp [coldStart]
@[simp] theorem tableOk_startWake {s : State} (h : tableOk s.cap.rings) : tableOk s.startWake.cap.rings := by
  simp [startWake, h]
@[simp] theorem tableOk_reefDone {s : State} (h : tableOk s.cap.rings) : tableOk s.reefDone.cap.rings := by
  unfold reefDone
  split
  · exact h
  · split
    · exact h
    · split
      · exact tableOk_tryStop h _
      · split
        · have hp := tableOk_portStop h
          dsimp only
          generalize s.portStop = t at *
          split
          · exact tableOk_startWake (by simpa using hp)
          · simpa using hp
        · exact h
@[simp] theorem tableOk_wakeDone {s : State} (h : tableOk s.cap.rings) : tableOk s.wakeDone.cap.rings := by
  simp [wakeDone, h]

end State

end Sys2Proof.Machine
end

section
/-! PROOFS. What keeps the ring table in its canonical form (07 R295, R297): the Deck, events, flits, and so every step. -/

namespace Sys2Proof.Machine.State

open Sys2Proof.Spec

/-! ### The Deck (05; 21 R861) -/

@[simp] theorem tableOk_mapAccess {s : State} (h : tableOk s.cap.rings) (a w) : tableOk (s.mapAccess a w).1.cap.rings := by
  unfold mapAccess
  dsimp only
  (repeat' split) <;> simp [h]
@[simp] theorem tableOk_winAccess {s : State} (h : tableOk s.cap.rings) (w slow) :
    tableOk (s.winAccess w slow).cap.rings := by
  unfold winAccess
  dsimp only
  (repeat' split) <;> simp [h]
@[simp] theorem tableOk_winComplete {s : State} (h : tableOk s.cap.rings) : tableOk s.winComplete.cap.rings := by
  unfold winComplete
  dsimp only
  split
  · split
    · exact h
    · split
      · exact tableOk_drainHost (by simpa using h)
      · next w _ _ _ =>
        have hm := tableOk_mapAccess (s := { s with deck := { s.deck with win := none } }) h w.addr w.write
        exact tableOk_drainHost (by simpa using hm)
  · exact h
@[simp] theorem tableOk_doorAnswer {s : State} (h : tableOk s.cap.rings) : tableOk s.doorAnswer.cap.rings := by
  unfold doorAnswer
  split
  · next n t _ _ =>
    split
    · exact h
    · have ho : tableOk (if (!s.capRuns || s.bindRuns) = true then (s.popHost, 3) else s.popHost.offerTail n t).1.cap.rings := by
        simp [h]
      generalize (if (!s.capRuns || s.bindRuns) = true then (s.popHost, 3) else s.popHost.offerTail n t) = x at *
      exact tableOk_drainHost (by simpa using ho)
  · exact h
@[simp] theorem tableOk_bellValWrite {s : State} (h : tableOk s.cap.rings) (v) :
    tableOk (s.bellValWrite v).cap.rings := by simp [bellValWrite, h]
@[simp] theorem tableOk_cmdStart {s : State} (h : tableOk s.cap.rings) (op retain skip) :
    tableOk (s.cmdStart op retain skip).cap.rings := by
  unfold cmdStart
  split
  · exact tableOk_tryStop (by simpa using h) _
  · exact tableOk_startWake (by simpa using h)
  · exact tableOk_tryStop (by simpa using h) _
  · exact tableOk_drainHost (by simpa using h)
@[simp] theorem tableOk_cmdWrite {s : State} (h : tableOk s.cap.rings) (v) : tableOk (s.cmdWrite v).cap.rings := by
  simp [cmdWrite, h]
@[simp] theorem tableOk_deckRead {s : State} (h : tableOk s.cap.rings) (o) : tableOk (s.deckRead o).cap.rings := by
  unfold deckRead
  dsimp only
  (repeat' split) <;> simp [h]
@[simp] theorem tableOk_deckWrite {s : State} (h : tableOk s.cap.rings) (o v) : tableOk (s.deckWrite o v).cap.rings := by
  have hl : tableOk s.clearTags.latchWaits.cap.rings := tableOk_latchWaits (by simpa using h)
  have hc : ∀ x, tableOk (s.clearTags.latchWaits.setDk o x).latchWaits.cap.rings := fun x =>
    tableOk_latchWaits (by simpa using hl)
  simp [deckWrite, h, hc]
@[simp] theorem tableOk_hostRead {s : State} (h : tableOk s.cap.rings) (o) : tableOk (s.hostRead o).cap.rings := by
  simp [hostRead, h]
@[simp] theorem tableOk_hostWrite {s : State} (h : tableOk s.cap.rings) (o v) : tableOk (s.hostWrite o v).cap.rings := by
  simp [hostWrite, h]
@[simp] theorem tableOk_byteRead {s : State} (h : tableOk s.cap.rings) (k high) :
    tableOk (s.byteRead k high).cap.rings := by simp [byteRead, h]
@[simp] theorem tableOk_byteWrite {s : State} (h : tableOk s.cap.rings) (k high b) :
    tableOk (s.byteWrite k high b).cap.rings := by
  unfold byteWrite
  (repeat' split) <;> simp [h]
@[simp] theorem tableOk_dapAccess {s : State} (h : tableOk s.cap.rings) (a w) : tableOk (s.dapAccess a w).cap.rings := by
  unfold dapAccess
  dsimp only
  (repeat' split) <;> simp [h]
@[simp] theorem tableOk_csrReach {s : State} (h : tableOk s.cap.rings) (a v) : tableOk (s.csrReach a v).cap.rings := by
  simp [csrReach, h]
theorem tableOk_winTimeout {s : State} (h : tableOk s.cap.rings) (w : Option Half) :
    tableOk (if s.deckFree then s.clearTags.winAccess (w.map s.winWord) true
      else match s.deck.win with | some x => if x.late then s else s.winExpire | none => s).cap.rings := by
  split
  · simp [h]
  · split <;> simp [h]

/-! ### Events (19) and flits (20) -/

@[simp] theorem tableOk_raiseEvent {s : State} (h : tableOk s.cap.rings) (gesture c v) :
    tableOk (s.raiseEvent gesture c v).cap.rings := by
  simp [raiseEvent, h]
@[simp] theorem tableOk_inferenceEnd {s : State} (h : tableOk s.cap.rings) : tableOk s.inferenceEnd.cap.rings := by
  have hi : tableOk s.infer.1.cap.rings := by simpa using h
  unfold inferenceEnd
  split
  · split
    · next e => rw [e] at hi; exact tableOk_raiseEvent hi _ _ _
    · next e => rw [e] at hi; exact hi
  · exact h

@[simp] theorem tableOk_sequenced {s : State} (h : tableOk s.cap.rings) (f : Flit) {g : State → State}
    (hg : ∀ t, tableOk t.cap.rings → tableOk (g t).cap.rings) : tableOk (s.sequenced f g).cap.rings := by
  simp [sequenced, hg, h]
@[simp] theorem tableOk_linkFresh {s : State} (h : tableOk s.cap.rings) (hdr) : tableOk (s.linkFresh hdr).cap.rings := by
  simp [linkFresh, h]
@[simp] theorem tableOk_linkResume {s : State} (h : tableOk s.cap.rings) (hdr seq) :
    tableOk (s.linkResume hdr seq).cap.rings := by simp [linkResume, h]
@[simp] theorem tableOk_configFlit {s : State} (h : tableOk s.cap.rings) (f) : tableOk (s.configFlit f).cap.rings := by
  simp [configFlit, h]
@[simp] theorem tableOk_peerBell {s : State} (h : tableOk s.cap.rings) (f) : tableOk (s.peerBell f).cap.rings := by
  simp [peerBell, h]
@[simp] theorem tableOk_answerOp {s : State} (h : tableOk s.cap.rings) (tag sentOnly a) :
    tableOk (s.answerOp tag sentOnly a).cap.rings := by
  unfold answerOp
  split <;> simp [h]
@[simp] theorem tableOk_response {s : State} (h : tableOk s.cap.rings) (f) : tableOk (s.response f).cap.rings := by
  simp [response, h]
@[simp] theorem tableOk_remoteTimeout {s : State} (h : tableOk s.cap.rings) (tag) :
    tableOk (s.remoteTimeout tag).cap.rings := by simp [remoteTimeout, h]
@[simp] theorem tableOk_sendConfig {s : State} (h : tableOk s.cap.rings) : tableOk s.sendConfig.cap.rings := by
  simp [sendConfig, h]
@[simp] theorem tableOk_flitSlot {s : State} (h : tableOk s.cap.rings) : tableOk s.flitSlot.cap.rings := by
  unfold flitSlot
  split
  · exact h
  · split
    · simp [h]
    · split
      · simp [h]
      · split
        · simp [h]
        · split
          · split <;> simp [h]
          · extract_lets room req _ rsp msg
            have hrings : ∀ x ∈ req ++ rsp ++ msg, x.1.cap.rings = s.cap.rings := by
              intro x hx
              rcases List.mem_append.1 hx with hx | hx
              · rcases List.mem_append.1 hx with hx | hx
                · unfold req at hx
                  split at hx
                  · obtain ⟨y, hy, rfl⟩ := List.mem_map.1 hx
                    simpa using rings_nextReq (Option.mem_toList.1 hy)
                  · cases hx
                · unfold rsp at hx
                  split at hx
                  · obtain ⟨y, -, rfl⟩ := List.mem_map.1 hx
                    simp
                  · cases hx
              · unfold msg at hx
                split at hx
                · obtain ⟨y, -, rfl⟩ := List.mem_map.1 hx
                  simp
                · cases hx
            split
            · simp [h]
            · next x e => simpa [hrings x (by rw [e]; simp)] using h
            · next x xs _ e =>
              rw [e] at hrings
              have hlt := Nat.mod_lt (s.draw 8).1.toNat (Nat.succ_pos xs.length)
              have hy := hrings ((x :: xs).getD ((s.draw 8).1.toNat % (xs.length + 1)) x) (by
                rw [List.getD_eq_getElem _ _ hlt]
                exact List.getElem_mem hlt)
              rw [rings_sendNew]
              exact hy ▸ h

/-! ### Every command and every step -/

/-- A ring operation whose guard names a ring of the table. -/
theorem tableOk_ringOpIf {s : State} (h : tableOk s.cap.rings) {p : Prop} [Decidable p] {n : Nat} (hp : p → n < 16384)
    (op arg : Nat) : tableOk (if p then s.ringOp n op arg else s).cap.rings := by
  split
  · exact tableOk_ringOp h (hp ‹_›) op arg
  · exact h

theorem tableOk_exec {c : Instr} {s t : State} (hs : tableOk s.cap.rings) (h : exec c s = .next t) : tableOk t.cap.rings := by
  cases c with
  | registerWrite r v =>
    obtain rfl := Host.Outcome.next.inj h
    cases r <;> simp [hs]
  | winTimeout w =>
    obtain rfl := Host.Outcome.next.inj h
    exact tableOk_winTimeout hs w
  | enable n | disable n | resumeRetry n | resumeSkip n | prio n arg =>
    obtain rfl := Host.Outcome.next.inj h
    exact tableOk_ringOpIf hs id _ _
  | ringOpBadarg n op =>
    obtain rfl := Host.Outcome.next.inj h
    exact tableOk_ringOpIf hs And.left _ _
  | flitBell f =>
    obtain rfl := Host.Outcome.next.inj h
    exact tableOk_sequenced hs f fun _ ht => tableOk_peerBell ht f
  | flitWrrsp f | flitRdrsp f =>
    obtain rfl := Host.Outcome.next.inj h
    exact tableOk_sequenced hs f fun _ ht => tableOk_response ht f
  | _ =>
    obtain rfl := Host.Outcome.next.inj h
    simp [hs]

theorem tableOk_step {s t : State} (hs : tableOk s.cap.rings) (h : step s = .next t) : tableOk t.cap.rings := by
  unfold step at h
  split at h
  · cases h
    exact hs
  · exact tableOk_exec (by exact hs) h

end Sys2Proof.Machine.State
end

section
/-! PROOFS. The obligation of the ring table (07 R295, R297). -/

namespace Sys2Proof

open Machine Machine.State Spec

/-- Settles O5: a step sets rings only at numbers the table holds or that its commands are checked for, and a table read
from an image has the image's numbers, of 14 bits each. -/
theorem everyStepKeepsTheRingTable : Obligations.EveryStepKeepsTheRingTable := by
  unfold Obligations.EveryStepKeepsTheRingTable
  refine ⟨(ringsWf_iff _).2 tableOk_nil, fun s t h hstep => ?_⟩
  exact (ringsWf_iff t).2 (tableOk_step ((ringsWf_iff s).1 h) hstep)

end Sys2Proof
end

section
/-! PROOFS. The end of a Tack's drain (07 R318, R319, R337). -/

namespace Sys2Proof.Machine.State

open Sys2Proof.Spec

/-! ### Some rings of a table rewritten -/

/-- The listed ring, where it has `p`, becomes its image under `g`. -/
def reRing (p : Ring → Bool) (g : Ring → Ring) (s : State) (e : Nat × Ring) : State :=
  if p e.2 then s.setRing e.1 (g e.2) else s

/-- One ring, and what its words follow. -/
theorem reRing_spec (p : Ring → Bool) (g : Ring → Ring) (s : State) {e : Nat × Ring} (hn : e.1 < 16384) :
    let t := s.reRing p g e
    t = { s with cap := { s.cap with rings := t.cap.rings }, mem := t.mem, ecc := t.ecc, inject := t.inject, regs := t.regs
                 free := t.free } ∧
    (∀ a, eccReg a = false → a ≠ CN_STAT → t.reg a = s.reg a) ∧
    (∀ a, a < 0x380000 ∨ 0x400000 ≤ a → t.byteAt a = s.byteAt a) ∧
    (s.ring e.1 = e.2 → t.ring e.1 = if p e.2 then g e.2 else e.2) ∧ (∀ m, m ≠ e.1 → t.ring m = s.ring m) ∧
    (wholeWords s (ringAddr e.1 + 16) 16 → t.free = s.free ∧ csrKept s t [RG_ECC_INJ]) ∧
    ∀ m, m ≠ e.1 → wholeWords s (ringAddr m + 16) 16 → wholeWords t (ringAddr m + 16) 16 := by
  unfold reRing
  dsimp only
  split
  · obtain ⟨hf, -, hself, hne, hmem, hwhole⟩ := ringSet_setRing s (g e.2) hn
    refine ⟨hf, fun a => reg_setRing s e.1 _, fun a ha => hmem a ?_, fun _ => hself, hne, fun hw => ?_,
      fun m hm => wholeWords_setRing _ hn hm⟩
    · unfold ringAddr
      omega
    · obtain ⟨hfree, hreg, -⟩ := hwhole hn hw
      exact ⟨hfree, hreg⟩
  · exact ⟨rfl, fun _ _ _ => rfl, fun _ _ => rfl, id, fun _ _ => rfl, fun _ => ⟨rfl, fun _ _ => rfl⟩, fun _ _ => id⟩

/-- Every ring of a table with its numbers distinct. -/
theorem reRings_spec (p : Ring → Bool) (g : Ring → Ring) (l : List (Nat × Ring)) (s : State) (hn : ∀ e ∈ l, e.1 < 16384)
    (hd : l.Pairwise fun e f => e.1 ≠ f.1) (hl : ∀ e ∈ l, s.ring e.1 = e.2) :
    let t := l.foldl (reRing p g) s
    t = { s with cap := { s.cap with rings := t.cap.rings }, mem := t.mem, ecc := t.ecc, inject := t.inject, regs := t.regs
                 free := t.free } ∧
    (∀ a, eccReg a = false → a ≠ CN_STAT → t.reg a = s.reg a) ∧
    (∀ a, a < 0x380000 ∨ 0x400000 ≤ a → t.byteAt a = s.byteAt a) ∧
    (∀ n, t.ring n = if n ∈ l.map Prod.fst ∧ p (s.ring n) then g (s.ring n) else s.ring n) ∧
    ((∀ e ∈ l, wholeWords s (ringAddr e.1 + 16) 16) → t.free = s.free ∧ csrKept s t [RG_ECC_INJ]) := by
  induction l generalizing s with
  | nil => exact ⟨rfl, fun _ _ _ => rfl, fun _ _ => rfl, fun _ => by simp, fun _ => ⟨rfl, fun _ _ => rfl⟩⟩
  | cons e l ih =>
    obtain ⟨hne, hn⟩ := List.forall_mem_cons.1 hn
    obtain ⟨hde, hd⟩ := List.pairwise_cons.1 hd
    obtain ⟨hle, hl⟩ := List.forall_mem_cons.1 hl
    obtain ⟨hf, hr, hb, hself, hother, hw, hwo⟩ := reRing_spec p g s hne
    obtain ⟨kf, kr, kb, kring, kw⟩ := ih (s.reRing p g e) hn hd fun f hf => (hother f.1 (hde f hf).symm).trans (hl f hf)
    rw [List.foldl_cons]
    generalize s.reRing p g e = u at *
    refine ⟨?_, fun a h hc => (kr a h hc).trans (hr a h hc), fun a h => (kb a h).trans (hb a h), fun n => ?_, fun hwhole => ?_⟩
    · generalize l.foldl (reRing p g) u = t at *
      rw [hf] at kf
      exact kf
    · rw [kring n]
      simp only [List.map_cons, List.mem_cons]
      rcases eq_or_ne n e.1 with rfl | hn
      · have hnot : e.1 ∉ l.map Prod.fst := by
          rw [List.mem_map]
          rintro ⟨f, hf, hfe⟩
          exact hde f hf hfe.symm
        rw [if_neg fun h => hnot h.1, hself hle, hle]
        simp only [true_or, true_and]
      · rw [hother n hn]
        simp only [hn, false_or]
    · obtain ⟨hwe, hwl⟩ := List.forall_mem_cons.1 hwhole
      obtain ⟨hfree, hreg⟩ := hw hwe
      obtain ⟨kfree, kreg⟩ := kw fun f hf => hwo f.1 (hde f hf).symm (hwl f hf)
      exact ⟨kfree.trans hfree, fun a ha => (kreg a ha).trans (hreg a ha)⟩

/-- The table after every wait has been judged lists the same rings, each once. -/
theorem latchWaits_rings {s : State} (h : ringsWf s) :
    (∀ e ∈ s.latchWaits.cap.rings, e.1 < 16384) ∧ (s.latchWaits.cap.rings.Pairwise fun e f => e.1 ≠ f.1) ∧
    (∀ e ∈ s.latchWaits.cap.rings, s.latchWaits.ring e.1 = e.2) ∧
    s.latchWaits.cap.rings.map Prod.fst = s.cap.rings.map Prod.fst := by
  obtain ⟨hwf, hlt⟩ := h
  obtain ⟨hp, hg⟩ := pairwise_of_wf hwf
  have hr : s.latchWaits.cap.rings = s.cap.rings.map fun e => (e.1, s.latchOne e.2) := rfl
  rw [hr]
  refine ⟨List.forall_mem_map.2 hlt, List.pairwise_map.2 hp, List.forall_mem_map.2 fun e he => ?_, ?_⟩
  · exact (ring_latchWaits s e.1).trans (congrArg s.latchOne (hg e he).2)
  · rw [List.map_map]
    rfl

/-! ### The drain's end -/

/-- DRAIN and STALE clear once the waits have been judged. -/
def undrained (s : State) : State := (s.latchWaits.setRf CAP_EPOCH 8 1 0).setRf CAP_EPOCH 30 1 0

/-- Every CUT_V clears. -/
def uncut (s : State) : State :=
  s.latchWaits.cap.rings.foldl (reRing (fun r => r.cutV) fun r => { r with cutV := false }) s.undrained

/-- HELD is set where HOLD asks for it: the state before the Bell. -/
def drainEnded (s : State) : State :=
  if s.uncut.rbit CAP_TACK_CFG 9 then s.uncut.setRf CAP_EPOCH 9 1 1 else s.uncut

theorem drainComplete_eq {s : State} (hd : s.draining = true) (hh : s.holders = []) :
    s.drainComplete = if s.drainEnded.rbit CAP_TACK_CFG 8 then
      s.drainEnded.bellOp (s.drainEnded.rf CAP_TACK_CFG 0 8) false 1 else s.drainEnded :=
  if_pos (by rw [hd, hh]; rfl)

theorem drainComplete_none {s : State} (h : s.draining = false ∨ s.holders ≠ []) : s.drainComplete = s :=
  if_neg (by rcases h with h | h <;> simp [h])

theorem undrained_frame (s : State) : s.undrained = { s.latchWaits with regs := s.undrained.regs } := rfl

theorem reg_undrained (s : State) : s.undrained.reg CAP_EPOCH = putFld (putFld (s.reg CAP_EPOCH) 8 1 0) 30 1 0 := by
  rw [undrained, setRf, reg_setReg_self, setRf, reg_setReg_self]
  rfl

theorem csrKept_undrained (s : State) : csrKept s s.undrained [CAP_EPOCH] := fun a ha => by
  have ha : a ≠ CAP_EPOCH := by simpa using ha
  rw [undrained, reg_setRf_ne _ _ _ _ ha, reg_setRf_ne _ _ _ _ ha]
  rfl

/-- A CUT_V that clears changes neither what the head has reached nor any other part of a ring. -/
theorem sameRing_uncut (s : State) (r : Ring) :
    sameRing { r with cutV := false }
      (if (s.latchOne r).cutV then { s.latchOne r with cutV := false } else s.latchOne r) := by
  have hs := sameRing_latchOne s r
  generalize s.latchOne r = x at *
  unfold sameRing at hs ⊢
  rw [hs]
  cases hc : r.cutV
  · simp [← hc]
  · simp

/-- The drain's end up to HELD, as the statement has it (07 R318, R319). -/
theorem uncut_spec {s : State} (h : ringsWf s) :
    s.uncut = { s with regs := s.uncut.regs, mem := s.uncut.mem, ecc := s.uncut.ecc, inject := s.uncut.inject
                       free := s.uncut.free, cap := { s.cap with rings := s.uncut.cap.rings } } ∧
    s.uncut.reg CAP_EPOCH = putFld (putFld (s.reg CAP_EPOCH) 8 1 0) 30 1 0 ∧
    s.uncut.reg CAP_TACK_CFG = s.reg CAP_TACK_CFG ∧
    (tableWhole s → csrKept s s.uncut [CAP_EPOCH, RG_ECC_INJ] ∧ s.uncut.free = s.free) ∧
    (∀ a, a < 0x380000 ∨ 0x400000 ≤ a → s.uncut.byteAt a = s.byteAt a) ∧
    ∀ n, sameRing { s.ring n with cutV := false } (s.uncut.ring n) := by
  obtain ⟨hlt, hp, hg, hkeys⟩ := latchWaits_rings h
  obtain ⟨hf, hr, hb, hring, hw⟩ := reRings_spec (fun r => r.cutV) (fun r => { r with cutV := false }) _ s.undrained hlt hp hg
  have hreg := reg_undrained s
  have hkept := csrKept_undrained s
  have hu := undrained_frame s
  have hr0 : ∀ n, s.undrained.ring n = s.latchOne (s.ring n) := fun n => ring_latchWaits s n
  dsimp only at hf
  rw [← uncut] at hf hr hb hring hw
  generalize s.uncut = t at *
  generalize s.undrained = u at *
  have hmem : u.mem = s.mem := by rw [hu]; rfl
  refine ⟨?_, (hr CAP_EPOCH (by decide) (by decide)).trans hreg,
    (hr CAP_TACK_CFG (by decide) (by decide)).trans (hkept _ (by decide)), fun htab => ?_,
    fun a ha => (hb a ha).trans (byteAt_of_mem_eq hmem a), fun n => ?_⟩
  · rw [hu] at hf
    exact hf
  · have hecc : u.ecc = s.ecc := by rw [hu]; rfl
    obtain ⟨hfree, hkeeps⟩ := hw fun e he => by
      rw [wholeWords, damaged, hecc]
      exact htab e.1 (hlt e he)
    refine ⟨fun a ha => ?_, hfree.trans (by rw [hu]; rfl)⟩
    simp only [List.mem_cons, List.not_mem_nil, or_false, not_or] at ha
    exact (hkeeps a (by simpa using ha.2)).trans (hkept a (by simpa using ha.1))
  · rw [hring n, hkeys, hr0]
    by_cases hn : n ∈ s.cap.rings.map Prod.fst
    · simp only [hn, true_and]
      exact sameRing_uncut s (s.ring n)
    · have hdef : s.ring n = {} := get_of_not_mem hn
      rw [if_neg fun h => hn h.1, hdef, latchOne_default]
      rfl

/-- HELD is set where HOLD asks for it, and nothing else. -/
theorem drainEnded_reg (s : State) : s.drainEnded = { s.uncut with regs := s.drainEnded.regs } ∧
    s.drainEnded.reg CAP_EPOCH =
      (if s.uncut.rbit CAP_TACK_CFG 9 then putFld (s.uncut.reg CAP_EPOCH) 9 1 1 else s.uncut.reg CAP_EPOCH) ∧
    csrKept s.uncut s.drainEnded [CAP_EPOCH] := by
  unfold drainEnded
  split
  · exact ⟨rfl, reg_setReg_self _ _ _, csrKept_setRf_one _ _ _ _ _⟩
  · exact ⟨rfl, rfl, csrKept_refl _ _⟩

theorem drainEnded_spec {s : State} (h : ringsWf s) :
    s.drainEnded = { s with regs := s.drainEnded.regs, mem := s.drainEnded.mem, ecc := s.drainEnded.ecc
                            inject := s.drainEnded.inject, free := s.drainEnded.free
                            cap := { s.cap with rings := s.drainEnded.cap.rings } } ∧
    s.drainEnded.reg CAP_EPOCH = (if s.rbit CAP_TACK_CFG 9 then putFld (putFld (putFld (s.reg CAP_EPOCH) 8 1 0) 30 1 0) 9 1 1
      else putFld (putFld (s.reg CAP_EPOCH) 8 1 0) 30 1 0) ∧
    s.drainEnded.reg CAP_TACK_CFG = s.reg CAP_TACK_CFG ∧
    (tableWhole s → csrKept s s.drainEnded [CAP_EPOCH, RG_ECC_INJ] ∧ s.drainEnded.free = s.free) ∧
    (∀ a, a < 0x380000 ∨ 0x400000 ≤ a → s.drainEnded.byteAt a = s.byteAt a) ∧
    ∀ n, sameRing { s.ring n with cutV := false } (s.drainEnded.ring n) := by
  obtain ⟨hf, hepoch, hcfg, hw, hb, hring⟩ := uncut_spec h
  obtain ⟨hd, he, hk⟩ := drainEnded_reg s
  generalize s.drainEnded = v at *
  generalize s.uncut = u at *
  have hcfg9 : u.rbit CAP_TACK_CFG 9 = s.rbit CAP_TACK_CFG 9 := by rw [rbit_eq_bit, hcfg, ← rbit_eq_bit]
  have hmem : v.mem = u.mem := by rw [hd]
  have hrings : v.cap.rings = u.cap.rings := by rw [hd]
  refine ⟨?_, ?_, (hk _ (by decide)).trans hcfg, fun ht => ?_, fun a ha => (byteAt_of_mem_eq hmem a).trans (hb a ha),
    fun n => ?_⟩
  · rw [hd, hf]
  · rw [he, hepoch, hcfg9]
  · obtain ⟨hkeep, hfree⟩ := hw ht
    refine ⟨csrKept_trans hkeep (csrKept_mono hk (by decide)), ?_⟩
    rw [← hfree, hd]
  · have hr : v.ring n = u.ring n := by rw [ring, ring, hrings]
    rw [hr]
    exact hring n

/-! ### A Bell operation of the chip's own -/

theorem bellOp_bellTook {s : State} (h : s.capRuns = true) (n : Nat) (set : Bool) (v : Word) :
    bellTook s (s.bellOp n set v) n set v false := by
  refine ⟨_, _, _, bellHas_bellSet s n _, judged_evalThreshold _ n, exported_exportBell _ n set v, ?_⟩
  rw [bellOp_eq h, Bool.or_false]

/-- A drain that no ring holds completes (07 R318, R319). -/
theorem drainComplete_spec {s : State} (hd : s.draining = true) (hh : s.holders = []) (h : ringsWf s) :
    (s.rbit CAP_TACK_CFG 8 = true → s.capRuns = true →
      bellTook s.drainEnded s.drainComplete (s.rf CAP_TACK_CFG 0 8) false 1 false) ∧
    (s.rbit CAP_TACK_CFG 8 = false ∨ s.capRuns = false → s.drainComplete = s.drainEnded) := by
  obtain ⟨hf, -, hcfg, -⟩ := drainEnded_spec h
  have hruns : s.drainEnded.capRuns = s.capRuns := capRuns_congr (by rw [hf])
  have hbit : s.drainEnded.rbit CAP_TACK_CFG 8 = s.rbit CAP_TACK_CFG 8 := by rw [rbit_eq_bit, hcfg, ← rbit_eq_bit]
  have hrf : s.drainEnded.rf CAP_TACK_CFG 0 8 = s.rf CAP_TACK_CFG 0 8 := by rw [rf, hcfg, rf]
  rw [drainComplete_eq hd hh, hbit, hrf]
  refine ⟨fun hb hr => ?_, fun hn => ?_⟩
  · rw [if_pos hb]
    exact bellOp_bellTook (hruns.trans hr) _ _ _
  · rcases hn with hn | hn
    · exact if_neg (ne_true_of_eq_false hn)
    · rw [bellOp_stopped (hruns.trans hn), ite_self]

end Sys2Proof.Machine.State

namespace Sys2Proof

open Machine Machine.State Spec

/-- Settles O37: a drain by whether a ring holds it, and the release by its field. -/
theorem tackDrainsEndAndRelease : Obligations.TackDrainsEndAndRelease := by
  intro s
  refine ⟨fun hwf hd hh => ?_, fun h => congrArg Host.Outcome.next (drainComplete_none h),
    _, rfl, rfl, csrKept_setRf_one _ _ _ _ _, reg_setReg_self _ _ _⟩
  obtain ⟨hf, hepoch, -, hwhole, hbytes, hrings⟩ := drainEnded_spec hwf
  obtain ⟨hbell, hnone⟩ := drainComplete_spec hd hh hwf
  exact ⟨s.drainEnded, _, rfl, hf, hepoch, hwhole, hbytes, hrings, hbell, hnone⟩

end Sys2Proof
end

section
/-! PROOFS. Bells written and thresholds armed (07 R312, R316, R336). -/

namespace Sys2Proof.Machine

open Sys2Proof.Spec

/-! ### A threshold's configuration -/

/-- A field copied from another word. -/
theorem getLsbD_putFld_fld {n : Nat} (v x : BitVec n) (lo w i : Nat) :
    (putFld v lo w (fld x lo w)).getLsbD i = (decide (i < n) && if lo ≤ i ∧ i < lo + w then x.getLsbD i else v.getLsbD i) := by
  rw [getLsbD_putFld]
  congr 1
  split
  · next h =>
    have hi : i - lo < w := by omega
    rw [fld, Nat.testBit_mod_two_pow, Nat.testBit_div_two_pow, Nat.sub_add_cancel h.1, BitVec.testBit_toNat, decide_eq_true hi,
      Bool.true_and]
  · rfl

/-- Two neighbouring fields copied from one word are one field. -/
theorem putFld_fld_append {n : Nat} (v x : BitVec n) (lo a b : Nat) :
    putFld (putFld v lo a (fld x lo a)) (lo + a) b (fld x (lo + a) b) = putFld v lo (a + b) (fld x lo (a + b)) := by
  refine BitVec.eq_of_getLsbD_eq fun i hi => ?_
  rw [getLsbD_putFld_fld, getLsbD_putFld_fld, getLsbD_putFld_fld, decide_eq_true hi, Bool.true_and, Bool.true_and, Bool.true_and]
  by_cases hb : lo + a ≤ i ∧ i < lo + a + b
  · rw [if_pos hb, if_pos (by omega)]
  · rw [if_neg hb]
    by_cases ha : lo ≤ i ∧ i < lo + a
    · rw [if_pos ha, if_pos (by omega)]
    · rw [if_neg ha, if_neg (by omega)]

/-- A Bell's configuration has ARM, EQ, IRQ and BOSUN in its four low bits. -/
theorem csrFields_btcfg {n : Nat} (h : n < 256) :
    csrFields (CAP_BTHR + 8 * n + 4) = [fRw 0 1, fRw 1 1, fRw 2 1, fRw 3 1] := by
  have ha : (CAP_BTHR + 8 * n + 4) / 0x10000 = 0x4000 := by unfold CAP_BTHR; omega
  have ho : (CAP_BTHR + 8 * n + 4) % 0x10000 = 0x1804 + 8 * n := by unfold CAP_BTHR; omega
  unfold csrFields
  dsimp only
  rw [ha, ho]
  change capFields (0x1804 + 8 * n) = _
  unfold capFields
  rw [if_neg (by omega), if_neg (by omega), if_neg (by omega), if_neg (by omega), if_pos (by omega), if_neg (by omega)]

theorem storeFields_btcfg {n : Nat} (h : n < 256) (old v : Word) :
    storeFields (csrFields (CAP_BTHR + 8 * n + 4)) old v = putFld old 0 4 (fld v 0 4) := by
  rw [csrFields_btcfg h]
  simp only [storeFields_cons, Field.stored, fRw, List.contains_nil, Bool.false_eq_true, if_false, storeFields_nil]
  exact (congrArg (fun w => putFld (putFld w 2 1 (fld v 2 1)) 3 1 (fld v 3 1)) (putFld_fld_append old v 0 1 1)).trans
    ((congrArg (fun w => putFld w 3 1 (fld v 3 1)) (putFld_fld_append old v 0 2 1)).trans (putFld_fld_append old v 0 3 1))

end Sys2Proof.Machine

namespace Sys2Proof

open Machine Machine.State Spec

/-- Settles O34: a Bell operation by whether the Capstan runs, and an armed threshold by its entry as it is stored. -/
theorem bellsAddSetAndFire : Obligations.BellsAddSetAndFire := by
  intro s n v hn
  have hwrite : ∀ t : State, (if n < 256 then t else s) = t := fun _ => if_pos hn
  refine ⟨fun hr => ⟨⟨_, congrArg Host.Outcome.next (hwrite _), bellOp_bellTook hr n true v⟩,
    _, congrArg Host.Outcome.next (hwrite _), bellOp_bellTook hr n false v⟩, fun hr => ⟨?_, ?_⟩, fun hv => ?_⟩
  · exact congrArg Host.Outcome.next ((hwrite _).trans (bellOp_stopped hr n true v))
  · exact congrArg Host.Outcome.next ((hwrite _).trans (bellOp_stopped hr n false v))
  · have harm : exec (.thresholdArm n v) s = .next (s.writeBtcfg n v) :=
      congrArg Host.Outcome.next (if_pos ⟨hn, hv⟩)
    refine ⟨_, _, rfl, csrKept_setReg (csrKept_refl s _) (List.mem_singleton.2 rfl) _, ?_, harm, judged_evalThreshold _ n⟩
    rw [reg_setReg_self, storeFields_btcfg hn]

end Sys2Proof
end

section
/-! PROOFS. Ring operations and their results (07 R297–R302, R326, R328; log 11). -/

namespace Sys2Proof.Machine.State

open Sys2Proof.Spec

/-! ### Undamaged words of the ring table -/

theorem damaged_within {s : State} {a n b m : Nat} (h : s.damaged a n = []) (hlo : a ≤ b) (hhi : b + m ≤ a + n) :
    s.damaged b m = [] := by
  unfold damaged at h ⊢
  split at h
  · exact if_pos (by omega)
  · split
    · rfl
    · rw [List.filter_eq_nil_iff] at h ⊢
      intro e he hc
      refine h e he ?_
      rw [Bool.and_eq_true, decide_eq_true_eq, decide_eq_true_eq] at hc ⊢
      omega

theorem eccPut_undamaged {s : State} {a : Nat} {l : List Byte} (hl : l ≠ []) (hd : s.damaged a l.length = []) (src : Nat) :
    s.eccPut src a l = ((s.poke a l).injectOn a l.length, none) := by
  have hm : s.mended src a l.length = (s, []) := by rw [mended, hd, List.foldl_nil]
  rw [eccPut_eq s src a hl, hm]
  rfl

/-- No write below the Crowsnest SRAM meets it. -/
theorem eccWrite_low (s : State) (src : Nat) {a : Nat} {l : List Byte} (h : a + l.length ≤ 0x50000000) :
    s.eccWrite src a l = s.eccPut src a l := by
  refine if_neg (ne_true_of_eq_false (List.any_eq_false.2 fun i hi => ?_))
  have hi : i < l.length := List.mem_range.1 hi
  have hcn : inCn (a + i) = false := by
    simp only [inCn, Bool.and_eq_false_iff, decide_eq_false_iff_not]
    omega
  rw [cnShut, hcn]
  exact nofun

/-- SIZE of a preset, as DISABLE leaves it. -/
def sizeZero (s : State) (n : Nat) : Word := putFld (s.peekWord (ringAddr n)) 0 5 0

theorem clearSize_eq {s : State} {n : Nat} (hn : n < 16384) (hd : s.damaged (ringAddr n) 4 = []) :
    s.clearSize n = (s.eccPut srcCapstan (ringAddr n) (leBytes 4 (s.sizeZero n).toNat)).1 := by
  have hlen : (leBytes 4 (s.sizeZero n).toNat).length = 4 := length_leBytes 4 _
  have hne : leBytes 4 (s.sizeZero n).toNat ≠ [] := List.ne_nil_of_length_pos (by rw [hlen]; decide)
  have hput := eccPut_undamaged hne (by rw [hlen]; exact hd) srcCapstan
  have hw := eccWrite_low s srcCapstan (a := ringAddr n) (l := leBytes 4 (s.sizeZero n).toNat) (by rw [hlen, ringAddr]; omega)
  rw [hput] at hw ⊢
  unfold clearSize
  dsimp only
  rw [← sizeZero, hw]

theorem sizeCleared_clearSize {s : State} {n : Nat} (hn : n < 16384) (hd : s.damaged (ringAddr n) 4 = []) :
    sizeCleared s (s.clearSize n) n := by
  have hlen : (leBytes 4 (s.sizeZero n).toNat).length = 4 := length_leBytes 4 _
  have hne : leBytes 4 (s.sizeZero n).toNat ≠ [] := List.ne_nil_of_length_pos (by rw [hlen]; decide)
  have hwhole : wholeWords s (ringAddr n) (leBytes 4 (s.sizeZero n).toNat).length := by
    rw [hlen, wholeWords, hd]
    exact List.forall_mem_nil _
  have hf := eccWrite_frame s srcCapstan (ringAddr n) (leBytes 4 (s.sizeZero n).toNat)
  have hk := eccPut_memKeptBut s srcCapstan (ringAddr n) hne
  obtain ⟨hmem, hfree, hreg⟩ := eccPut_whole hne hwhole srcCapstan
  rw [eccWrite_low s _ (by rw [hlen, ringAddr]; omega)] at hf
  rw [clearSize_eq hn hd]
  generalize (s.eccPut srcCapstan (ringAddr n) (leBytes 4 (s.sizeZero n).toNat)).1 = v at *
  rw [hfree] at hf
  rw [hlen] at hk
  refine ⟨hf, hreg, hk, ?_⟩
  have hlow : ¬ 0xF0000000 ≤ ringAddr n := by unfold ringAddr; omega
  have hrun := Store.getRun_setRun_self 0 s.mem (ringAddr n) (leBytes 4 (s.sizeZero n).toNat)
  rw [hlen, ← hmem] at hrun
  rw [peekWord, peek, if_neg hlow, hrun, leWord_leBytes, sizeZero]

/-- A ring's own words do not reach into its preset. -/
theorem damaged_setRing {s : State} {n : Nat} (r : Ring) (hn : n < 16384) (hd : s.damaged (ringAddr n) 4 = []) :
    (s.setRing n r).damaged (ringAddr n) 4 = [] := by
  unfold damaged at hd ⊢
  rw [if_neg (by decide), List.filter_eq_nil_iff] at hd ⊢
  intro e he hc
  rw [setRing_eq s r hn] at he
  rcases mem_eccPut_ecc (ringBytes_ne_nil r) he with he | ⟨-, hgt⟩
  · exact hd e he hc
  · rw [Bool.and_eq_true, decide_eq_true_eq, decide_eq_true_eq] at hc
    have := wordSize_le e.1
    omega

/-! ### The end of an operation (07 R328) -/

theorem capRuns_mode {s : State} (h : s.capRuns = true) : s.dev.mode ≠ .becalmed := by
  simp only [capRuns, dieUp, Bool.and_eq_true] at h
  rcases of_decide_eq_true h.1 with h | h <;> exact fun k => nomatch h.symm.trans k

theorem opStat_eq {s : State} (hm : s.dev.mode ≠ .becalmed) (r op n : Nat) :
    opStat (s, r) op n = s.setReg CAP_OPSTAT (opWord op n r) := if_neg hm

/-- No operation runs, and none waits for its refusal. -/
def opFree (s : State) : State := { s with cap := { s.cap with op := none, refused := none } }

theorem ringEnd_accepted {s : State} (hm : s.dev.mode ≠ .becalmed) {x : RingOp} (hx : s.cap.op = some x)
    (hr : s.cap.refused = none) : s.ringEnd = s.opFree.setReg CAP_OPSTAT (opWord x.op x.ring x.result) := by
  unfold ringEnd
  rw [hx, hr]
  exact opStat_eq (s := s.opFree) hm _ _ _

theorem ringEnd_refused {s : State} (hm : s.dev.mode ≠ .becalmed) {x : RingOp} (hx : s.cap.op = some x) {op n : Nat}
    (hr : s.cap.refused = some (op, n)) : s.ringEnd =
      (s.opFree.setReg CAP_OPSTAT (opWord x.op x.ring x.result)).setReg CAP_OPSTAT (opWord op n 2) := by
  have hu := opStat_eq (s := s.opFree) hm x.result x.op x.ring
  rw [opFree] at hu
  unfold ringEnd
  rw [hx, hr]
  dsimp only
  rw [hu]
  exact opStat_eq (s := s.opFree.setReg CAP_OPSTAT (opWord x.op x.ring x.result)) hm _ _ _

/-- The operation that runs ends with its result. -/
theorem opEnds_ringEnd {s : State} (hm : s.dev.mode ≠ .becalmed) {x : RingOp} (hx : s.cap.op = some x) :
    opEnds s s.ringEnd x.op x.ring x.result := by
  have hne : ∀ (t : State) (v : Word) (a : Nat), a ∉ [CAP_OPSTAT] → (t.setReg CAP_OPSTAT v).reg a = t.reg a :=
    fun t v a ha => reg_setReg_ne _ _ (by simpa using ha)
  unfold opEnds
  cases hr : s.cap.refused with
  | none =>
    rw [ringEnd_accepted hm hx hr]
    exact ⟨rfl, fun a ha => hne _ _ a ha, reg_setReg_self _ _ _⟩
  | some q =>
    rw [ringEnd_refused hm hx (op := q.1) (n := q.2) hr]
    exact ⟨rfl, fun a ha => (hne _ _ a ha).trans (hne _ _ a ha), reg_setReg_self _ _ _⟩

/-! ### A write of CAP_RING_OP -/

/-- The operation `x` runs, with BUSY set. -/
def opRuns (s : State) (x : RingOp) : State := { s.setRf CAP_OPSTAT 0 1 1 with cap := { s.cap with op := some x } }

theorem opEnds_opRuns {u : State} (hm : u.dev.mode ≠ .becalmed) (x : RingOp) :
    opEnds u (u.opRuns x).ringEnd x.op x.ring x.result := by
  obtain ⟨hf, hk, hr⟩ := opEnds_ringEnd (s := u.opRuns x) hm rfl
  refine ⟨hf, fun a ha => (hk a ha).trans ?_, hr⟩
  exact reg_setRf_ne _ _ _ _ (by simpa using ha)

theorem ringAct_mod (s : State) (n op arg : Nat) : s.ringAct n op (arg % 8) = s.ringAct n op arg := by
  unfold ringAct
  split
  case h_5 => unfold ringPrio; rw [Nat.mod_mod]
  all_goals rfl

theorem spaceOf_capOp (p : Part) : spaceOf p 0x40000004 = .csr := by
  have hg : p.granary ≤ 0x4000000 := by
    unfold Part.granary Part.stackCount
    cases p.variant <;> decide
  unfold spaceOf
  rw [if_neg (by decide), if_neg (by decide), if_neg (by decide), if_neg (by omega), if_neg (by decide), if_pos (by decide)]
  exact if_pos rfl

/-- The write is the operation's start. -/
theorem exec_opWrite {s : State} {op n arg : Nat} {v : Word} (h : opWrite s op n arg v) :
    exec (.registerWrite (.csr 0x40000004) v) s = .next (s.ringStart n op (arg % 8)) := by
  obtain ⟨hn, hop, harg, hr⟩ := h
  change Host.Outcome.next (s.csrReach 0x40000004 v) = _
  rw [csrReach_of_inReach hr (by decide) (spaceOf_capOp s.part)]
  change Host.Outcome.next (s.ringStart (fld v 0 14) (fld v 16 3) (fld v 20 3)) = _
  rw [hn, hop, harg]

theorem ringStart_busy {s : State} (h : s.capRuns = true) {x : RingOp} (hx : s.cap.op = some x) (n op arg : Nat) :
    s.ringStart n op arg = { s with cap := { s.cap with refused := some (op, n) } } := by
  unfold ringStart
  rw [h, hx]
  rfl

/-- An operation that runs on. -/
theorem ringStart_runs {s u : State} (h : s.capRuns = true) (hop : s.cap.op = none) {n op arg r : Nat}
    (hnow : ¬ (op = 0 ∨ 5 < op) ∧ (op = 2 → (s.ring n).st ≠ .disabled)) (hu : s.ringAct n op arg = (u, r)) :
    s.ringStart n op arg = u.opRuns ⟨op, n, r⟩ := by
  have hnow' : (decide (op = 0 ∨ 5 < op) || (op == 2 && (s.ring n).st == .disabled)) = false := by
    simp only [Bool.or_eq_false_iff, decide_eq_false_iff_not, Bool.and_eq_false_imp, beq_iff_eq, beq_eq_false_iff_ne]
    exact hnow
  unfold ringStart
  rw [h, hop, hu]
  dsimp only
  rw [hnow']
  rfl

/-- An operation that reports at once. -/
theorem ringStart_reports {s u : State} (h : s.capRuns = true) (hop : s.cap.op = none) {n op arg r : Nat}
    (hnow : (op = 0 ∨ 5 < op) ∨ (op = 2 ∧ (s.ring n).st = .disabled)) (hu : s.ringAct n op arg = (u, r)) :
    s.ringStart n op arg = opStat (u, r) op n := by
  have hnow' : (decide (op = 0 ∨ 5 < op) || (op == 2 && (s.ring n).st == .disabled)) = true := by
    simp only [Bool.or_eq_true, decide_eq_true_eq, Bool.and_eq_true, beq_iff_eq]
    exact hnow
  unfold ringStart
  rw [h, hop, hu]
  dsimp only
  rw [hnow']
  rfl

theorem ringOp_free {s : State} (h : s.capRuns = true) (hop : s.cap.op = none) (n op arg : Nat) :
    s.ringOp n op arg = (s.ringStart n op arg).ringEnd := by
  unfold ringOp
  rw [h, hop]
  rfl

theorem opGoes_of_act {c : Instr} {s u : State} {op n arg r : Nat} (hc : exec c s = .next (s.ringOp n op arg))
    (h : s.capRuns = true) (hop : s.cap.op = none) (hu : s.ringAct n op arg = (u, r)) (hm : u.dev.mode ≠ .becalmed)
    (hnow : ¬ (op = 0 ∨ 5 < op) ∧ (op = 2 → (s.ring n).st ≠ .disabled)) : opGoes c s u op n arg r := by
  refine ⟨⟨_, ?_, opEnds_opRuns hm ⟨op, n, r⟩⟩, fun v hv => ⟨u.opRuns ⟨op, n, r⟩, ?_, rfl, ?_, reg_setReg_self _ _ _⟩⟩
  · rw [hc, ringOp_free h hop, ringStart_runs h hop hnow hu]
  · rw [exec_opWrite hv, ringStart_runs h hop hnow ((ringAct_mod s n op arg).trans hu)]
  · exact fun a ha => reg_setRf_ne _ _ _ _ (by simpa using ha)

theorem opReports_of_act {c : Instr} {s u : State} {op n arg r : Nat} (hc : exec c s = .next (s.ringOp n op arg))
    (h : s.capRuns = true) (hop : s.cap.op = none) (hu : ∀ a, s.ringAct n op a = (u, r)) (hm : u.dev.mode ≠ .becalmed)
    (hu0 : u.cap.op = none) (hnow : (op = 0 ∨ 5 < op) ∨ (op = 2 ∧ (s.ring n).st = .disabled)) :
    opReports c s u op n r := by
  have hs : ∀ a, s.ringStart n op a = u.setReg CAP_OPSTAT (opWord op n r) := fun a => by
    rw [ringStart_reports h hop hnow (hu a), opStat_eq hm]
  have he : (u.setReg CAP_OPSTAT (opWord op n r)).ringEnd = u.setReg CAP_OPSTAT (opWord op n r) := by
    unfold ringEnd
    rw [show (u.setReg CAP_OPSTAT (opWord op n r)).cap.op = none from hu0]
  refine ⟨_, ?_, rfl, fun a ha => reg_setReg_ne _ _ (by simpa using ha), reg_setReg_self _ _ _, fun v hv => ?_⟩
  · rw [hc, ringOp_free h hop, hs, he]
  · rw [exec_opWrite hv, hs]

/-! ### What each operation does (07 Table 7.2) -/

section Acts

variable {s : State} {n : Nat}

theorem ringAct_enable (h : (s.ring n).st = .disabled) (hd : s.damaged (ringAddr n) 16 = [])
    (hok : ringCfgOk s.part (bytesWords 4 (s.peek (ringAddr n) 16)) = true) (arg : Nat) :
    s.ringAct n 1 arg = (s.enableWith n (bytesWords 4 (s.peek (ringAddr n) 16)), 0) := by
  change s.ringEnable n = _
  rw [ringEnable, eccRead_undamaged hd, if_neg fun k => k h]
  exact if_pos hok

theorem ringAct_enable_fails (h : (s.ring n).st = .disabled) (hd : s.damaged (ringAddr n) 16 = [])
    (hok : ringCfgOk s.part (bytesWords 4 (s.peek (ringAddr n) 16)) = false) (arg : Nat) :
    s.ringAct n 1 arg = (s.clearSize n, 3) := by
  change s.ringEnable n = _
  rw [ringEnable, eccRead_undamaged hd, if_neg fun k => k h]
  exact if_neg (ne_true_of_eq_false hok)

theorem ringAct_enable_state (h : (s.ring n).st ≠ .disabled) (arg : Nat) : s.ringAct n 1 arg = (s, 1) := if_pos h

theorem ringAct_disable_again (h : (s.ring n).st = .disabled) (arg : Nat) : s.ringAct n 2 arg = (s.clearSize n, 0) := if_pos h

theorem ringAct_disable_busy (h : (s.ring n).st ≠ .disabled) (hf : ∃ f ∈ s.cap.flights, f.ring = n) (arg : Nat) :
    s.ringAct n 2 arg = (s, 2) := by
  obtain ⟨f, hm, hr⟩ := hf
  exact (if_neg h).trans (if_pos (List.any_eq_true.2 ⟨f, hm, by rw [hr]; exact beq_self_eq_true n⟩))

/-- A ring as DISABLE leaves it. -/
def disabled (r : Ring) : Ring := { r with
  size := 0, st := .disabled, head := r.done, tail := r.done, epochs := [], cutV := false, reached := false
  waitOk := false, admFault := none }

theorem ringAct_disable (h : (s.ring n).st ≠ .disabled) (hf : ∀ f ∈ s.cap.flights, f.ring ≠ n) (arg : Nat) :
    s.ringAct n 2 arg =
      ((((s.setRing n (disabled (s.ring n))).clearSize n).unbindRing n).updateHolder.updateWork, 0) := by
  refine (if_neg h).trans (if_neg fun k => ?_)
  obtain ⟨f, hm, hr⟩ := List.any_eq_true.1 k
  exact hf f hm (eq_of_beq hr)

theorem ringAct_retry (h : (s.ring n).st = .halted) (arg : Nat) :
    s.ringAct n 3 arg = (s.setRing n (retried (s.ring n)), 0) := if_neg fun k => k h

theorem ringAct_retry_state (h : (s.ring n).st ≠ .halted) (arg : Nat) : s.ringAct n 3 arg = (s, 1) := if_pos h

theorem ringAct_skip (h : (s.ring n).st = .halted) (arg : Nat) :
    s.ringAct n 4 arg = ((s.setRing n (skipped (s.ring n))).updateHolder.updateWork, 0) := if_neg fun k => k h

theorem ringAct_skip_state (h : (s.ring n).st ≠ .halted) (arg : Nat) : s.ringAct n 4 arg = (s, 1) := if_pos h

theorem ringAct_prio (h : (s.ring n).st ≠ .disabled) (arg : Nat) :
    s.ringAct n 5 arg = (s.setRing n { s.ring n with prio := arg % 8 }, 0) := if_neg h

theorem ringAct_prio_state (h : (s.ring n).st = .disabled) (arg : Nat) : s.ringAct n 5 arg = (s, 1) := if_pos h

theorem ringAct_badarg {o : Nat} (h : o = 0 ∨ o = 6 ∨ o = 7) (arg : Nat) : s.ringAct n o arg = (s, 3) := by
  rcases h with rfl | rfl | rfl <;> rfl

end Acts

theorem sizeCleared_dev {s v : State} {n : Nat} (h : sizeCleared s v n) : v.dev = s.dev := by rw [h.1]

/-- HOLDER and the device state follow a change of a ring. -/
theorem ringFollows_update (s : State) : ringFollows s s.updateHolder.updateWork :=
  ⟨_, holderFollows_updateHolder s, workFollows_self _⟩

theorem update_mode {s : State} (h : s.dev.mode ≠ .becalmed) : s.updateHolder.updateWork.dev.mode ≠ .becalmed :=
  (updateWork_dieUp (by rw [(updateHolder_dev s).1]; exact h)).1

/-! ### The commands -/

/-- The rows of the six operations, with their OP. -/
theorem exec_ringRow {s : State} {n arg o : Nat} (hn : n < 16384) (ho : o = 0 ∨ o = 6 ∨ o = 7) {p : Instr × Nat}
    (hp : p ∈ [(Instr.enable n, 1), (.disable n, 2), (.resumeRetry n, 3), (.resumeSkip n, 4), (.prio n arg, 5),
      (.ringOpBadarg n o, o)]) : ∃ a, exec p.1 s = .next (s.ringOp n p.2 a) := by
  simp only [List.mem_cons, List.not_mem_nil, or_false] at hp
  rcases hp with rfl | rfl | rfl | rfl | rfl | rfl
  · exact ⟨0, congrArg Host.Outcome.next (if_pos hn)⟩
  · exact ⟨0, congrArg Host.Outcome.next (if_pos hn)⟩
  · exact ⟨0, congrArg Host.Outcome.next (if_pos hn)⟩
  · exact ⟨0, congrArg Host.Outcome.next (if_pos hn)⟩
  · exact ⟨arg, congrArg Host.Outcome.next (if_pos hn)⟩
  · exact ⟨0, congrArg Host.Outcome.next (if_pos ⟨hn, ho⟩)⟩

theorem ringOp_stopped {s : State} (h : s.capRuns = false) (n op arg : Nat) : s.ringOp n op arg = s :=
  if_pos (by rw [h]; rfl)

theorem ringOp_same {s : State} (h : s.capRuns = true) {x : RingOp} (hx : s.cap.op = some x) {n op : Nat} (ho : x.op = op)
    (hr : x.ring = n) (arg : Nat) : s.ringOp n op arg = s.ringEnd := by
  unfold ringOp
  rw [h, hx]
  change (if x.op = op ∧ x.ring = n then s.ringEnd else s.ringStart n op arg) = _
  rw [if_pos ⟨ho, hr⟩]

theorem ringOp_other {s : State} (h : s.capRuns = true) {x : RingOp} (hx : s.cap.op = some x) {n op : Nat}
    (ho : x.op ≠ op ∨ x.ring ≠ n) (arg : Nat) :
    s.ringOp n op arg = { s with cap := { s.cap with refused := some (op, n) } } := by
  unfold ringOp
  rw [h, hx]
  change (if x.op = op ∧ x.ring = n then s.ringEnd else s.ringStart n op arg) = _
  rw [if_neg fun k => ho.elim (fun h => h k.1) fun h => h k.2, ringStart_busy h hx]

/-- A DISABLE of a ring that is enabled or halted and has no descriptor in flight. -/
theorem disable_goes {s : State} {n : Nat} (hn : n < 16384) (h : s.capRuns = true) (hop : s.cap.op = none)
    (hd : s.damaged (ringAddr n) 4 = []) (hst : (s.ring n).st ≠ .disabled) (hf : ∀ f ∈ s.cap.flights, f.ring ≠ n) :
    ∃ x y z u, opGoes (.disable n) s u 2 n 0 0 ∧ ringSet s x n (disabled (s.ring n)) ∧ sizeCleared x y n ∧
      z = { y with cap := { y.cap with binds := s.cap.binds.filter fun b => b.2 != n + 1
                                       gaps := s.cap.gaps.filter fun k => Store.get 0 s.cap.binds k != n + 1 } } ∧
      ringFollows z u := by
  have hset := ringSet_setRing s (disabled (s.ring n)) hn
  have hclear := sizeCleared_clearSize hn (damaged_setRing (disabled (s.ring n)) hn hd)
  have hact := ringAct_disable hst hf 0
  have hxdev := setRing_dev s n (disabled (s.ring n))
  generalize s.setRing n (disabled (s.ring n)) = x at *
  have hydev := sizeCleared_dev hclear
  have hcap : (x.clearSize n).cap.binds = s.cap.binds ∧ (x.clearSize n).cap.gaps = s.cap.gaps := by
    rw [hclear.1, hset.1]
    exact ⟨rfl, rfl⟩
  generalize x.clearSize n = y at *
  have hm : (y.unbindRing n).dev.mode ≠ .becalmed := by
    change y.dev.mode ≠ _
    rw [hydev, hxdev]
    exact capRuns_mode h
  refine ⟨x, y, y.unbindRing n, _, opGoes_of_act (congrArg Host.Outcome.next (if_pos hn)) h hop hact (update_mode hm)
    ⟨by decide, fun _ => hst⟩, hset, hclear, ?_, ringFollows_update _⟩
  rw [unbindRing, hcap.1, hcap.2]

end Sys2Proof.Machine.State

namespace Sys2Proof

open Machine Machine.State Spec

/-- Settles O33: a row by whether an operation runs, and each operation by the ring's state. -/
theorem ringOperationsAndTheirResults : Obligations.RingOperationsAndTheirResults := by
  intro s n arg o hn ho cs hcs
  subst hcs
  refine ⟨fun hr p hp => ?_, fun hr x p hx hp => ⟨fun h1 h2 => ?_, fun h => ?_, fun v hv => ?_⟩,
    fun hr hop hd r ws hrr hws => ?_⟩
  · obtain ⟨a, ha⟩ := exec_ringRow (s := s) hn ho hp
    rw [ha, ringOp_stopped hr]
  · obtain ⟨a, ha⟩ := exec_ringRow (s := s) hn ho hp
    exact ⟨_, ha.trans (congrArg Host.Outcome.next (ringOp_same hr hx h1 h2 a)), opEnds_ringEnd (capRuns_mode hr) hx⟩
  · obtain ⟨a, ha⟩ := exec_ringRow (s := s) hn ho hp
    rw [ha, ringOp_other hr hx h]
  · rw [exec_opWrite hv, ringStart_busy hr hx]
  · subst hrr hws
    have hm := capRuns_mode hr
    have hd4 : s.damaged (ringAddr n) 4 = [] := damaged_within hd (Nat.le_refl _) (by omega)
    have hd16 : s.damaged (ringAddr n) 16 = [] := damaged_within hd (Nat.le_refl _) (by omega)
    have hclear := sizeCleared_clearSize hn hd4
    have hrow : ∀ t : State, (if n < 16384 then t else s) = t := fun _ => if_pos hn
    have hring : ∀ r, ringSet s (s.setRing n r) n r ∧ (s.setRing n r).dev.mode ≠ .becalmed := fun r =>
      ⟨ringSet_setRing s r hn, by rw [setRing_dev]; exact hm⟩
    have hclearm : (s.clearSize n).dev.mode ≠ .becalmed := by rw [sizeCleared_dev hclear]; exact hm
    refine ⟨fun hst hok => ?_, fun hst hok => ?_, fun hst => ?_, fun hst => ?_, fun hst hf => ?_, fun hst hf => ?_,
      fun hst => ⟨?_, ?_⟩, fun hst => ⟨?_, ?_⟩, fun hst => ?_, fun hst => ?_, ?_⟩
    · exact ⟨_, opGoes_of_act (congrArg Host.Outcome.next (hrow _)) hr hop (ringAct_enable hst hd16 hok 0) (hring _).2
        ⟨by decide, nofun⟩, (hring _).1⟩
    · exact ⟨_, opGoes_of_act (congrArg Host.Outcome.next (hrow _)) hr hop (ringAct_enable_fails hst hd16 hok 0) hclearm
        ⟨by decide, nofun⟩, hclear⟩
    · exact opGoes_of_act (congrArg Host.Outcome.next (hrow _)) hr hop (ringAct_enable_state hst 0) hm ⟨by decide, nofun⟩
    · have hfree : (s.clearSize n).cap.op = none := by rw [hclear.1]; exact hop
      exact ⟨_, opReports_of_act (congrArg Host.Outcome.next (hrow _)) hr hop (ringAct_disable_again hst) hclearm hfree
        (.inr ⟨rfl, hst⟩), hclear⟩
    · exact opGoes_of_act (congrArg Host.Outcome.next (hrow _)) hr hop (ringAct_disable_busy hst hf 0) hm
        ⟨by decide, fun _ => hst⟩
    · exact disable_goes hn hr hop hd4 hst hf
    · exact ⟨_, opGoes_of_act (congrArg Host.Outcome.next (hrow _)) hr hop (ringAct_retry hst 0) (hring _).2
        ⟨by decide, nofun⟩, (hring _).1⟩
    · exact ⟨_, _, opGoes_of_act (congrArg Host.Outcome.next (hrow _)) hr hop (ringAct_skip hst 0) (update_mode (hring _).2)
        ⟨by decide, nofun⟩, (hring _).1, ringFollows_update _⟩
    · exact opGoes_of_act (congrArg Host.Outcome.next (hrow _)) hr hop (ringAct_retry_state hst 0) hm ⟨by decide, nofun⟩
    · exact opGoes_of_act (congrArg Host.Outcome.next (hrow _)) hr hop (ringAct_skip_state hst 0) hm ⟨by decide, nofun⟩
    · exact ⟨_, opGoes_of_act (congrArg Host.Outcome.next (hrow _)) hr hop (ringAct_prio hst arg) (hring _).2
        ⟨by decide, nofun⟩, (hring _).1⟩
    · exact opGoes_of_act (congrArg Host.Outcome.next (hrow _)) hr hop (ringAct_prio_state hst arg) hm ⟨by decide, nofun⟩
    · exact opReports_of_act (congrArg Host.Outcome.next (if_pos ⟨hn, ho⟩)) hr hop (ringAct_badarg ho) hm hop (.inl (by omega))

end Sys2Proof
end

section
/-! PROOFS. Arbitration and admission (07 R304–R306, R314, R323; 08 R367; 09 R413). -/

namespace Sys2Proof.Machine.State

open Sys2Proof.Spec

/-! ### What admission changes outside the ring -/

theorem get_charge (s : State) (es : List Nat) (m : Nat) :
    Store.get 0 (s.charge es).rgRef m = Store.get 0 s.rgRef m + es.count m := by
  unfold charge
  dsimp only
  generalize s.rgRef = rs
  induction es generalizing rs with
  | nil => rfl
  | cons e es ih =>
    rw [List.foldl_cons, ih, List.count_cons]
    by_cases h : m = e
    · subst h
      rw [Store.get_set_self, beq_self_eq_true, if_pos rfl]
      omega
    · rw [Store.get_set_ne _ _ _ h, if_neg (by rw [beq_iff_eq]; exact fun k => h k.symm), Nat.add_zero]

/-- The effects of an admission, none for a null descriptor. -/
def effects (s : State) (n cls inst epoch : Nat) (d : List Word) (null : Bool) : State × Nat × Bool :=
  if null then (s, 0, false) else s.admitEffects n cls inst epoch d

theorem effects_null (s : State) (n cls inst epoch : Nat) (d : List Word) : s.effects n cls inst epoch d true = (s, 0, false) :=
  rfl

theorem harrowAdmit_frame (s : State) (inst : Nat) (d : List Word) :
    s.harrowAdmit inst d = { s with harrows := (s.harrowAdmit inst d).harrows } := by
  unfold harrowAdmit
  dsimp only
  split <;> rfl

theorem harrowAdmit_cap (s : State) (inst : Nat) (d : List Word) : (s.harrowAdmit inst d).cap = s.cap := by
  rw [harrowAdmit_frame]

section Effects

variable (s : State) (n cls inst epoch : Nat) (d : List Word)

theorem effects_harrow : (s.effects n 1 inst epoch d false).1 = s.harrowAdmit inst d := rfl

theorem effects_mill : s.effects n 2 inst epoch d false =
    if bit (wordAt d 0) 12 then
      ({ s with cap := { s.cap with dice := NSet.insert s.cap.dice (epoch % 2 * 256 + df d 6 24 8) } }, 0,
        s.cap.dice.contains (epoch % 2 * 256 + df d 6 24 8))
    else (s, 0, false) := rfl

theorem effects_halyard : s.effects n 4 inst epoch d false =
    if opcOf d = 5 ∨ opcOf d = 6 then
      ({ s with cap := { s.cap with
        binds := Store.set 0 s.cap.binds (df d 6 0 4) (n + 1)
        gaps := if Store.get 0 s.cap.binds (df d 6 0 4) = n + 1 then s.cap.gaps
          else NSet.erase s.cap.gaps (df d 6 0 4) } }, 0, false)
    else (s, 0, false) := rfl

/-- Where each effect falls: the Dice bindings, the stream bindings, a Loom's chain or a Harrow's stripe. -/
theorem effects_frame (null : Bool) : (s.effects n cls inst epoch d null).1 = { s with
    cap := { s.cap with dice := (s.effects n cls inst epoch d null).1.cap.dice
                        binds := (s.effects n cls inst epoch d null).1.cap.binds
                        gaps := (s.effects n cls inst epoch d null).1.cap.gaps }
    looms := (s.effects n cls inst epoch d null).1.looms, harrows := (s.effects n cls inst epoch d null).1.harrows } := by
  cases null with
  | true => rfl
  | false =>
    match cls with
    | 0 => rfl
    | 1 =>
      have hf := harrowAdmit_frame s inst d
      change s.harrowAdmit inst d = _
      rw [effects_harrow, hf]
    | 2 =>
      rw [effects_mill]
      split <;> rfl
    | 3 => rfl
    | 4 =>
      rw [effects_halyard]
      split <;> rfl
    | _ + 5 => rfl

/-- A Mill descriptor binds its Dice key; no other descriptor does (09 R413). -/
theorem effects_dice (null : Bool) :
    let x := s.effects n cls inst epoch d null
    let key := epoch % 2 * 256 + df d 6 24 8
    ((cls = 2 ∧ bit (wordAt d 0) 12 = true ∧ null = false) →
      x.2.2 = s.cap.dice.contains key ∧ ∀ k, k ∈ x.1.cap.dice ↔ k = key ∨ k ∈ s.cap.dice) ∧
    (¬ (cls = 2 ∧ bit (wordAt d 0) 12 = true ∧ null = false) → x.2.2 = false ∧ x.1.cap.dice = s.cap.dice) := by
  dsimp only
  refine ⟨?_, fun h => ?_⟩
  · rintro ⟨rfl, hb, rfl⟩
    have he : s.effects n 2 inst epoch d false = _ := if_pos hb
    rw [he]
    exact ⟨rfl, fun k => NSet.mem_insert⟩
  · cases null with
    | true => exact ⟨rfl, rfl⟩
    | false =>
      match cls, h with
      | 0, _ => exact ⟨rfl, rfl⟩
      | 1, _ => exact ⟨rfl, congrArg Capstan.dice (harrowAdmit_cap s inst d)⟩
      | 2, h =>
        rw [effects_mill, if_neg fun hb => h ⟨rfl, hb, rfl⟩]
        exact ⟨rfl, rfl⟩
      | 3, _ => exact ⟨rfl, rfl⟩
      | 4, _ =>
        rw [effects_halyard]
        split <;> exact ⟨rfl, rfl⟩
      | _ + 5, _ => exact ⟨rfl, rfl⟩

/-- A stream descriptor binds its SID to its ring; no other descriptor does (08 R367, R370). -/
theorem effects_stream (null : Bool) :
    let x := s.effects n cls inst epoch d null
    let sid := df d 6 0 4
    ((cls = 4 ∧ (opcOf d = 5 ∨ opcOf d = 6) ∧ null = false) → x.1.cap.binds = Store.set 0 s.cap.binds sid (n + 1) ∧
      x.1.cap.gaps = (if Store.get 0 s.cap.binds sid = n + 1 then s.cap.gaps else NSet.erase s.cap.gaps sid)) ∧
    (¬ (cls = 4 ∧ (opcOf d = 5 ∨ opcOf d = 6) ∧ null = false) →
      x.1.cap.binds = s.cap.binds ∧ x.1.cap.gaps = s.cap.gaps) := by
  dsimp only
  refine ⟨?_, fun h => ?_⟩
  · rintro ⟨rfl, ho, rfl⟩
    have he : s.effects n 4 inst epoch d false = _ := if_pos ho
    rw [he]
    exact ⟨rfl, rfl⟩
  · cases null with
    | true => exact ⟨rfl, rfl⟩
    | false =>
      match cls, h with
      | 0, _ => exact ⟨rfl, rfl⟩
      | 1, _ => exact ⟨congrArg Capstan.binds (harrowAdmit_cap s inst d), congrArg Capstan.gaps (harrowAdmit_cap s inst d)⟩
      | 2, _ =>
        rw [effects_mill]
        split <;> exact ⟨rfl, rfl⟩
      | 3, _ => exact ⟨rfl, rfl⟩
      | 4, h =>
        rw [effects_halyard, if_neg fun ho => h ⟨rfl, ho, rfl⟩]
        exact ⟨rfl, rfl⟩
      | _ + 5, _ => exact ⟨rfl, rfl⟩

/-- A Loom descriptor notes its chain, and a Harrow descriptor its stripe (10 R446, 11 R491). -/
theorem effects_engines (null : Bool) :
    (s.effects n cls inst epoch d null).1.looms = (if cls = 0 ∧ null = false then (s.loomAdmit inst d).looms else s.looms) ∧
    (s.effects n cls inst epoch d null).1.harrows =
      (if cls = 1 ∧ null = false then (s.harrowAdmit inst d).harrows else s.harrows) := by
  cases null with
  | true => exact ⟨(if_neg fun h => nomatch h.2).symm, (if_neg fun h => nomatch h.2).symm⟩
  | false =>
    match cls with
    | 0 => exact ⟨rfl, rfl⟩
    | 1 =>
      rw [effects_harrow, harrowAdmit_frame]
      exact ⟨rfl, rfl⟩
    | 2 =>
      rw [effects_mill]
      split <;> exact ⟨rfl, rfl⟩
    | 3 => exact ⟨rfl, rfl⟩
    | 4 =>
      rw [effects_halyard]
      split <;> exact ⟨rfl, rfl⟩
    | _ + 5 => exact ⟨(if_neg fun h => nomatch h.1).symm, (if_neg fun h => nomatch h.1).symm⟩

end Effects

/-! ### The head admitted -/

/-- The descriptor that admission puts in flight. -/
def flightOf (s : State) (n inst : Nat) (d : List Word) (null : Bool) (es : List Nat) (rs : List Range) : Flight :=
  let r := s.ring n
  let x := s.effects n r.cls inst (s.epochOf r r.head) d null
  { ring := n, idx := r.head, epoch := s.epochOf r r.head, cls := r.cls, inst := inst, desc := d, charged := es, null := null
    writes := if null then [] else (rs.filter fun g => g.writes && decide (g.lo ≤ g.hi)).map fun g =>
      (g.lo.toNat, (g.hi - g.lo + 1).toNat)
    shared := x.2.2, kept := x.2.1
    own := if r.cls = 0 then ((x.1.charge es).loom inst).keeps else ((x.1.charge es).harrow inst).keeps
    cont := if r.cls = 0 then (s.loom inst).keeps else (s.harrow inst).keeps }

/-- The descriptor in flight with its charges and effects, before its ring moves on. -/
def inFlight (s : State) (n inst : Nat) (d : List Word) (null : Bool) (es : List Nat) (rs : List Range) : State :=
  let r := s.ring n
  let u := (s.effects n r.cls inst (s.epochOf r r.head) d null).1.charge es
  { u with cap := { u.cap with
      flights := u.cap.flights ++ [s.flightOf n inst d null es rs], lastAdm := Store.set 0 u.cap.lastAdm r.prio (n + 1) } }

/-- A ring whose head has been admitted. -/
def headOn (r : Ring) : Ring := { r with head := r.succ r.head, reached := false, waitOk := false }

theorem admitHead_eq (s : State) (n inst : Nat) (d : List Word) (null : Bool) (es : List Nat) (rs : List Range) :
    s.admitHead n inst d null es rs =
      ((s.inFlight n inst d null es rs).setRing n (headOn (s.ring n))).latchWaits.updateWork := rfl

theorem inFlight_frame (s : State) (n inst : Nat) (d : List Word) (null : Bool) (es : List Nat) (rs : List Range) :
    s.inFlight n inst d null es rs = { s with
      cap := { s.cap with
        flights := s.cap.flights ++ [s.flightOf n inst d null es rs]
        lastAdm := Store.set 0 s.cap.lastAdm (s.ring n).prio (n + 1)
        dice := (s.inFlight n inst d null es rs).cap.dice, binds := (s.inFlight n inst d null es rs).cap.binds
        gaps := (s.inFlight n inst d null es rs).cap.gaps }
      looms := (s.inFlight n inst d null es rs).looms, harrows := (s.inFlight n inst d null es rs).harrows
      rgRef := (s.inFlight n inst d null es rs).rgRef } := by
  have hframe := effects_frame s n (s.ring n).cls inst (s.epochOf (s.ring n) (s.ring n).head) d null
  unfold inFlight charge
  dsimp only
  generalize s.flightOf n inst d null es rs = f
  generalize (s.effects n (s.ring n).cls inst (s.epochOf (s.ring n) (s.ring n).head) d null).1 = u at *
  rw [hframe]

theorem admitted_admitHead {l : State} {n : Nat} (hn : n < 16384) {r : Ring} (hr : r = l.ring n) (i : Nat) (d : List Word)
    {null : Bool} {es : List Nat} {rs : List Range} (hrs : null = false → rs = (l.classChecks n r d).ranges) :
    admitted l (l.admitHead n i d null es rs) n r d i null es := by
  subst hr
  have hframe := effects_frame l n (l.ring n).cls i (l.epochOf (l.ring n) (l.ring n).head) d null
  obtain ⟨hdice, hnodice⟩ := effects_dice l n (l.ring n).cls i (l.epochOf (l.ring n) (l.ring n).head) d null
  obtain ⟨hstream, hnostream⟩ := effects_stream l n (l.ring n).cls i (l.epochOf (l.ring n) (l.ring n).head) d null
  obtain ⟨hlooms, hharrows⟩ := effects_engines l n (l.ring n).cls i (l.epochOf (l.ring n) (l.ring n).head) d null
  have hcharge := get_charge (l.effects n (l.ring n).cls i (l.epochOf (l.ring n) (l.ring n).head) d null).1 es
  have href : (l.effects n (l.ring n).cls i (l.epochOf (l.ring n) (l.ring n).head) d null).1.rgRef = l.rgRef := by rw [hframe]
  refine ⟨l.flightOf n i d null es rs, l.inFlight n i d null es rs, _, _, inFlight_frame l n i d null es rs, rfl,
    fun m => (hcharge m).trans (by rw [href]), hdice, hnodice, hstream, hnostream, hlooms, hharrows, fun h => ?_, fun h => ?_,
    ringSet_setRing _ (headOn (l.ring n)) hn, rfl, sameRing_latchWaits _, workFollows_self _⟩
  · subst h
    exact ⟨rfl, rfl⟩
  · subst h
    rw [← hrs rfl]
    rfl

/-! ### What an arbitration does with its winner -/

/-- The winner is a ring of the table, as it is. -/
theorem winner_ring {s : State} (h : ringsWf s) {held : List Nat} {n : Nat} {r : Ring}
    (hw : s.latchWaits.winner held = some (n, r)) : n < 16384 ∧ r = s.latchWaits.ring n := by
  obtain ⟨hlt, -, hg, -⟩ := latchWaits_rings h
  have hm := winner_mem hw
  exact ⟨hlt _ hm, (hg _ hm).symm⟩

/-- A winner can be admitted to some engine of its class. -/
theorem eligible_freeInst {s : State} {r : Ring} (h : s.eligible r = true) : (s.freeInst r).isSome = true := by
  simp only [eligible, Bool.and_eq_true] at h
  exact h.2

theorem winner_eligible {s : State} {held : List Nat} {n : Nat} {r : Ring} (h : s.winner held = some (n, r)) :
    s.eligible r = true :=
  (Bool.and_eq_true_iff.1 (List.mem_filter.1 (winner_listed h)).2).1

/-- One arbitration while the Capstan runs unpaused. -/
theorem exec_admission {s : State} (hr : s.capRuns = true) (hp : s.dkbit DK_CTRL 1 = false) :
    exec .admission s = .next (arbitrate s.latchWaits.cap.rings.length [] s.latchWaits) :=
  congrArg Host.Outcome.next (if_neg (by rw [hr, hp]; decide))

theorem arbitrate_none {s : State} {held : List Nat} (h : s.winner held = none) (k : Nat) : arbitrate k held s = s := by
  cases k with
  | zero => rfl
  | succ k => rw [arbitrate, h]

/-- With a winner the table is not empty. -/
theorem rings_length_of_winner {s : State} {held : List Nat} {e : Nat × Ring} (h : s.winner held = some e) :
    ∃ k, s.cap.rings.length = k + 1 :=
  Nat.exists_eq_succ_of_ne_zero (Nat.ne_of_gt (List.length_pos_of_mem (winner_mem h)))

/-- The winner is judged, and nothing else happens. -/
theorem exec_admission_judged {s : State} (hr : s.capRuns = true) (hp : s.dkbit DK_CTRL 1 = false) {n : Nat} {r : Ring}
    (hw : s.latchWaits.winner [] = some (n, r)) {t : State} (hj : s.latchWaits.judge n r = (t, false)) :
    exec .admission s = .next t := by
  obtain ⟨k, hk⟩ := rings_length_of_winner hw
  rw [exec_admission hr hp, hk, arbitrate, hw]
  dsimp only
  rw [hj]

/-- The winner is held, and no other ring can win. -/
theorem exec_admission_held {s : State} (hr : s.capRuns = true) (hp : s.dkbit DK_CTRL 1 = false) {n : Nat} {r : Ring}
    (hw : s.latchWaits.winner [] = some (n, r)) (hj : s.latchWaits.judge n r = (s.latchWaits, true))
    (hn : s.latchWaits.winner [n] = none) : exec .admission s = .next s.latchWaits := by
  obtain ⟨k, hk⟩ := rings_length_of_winner hw
  rw [exec_admission hr hp, hk, arbitrate, hw]
  dsimp only
  rw [hj]
  exact congrArg Host.Outcome.next (arbitrate_none hn k)

/-! ### A head judged (07 R304 stages 6 and 7) -/

section Judge

variable {s : State} {n : Nat} {r : Ring} {d : List Word} {c : ClassChecks}
  (hd : s.damaged (r.entry r.head) 64 = []) (hw : d = bytesWords 16 (s.peek (r.entry r.head) 64))
  (hc : c = s.classChecks n r d)
include hd hw hc

theorem judge_fields {st : Nat} {x : Word} (hf : fieldChecks r.cls d c = some (st, x)) :
    s.judge n r = (s.admissionFault n st x 0, false) := by
  rw [judge, eccRead_undamaged hd]
  dsimp only
  rw [← hw, ← hc, hf]

theorem judge_null (hf : fieldChecks r.cls d c = none) (hnull : c.null = true) {i : Nat} (hi : s.freeInst r = some i) :
    s.judge n r = (s.admitHead n i d true [] [], false) := by
  rw [judge, eccRead_undamaged hd]
  dsimp only
  rw [← hw, ← hc, hf, hi]
  exact if_pos hnull

theorem judge_held (hf : fieldChecks r.cls d c = none) (hnull : c.null = false) {i : Nat} (hi : s.freeInst r = some i)
    (hp : s.pendingHold c.ranges = true) : s.judge n r = (s, true) := by
  rw [judge, eccRead_undamaged hd]
  dsimp only
  rw [← hw, ← hc, hf, hi]
  exact (if_neg (ne_true_of_eq_false hnull)).trans (if_pos hp)

theorem judge_region (hf : fieldChecks r.cls d c = none) (hnull : c.null = false) {i : Nat} (hi : s.freeInst r = some i)
    (hp : s.pendingHold c.ranges = false) {k : Nat} (hk : s.regionCheck r.cls c.ranges 0 [] = .error k) :
    s.judge n r = (s.admissionFault n 0x14 (Word.nat k) 0, false) := by
  rw [judge, eccRead_undamaged hd]
  dsimp only
  rw [← hw, ← hc, hf, hi]
  dsimp only
  rw [if_neg (ne_true_of_eq_false hnull), if_neg (ne_true_of_eq_false hp), hk]

theorem judge_passes (hf : fieldChecks r.cls d c = none) (hnull : c.null = false) {i : Nat} (hi : s.freeInst r = some i)
    (hp : s.pendingHold c.ranges = false) {es : List Nat} (hk : s.regionCheck r.cls c.ranges 0 [] = .ok es) :
    s.judge n r = (s.admitHead n i d false es c.ranges, false) := by
  rw [judge, eccRead_undamaged hd]
  dsimp only
  rw [← hw, ← hc, hf, hi]
  dsimp only
  rw [if_neg (ne_true_of_eq_false hnull), if_neg (ne_true_of_eq_false hp), hk]

end Judge

theorem ringSet_admissionFault {s : State} {n : Nat} (hn : n < 16384) {r : Ring} (hr : r = s.ring n) (st : Nat) (x : Word)
    (a : Nat) : ringSet s (s.admissionFault n st x a) n { r with admFault := some ⟨r.head, st, x, a⟩ } := by
  subst hr
  exact ringSet_setRing s _ hn

/-- A Bell wait that lasts TMO, or does not (07 R314). -/
theorem exec_bellTimeout {s : State} (hr : s.capRuns = true) (hp : s.dkbit DK_CTRL 1 = false) (n : Nat) :
    exec (.bellTimeout n) s = .next (
      let l := s.latchWaits
      let r := l.ring n
      if r.st = .enabled ∧ r.reached ∧ r.waitOk = false ∧ r.tmo ≠ 0 ∧ r.admFault = none then
        l.admissionFault n 0x15 (Word.nat (fld (l.peekWord (r.entry r.head)) 24 8)) 0
      else l) :=
  congrArg Host.Outcome.next (if_neg (by rw [hr, hp]; decide))

end Sys2Proof.Machine.State

namespace Sys2Proof

open Machine Machine.State Spec

/-- Settles O35: the winner by what its descriptor's checks say, and a Bell wait by whether it is late. -/
theorem admissionTakesTheWinner : Obligations.AdmissionTakesTheWinner := by
  intro s l n hwf
  refine ⟨fun r d c hwins hc => ?_, fun hr hp hl hw => ?_, fun hr hp hl r hrr => ⟨fun h => ?_, fun h => ?_⟩, fun h => ?_⟩
  · obtain ⟨hr, hp, rfl, hw, hd, hdesc⟩ := hwins
    obtain ⟨hn, hring⟩ := winner_ring hwf hw
    obtain ⟨i₀, hi₀⟩ := Option.isSome_iff_exists.1 (eligible_freeInst (winner_eligible hw))
    have hd' : s.latchWaits.damaged (r.entry r.head) 64 = [] := hd
    have hdesc' : d = bytesWords 16 (s.latchWaits.peek (r.entry r.head) 64) := hdesc
    refine ⟨fun st x hf => ?_, fun hf hnull hhold hnone => ?_, fun hf hnull hfree => ⟨fun k hk => ?_, fun es i hk hi => ?_⟩,
      fun hf hnull i hi => ?_⟩
    · exact ⟨_, exec_admission_judged hr hp hw (judge_fields hd' hdesc' hc hf), ringSet_admissionFault hn hring st x 0⟩
    · exact exec_admission_held hr hp hw (judge_held hd' hdesc' hc hf hnull hi₀ hhold) hnone
    · exact ⟨_, exec_admission_judged hr hp hw (judge_region hd' hdesc' hc hf hnull hi₀ hfree hk),
        ringSet_admissionFault hn hring _ _ 0⟩
    · exact ⟨_, exec_admission_judged hr hp hw (judge_passes hd' hdesc' hc hf hnull hi hfree hk),
        admitted_admitHead hn hring i d fun _ => by rw [hc]⟩
    · exact ⟨_, exec_admission_judged hr hp hw (judge_null hd' hdesc' hc hf hnull hi), admitted_admitHead hn hring i d nofun⟩
  · rw [exec_admission hr hp, ← hl, arbitrate_none hw]
  · subst hl hrr
    have hlt : n < 16384 := ring_lt_of_st (tableOk_latchWaits hwf) (by rw [h.1]; exact nofun)
    rw [exec_bellTimeout hr hp n]
    exact ⟨_, congrArg Host.Outcome.next (if_pos h), ringSet_admissionFault hlt rfl _ _ 0⟩
  · subst hl hrr
    rw [exec_bellTimeout hr hp n]
    exact congrArg Host.Outcome.next (if_neg h)
  · have hs : (!s.capRuns || s.dkbit DK_CTRL 1) = true := by rcases h with h | h <;> simp [h]
    exact ⟨congrArg Host.Outcome.next (if_pos hs), congrArg Host.Outcome.next (if_pos hs)⟩

end Sys2Proof
end

section
/-! PROOFS. An engine's finish, completion records and halts (07 R306, R310, R311, R323–R325; 16 R698, R701). -/

namespace Sys2Proof.Machine.State

open Sys2Proof.Spec

/-! ### An engine's finish (07 R306; 08 R348) -/

theorem flight_is_iff {f : Flight} {n k : Nat} : (f.ring == n && f.idx == k) = true ↔ f.ring = n ∧ f.idx = k := by
  rw [Bool.and_eq_true, beq_iff_eq, beq_iff_eq]

theorem flight_not {f : Flight} {n k : Nat} (h : f.ring ≠ n ∨ f.idx ≠ k) : (f.ring == n && f.idx == k) = false :=
  Bool.eq_false_iff.2 fun hc => h.elim (fun h => h (flight_is_iff.1 hc).1) fun h => h (flight_is_iff.1 hc).2

/-- The oldest descriptor that its engine has not passed (08 R348). -/
def turnOf (s : State) (f : Flight) : Option Flight := s.cap.flights.find? fun g => g.cls == f.cls && g.inst == f.inst &&
  (match g.st with | .finished _ _ _ => false | .running .streamWait => false
                   | .running (.streamRecv _ _) => false | .running .streamRead => false | _ => true)

/-- The null descriptor `f` of entry `k` of ring `n` is at its turn. -/
def atTurn (s : State) (n k : Nat) (f : Flight) : Bool :=
  f.null && (match s.turnOf f with | some g => g.ring == n && g.idx == k | none => false)

/-- A descriptor as its engine's finish leaves it. -/
def finishOne (s : State) (n k : Nat) (f : Flight) : Flight :=
  match f.st with
  | .ended st d c => { f with st := .finished st d c }
  | .queued => if s.atTurn n k f then { f with st := .finished 1 0 0 } else f
  | _ => f

theorem exec_engineFinish {s : State} (h : s.capRuns = true) (n k : Nat) :
    exec (.engineFinish n k) s = .next (s.mapFlight n k (s.finishOne n k)) :=
  congrArg Host.Outcome.next (if_neg (by rw [h]; decide))

theorem finishOne_same (s : State) (n k : Nat) (f : Flight) :
    ({ s.finishOne n k f with st := .queued } : Flight) = { f with st := .queued } := by
  unfold finishOne
  split
  · rfl
  · split <;> rfl
  · rfl

theorem finishOne_ended (s : State) (n k : Nat) {f : Flight} {st : Nat} {d : Word} {c : Nat} (h : f.st = .ended st d c) :
    s.finishOne n k f = { f with st := .finished st d c } := by rw [finishOne, h]

theorem finishOne_other (s : State) (n k : Nat) {f : Flight} (h : f.st ≠ .queued ∨ f.null = false)
    (he : ∀ st d c, f.st ≠ .ended st d c) : s.finishOne n k f = f := by
  unfold finishOne
  split
  · next e => exact absurd e (he _ _ _)
  · next e =>
    have hn : f.null = false := h.resolve_left fun h => h e
    rw [atTurn, hn, Bool.false_and, if_neg (by decide)]
  · rfl

theorem finishOne_null (s : State) (n k : Nat) {f : Flight} (hq : f.st = .queued) (hn : f.null = true)
    (ht : s.turnOf f = some f) (hr : f.ring = n) (hk : f.idx = k) :
    s.finishOne n k f = { f with st := .finished 1 0 0 } := by
  rw [finishOne, hq]
  refine if_pos ?_
  rw [atTurn, hn, ht]
  exact flight_is_iff.2 ⟨hr, hk⟩

/-- A flight of the engine that has passed all before it. -/
theorem turnOf_of_passed {s : State} {f : Flight} {a b : List Flight} (hs : s.cap.flights = a ++ f :: b) (hq : f.st = .queued)
    (ha : ∀ g ∈ a, g.cls = f.cls → g.inst = f.inst → turnOver g) : s.turnOf f = some f := by
  unfold turnOf
  rw [hs, List.find?_append, List.find?_eq_none.2, Option.none_or]
  · refine List.find?_cons_of_pos ?_
    rw [hq, beq_self_eq_true, beq_self_eq_true]
    rfl
  · intro g hg hc
    simp only [Bool.and_eq_true, beq_iff_eq] at hc
    have ht := ha g hg hc.1.1 hc.1.2
    have hcst := hc.2
    unfold turnOver at ht
    split at ht
    all_goals simp_all

/-- A flight as `mapFlight` leaves it. -/
theorem mapFlight_getElem? (s : State) (n k : Nat) (g : Flight → Flight) (i : Nat) :
    (s.mapFlight n k g).cap.flights[i]? = s.cap.flights[i]?.map fun f => if f.ring == n && f.idx == k then g f else f :=
  List.getElem?_map

theorem engineFinish_spec {s : State} (h : s.capRuns = true) (n k : Nat) : ∃ t, exec (.engineFinish n k) s = .next t ∧
    t = { s with cap := { s.cap with flights := t.cap.flights } } ∧
    t.cap.flights.map (fun f => { f with st := .queued }) = s.cap.flights.map (fun f => { f with st := .queued }) ∧
    ∀ (i : Nat) (f : Flight), s.cap.flights[i]? = some f →
      (f.ring ≠ n ∨ f.idx ≠ k → t.cap.flights[i]? = some f) ∧
      (f.ring = n → f.idx = k →
        (∀ st d c, f.st = .ended st d c → t.cap.flights[i]? = some { f with st := .finished st d c }) ∧
        (f.st ≠ .queued ∨ f.null = false → (∀ st d c, f.st ≠ .ended st d c) → t.cap.flights[i]? = some f)) := by
  refine ⟨_, exec_engineFinish h n k, rfl, ?_, fun i f hi => ?_⟩
  · refine (List.map_map ..).trans (List.map_congr_left fun f _ => ?_)
    dsimp only [Function.comp]
    split
    · exact finishOne_same s n k f
    · rfl
  · rw [mapFlight_getElem?, hi, Option.map_some]
    refine ⟨fun hne => ?_, fun hr hk => ?_⟩
    · rw [flight_not hne]
      rfl
    · rw [if_pos (flight_is_iff.2 ⟨hr, hk⟩)]
      exact ⟨fun st d c he => congrArg some (finishOne_ended s n k he),
        fun hq he => congrArg some (finishOne_other s n k hq he)⟩

/-- A null descriptor at its turn (08 R348). -/
theorem engineFinish_null {s : State} (h : s.capRuns = true) {n k : Nat} {f : Flight} {a b : List Flight}
    (hs : s.cap.flights = a ++ f :: b) (hr : f.ring = n) (hk : f.idx = k) (hq : f.st = .queued) (hn : f.null = true)
    (hne : ∀ g ∈ a ++ b, g.ring ≠ n ∨ g.idx ≠ k) (ha : ∀ g ∈ a, g.cls = f.cls → g.inst = f.inst → turnOver g) :
    exec (.engineFinish n k) s =
      .next { s with cap := { s.cap with flights := a ++ { f with st := .finished 1 0 0 } :: b } } := by
  have hkeep : ∀ l : List Flight, (∀ g ∈ l, g.ring ≠ n ∨ g.idx ≠ k) →
      l.map (fun g => if g.ring == n && g.idx == k then s.finishOne n k g else g) = l := fun l hl =>
    (List.map_congr_left fun g hg => by rw [flight_not (hl g hg)]; rfl).trans (List.map_id' l)
  rw [exec_engineFinish h, mapFlight, hs, List.map_append, List.map_cons, hkeep a fun g hg => hne g (List.mem_append_left _ hg),
    hkeep b fun g hg => hne g (List.mem_append_right _ hg), if_pos (flight_is_iff.2 ⟨hr, hk⟩),
    finishOne_null s n k hq hn (turnOf_of_passed hs hq ha) hr hk]

/-! ### A completion record (07 Table 7.4) -/

theorem recordOf_length (r : Ring) (k status epoch : Nat) (detail : Word) (cycles inst : Nat) :
    (recordOf r k status epoch detail cycles inst).length = 16 := length_wordsBytes _

/-- A write of whole damaged words of the RAM that holds rings. -/
theorem bytesPut_eccWrite {s : State} (src : Nat) {a : Nat} {l : List Byte} (hl : l ≠ []) (hr : inRam s.part a l.length = true)
    (hw : wholeWords s a l.length) : bytesPut s (s.eccWrite src a l).1 a l := by
  have hlow : a + l.length ≤ 0x50000000 := by
    have hg : s.part.granary ≤ 0x4000000 := by
      unfold Part.granary Part.stackCount
      cases s.part.variant <;> decide
    simp only [inRam, Bool.or_eq_true, Bool.and_eq_true, decide_eq_true_eq] at hr
    omega
  have hf := eccWrite_frame s src a l
  have hk := eccPut_memKeptBut s src a hl
  obtain ⟨hmem, hfree, hreg⟩ := eccPut_whole hl hw src
  rw [eccWrite_low s src hlow] at hf ⊢
  generalize (s.eccPut src a l).1 = v at *
  rw [hfree] at hf
  refine ⟨hf, hreg, hk, fun i hi => ?_⟩
  rw [byteAt, if_neg (by omega), hmem, Store.get_setRun_in 0 s.mem a l i hi, List.getD_eq_getElem _ _ hi]

theorem bytesPut_writeRecord {s : State} {n : Nat} {r : Ring} (hr : r = s.ring n) (hc : cqOk s r)
    (status epoch : Nat) (detail : Word) (cycles inst : Nat) :
    bytesPut s (s.writeRecord n r.done status epoch detail cycles inst) (r.cqbase + 16 * r.done)
      (recordOf r r.done status epoch detail cycles inst) := by
  subst hr
  have hlen := recordOf_length (s.ring n) (s.ring n).done status epoch detail cycles inst
  change bytesPut s (s.eccWrite srcCapstan ((s.ring n).cqbase + 16 * (s.ring n).done)
    (recordOf (s.ring n) (s.ring n).done status epoch detail cycles inst)).1 _ _
  generalize recordOf (s.ring n) (s.ring n).done status epoch detail cycles inst = l at *
  exact bytesPut_eccWrite srcCapstan (List.ne_nil_of_length_pos (by rw [hlen]; decide)) (by rw [hlen]; exact hc.1)
    (by rw [hlen]; exact hc.2)

/-! ### What a completion leaves beside the memories and the engines -/

/-- The Capstan but for the gap marks, Bosun, the device and its trim. -/
def aside (s : State) : Capstan × Bosun × Device × Trim := ({ s.cap with gaps := [] }, s.bosun, s.dev, s.trim)

@[simp] theorem aside_ite (c : Prop) [Decidable c] (s t : State) :
    (if c then s else t).aside = if c then s.aside else t.aside := apply_ite aside _ _ _
theorem aside_foldl {α : Type} {f : State → α → State} (h : ∀ t a, (f t a).aside = t.aside) (l : List α) (s : State) :
    (l.foldl f s).aside = s.aside :=
  foldl_keeps (fun t : State => t.aside = s.aside) f (fun t a e => (h t a).trans e) l s rfl

@[simp] theorem aside_setLoom (s : State) (i : Nat) (x : Loom) : (s.setLoom i x).aside = s.aside := rfl
@[simp] theorem aside_setHarrow (s : State) (i : Nat) (x : Harrow) : (s.setHarrow i x).aside = s.aside := rfl
@[simp] theorem aside_setMill (s : State) (i : Nat) (x : Mill) : (s.setMill i x).aside = s.aside := rfl
@[simp] theorem aside_drawBytes (s : State) (n : Nat) : (s.drawBytes n).2.aside = s.aside := by
  induction n generalizing s with
  | zero => rfl
  | succ n ih => exact ih _
@[simp] theorem aside_drawNats (s : State) (w n : Nat) : (s.drawNats w n).2.aside = s.aside := by
  induction n generalizing s with
  | zero => rfl
  | succ n ih => exact ih _
@[simp] theorem aside_eccWrite (s : State) (src a : Nat) (l : List Byte) : (s.eccWrite src a l).1.aside = s.aside := by
  rw [eccWrite_frame]
  rfl
@[simp] theorem aside_writeRecord (s : State) (n k status epoch : Nat) (detail : Word) (cycles inst : Nat) :
    (s.writeRecord n k status epoch detail cycles inst).aside = s.aside := aside_eccWrite s _ _ _
@[simp] theorem aside_scramble (s : State) (ws : List (Nat × Nat)) : (s.scramble ws).aside = s.aside := by
  refine aside_foldl (fun t e => ?_) ws s
  simp
@[simp] theorem aside_abandonStream (s : State) (f : Flight) : (s.abandonStream f).aside = s.aside := by
  unfold abandonStream
  dsimp only
  split <;> rfl
@[simp] theorem aside_spoilGroup (s : State) (i : Nat) (c32 : Bool) (reg n : Nat) :
    (s.spoilGroup i c32 reg n).aside = s.aside := by simp [spoilGroup]
@[simp] theorem aside_spoilMask (s : State) (i k n : Nat) : (s.spoilMask i k n).aside = s.aside := by simp [spoilMask]
@[simp] theorem aside_spoilMill (s : State) (i : Nat) (d : List Word) : (s.spoilMill i d).aside = s.aside :=
  (aside_foldl (fun t x => by simp) _ _).trans (aside_foldl (fun t k => by simp) _ _)
@[simp] theorem aside_releaseBlocks (s : State) (i : Nat) : (s.releaseBlocks i none).aside = s.aside := by
  refine (aside_foldl (fun t e => ?_) _ _).trans (aside_foldl (fun t k => ?_) _ _)
  · dsimp only
    split <;> rfl
  · simp
@[simp] theorem aside_loomEnded (s : State) (f : Flight) : (s.loomEnded f).aside = s.aside := rfl
@[simp] theorem aside_loseKept (s : State) (f : Flight) : (s.loseKept f).aside = s.aside := by simp [loseKept]
@[simp] theorem aside_loseRows (s : State) (f : Flight) : (s.loseRows f).aside = s.aside := by simp [loseRows]
@[simp] theorem aside_abandonEngine (s : State) (f : Flight) : (s.abandonEngine f).aside = s.aside := by
  unfold abandonEngine
  dsimp only
  split <;> simp
/-- A cancelled entry leaves every ring, Bell and other descriptor as it was (07 R324). -/
theorem aside_cancelFlight (s : State) (f : Flight) : (s.cancelFlight f).aside = s.aside := by
  have he : ((s.uncharge f.charged).abandonEngine f).aside = s.aside := aside_abandonEngine _ f
  unfold cancelFlight
  dsimp only
  generalize (s.uncharge f.charged).abandonEngine f = t at *
  refine (aside_writeRecord _ _ _ _ _ _ _ _).trans ?_
  split
  · exact he
  · exact (aside_scramble _ _).trans he
  · exact (aside_scramble _ _).trans he
  · exact he
  · exact he
  · exact (aside_abandonStream _ f).trans ((aside_scramble _ _).trans he)

/-! ### Charges and signals -/

theorem get_uncharge (s : State) (es : List Nat) (m : Nat) :
    Store.get 0 (s.uncharge es).rgRef m = Store.get 0 s.rgRef m - es.count m := by
  unfold uncharge
  dsimp only
  generalize s.rgRef = rs
  induction es generalizing rs with
  | nil => rfl
  | cons e es ih =>
    rw [List.foldl_cons, ih, List.count_cons]
    by_cases h : m = e
    · subst h
      rw [Store.get_set_self, beq_self_eq_true, if_pos rfl]
      omega
    · rw [Store.get_set_ne _ _ _ h, if_neg (by rw [beq_iff_eq]; exact fun k => h k.symm), Nat.add_zero]

/-- One Bell signal of a header (08 R346). -/
def signalOne (s : State) (op b v : Nat) : State :=
  if op = 1 then s.bellOp b false (Word.nat v) else if op = 2 then s.bellOp b true (Word.nat v) else s

theorem signals_eq (s : State) (d : List Word) :
    s.signals d = (s.signalOne (fld (wordAt d 0) 18 2) (fld (wordAt d 2) 0 8) (fld (wordAt d 3) 0 16)).signalOne
      (fld (wordAt d 0) 20 2) (fld (wordAt d 2) 8 8) (fld (wordAt d 3) 16 16) := rfl

theorem signalled_signalOne {s : State} (h : s.capRuns = true) (op b v : Nat) : signalled s (s.signalOne op b v) op b v := by
  unfold signalOne
  refine ⟨fun h1 => ?_, fun h2 => ?_, fun h1 h2 => ?_⟩
  · rw [if_pos h1]
    exact bellOp_bellTook h _ _ _
  · rw [if_neg (by omega), if_pos h2]
    exact bellOp_bellTook h _ _ _
  · rw [if_neg h1, if_neg h2]

theorem capRuns_signalOne {s : State} (h : s.capRuns = true) (op b v : Nat) : (s.signalOne op b v).capRuns = true := by
  refine (capRuns_congr ?_).trans h
  unfold signalOne
  split
  · exact bellOp_dev s b _ _
  · split
    · exact bellOp_dev s b _ _
    · rfl

/-! ### The fault record of a halt (16 R698, R701) -/

/-- The five words of the fault block's record. -/
def faultWords (s : State) (v d w a m : Word) : State :=
  ((((s.setReg (FT_REC 0) v).setReg (FT_REC 1) d).setReg (FT_REC 2) w).setReg (FT_REC 3) a).setReg (FT_REC 4) m

theorem reg_faultWords (s : State) (v d w a m : Word) :
    csrKept s (s.faultWords v d w a m) ((List.range 5).map FT_REC) ∧ (s.faultWords v d w a m).reg (FT_REC 0) = v ∧
    (s.faultWords v d w a m).reg (FT_REC 1) = d ∧ (s.faultWords v d w a m).reg (FT_REC 2) = w ∧
    (s.faultWords v d w a m).reg (FT_REC 3) = a ∧ (s.faultWords v d w a m).reg (FT_REC 4) = m := by
  refine ⟨fun b hb => ?_, ?_, ?_, ?_, ?_, ?_⟩
  · have hb : b ≠ FT_REC 0 ∧ b ≠ FT_REC 1 ∧ b ≠ FT_REC 2 ∧ b ≠ FT_REC 3 ∧ b ≠ FT_REC 4 := by
      simpa [List.range_succ] using hb
    obtain ⟨h0, h1, h2, h3, h4⟩ := hb
    rw [faultWords, reg_setReg_ne _ _ h4, reg_setReg_ne _ _ h3, reg_setReg_ne _ _ h2, reg_setReg_ne _ _ h1,
      reg_setReg_ne _ _ h0]
  all_goals simp (disch := decide) only [faultWords, reg_setReg_ne, reg_setReg_self]

/-- The first word of a class E record. -/
theorem classE_word (code q : Nat) :
    Word.nat (code + 3 * 256 + b2n false * 2048 + q * 65536) = Word.nat (code + 0x300 + q * 65536) := by
  simp [b2n]

theorem recordFault_classE_eq {s : State} (h : s.dev.mode ≠ .becalmed) (code : Nat) (d : Word) (n k a : Nat) :
    s.recordFault 3 code false d (some (n, k)) a =
      ((((s.faultWords (Word.nat (code + 3 * 256 + b2n false * 2048 + (s.dkf DK_FAULT_SEQ 0 16 + 1) % 65536 * 65536)) d
        (Word.nat (n + 2 ^ 14 + k * 65536)) (Word.nat a) s.deck.ms).setDk DK_FAULT_LO (BitVec.ofNat 16 d.toNat)).setDk
        DK_FAULT_HI (BitVec.ofNat 16 (code + 3 * 256))).setDk DK_FAULT_SEQ
        (BitVec.ofNat 16 ((s.dkf DK_FAULT_SEQ 0 16 + 1) % 65536))).bump FT_ECNT 0 32 := if_neg h

/-- The fault block under a class E record. -/
theorem recordFault_classE {s : State} (h : s.dev.mode ≠ .becalmed) (code : Nat) (d : Word) (n k a : Nat) :
    let t := s.recordFault 3 code false d (some (n, k)) a
    csrKept s t (FT_ECNT :: (List.range 5).map FT_REC) ∧
    t.reg FT_ECNT = putFld (s.reg FT_ECNT) 0 32 (min (s.rf FT_ECNT 0 32 + 1) 0xFFFFFFFF) ∧
    t.reg (FT_REC 0) = Word.nat (code + 0x300 + (s.dkf DK_FAULT_SEQ 0 16 + 1) % 65536 * 65536) ∧ t.reg (FT_REC 1) = d ∧
    t.reg (FT_REC 2) = Word.nat (n + 2 ^ 14 + k * 65536) ∧ t.reg (FT_REC 3) = Word.nat a ∧ t.reg (FT_REC 4) = s.deck.ms := by
  rw [recordFault_classE_eq h, classE_word]
  generalize Word.nat (code + 0x300 + _) = v
  generalize Word.nat (n + 2 ^ 14 + _) = w
  obtain ⟨hk, h0, h1, h2, h3, h4⟩ := reg_faultWords s v d w (Word.nat a) s.deck.ms
  generalize s.faultWords v d w (Word.nat a) s.deck.ms = u at *
  have hne : ∀ (x y z : Half) (b : Nat), b ≠ FT_ECNT → ((((u.setDk DK_FAULT_LO x).setDk DK_FAULT_HI y).setDk DK_FAULT_SEQ
      z).bump FT_ECNT 0 32).reg b = u.reg b := fun x y z b hb => by
    rw [reg_bump_ne _ _ _ hb]
    simp only [reg_setDk]
  have hcnt : u.reg FT_ECNT = s.reg FT_ECNT := hk _ (by decide)
  refine ⟨fun b hb => ?_, ?_, (hne _ _ _ _ (by decide)).trans h0, (hne _ _ _ _ (by decide)).trans h1,
    (hne _ _ _ _ (by decide)).trans h2, (hne _ _ _ _ (by decide)).trans h3, (hne _ _ _ _ (by decide)).trans h4⟩
  · rw [List.mem_cons, not_or] at hb
    exact (hne _ _ _ b hb.1).trans (hk b hb.2)
  · rw [reg_bump_self, rf]
    simp only [reg_setDk]
    rw [hcnt, rf]
    rfl

theorem recordFault_deckRegs (s : State) (code : Nat) (d : Word) (at? : Option (Nat × Nat)) (a : Nat) :
    deckRegs s (s.recordFault 3 code false d at? a) [DK_FAULT_LO, DK_FAULT_HI, DK_FAULT_SEQ] := by
  refine ⟨?_, fun _ h => recordFault_dk s 3 code false d at? a h⟩
  unfold recordFault
  split
  · rfl
  · rfl

/-! ### The HALT sources (05 R230) -/

/-- DK_HALT_RING names the first halted ring, and then that there are more. -/
def haltNamed (s : State) (n : Nat) : State :=
  if s.dkbit DK_HALT_RING 14 then s.setDkf DK_HALT_RING 15 1 1 else (s.setDkf DK_HALT_RING 0 14 n).setDkf DK_HALT_RING 14 1 1

theorem noteHalt_eq (s : State) (n : Nat) :
    s.noteHalt n = { (s.haltNamed n).raise irqHALT with bosun := { s.bosun with latHalt := true } } := by
  unfold noteHalt haltNamed
  dsimp only
  split <;> rfl

theorem haltNamed_frame (s : State) (n : Nat) : s.haltNamed n = { s with deck := (s.haltNamed n).deck } := by
  unfold haltNamed
  split <;> rfl

theorem haltNamed_deckRegs (s : State) (n : Nat) : deckRegs s (s.haltNamed n) [DK_HALT_RING] := by
  unfold haltNamed
  split
  · exact deckRegs_setDk s _ _
  · exact deckRegs_mono (deckRegs_trans (deckRegs_setDk s _ _) (deckRegs_setDk _ _ _)) (by decide)

theorem haltNamed_dk (s : State) (n : Nat) : (s.haltNamed n).dk DK_HALT_RING =
    if s.dkbit DK_HALT_RING 14 then putFld (s.dk DK_HALT_RING) 15 1 1
    else putFld (putFld (s.dk DK_HALT_RING) 0 14 n) 14 1 1 := by
  unfold haltNamed
  split
  · exact dk_setDk_self _ _ _
  · rw [setDkf, dk_setDk_self, setDkf, dk_setDk_self]

theorem noteHalt_spec (s : State) (n : Nat) :
    s.noteHalt n = { s with deck := (s.noteHalt n).deck, bosun := { s.bosun with latHalt := true } } ∧
    deckRegs s (s.noteHalt n) [DK_HALT_RING, DK_IRQ_RAW] ∧ raised s (s.noteHalt n) [irqHALT] ∧
    (s.noteHalt n).dkbit DK_IRQ_RAW irqHALT = true ∧
    (s.noteHalt n).dk DK_HALT_RING = if s.dkbit DK_HALT_RING 14 then putFld (s.dk DK_HALT_RING) 15 1 1
      else putFld (putFld (s.dk DK_HALT_RING) 0 14 n) 14 1 1 := by
  have hf := haltNamed_frame s n
  have hregs := haltNamed_deckRegs s n
  have hraw : (s.haltNamed n).dk DK_IRQ_RAW = s.dk DK_IRQ_RAW := hregs.2 _ (by decide)
  have hring := haltNamed_dk s n
  rw [noteHalt_eq]
  generalize s.haltNamed n = v at *
  refine ⟨?_, deckRegs_trans hregs (deckRegs_raise v irqHALT), ?_, dkbit_raise v irqHALT (by decide), ?_⟩
  · rw [raise_frame, hf]
  · exact raised_congr (raised_raise v (by decide)) hraw.symm rfl
  · exact (dk_raise_ne v irqHALT (by decide)).trans hring

/-- A ring as its halt at entry `k` leaves it (07 R323). -/
def haltedAt (r : Ring) (k head status : Nat) : Ring :=
  { r with st := .halted, fidx := k, fstat := status, head := head, admFault := none, reached := false, waitOk := false }

/-- The ring set, the record written and the HALT sources raised. -/
def haltMarked (s : State) (n k : Nat) (r : Ring) (head status : Nat) (detail : Word) (addr : Nat) : State :=
  ((s.setRing n (haltedAt r k head status)).recordFault 3 status false detail (some (n, k)) addr).noteHalt n

theorem haltsAs_haltMarked {s : State} (h : s.dev.mode ≠ .becalmed) {n : Nat} (hn : n < 16384) (k : Nat) (r : Ring)
    (head status : Nat) (detail : Word) (addr : Nat) :
    haltsAs s (s.haltMarked n k r head status detail addr) n k r head status detail addr := by
  have hset := ringSet_setRing s (haltedAt r k head status) hn
  have hm : (s.setRing n (haltedAt r k head status)).dev.mode ≠ .becalmed := by rwa [setRing_dev]
  unfold haltMarked
  generalize s.setRing n (haltedAt r k head status) = x at *
  obtain ⟨hk, hcnt, h0, h1, h2, h3, h4⟩ := recordFault_classE hm status detail n k addr
  obtain ⟨hlo, hhi, hseq⟩ := recordFault_mirror x 3 status false detail (some (n, k)) addr hm
  have hdeck := recordFault_deckRegs x status detail (some (n, k)) addr
  have hf := recordFault_frame x 3 status false detail (some (n, k)) addr
  generalize x.recordFault 3 status false detail (some (n, k)) addr = y at *
  obtain ⟨nf, ndeck, nraised, -, nring⟩ := noteHalt_spec y n
  generalize y.noteHalt n = t at *
  have hreg : ∀ b, t.reg b = y.reg b := fun b => by rw [nf]; rfl
  have hmir : ∀ o ∈ [DK_FAULT_LO, DK_FAULT_HI, DK_FAULT_SEQ], t.dk o = y.dk o := fun o ho =>
    ndeck.2 o (by revert o; decide)
  have hhalt : y.dk DK_HALT_RING = x.dk DK_HALT_RING := hdeck.2 _ (by decide)
  refine ⟨x, hset, ?_, fun b hb => (hreg b).trans (hk b hb), (hreg _).trans hcnt, (hreg _).trans h0, (hreg _).trans h1,
    (hreg _).trans h2, (hreg _).trans h3, (hreg _).trans h4, deckRegs_mono (deckRegs_trans hdeck ndeck) (by decide),
    (hmir _ (by decide)).trans hlo, (hmir _ (by decide)).trans hhi, (hmir _ (by decide)).trans hseq,
    raised_congr nraised (hdeck.2 _ (by decide)).symm rfl, ?_⟩
  · have hregs : t.regs = y.regs := by rw [nf]
    rw [hregs]
    rw [hf] at nf
    exact nf
  · rw [nring, dkbit, dkf, dkbit, dkf, hhalt]

/-! ### A ring that halts (07 R323, R324) -/

/-- Every descriptor of ring `n` leaves flight, the cancelled ones with their records. -/
def laterCancelled (s : State) (n : Nat) : State :=
  (s.cap.flights.filter fun f => f.ring == n).foldl cancelFlight
    { s with cap := { s.cap with flights := s.cap.flights.filter fun f => f.ring != n } }

/-- An entry behind `k` that faulted at admission is cancelled with them. -/
def allCancelled (s : State) (n k : Nat) : State :=
  match ((s.laterCancelled n).ring n).admFault with
  | some a => if a.idx = k then s.laterCancelled n
    else (s.laterCancelled n).writeRecord n a.idx 0xFE ((s.laterCancelled n).epochOf ((s.laterCancelled n).ring n) a.idx) 0 0 0
  | none => s.laterCancelled n

theorem haltRing_eq (s : State) (n k head status : Nat) (detail : Word) (addr : Nat) :
    s.haltRing n k head status detail addr =
      (s.allCancelled n k).haltMarked n k ((s.laterCancelled n).ring n) head status detail addr := rfl

theorem aside_laterCancelled (s : State) (n : Nat) : (s.laterCancelled n).aside =
    ({ s.cap with flights := s.cap.flights.filter (fun f => f.ring != n), gaps := [] }, s.bosun, s.dev, s.trim) :=
  aside_foldl aside_cancelFlight _ _

theorem aside_allCancelled (s : State) (n k : Nat) : (s.allCancelled n k).aside = (s.laterCancelled n).aside := by
  unfold allCancelled
  split
  · split
    · rfl
    · exact aside_writeRecord _ _ _ _ _ _ _ _
  · rfl

/-- With no descriptor of the ring in flight, and no fault at admission behind `k`, nothing is cancelled. -/
theorem allCancelled_none {s : State} {n k : Nat} (hf : ∀ f ∈ s.cap.flights, f.ring ≠ n)
    (ha : ∀ x, (s.ring n).admFault = some x → x.idx = k) : s.laterCancelled n = s ∧ s.allCancelled n k = s := by
  have hlater : s.laterCancelled n = s := by
    have hnil : (s.cap.flights.filter fun f => f.ring == n) = [] :=
      List.filter_eq_nil_iff.2 fun f h => by rw [beq_iff_eq]; exact hf f h
    have hself : (s.cap.flights.filter fun f => f.ring != n) = s.cap.flights :=
      List.filter_eq_self.2 fun f h => bne_iff_ne.2 (hf f h)
    rw [laterCancelled, hnil, hself]
    rfl
  refine ⟨hlater, ?_⟩
  unfold allCancelled
  rw [hlater]
  split
  · next x hx => exact if_pos (ha x hx)
  · rfl

theorem haltRing_none {s : State} {n k : Nat} (hf : ∀ f ∈ s.cap.flights, f.ring ≠ n)
    (ha : ∀ x, (s.ring n).admFault = some x → x.idx = k) (head status : Nat) (detail : Word) (addr : Nat) :
    s.haltRing n k head status detail addr = s.haltMarked n k (s.ring n) head status detail addr := by
  obtain ⟨hl, ha⟩ := allCancelled_none hf ha
  rw [haltRing_eq, ha, hl]

/-- What every halt leaves: the ring, the flights of the others, the record and the HALT sources. -/
theorem haltRing_spec {s : State} (h : s.dev.mode ≠ .becalmed) {n : Nat} (hn : n < 16384) (k head status : Nat) (detail : Word)
    (addr : Nat) :
    let t := s.haltRing n k head status detail addr
    t.cap.flights = s.cap.flights.filter (fun g => g.ring != n) ∧ t.cap.bells = s.cap.bells ∧
    t.ring n = haltedAt (s.ring n) k head status ∧ (∀ m, m ≠ n → t.ring m = s.ring m) ∧
    t.dkbit DK_IRQ_RAW irqHALT = true ∧ t.bosun = { s.bosun with latHalt := true } ∧
    t.dk DK_FAULT_HI = BitVec.ofNat 16 (status + 0x300) ∧ t.dev = s.dev ∧ t.trim = s.trim := by
  have hl := aside_laterCancelled s n
  have hc := (aside_allCancelled s n k).trans hl
  dsimp only
  rw [haltRing_eq]
  generalize s.laterCancelled n = l at *
  generalize s.allCancelled n k = c at *
  have hlrings : l.cap.rings = s.cap.rings := congrArg (fun x => x.1.rings) hl
  have hrings : c.cap.rings = s.cap.rings := congrArg (fun x => x.1.rings) hc
  have hflights : c.cap.flights = s.cap.flights.filter fun g => g.ring != n := congrArg (fun x => x.1.flights) hc
  have hbells : c.cap.bells = s.cap.bells := congrArg (fun x => x.1.bells) hc
  have hbosun : c.bosun = s.bosun := congrArg (fun x => x.2.1) hc
  have hdev : c.dev = s.dev := congrArg (fun x => x.2.2.1) hc
  have htrim : c.trim = s.trim := congrArg (fun x => x.2.2.2) hc
  have hring : l.ring n = s.ring n := by rw [ring, hlrings, ring]
  rw [hring]
  obtain ⟨x, ⟨hxf, -, hxn, hxm, -⟩, ht, -, -, -, -, -, -, -, -, -, hhi, -, hraised, -⟩ :=
    haltsAs_haltMarked (hdev ▸ h) hn k (s.ring n) head status detail addr
  generalize c.haltMarked n k (s.ring n) head status detail addr = t at *
  have htr : ∀ m, t.ring m = x.ring m := fun m => by rw [ht]; rfl
  refine ⟨?_, ?_, (htr n).trans hxn, fun m hm => (htr m).trans ((hxm m hm).trans ?_), hraised irqHALT (by decide), ?_, hhi, ?_, ?_⟩
  · rw [ht, hxf]
    exact hflights
  · rw [ht, hxf]
    exact hbells
  · rw [ring, hrings, ring]
  · rw [ht, hxf, ← hbosun]
  · rw [ht, hxf]
    exact hdev
  · rw [ht, hxf]
    exact htrim

/-! ### The oldest entry's completion (07 R310, R311) -/

/-- The state that the oldest entry's record leaves behind it: the entry has left flight and its charges. -/
def recorded (s : State) (n : Nat) (f : Flight) (status : Nat) (detail : Word) (cycles : Nat) : State :=
  let a := s.writeRecord n (s.ring n).done status f.epoch detail cycles f.inst
  ({ a with cap := { a.cap with
      flights := a.cap.flights.filter fun g => !(g.ring == n && g.idx == (s.ring n).done) } }).uncharge f.charged

/-- The DETAIL of a completion record: a shared key is marked where the status is OK (09 R413). -/
def detailOf (f : Flight) (status : Nat) (detail : Word) : Word :=
  if f.shared && status == 0 then putFld detail 31 1 1 else detail

/-- Ring `r` once its oldest entry has completed. -/
def advancedRing (r : Ring) : Ring :=
  { r with done := r.succ r.done, phase := if r.succ r.done = 0 then !r.phase else r.phase, epochs := r.epochs.drop 1 }

theorem completion_not_enabled {s : State} {n : Nat} (h : (s.ring n).st ≠ .enabled) : s.completion n = s :=
  if_pos (by simp [h])

section Enabled

variable {s : State} {n : Nat} (hr : s.capRuns = true) (he : (s.ring n).st = .enabled)
include hr he

theorem completion_guard : ¬ (!s.capRuns || decide ((s.ring n).st ≠ .enabled)) = true := by simp [hr, he]

theorem completion_unfinished {f : Flight} (hf : s.flightAt n (s.ring n).done = some f)
    (h : ∀ st d c, f.st ≠ .finished st d c) : s.completion n = s := by
  refine (if_neg (completion_guard hr he)).trans ?_
  rw [hf]
  dsimp only
  split
  · next e => exact absurd e (h _ _ _)
  · rfl

theorem completion_idle (hf : s.flightAt n (s.ring n).done = none)
    (h : ∀ a, (s.ring n).admFault = some a → a.idx ≠ (s.ring n).done) : s.completion n = s := by
  refine (if_neg (completion_guard hr he)).trans ?_
  rw [hf]
  dsimp only
  split
  · next a ha => exact if_neg (h a ha)
  · rfl

theorem completion_finished {f : Flight} (hf : s.flightAt n (s.ring n).done = some f) {status : Nat} {detail : Word}
    {cycles : Nat} (hs : f.st = .finished status detail cycles) : s.completion n =
      if 0x10 ≤ status then (s.recorded n f status (detailOf f status detail) cycles).haltRing n (s.ring n).done
        ((s.ring n).succ (s.ring n).done) status (detailOf f status detail) f.addr
      else ((((s.recorded n f status (detailOf f status detail) cycles).setRing n (advancedRing (s.ring n))).signals
        f.desc).updateHolder).updateWork := by
  refine (if_neg (completion_guard hr he)).trans ?_
  rw [hf]
  dsimp only
  rw [hs]
  rfl

theorem completion_faulted (hf : s.flightAt n (s.ring n).done = none) {x : AdmFault} (hx : (s.ring n).admFault = some x)
    (hi : x.idx = (s.ring n).done) : s.completion n =
      (s.writeRecord n (s.ring n).done x.status (s.epochOf (s.ring n) (s.ring n).done) x.detail 0 0).haltRing n
        (s.ring n).done (s.ring n).done x.status x.detail x.addr := by
  refine (if_neg (completion_guard hr he)).trans ?_
  rw [hf]
  dsimp only
  rw [hx]
  exact if_pos hi

end Enabled

theorem writeRecord_cap (s : State) (n k status epoch : Nat) (detail : Word) (cycles inst : Nat) :
    (s.writeRecord n k status epoch detail cycles inst).cap = s.cap := by
  rw [writeRecord, eccWrite_frame]

theorem writeRecord_dev (s : State) (n k status epoch : Nat) (detail : Word) (cycles inst : Nat) :
    (s.writeRecord n k status epoch detail cycles inst).dev = s.dev := by
  rw [writeRecord, eccWrite_frame]

section Recorded

variable (s : State) (n : Nat) (f : Flight) (status : Nat) (detail : Word) (cycles : Nat)

theorem recorded_spec : let a := s.writeRecord n (s.ring n).done status f.epoch detail cycles f.inst
    let c := s.recorded n f status detail cycles
    c = { a with
      cap := { a.cap with flights := s.cap.flights.filter fun g => !(g.ring == n && g.idx == (s.ring n).done) }
      rgRef := c.rgRef } ∧ ∀ m, Store.get 0 c.rgRef m = Store.get 0 a.rgRef m - f.charged.count m := by
  refine ⟨?_, fun m => get_uncharge _ _ m⟩
  rw [recorded, writeRecord_cap]
  rfl

theorem recorded_cap : (s.recorded n f status detail cycles).cap =
    { s.cap with flights := s.cap.flights.filter fun g => !(g.ring == n && g.idx == (s.ring n).done) } := by
  rw [(recorded_spec s n f status detail cycles).1]
  dsimp only
  rw [writeRecord_cap]

theorem recorded_dev : (s.recorded n f status detail cycles).dev = s.dev := writeRecord_dev ..

theorem recorded_ring (m : Nat) : (s.recorded n f status detail cycles).ring m = s.ring m := by
  rw [ring, recorded_cap]
  rfl

theorem aside_recorded : (s.recorded n f status detail cycles).bosun = s.bosun ∧
    (s.recorded n f status detail cycles).trim = s.trim := by
  have h := aside_writeRecord s n (s.ring n).done status f.epoch detail cycles f.inst
  exact ⟨congrArg (fun x => x.2.1) h, congrArg (fun x => x.2.2.2) h⟩

end Recorded

/-- The other flights of the ring are those behind its oldest entry. -/
theorem filter_other (l : List Flight) (n k : Nat) :
    (l.filter fun g => !(g.ring == n && g.idx == k)).filter (fun g => g.ring != n) = l.filter fun g => g.ring != n := by
  rw [List.filter_filter]
  refine List.filter_congr fun g _ => ?_
  cases h : g.ring == n <;> simp [bne, h]

/-- With its oldest entry alone in flight, the ring has none left once that has been recorded. -/
theorem filter_alone {l : List Flight} {n k : Nat} (h : ∀ g ∈ l, g.ring = n → g.idx = k) :
    (l.filter fun g => !(g.ring == n && g.idx == k)) = l.filter fun g => g.ring != n := by
  refine List.filter_congr fun g hg => ?_
  cases hr : g.ring == n with
  | false => simp [bne, hr]
  | true =>
    have hk := h g hg (beq_iff_eq.1 hr)
    simp [bne, hr, hk]

end Sys2Proof.Machine.State

namespace Sys2Proof

open Machine Machine.State Spec

/-- Settles O36: a finish by the descriptor's state, and a completion by the oldest entry's status. -/
theorem completionsWriteRecordsInOrder : Obligations.CompletionsWriteRecordsInOrder := by
  intro s hruns
  refine ⟨fun n k => engineFinish_spec hruns n k, fun n k f a b hs hr hk hq hn hne ha =>
    engineFinish_null hruns hs hr hk hq hn hne ha, fun n r hwf hr => ⟨fun h => ?_, ?_, ?_⟩⟩
  · subst hr
    refine congrArg Host.Outcome.next ?_
    by_cases he : (s.ring n).st = .enabled
    · rcases h with h | ⟨f, hf, h⟩ | ⟨hf, h⟩
      · exact absurd he h
      · exact completion_unfinished hruns he hf h
      · exact completion_idle hruns he hf h
    · exact completion_not_enabled he
  · intro status f detail cycles record he hf hst hcq hrecord _
    subst hr
    have hn : n < 16384 := ring_lt_of_st hwf (by rw [he]; exact nofun)
    have hput := bytesPut_writeRecord rfl hcq status f.epoch (detailOf f status detail) cycles f.inst
    obtain ⟨hc, hcount⟩ := recorded_spec s n f status (detailOf f status detail) cycles
    have hcomp := completion_finished hruns he hf hst
    have hmode := capRuns_mode hruns
    have hcdev := recorded_dev s n f status (detailOf f status detail) cycles
    have hcring := recorded_ring s n f status (detailOf f status detail) cycles
    have hccap := recorded_cap s n f status (detailOf f status detail) cycles
    obtain ⟨hcbosun, hctrim⟩ := aside_recorded s n f status (detailOf f status detail) cycles
    generalize s.recorded n f status (detailOf f status detail) cycles = c at *
    have hcmode : c.dev.mode ≠ .becalmed := by rw [hcdev]; exact hmode
    refine ⟨fun hlow => ?_, fun hhigh halone hadm => ?_, fun hhigh => ?_⟩
    · have hset := ringSet_setRing c (advancedRing (s.ring n)) hn
      have hd : (c.setRing n (advancedRing (s.ring n))).capRuns = true :=
        (capRuns_congr ((setRing_dev c n _).trans hcdev)).trans hruns
      rw [if_neg (by omega)] at hcomp
      rw [hrecord]
      exact ⟨_, c, _, _, _, _, hput, hc, hcount, hset, signalled_signalOne hd _ _ _,
        signalled_signalOne (capRuns_signalOne hd _ _ _) _ _ _, ringFollows_update _, congrArg Host.Outcome.next hcomp⟩
    · rw [if_pos hhigh, haltRing_none, hcring] at hcomp
      · rw [hrecord]
        refine ⟨_, c, _, hput, ?_, hcount, congrArg Host.Outcome.next hcomp, haltsAs_haltMarked hcmode hn ..⟩
        rw [filter_alone halone] at hc
        exact hc
      · rw [hccap, filter_alone halone]
        exact fun g hg => bne_iff_ne.1 (List.mem_filter.1 hg).2
      · rw [hcring, hadm]
        exact nofun
    · rw [if_pos hhigh] at hcomp
      obtain ⟨hflights, hbells, hring, hother, hirq, hbosun, hhi, hdev, htrim⟩ :=
        haltRing_spec hcmode hn (s.ring n).done ((s.ring n).succ (s.ring n).done) status (detailOf f status detail) f.addr
      rw [hccap] at hflights hbells
      rw [hcring] at hring
      rw [filter_other] at hflights
      refine ⟨_, congrArg Host.Outcome.next hcomp, hflights, hbells, ?_, ?_, ?_, ?_, ?_, ?_, ?_,
        fun m hm => (hother m hm).trans (hcring m), hirq, hbosun.trans (by rw [hcbosun]), hhi, hdev.trans hcdev,
        htrim.trans hctrim⟩
      all_goals rw [hring]; rfl
  · intro x he hf hx hi hcq hnone
    subst hr
    have hn : n < 16384 := ring_lt_of_st hwf (by rw [he]; exact nofun)
    have hput := bytesPut_writeRecord rfl hcq x.status (s.epochOf (s.ring n) (s.ring n).done) x.detail 0 0
    have hcomp := completion_faulted hruns he hf hx hi
    have hacap := writeRecord_cap s n (s.ring n).done x.status (s.epochOf (s.ring n) (s.ring n).done) x.detail 0 0
    have hadev := writeRecord_dev s n (s.ring n).done x.status (s.epochOf (s.ring n) (s.ring n).done) x.detail 0 0
    generalize s.writeRecord n (s.ring n).done x.status (s.epochOf (s.ring n) (s.ring n).done) x.detail 0 0 = a at *
    have haring : a.ring n = s.ring n := by rw [ring, hacap, ring]
    have hamode : a.dev.mode ≠ .becalmed := by rw [hadev]; exact capRuns_mode hruns
    rw [haltRing_none, haring] at hcomp
    · exact ⟨a, _, hput, congrArg Host.Outcome.next hcomp, haltsAs_haltMarked hamode hn ..⟩
    · rw [hacap]
      exact hnone
    · rw [haring]
      intro y hy
      rw [hx] at hy
      rw [← Option.some.inj hy, hi]

end Sys2Proof
end

section
/-! PROOFS. Bosun's engine-facing instructions and its waits (14 R614–R621). -/

namespace Sys2Proof.Machine.State

open Sys2Proof.Spec

/-! ### A ring's words, whatever Bosun holds -/

/-- The state with another Bosun. Nothing that a ring operation does depends on it. -/
def withBosun (s : State) (b : Bosun) : State := { s with bosun := b }

theorem bump_withBosun (s : State) (b : Bosun) (a lo w : Nat) :
    (s.withBosun b).bump a lo w = (s.bump a lo w).withBosun b := rfl
theorem setReg_withBosun (s : State) (b : Bosun) (a : Nat) (v : Word) :
    (s.withBosun b).setReg a v = (s.setReg a v).withBosun b := rfl
theorem part_withBosun (s : State) (b : Bosun) : (s.withBosun b).part = s.part := rfl

theorem noteEcc_withBosun (s : State) (b : Bosun) (src a : Nat) (ue : Bool) :
    (s.withBosun b).noteEcc src a ue = (s.noteEcc src a ue).withBosun b := by
  have hcn : (s.withBosun b).noteCnEcc a ue = (s.noteCnEcc a ue).withBosun b := by
    unfold noteCnEcc
    rw [apply_ite (fun x : State => x.withBosun b), bump_withBosun, bump_withBosun, bump_withBosun, setReg_withBosun]
  have hcount : (s.withBosun b).eccCounted a ue = (s.eccCounted a ue).withBosun b := by
    unfold eccCounted
    dsimp only
    rw [apply_ite (fun x : State => x.withBosun b), part_withBosun, bump_withBosun, bump_withBosun]
  have hheld : ∀ t : State, (t.withBosun b).eccHeld ue = t.eccHeld ue := fun _ => rfl
  have hdraw : ∀ t : State, (t.withBosun b).draw 8 = ((t.draw 8).1, (t.draw 8).2.withBosun b) := fun _ => rfl
  have hnote : ∀ (t : State) (x : Byte), (t.withBosun b).eccNoted src a ue x = (t.eccNoted src a ue x).withBosun b :=
    fun t x => by rw [eccNoted, part_withBosun, setReg_withBosun, setReg_withBosun, eccNoted]
  rw [noteEcc_eq, noteEcc_eq, hcn, hcount, hheld, hdraw, hnote, apply_ite (fun x : State => x.withBosun b),
    apply_ite (fun x : State => x.withBosun b)]

theorem mendOne_withBosun (b : Bosun) (src a n : Nat) (x : State × List Nat) (e : Nat × Ecc) :
    mendOne src a n (x.1.withBosun b, x.2) e = ((mendOne src a n x e).1.withBosun b, (mendOne src a n x e).2) := by
  obtain ⟨w, k⟩ := e
  unfold mendOne
  split
  · rfl
  · cases k with
    | ok => rfl
    | single => exact congrArg (fun y : State => (y.setEcc w .ok, x.2)) (noteEcc_withBosun x.1 b src w false)
    | double => exact congrArg (fun y : State => (y, x.2 ++ [w])) (noteEcc_withBosun x.1 b src w true)

theorem injectOn_withBosun (s : State) (b : Bosun) (a n : Nat) :
    (s.withBosun b).injectOn a n = (s.injectOn a n).withBosun b := by
  have hi : (s.withBosun b).inject = s.inject := rfl
  unfold injectOn
  rw [hi]
  cases s.inject with
  | none => rfl
  | some i =>
    dsimp only
    rw [apply_ite (fun x : State => x.withBosun b)]
    rfl

theorem setRing_withBosun (s : State) (b : Bosun) {n : Nat} (r : Ring) (h : n < 16384) :
    (s.withBosun b).setRing n r = (s.setRing n r).withBosun b := by
  have hmend : ∀ (t : State) (a k : Nat),
      (t.withBosun b).mended srcCapstan a k = ((t.mended srcCapstan a k).1.withBosun b, (t.mended srcCapstan a k).2) :=
    fun t a k => List.foldl_hom (fun x : State × List Nat => (x.1.withBosun b, x.2)) (l := t.damaged a k) (init := (t, []))
      (mendOne_withBosun b srcCapstan a k)
  have hput : (s.withBosun b).ringPut n r = (s.ringPut n r).withBosun b := rfl
  rw [setRing_eq _ r h, setRing_eq s r h, eccPut_eq _ _ _ (ringBytes_ne_nil r), eccPut_eq _ _ _ (ringBytes_ne_nil r), hput,
    hmend]
  generalize (s.ringPut n r).mended srcCapstan (ringAddr n + 16) _ = x
  exact injectOn_withBosun (x.1.poke _ _) b _ _

/-! ### The bundles of an instruction -/

/-- The state with the bundles `l` presented. -/
def bundled (s : State) (l : List Nat) : State := s.withBosun { s.bosun with bundle := l }

theorem bundled_bundled (s : State) (l m : List Nat) : (s.bundled l).bundled m = s.bundled m := rfl

theorem bundled_same {s : State} (h : s.bosun.bundle = []) : s.bundled [] = s := by
  unfold bundled withBosun
  rw [← h]

theorem setRing_bosun (s : State) (n : Nat) (r : Ring) : (s.setRing n r).bosun = s.bosun := by
  rw [(ringSet_any s n r).1]

theorem updateWork_bosun (s : State) : s.updateWork.bosun = s.bosun := by
  rw [workFollows_frame (workFollows_self s)]

theorem setRing_bundled (s : State) (l : List Nat) {n : Nat} (r : Ring) (h : n < 16384) :
    (s.bundled l).setRing n r = (s.setRing n r).bundled l := by
  rw [bundled, setRing_withBosun s _ r h, bundled, setRing_bosun]

/-- The device state follows the work whatever bundles are presented. -/
theorem workFollows_bundled {s t : State} (h : workFollows s t) (l : List Nat) : workFollows (s.bundled l) (t.bundled l) := by
  have hm : (s.bundled l).dev.mode = s.dev.mode := rfl
  have hw : (s.bundled l).working = s.working := rfl
  unfold workFollows at h ⊢
  rw [hm, hw]
  dsimp only at h ⊢
  split at h
  · exact ⟨by rw [h.1]; rfl, h.2⟩
  · exact ⟨by rw [h.1]; rfl, h.2⟩
  · rw [h]

/-! ### The loops and the next instruction (14 R593, R604, R609) -/

/-- One level's part of the loop action: the body's start where the loop goes round again. -/
def loopOne (s : State) (pc : Word) (n : Nat) : Option Word × State :=
  if s.bsv (BS_LC n) ≠ 0 ∧ pc = s.bsv (BS_LE n) then
    if s.bsv (BS_LC n) ≠ 1 then (some (s.bsv (BS_LS n)), s.setBs (BS_LC n) (s.bsv (BS_LC n) - 1))
    else (none, s.setBs (BS_LC n) 0)
  else (none, s)

theorem loopNext_of_inner {s t : State} {pc next : Word} (h : s.loopOne pc 1 = (some next, t)) : s.loopNext pc = (next, t) := by
  have he : s.loopNext pc = match s.loopOne pc 1 with
    | (some t, s) => (t, s)
    | (none, s) => match s.loopOne pc 0 with | (some t, s) => (t, s) | (none, s) => (pc + 4, s) := rfl
  rw [he, h]

theorem loopNext_of_outer {s t : State} {pc : Word} (h : s.loopOne pc 1 = (none, t)) :
    s.loopNext pc = (((t.loopOne pc 0).1).getD (pc + 4), (t.loopOne pc 0).2) := by
  have he : s.loopNext pc = match s.loopOne pc 1 with
    | (some t, s) => (t, s)
    | (none, s) => match s.loopOne pc 0 with | (some t, s) => (t, s) | (none, s) => (pc + 4, s) := rfl
  rw [he, h]
  dsimp only
  split
  · next e => rw [e]; rfl
  · next e => rw [e]; rfl

theorem loopOne_eq (s : State) (n : Nat) : s.loopOne s.core.pc n =
    (if s.bsv (BS_LC n) ≠ 0 ∧ s.core.pc = s.bsv (BS_LE n) ∧ s.bsv (BS_LC n) ≠ 1 then some (s.bsv (BS_LS n)) else none,
     s.setCore (if s.bsv (BS_LC n) ≠ 0 ∧ s.core.pc = s.bsv (BS_LE n) then
       s.core.csrPut (BS_LC n) (if s.bsv (BS_LC n) = 1 then 0 else s.bsv (BS_LC n) - 1) else s.core)) := by
  unfold loopOne
  by_cases h : s.bsv (BS_LC n) ≠ 0 ∧ s.core.pc = s.bsv (BS_LE n)
  · by_cases h1 : s.bsv (BS_LC n) = 1
    · rw [if_pos h, if_neg (not_not.2 h1), if_neg fun k => k.2.2 h1, if_pos h, if_pos h1]
      rfl
    · rw [if_pos h, if_pos h1, if_pos ⟨h.1, h.2, h1⟩, if_pos h, if_neg h1]
      rfl
  · have h' : ¬ (s.bsv (BS_LC n) ≠ 0 ∧ s.core.pc = s.bsv (BS_LE n) ∧ s.bsv (BS_LC n) ≠ 1) := fun k => h ⟨k.1, k.2.1⟩
    rw [if_neg h, if_neg h', if_neg h]
    rfl

/-- The outer level's part of the loop action. -/
def outerLooped (c : Core) : Word × Core :=
  if c.csrGet (BS_LC 0) = 0 ∨ c.pc ≠ c.csrGet (BS_LE 0) then (c.pc + 4, c)
  else if c.csrGet (BS_LC 0) = 1 then (c.pc + 4, c.csrPut (BS_LC 0) 0)
  else (c.csrGet (BS_LS 0), c.csrPut (BS_LC 0) (c.csrGet (BS_LC 0) - 1))

theorem looped_inner {c : Core} (hlc : c.csrGet (BS_LC 1) ≠ 0) (hpc : c.pc = c.csrGet (BS_LE 1))
    (hn : c.csrGet (BS_LC 1) ≠ 1) :
    looped c = (c.csrGet (BS_LS 1), c.csrPut (BS_LC 1) (c.csrGet (BS_LC 1) - 1)) :=
  if_pos (by rw [decide_eq_true hlc, decide_eq_true hpc, decide_eq_true hn]; rfl)

theorem looped_outer {c : Core} (h : ¬ (c.csrGet (BS_LC 1) ≠ 0 ∧ c.pc = c.csrGet (BS_LE 1) ∧ c.csrGet (BS_LC 1) ≠ 1)) :
    looped c = outerLooped (if c.csrGet (BS_LC 1) ≠ 0 ∧ c.pc = c.csrGet (BS_LE 1) then c.csrPut (BS_LC 1) 0 else c) := by
  refine (if_neg fun hc => h ?_).trans ?_
  · simp only [Bool.and_eq_true, decide_eq_true_eq] at hc
    exact ⟨hc.1.1, hc.1.2, hc.2⟩
  · simp only [Bool.and_eq_true, decide_eq_true_eq]
    rfl

theorem outerLooped_eq (t : State) : ((t.loopOne t.core.pc 0).1.getD (t.core.pc + 4), (t.loopOne t.core.pc 0).2) =
    ((outerLooped t.core).1, t.setCore (outerLooped t.core).2) := by
  rw [loopOne_eq]
  unfold outerLooped bsv
  by_cases h : t.core.csrGet (BS_LC 0) ≠ 0 ∧ t.core.pc = t.core.csrGet (BS_LE 0)
  · rw [if_neg (not_or.2 ⟨h.1, not_not.2 h.2⟩), if_pos h]
    by_cases h1 : t.core.csrGet (BS_LC 0) = 1
    · rw [if_neg fun k => k.2.2 h1, if_pos h1, if_pos h1]
      rfl
    · rw [if_pos ⟨h.1, h.2, h1⟩, if_neg h1, if_neg h1]
      rfl
  · have h0 : t.core.csrGet (BS_LC 0) = 0 ∨ t.core.pc ≠ t.core.csrGet (BS_LE 0) := by
      rwa [not_and_or, not_not] at h
    rw [if_pos h0, if_neg h, if_neg fun k => h ⟨k.1, k.2.1⟩]
    rfl

/-- The loop action (14 R609). -/
theorem loopNext_eq (s : State) : s.loopNext s.core.pc = ((looped s.core).1, s.setCore (looped s.core).2) := by
  have h1 := loopOne_eq s 1
  by_cases hin : s.bsv (BS_LC 1) ≠ 0 ∧ s.core.pc = s.bsv (BS_LE 1) ∧ s.bsv (BS_LC 1) ≠ 1
  · obtain ⟨hlc, hpc, hn⟩ := hin
    rw [if_pos ⟨hlc, hpc, hn⟩, if_pos ⟨hlc, hpc⟩, if_neg hn] at h1
    rw [loopNext_of_inner h1, looped_inner hlc hpc hn]
    rfl
  · rw [if_neg hin] at h1
    rw [loopNext_of_outer h1, looped_outer hin]
    by_cases hat : s.bsv (BS_LC 1) ≠ 0 ∧ s.core.pc = s.bsv (BS_LE 1)
    · have hone : s.bsv (BS_LC 1) = 1 := by
        by_contra hn
        exact hin ⟨hat.1, hat.2, hn⟩
      rw [if_pos hat, if_pos hone]
      have hc : (if s.core.csrGet (BS_LC 1) ≠ 0 ∧ s.core.pc = s.core.csrGet (BS_LE 1) then s.core.csrPut (BS_LC 1) 0
        else s.core) = s.core.csrPut (BS_LC 1) 0 := if_pos hat
      rw [hc]
      exact outerLooped_eq (s.setCore (s.core.csrPut (BS_LC 1) 0))
    · have hc : (if s.core.csrGet (BS_LC 1) ≠ 0 ∧ s.core.pc = s.core.csrGet (BS_LE 1) then s.core.csrPut (BS_LC 1) 0
        else s.core) = s.core := if_neg hat
      rw [if_neg hat, hc]
      exact outerLooped_eq s

/-- One shadow instruction fewer. -/
def shadowed (c : Core) : Core :=
  match c.shadow with
  | 0 => c
  | 1 => { c with shadow := 0 }.csrPut BS_STATUS (putFld (c.csrGet BS_STATUS) 0 1 1)
  | k + 1 => { c with shadow := k }

theorem shadowStep_eq (s : State) : s.shadowStep = s.setCore (shadowed s.core) := by
  unfold shadowStep shadowed
  generalize s.core.shadow = k
  match k with
  | 0 => rfl
  | 1 => rfl
  | _ + 2 => rfl

/-- A state at which an instruction has ended with its effect done. -/
def ended (barred : Bool) (x : State) : State :=
  x.withBosun { x.bosun with core := onward barred x.core, instret := x.bosun.instret + 1, wait := none }

theorem setCore_setCore (x : State) (c d : Core) : (x.setCore c).setCore d = x.setCore d := rfl

theorem endIns_done (barred : Bool) (x : State) : endIns barred (.done x) = x.ended barred := by
  have hl := loopNext_eq x.retire
  have hc : x.retire.core = x.core := rfl
  rw [hc] at hl
  unfold endIns
  dsimp only
  rw [shadowStep_eq, hl]
  cases barred with
  | true => rfl
  | false =>
    rw [if_neg Bool.false_ne_true]
    dsimp only
    rw [setCore_setCore, setCore_setCore]
    rfl

/-! ### The instruction at PC (14 R599, R606) -/

/-- The state whose copies have fetched. -/
def fetched (s : State) : State := s.bundled [1 + s.core.pc.toNat / 4 * 2 + s.bundleMode]

section At

variable {s : State} {i : BIns}

theorem ready_of_at (h : bosunAt s i) : s.bosun.wait = none ∧ s.capRuns = true := by
  obtain ⟨hr, -⟩ := h
  simp only [bosunReady, Bool.and_eq_true] at hr
  obtain ⟨⟨⟨⟨⟨⟨-, hw⟩, -⟩, hc⟩, -⟩, -⟩, -⟩ := hr
  exact ⟨Option.isNone_iff_eq_none.1 hw, hc⟩

theorem still_of_at (h : bosunAt s i) : s.bosun.diverge = none ∧ s.bosun.bundle = [] := by
  obtain ⟨-, -, -, hd, hb, -⟩ := h
  exact ⟨hd, hb⟩

theorem emitFetch_at (h : bosunAt s i) : s.emitFetch s.core.pc = s.fetched := by
  obtain ⟨-, -, -, -, hb, -⟩ := h
  unfold emitFetch emit
  rw [hb]
  rfl

theorem fetch_at (h : bosunAt s i) : s.fetchBars s.core.pc = none ∧ decodeB (s.peekWord s.core.pc.toNat) = some i := by
  obtain ⟨-, hn, -⟩ := h
  unfold nextIns at hn
  dsimp only at hn
  split at hn
  · exact absurd hn nofun
  · next hc =>
    simp only [Bool.or_eq_true, not_or, Bool.not_eq_true, Option.isSome_eq_false_iff, Option.isNone_iff_eq_none] at hc
    exact ⟨hc.1, hn⟩

theorem fetchWord_undamaged {t : State} {pc : Word} (h : t.damaged pc.toNat 4 = []) :
    t.fetchWord pc = (t, some (t.peekWord pc.toNat)) := by
  unfold fetchWord eccRead
  rw [h]
  rfl

theorem stepCopy_at (h : bosunAt s i) :
    s.stepCopy = endIns i.barred (s.fetched.execIns (s.peekWord s.core.pc.toNat) i) := by
  obtain ⟨hb, hd⟩ := fetch_at h
  have he := emitFetch_at h
  obtain ⟨-, -, -, -, -, hdam, hbar⟩ := h
  have hw : s.fetched.fetchWord s.core.pc = (s.fetched, some (s.peekWord s.core.pc.toNat)) := fetchWord_undamaged hdam
  have hb' : s.fetched.fetchBars s.core.pc = none := hb
  have hfree : ¬ (i.barred && (s.fetched.core.delay.isSome || decide (s.fetched.core.shadow ≠ 0))) = true := by
    cases hi : i.barred with
    | false => exact nofun
    | true =>
      obtain ⟨h1, h2⟩ := hbar hi
      have h1 : s.fetched.core.delay = none := h1
      have h2 : s.fetched.core.shadow = 0 := h2
      rw [h1, h2]
      decide
  unfold stepCopy
  dsimp only
  rw [he, hb']
  dsimp only
  rw [hw]
  dsimp only
  rw [hd]
  exact if_neg hfree

theorem divergeTrail_none {t : State} (h : t.bosun.diverge = none) : t.divergeTrail = t := by
  unfold divergeTrail
  rw [h]

/-- Copies that agree do `f` as one. -/
theorem lockstep_agree {f : State → State} {t : State} (ht : t.bosun.trail = none) (hd : (f t).bosun.diverge = none) :
    lockstep f t = (f t).bundled [] := by
  have hone : lockstep f t = ((f t).bundled []).divergeTrail := by
    unfold lockstep
    dsimp only
    rw [ht]
    rfl
  exact hone.trans (divergeTrail_none hd)

theorem bosunRun_at (h : bosunAt s i) {want : BIns → Bool} (hw : want i = true) (hd : s.stepCopy.bosun.diverge = none) :
    s.bosunRun want = s.stepCopy.bundled [] := by
  obtain ⟨hr, hn, ht, -⟩ := h
  unfold bosunRun
  rw [hr, hn, if_pos (by simp only [hw, Bool.and_self]), lockstep_agree ht hd]

/-- An instruction that completes. -/
theorem bosunRun_done (h : bosunAt s i) {want : BIns → Bool} (hw : want i = true) {x : State}
    (hx : s.fetched.execIns (s.peekWord s.core.pc.toNat) i = .done x) (hd : x.bosun.diverge = none) :
    s.bosunRun want = (x.ended i.barred).bundled [] := by
  have hs : s.stepCopy = x.ended i.barred := by rw [stepCopy_at h, hx, endIns_done]
  rw [bosunRun_at h hw (by rw [hs]; exact hd), hs]

/-- An instruction that waits. -/
theorem bosunRun_block (h : bosunAt s i) {want : BIns → Bool} (hw : want i = true) {l : List Nat} {w : BosunWait}
    (hx : s.fetched.execIns (s.peekWord s.core.pc.toNat) i = .block (s.bundled l) w) : s.bosunRun want = waits s w := by
  have hs : s.stepCopy = { s.bundled l with bosun := { (s.bundled l).bosun with wait := some w } } := by
    rw [stepCopy_at h, hx]
    rfl
  have hrun := bosunRun_at h hw
  obtain ⟨-, -, -, hdiv, hb, -⟩ := h
  rw [hrun (by rw [hs]; exact hdiv), hs]
  unfold waits bundled withBosun
  dsimp only
  rw [hb]

end At

/-- An effect `x` after which the copies have become `c`. -/
theorem ended_after {x : State} (hw : x.bosun.wait = none) (c : Core) (b : Bool) :
    ((x.setCore c).ended b).bundled [] = after (x.bundled []) (onward b c) x.bosun.instret := by
  unfold ended after bundled withBosun setCore core
  dsimp only
  rw [hw]

/-- An effect that leaves the copies, and starts no wait. -/
def bosunKept (s z : State) : Prop :=
  z.core = s.core ∧ z.bosun.instret = s.bosun.instret ∧ z.bosun.diverge = s.bosun.diverge ∧
  (s.bosun.wait = none → z.bosun.wait = none)

/-- An instruction with effect `z` after which the copies have become `c`. -/
theorem bosunRun_effect {s : State} {i : BIns} (h : bosunAt s i) {want : BIns → Bool} (hw : want i = true) {z : State}
    (hz : bosunKept s z) {c : Core} (hx : s.fetched.execIns (s.peekWord s.core.pc.toNat) i = .done (z.setCore c)) :
    s.bosunRun want = after (z.bundled []) (onward i.barred c) s.bosun.instret := by
  obtain ⟨-, hi, hd, hn⟩ := hz
  rw [bosunRun_done h hw hx (hd.trans (still_of_at h).1), ended_after (hn (ready_of_at h).1), hi]

/-- An instruction without effect outside the copies. -/
theorem bosunRun_did {s : State} {i : BIns} (h : bosunAt s i) {want : BIns → Bool} (hw : want i = true) {l : List Nat}
    {c : Core} (hx : s.fetched.execIns (s.peekWord s.core.pc.toNat) i = .done ((s.bundled l).setCore c)) :
    s.bosunRun want = bosunDid s (onward i.barred c) := by
  rw [bosunRun_effect (z := s.bundled l) h hw ⟨rfl, rfl, rfl, id⟩ hx, bundled_bundled, bundled_same (still_of_at h).2]
  rfl

/-! ### The Capstan's relations, whatever bundles are presented -/

theorem tacked_bundled {s t : State} {host : Bool} (h : tacked s t host) (l : List Nat) :
    tacked (s.bundled l) (t.bundled l) host := by
  obtain ⟨hf, hrest⟩ := h
  refine ⟨?_, hrest⟩
  have hb := congrArg (fun x : State => x.bundled l) hf
  exact hb

theorem bellHas_bundled {u w : State} {n : Nat} {x : Word} (h : bellHas u w n x) (l : List Nat) :
    bellHas (u.bundled l) (w.bundled l) n x := by
  obtain ⟨hf, hrest⟩ := h
  exact ⟨congrArg (fun y : State => y.bundled l) hf, hrest⟩

theorem judged_bundled {u t : State} {n : Nat} (h : judged u t n) (l : List Nat) : judged (u.bundled l) (t.bundled l) n := by
  obtain ⟨hfire, hrest⟩ := h
  refine ⟨fun hc => ?_, fun hc => congrArg (fun y : State => y.bundled l) (hrest hc)⟩
  obtain ⟨hf, hfires⟩ := hfire hc
  exact ⟨congrArg (fun y : State => y.bundled l) hf, hfires⟩

theorem exported_bundled {u t : State} {n : Nat} {set : Bool} {v : Word} (h : exported u t n set v) (l : List Nat) :
    exported (u.bundled l) (t.bundled l) n set v := by
  obtain ⟨hf, hrest⟩ := h
  exact ⟨congrArg (fun y : State => y.bundled l) hf, hrest⟩

theorem bellTook_bundled {u t : State} {n : Nat} {set : Bool} {v : Word} {host : Bool} (h : bellTook u t n set v host)
    (l : List Nat) : bellTook (u.bundled l) (t.bundled l) n set v host := by
  obtain ⟨w, x, y, hw, hx, hy, ht⟩ := h
  exact ⟨w.bundled l, x.bundled l, y.bundled l, bellHas_bundled hw l, judged_bundled hx l, exported_bundled hy l,
    congrArg (fun z : State => z.bundled l) ht⟩

/-- A Bell operation leaves the copies, and starts no wait. -/
theorem bosunKept_of_bellTook {u t : State} {n : Nat} {set : Bool} {v : Word} {host : Bool} (h : bellTook u t n set v host) :
    bosunKept u t := by
  obtain ⟨w, x, y, ⟨hw, -, -, -, hwait⟩, ⟨hfire, hstill⟩, ⟨hy, -⟩, ht⟩ := h
  have hx : x.bosun = { w.bosun with bellRec := x.bosun.bellRec } := by
    by_cases hc : bit (w.reg (CAP_BTHR + 8 * n + 4)) 0 = true ∧
        State.bellHolds (w.bell n) (w.reg (CAP_BTHR + 8 * n)) (bit (w.reg (CAP_BTHR + 8 * n + 4)) 1) = true
    · rw [(hfire hc).1]
    · rw [not_and_or, Bool.not_eq_true, Bool.not_eq_true] at hc
      rw [hstill hc]
  have hyb : y.bosun = x.bosun := by rw [hy]
  have hwb : w.bosun = { u.bosun with wait := w.bosun.wait } := by rw [hw]
  unfold bosunKept core
  rw [ht]
  dsimp only
  rw [hyb, hx]
  dsimp only
  rw [hwb]
  refine ⟨rfl, rfl, rfl, fun hn => ?_⟩
  dsimp only
  rw [hwait, hn, Option.map_none]

/-! ### The engine-facing instructions (14 R615–R620) -/

/-- An engine-facing item is one more bundle. -/
theorem fetched_emitItem (s : State) (fn : Nat) (a b : Word) : ∃ l, s.fetched.emitItem fn a b = s.bundled l := ⟨_, rfl⟩

theorem fetched_emitSum (s : State) (sh nb : Bool) : ∃ l, s.fetched.emitSum sh nb = s.bundled l := ⟨_, rfl⟩

theorem afterStores_empty {s : State} (hs : s.bosun.stores = []) (hr : s.capRuns = true) (l : List Nat) (f : State → BRes) :
    (s.bundled l).afterStores f = f (s.bundled l) := by
  have hd : (s.bundled l).drainStores = s.bundled l := by
    have hs' : (s.bundled l).bosun.stores = [] := hs
    rw [drainStores, hs', List.foldl_nil]
  have hm : (s.bundled l).dev.mode ≠ .becalmed := capRuns_mode hr
  unfold afterStores
  rw [hd]
  exact if_neg hm

theorem offerTail_refused {s : State} {n tail : Nat} (h : offerCode s n tail ≠ 0) (l : List Nat) :
    (s.bundled l).offerTail n tail = (s.bundled l, offerCode s n tail) := by
  have hc : offerCode (s.bundled l) n tail = offerCode s n tail := rfl
  rw [offerTail_eq, hc, if_neg h]

/-- A tail that its ring takes, from a state with some bundles presented. -/
theorem offerTail_taken {s : State} (hb : s.bosun.bundle = []) {n tail : Nat} (hn : n < 16384) (h : offerCode s n tail = 0)
    (l : List Nat) : ∃ z, (s.bundled l).offerTail n tail = (z, 0) ∧ bosunKept s z ∧
      workFollows (s.setRing n (s.tailed n tail)) (z.bundled []) := by
  have hc : offerCode (s.bundled l) n tail = offerCode s n tail := rfl
  have hx : (s.bundled l).setRing n ((s.bundled l).tailed n tail) = (s.setRing n (s.tailed n tail)).bundled l :=
    setRing_bundled s l _ hn
  have hoffer := offerTail_eq (s.bundled l) n tail
  rw [hc, h, if_pos rfl, hx] at hoffer
  have hxb : (s.setRing n (s.tailed n tail)).bosun = s.bosun := setRing_bosun s n _
  generalize s.setRing n (s.tailed n tail) = x at *
  have hfollows := workFollows_bundled (workFollows_self (x.bundled l)) []
  rw [bundled_bundled, bundled_same (by rw [hxb]; exact hb)] at hfollows
  have hzb : (x.bundled l).updateWork.bosun = { s.bosun with bundle := l } := by
    rw [updateWork_bosun, bundled, hxb]
    rfl
  refine ⟨(x.bundled l).updateWork, hoffer, ?_, hfollows⟩
  unfold bosunKept core
  rw [hzb]
  exact ⟨rfl, rfl, rfl, id⟩

theorem execIns_post (u : State) (word : Word) (rd ra rb : Reg) : u.execIns word (.post rd ra rb) =
    (u.emitItem 1 (u.bw ra) (u.bw rb)).afterStores fun s =>
      .done ((s.offerTail ((s.bw ra).toNat % 16384) ((s.bw rb).toNat % 65536)).1.setBw rd
        (Word.nat (s.offerTail ((s.bw ra).toNat % 16384) ((s.bw rb).toNat % 65536)).2)) := rfl

section Facing

variable {s : State} {rd ra rb : Reg}

/-- POST's effect once the copies have fetched. -/
theorem execIns_post_at (hs : s.bosun.stores = []) (hr : s.capRuns = true) (word : Word) : ∃ l,
    s.fetched.execIns word (.post rd ra rb) =
      .done (((s.bundled l).offerTail ((s.bw ra).toNat % 16384) ((s.bw rb).toNat % 65536)).1.setBw rd
        (Word.nat ((s.bundled l).offerTail ((s.bw ra).toNat % 16384) ((s.bw rb).toNat % 65536)).2)) := by
  obtain ⟨l, hl⟩ := fetched_emitItem s 1 (s.bw ra) (s.bw rb)
  have hra : s.fetched.bw ra = s.bw ra := rfl
  have hrb : s.fetched.bw rb = s.bw rb := rfl
  refine ⟨l, ?_⟩
  rw [execIns_post, hra, hrb, hl, afterStores_empty hs hr]
  rfl

theorem exec_post_refused (h : bosunAt s (.post rd ra rb)) (hs : s.bosun.stores = []) {n tail : Nat}
    (hn : n = (s.bw ra).toNat % 16384) (ht : tail = (s.bw rb).toNat % 65536) (hc : offerCode s n tail ≠ 0) : exec .post s =
      .next (bosunDid s (onward false (s.core.setReg rd.toNat (Word.nat (offerCode s n tail))))) := by
  obtain ⟨l, hx⟩ := execIns_post_at (rd := rd) (ra := ra) (rb := rb) hs (ready_of_at h).2 (s.peekWord s.core.pc.toNat)
  rw [← hn, ← ht, offerTail_refused hc] at hx
  exact congrArg Host.Outcome.next (bosunRun_did h rfl hx)

theorem exec_post_taken (h : bosunAt s (.post rd ra rb)) (hs : s.bosun.stores = []) {n tail : Nat}
    (hn : n = (s.bw ra).toNat % 16384) (ht : tail = (s.bw rb).toNat % 65536) (hc : offerCode s n tail = 0) : ∃ y,
      exec .post s = .next (after y (onward false (s.core.setReg rd.toNat (Word.nat 0))) s.bosun.instret) ∧
      workFollows (s.setRing n (s.tailed n tail)) y := by
  obtain ⟨l, hx⟩ := execIns_post_at (rd := rd) (ra := ra) (rb := rb) hs (ready_of_at h).2 (s.peekWord s.core.pc.toNat)
  have hlt : n < 16384 := by rw [hn]; exact Nat.mod_lt _ (by decide)
  obtain ⟨z, hz, hkept, hfollows⟩ := offerTail_taken (still_of_at h).2 hlt hc l
  rw [← hn, ← ht, hz, setBw, hkept.1] at hx
  exact ⟨z.bundled [], congrArg Host.Outcome.next (bosunRun_effect h rfl hkept hx), hfollows⟩

/-- A Bell instruction's effect once the copies have fetched. -/
theorem execIns_bell_at (hs : s.bosun.stores = []) (hr : s.capRuns = true) (word : Word) (set : Bool) : ∃ l,
    s.fetched.execIns word (if set then .bellset ra rb else .belladd ra rb) =
      .done ((s.bundled l).bellOp ((s.bw ra).toNat % 256) set (s.bw rb)) := by
  have hra : s.fetched.bw ra = s.bw ra := rfl
  have hrb : s.fetched.bw rb = s.bw rb := rfl
  cases set with
  | true =>
    obtain ⟨l, hl⟩ := fetched_emitItem s 3 (s.bw ra) (s.bw rb)
    have he : s.fetched.execIns word (.bellset ra rb) = (s.fetched.emitItem 3 (s.fetched.bw ra) (s.fetched.bw rb)).afterStores
      fun s => .done (s.bellOp ((s.bw ra).toNat % 256) true (s.bw rb)) := rfl
    rw [hra, hrb, hl, afterStores_empty hs hr] at he
    exact ⟨l, he⟩
  | false =>
    obtain ⟨l, hl⟩ := fetched_emitItem s 2 (s.bw ra) (s.bw rb)
    have he : s.fetched.execIns word (.belladd ra rb) = (s.fetched.emitItem 2 (s.fetched.bw ra) (s.fetched.bw rb)).afterStores
      fun s => .done (s.bellOp ((s.bw ra).toNat % 256) false (s.bw rb)) := rfl
    rw [hra, hrb, hl, afterStores_empty hs hr] at he
    exact ⟨l, he⟩

/-- BELLADD and BELLSET (14 R615). -/
theorem exec_bell {set : Bool} (h : bosunAt s (if set then .bellset ra rb else .belladd ra rb)) (hs : s.bosun.stores = []) :
    ∃ x, bellTook s x ((s.bw ra).toNat % 256) set (s.bw rb) false ∧
      exec (cmdOf (if set then .bellset ra rb else .belladd ra rb)) s =
        .next (after x (onward false s.core) s.bosun.instret) := by
  obtain ⟨-, hr⟩ := ready_of_at h
  obtain ⟨l, hx⟩ := execIns_bell_at (ra := ra) (rb := rb) hs hr (s.peekWord s.core.pc.toNat) set
  have hrl : (s.bundled l).capRuns = true := hr
  have htook := bellOp_bellTook hrl ((s.bw ra).toNat % 256) set (s.bw rb)
  have hkept := bosunKept_of_bellTook htook
  have htook := bellTook_bundled htook []
  rw [bundled_bundled, bundled_same (still_of_at h).2] at htook
  generalize (s.bundled l).bellOp ((s.bw ra).toNat % 256) set (s.bw rb) = z at *
  have hz : z = z.setCore s.core := by
    have hcore : z.bosun.core = s.core := hkept.1
    rw [setCore, ← hcore]
  rw [hz] at hx
  refine ⟨z.bundled [], htook, ?_⟩
  cases set with
  | true => exact congrArg Host.Outcome.next (bosunRun_effect h rfl hkept hx)
  | false => exact congrArg Host.Outcome.next (bosunRun_effect h rfl hkept hx)

/-- BELLRD (14 R615). -/
theorem exec_bellrd (h : bosunAt s (.bellrd rd ra)) :
    exec .bellrd s = .next (bosunDid s (onward false (s.core.setReg rd.toNat (s.bell ((s.bw ra).toNat % 256))))) := by
  have hra : s.fetched.bw ra = s.bw ra := rfl
  obtain ⟨l, hl⟩ := fetched_emitItem s 6 (s.bw ra) 0
  have hx : s.fetched.execIns (s.peekWord s.core.pc.toNat) (.bellrd rd ra) =
    .done ((s.fetched.emitItem 6 (s.fetched.bw ra) 0).setBw rd (s.bell ((s.bw ra).toNat % 256))) := rfl
  rw [hra, hl] at hx
  exact congrArg Host.Outcome.next (bosunRun_did h rfl hx)

/-- TACK in Keeper mode, once the copies have fetched (14 R619). -/
theorem execIns_tack_at (hs : s.bosun.stores = []) (hr : s.capRuns = true) (hk : s.crew = false) (word : Word) : ∃ l,
    s.fetched.execIns word (.tack rd) = .done ((s.bundled l).tack.1.setBw rd (if (s.bundled l).tack.2 then 0 else 1)) := by
  obtain ⟨l, hl⟩ := fetched_emitItem s 9 0 0
  have hk : s.fetched.crew = false := hk
  have he : s.fetched.execIns word (.tack rd) = s.fetched.keeperOnly word ((s.fetched.emitItem 9 0 0).afterStores
    fun s => .done (s.tack.1.setBw rd (if s.tack.2 then 0 else 1))) := rfl
  rw [keeperOnly, if_neg (ne_true_of_eq_false hk), hl, afterStores_empty hs hr] at he
  exact ⟨l, he⟩

theorem exec_tack_starts (h : bosunAt s (.tack rd)) (hs : s.bosun.stores = []) (hk : s.crew = false) (hd : s.draining = false)
    (hh : s.held = false) (hwf : ringsWf s) :
    ∃ x, tacked s x false ∧ exec .tack s = .next (after x (onward false (s.core.setReg rd.toNat 0)) s.bosun.instret) := by
  obtain ⟨l, hx⟩ := execIns_tack_at (rd := rd) hs (ready_of_at h).2 hk (s.peekWord s.core.pc.toNat)
  obtain ⟨hok, ht⟩ := tacked_tack (s := s.bundled l) hd hh hwf
  rw [hok] at hx
  generalize (s.bundled l).tack.1 = z at *
  have hzb : z.bosun = { (s.bundled l).bosun with latDeck := (s.bundled l).bosun.latDeck || false } := by rw [ht.1]
  have hkept : bosunKept s z := by
    unfold bosunKept core
    rw [hzb]
    exact ⟨rfl, rfl, rfl, id⟩
  rw [setBw, hkept.1] at hx
  have ht := tacked_bundled ht []
  rw [bundled_bundled, bundled_same (still_of_at h).2] at ht
  exact ⟨z.bundled [], ht, congrArg Host.Outcome.next (bosunRun_effect h rfl hkept hx)⟩

theorem exec_tack_pending (h : bosunAt s (.tack rd)) (hs : s.bosun.stores = []) (hk : s.crew = false)
    (hd : s.draining = true ∨ s.held = true) :
    exec .tack s = .next (bosunDid s (onward false (s.core.setReg rd.toNat 1))) := by
  obtain ⟨l, hx⟩ := execIns_tack_at (rd := rd) hs (ready_of_at h).2 hk (s.peekWord s.core.pc.toNat)
  have ht : (s.bundled l).tack = (s.bundled l, false) := tack_pending hd
  rw [ht] at hx
  exact congrArg Host.Outcome.next (bosunRun_did h rfl hx)

/-- HSIG (14 R620). -/
theorem exec_hsig (h : bosunAt s (.hsig ra)) (hs : s.bosun.stores = []) : ∃ t, exec .hsig s = .next t ∧
    t = { bosunDid s (onward false (s.core.csrPut BS_HOSTMSG (s.bw ra))) with deck := t.deck } ∧
    deckRegs s t [DK_IRQ_RAW] ∧ raised s t [irqSIG] := by
  obtain ⟨-, hr⟩ := ready_of_at h
  obtain ⟨l, hl⟩ := fetched_emitItem s 10 (s.bw ra) 0
  have hra : s.fetched.bw ra = s.bw ra := rfl
  have hx : s.fetched.execIns (s.peekWord s.core.pc.toNat) (.hsig ra) =
    (s.fetched.emitItem 10 (s.fetched.bw ra) 0).afterStores fun s => .done (s.hsig (s.bw ra)) := rfl
  rw [hra, hl, afterStores_empty hs hr] at hx
  have hz : (s.bundled l).hsig ((s.bundled l).bw ra) =
      ((s.bundled l).raise irqSIG).setCore (s.core.csrPut BS_HOSTMSG (s.bw ra)) := rfl
  rw [hz] at hx
  have hrun := bosunRun_effect h (want := fun i => match i with | .hsig _ => true | _ => false) rfl
    (z := (s.bundled l).raise irqSIG) ⟨rfl, rfl, rfl, id⟩ hx
  have hb : ((s.bundled l).raise irqSIG).bundled [] = s.raise irqSIG := congrArg (fun x : State => x.raise irqSIG)
    (bundled_same (still_of_at h).2 : (s.bundled l).bundled [] = s)
  rw [hb] at hrun
  exact ⟨_, congrArg Host.Outcome.next hrun, rfl, deckRegs_raise s irqSIG, raised_raise s (by decide)⟩

/-! ### The waits at issue (14 R617, R618, R621) -/

/-- WAITGE and WAITEQ once the copies have fetched. -/
theorem execIns_wait_at (word : Word) (eq : Bool) : ∃ l,
    s.fetched.execIns word (if eq then .waiteq rd ra rb else .waitge rd ra rb) =
      if bellHolds (s.bell ((s.bw ra).toNat % 256)) (s.bw rb) eq then
        .done ((s.bundled l).setCore (s.core.setReg rd.toNat 0))
      else .block (s.bundled l) {
        kind := if eq then .eq else .ge, sel := (s.bw ra).toNat % 256, operand := s.bw rb, rd := rd.toNat } := by
  cases eq with
  | true =>
    obtain ⟨l, hl⟩ := fetched_emitItem s 5 (s.bw ra) (s.bw rb)
    refine ⟨l, ?_⟩
    rw [← hl]
    rfl
  | false =>
    obtain ⟨l, hl⟩ := fetched_emitItem s 4 (s.bw ra) (s.bw rb)
    refine ⟨l, ?_⟩
    rw [← hl]
    rfl

theorem exec_bellWait {eq : Bool} (h : bosunAt s (if eq then .waiteq rd ra rb else .waitge rd ra rb)) :
    (bellHolds (s.bell ((s.bw ra).toNat % 256)) (s.bw rb) eq = true →
      exec (cmdOf (if eq then .waiteq rd ra rb else .waitge rd ra rb)) s =
        .next (bosunDid s (onward true (s.core.setReg rd.toNat 0)))) ∧
    (bellHolds (s.bell ((s.bw ra).toNat % 256)) (s.bw rb) eq = false →
      exec (cmdOf (if eq then .waiteq rd ra rb else .waitge rd ra rb)) s = .next (waits s {
        kind := if eq then .eq else .ge, sel := (s.bw ra).toNat % 256, operand := s.bw rb, rd := rd.toNat })) := by
  obtain ⟨l, hx⟩ := execIns_wait_at (s := s) (rd := rd) (ra := ra) (rb := rb) (s.peekWord s.core.pc.toNat) eq
  refine ⟨fun hc => ?_, fun hc => ?_⟩
  · rw [if_pos hc] at hx
    cases eq with
    | true => exact congrArg Host.Outcome.next (bosunRun_did h rfl hx)
    | false => exact congrArg Host.Outcome.next (bosunRun_did h rfl hx)
  · rw [if_neg (ne_true_of_eq_false hc)] at hx
    cases eq with
    | true => exact congrArg Host.Outcome.next (bosunRun_block h rfl hx)
    | false => exact congrArg Host.Outcome.next (bosunRun_block h rfl hx)

/-- The FIFO `k` with its oldest entry taken. -/
def summaryTaken (s : State) (k : Nat) : State := { s with fifos := Store.set [] s.fifos k (s.fifo k).tail }

theorem fifo_summaryTaken (s : State) (k : Nat) :
    (s.summaryTaken k).fifo k = (s.fifo k).tail ∧ ∀ j, j ≠ k → (s.summaryTaken k).fifo j = s.fifo j :=
  ⟨Store.get_set_self _ _ _ _, fun _ h => Store.get_set_ne _ _ _ h⟩

theorem sumPop_cons {k : Nat} {a b : Word} {rest : List (Word × Word)} (h : s.fifo k = (a, b) :: rest) (l : List Nat) :
    (s.bundled l).sumPop k rd rb =
      some (((s.summaryTaken k).bundled l).setCore ((s.core.setReg rd.toNat a).setReg rb.toNat b)) := by
  have h' : (s.bundled l).fifo k = (a, b) :: rest := h
  unfold sumPop summaryTaken
  rw [h', h]
  rfl

theorem sumPop_nil {k : Nat} (h : s.fifo k = []) : s.sumPop k rd rb = none := by
  unfold sumPop
  rw [h]

theorem execIns_sumrd (u : State) (word : Word) (sh nb : Bool) : u.execIns word (.sumrd rd rb sh nb) =
    match (u.emitSum sh nb).sumPop (b2n sh) rd rb with
    | some s => .done s
    | none => if nb then .done ((u.emitSum sh nb).sumEmpty rd rb)
      else .block (u.emitSum sh nb) { kind := .sum, sel := b2n sh, rd := rd.toNat, rd2 := rb.toNat } := rfl

theorem exec_sumrd_entry {sh nb : Bool} (h : bosunAt s (.sumrd rd rb sh nb)) {a b : Word} {rest : List (Word × Word)}
    (hf : s.fifo (b2n sh) = (a, b) :: rest) : ∃ t, exec .sumrd s = .next t ∧
      t = { bosunDid s (onward (!nb) ((s.core.setReg rd.toNat a).setReg rb.toNat b)) with fifos := t.fifos } ∧
      t.fifo (b2n sh) = rest ∧ ∀ k, k ≠ b2n sh → t.fifo k = s.fifo k := by
  obtain ⟨l, hl⟩ := fetched_emitSum s sh nb
  have hx := execIns_sumrd (rd := rd) (rb := rb) s.fetched (s.peekWord s.core.pc.toNat) sh nb
  rw [hl, sumPop_cons hf] at hx
  have hrun := bosunRun_effect h (want := fun i => match i with | .sumrd _ _ _ _ => true | _ => false) rfl
    (z := (s.summaryTaken (b2n sh)).bundled l) ⟨rfl, rfl, rfl, id⟩ hx
  have hb : ((s.summaryTaken (b2n sh)).bundled l).bundled [] = s.summaryTaken (b2n sh) :=
    bundled_same (s := s.summaryTaken (b2n sh)) (still_of_at h).2
  rw [hb] at hrun
  obtain ⟨hself, hother⟩ := fifo_summaryTaken s (b2n sh)
  exact ⟨_, congrArg Host.Outcome.next hrun, rfl, hself.trans (by rw [hf]; rfl), hother⟩

theorem exec_sumrd_empty {sh nb : Bool} (h : bosunAt s (.sumrd rd rb sh nb)) (hf : s.fifo (b2n sh) = []) :
    (nb = true → exec .sumrd s =
      .next (bosunDid s (onward false ((s.core.setReg rd.toNat 0).setReg rb.toNat (Word.nat 0x80000000))))) ∧
    (nb = false → exec .sumrd s =
      .next (waits s { kind := .sum, sel := b2n sh, rd := rd.toNat, rd2 := rb.toNat })) := by
  obtain ⟨l, hl⟩ := fetched_emitSum s sh nb
  have hx := execIns_sumrd (rd := rd) (rb := rb) s.fetched (s.peekWord s.core.pc.toNat) sh nb
  have hfl : (s.bundled l).fifo (b2n sh) = [] := hf
  rw [hl, sumPop_nil hfl] at hx
  refine ⟨?_, ?_⟩
  · rintro rfl
    exact congrArg Host.Outcome.next (bosunRun_did h rfl hx)
  · rintro rfl
    exact congrArg Host.Outcome.next (bosunRun_block h rfl hx)

/-- WFI (14 R621). -/
theorem exec_wfi (h : bosunAt s .wfi) :
    (s.ienabled ≠ 0 → exec .wfi s = .next (bosunDid s (onward true s.core))) ∧
    (s.ienabled = 0 → exec .wfi s = .next (waits s { kind := .wfi, sel := 0 })) := by
  have hx : s.fetched.execIns (s.peekWord s.core.pc.toNat) .wfi =
    if s.ienabled ≠ 0 then .done (s.fetched.setCore s.core) else .block s.fetched { kind := .wfi, sel := 0 } := rfl
  refine ⟨fun hi => ?_, fun hi => ?_⟩
  · rw [if_pos hi] at hx
    exact congrArg Host.Outcome.next (bosunRun_did h rfl hx)
  · rw [if_neg (not_not.2 hi)] at hx
    exact congrArg Host.Outcome.next (bosunRun_block h rfl hx)

end Facing

/-! ### The ends of a wait (14 R617, R618, R621) -/

section Waiting

variable {s : State} {w : BosunWait}

theorem bundle_of_waiting (h : Spec.waiting s w) : s.bosun.bundle = [] := by
  obtain ⟨-, -, -, -, -, hb⟩ := h
  exact hb

/-- A wait that ends with the copies become `c`. -/
theorem ended_over {z : State} (hb : z.bosun.bundle = []) (c : Core) (b : Bool) :
    ((z.setCore c).ended b).bundled [] = waitOver z (onward b c) := by
  unfold ended waitOver bundled withBosun setCore core
  dsimp only
  rw [hb]

theorem bosunWaitEnd_eq (h : Spec.waiting s w) :
    s.bosunWaitEnd = if (s.waitDone w).isSome then
      lockstep (fun s => match s.waitDone w with | some r => endIns w.kind.barred r | none => s) s else s := by
  obtain ⟨hw, hrun, hcap, ht, -⟩ := h
  unfold bosunWaitEnd
  rw [hw, hrun, hcap, ht]
  dsimp only
  rw [Bool.or_false]
  rfl

/-- A wait's end for copies that agree. -/
theorem bosunWaitEnd_done (h : Spec.waiting s w) {z : State} {c : Core} (hd : s.waitDone w = some (.done (z.setCore c)))
    (hz : z.bosun = s.bosun) : exec .bosunWaitEnd s = .next (waitOver z (onward w.kind.barred c)) := by
  have he := bosunWaitEnd_eq h
  obtain ⟨-, -, -, ht, hdiv, hb⟩ := h
  have hf : (match s.waitDone w with | some r => endIns w.kind.barred r | none => s) = (z.setCore c).ended w.kind.barred := by
    rw [hd]
    exact endIns_done _ _
  refine congrArg Host.Outcome.next (he.trans ?_)
  rw [if_pos (by rw [hd]; rfl), lockstep_agree ht (by rw [hf]; exact (congrArg Bosun.diverge hz).trans hdiv), hf,
    ended_over ((congrArg Bosun.bundle hz).trans hb)]

theorem bosunWaitEnd_still (h : Spec.waiting s w) (hd : s.waitDone w = none) : exec .bosunWaitEnd s = .next s := by
  refine congrArg Host.Outcome.next ((bosunWaitEnd_eq h).trans ?_)
  rw [hd]
  exact if_neg nofun

/-- The register that a wait names. -/
theorem toNat_rd {r : Nat} (h : r < 32) : (BitVec.ofNat 5 r).toNat = r := by
  rw [BitVec.toNat_ofNat]
  exact Nat.mod_eq_of_lt h

/-- A wait on a Bell that has been satisfied. -/
theorem waitDone_sat (hk : w.kind = .ge ∨ w.kind = .eq) (hrd : w.rd < 32) (hs : w.sat = true) :
    s.waitDone w = some (.done (s.setCore (s.core.setReg w.rd 0))) := by
  have hset : s.setBw (BitVec.ofNat 5 w.rd) 0 = s.setCore (s.core.setReg w.rd 0) := by rw [setBw, toNat_rd hrd]
  unfold waitDone
  rcases hk with hk | hk
  · rw [hk]
    dsimp only
    rw [if_pos hs, hset]
  · rw [hk]
    dsimp only
    rw [if_pos hs, hset]

theorem waitDone_unsat (hk : w.kind = .ge ∨ w.kind = .eq) (hs : w.sat = false) : s.waitDone w = none := by
  unfold waitDone
  rcases hk with hk | hk
  · rw [hk]
    exact if_neg (ne_true_of_eq_false hs)
  · rw [hk]
    exact if_neg (ne_true_of_eq_false hs)

theorem waitDone_wfi (hk : w.kind = .wfi) :
    s.waitDone w = if s.ienabled ≠ 0 then some (.done (s.setCore s.core)) else none := by
  unfold waitDone
  rw [hk]
  rfl

theorem waitDone_sum (hk : w.kind = .sum) :
    s.waitDone w = (s.sumPop w.sel (BitVec.ofNat 5 w.rd) (BitVec.ofNat 5 w.rd2)).map .done := by
  unfold waitDone
  rw [hk]

theorem waitDone_entry (hk : w.kind = .sum) (hrd : w.rd < 32) (hrd2 : w.rd2 < 32) (hb : s.bosun.bundle = []) {a b : Word}
    {rest : List (Word × Word)} (hf : s.fifo w.sel = (a, b) :: rest) :
    s.waitDone w = some (.done ((s.summaryTaken w.sel).setCore ((s.core.setReg w.rd a).setReg w.rd2 b))) := by
  have hp := sumPop_cons (rd := BitVec.ofNat 5 w.rd) (rb := BitVec.ofNat 5 w.rd2) hf []
  rw [bundled_same hb, toNat_rd hrd, toNat_rd hrd2, bundled_same (s := s.summaryTaken w.sel) hb] at hp
  rw [waitDone_sum hk, hp]
  rfl

/-- A copy whose BS_WAIT_TMO is `first` ends its wait with effect `g`. -/
def late (first : Nat) (g : State → State) (s : State) : State :=
  if s.bsf BS_WAIT_TMO 0 16 = first then endIns true (.done (g s)) else s

/-- The shorter of two timeouts that agree. -/
theorem shorter_self (n : Nat) : (if n = 0 then n else if n = 0 then n else min n n) = n := by
  rw [min_self, ite_self, ite_self]

theorem bosunWaitTimeout_eq (h : Spec.waiting s w) : s.bosunWaitTimeout =
    if (decide (s.bsf BS_WAIT_TMO 0 16 ≠ 0) && (s.waitDone w).isNone) = true then
      match w.kind with
      | .sum => lockstep (late (s.bsf BS_WAIT_TMO 0 16) fun s => s.sumEmpty (BitVec.ofNat 5 w.rd) (BitVec.ofNat 5 w.rd2)) s
      | .ge => lockstep (late (s.bsf BS_WAIT_TMO 0 16) fun s => s.setBw (BitVec.ofNat 5 w.rd) 1) s
      | .eq => lockstep (late (s.bsf BS_WAIT_TMO 0 16) fun s => s.setBw (BitVec.ofNat 5 w.rd) 1) s
      | _ => s
    else s := by
  obtain ⟨hw, hrun, hcap, ht, -⟩ := h
  unfold bosunWaitTimeout
  rw [hw, hrun, hcap, ht]
  dsimp only
  rw [shorter_self]
  rfl

/-- A timeout of copies that agree (14 R617, R618). -/
theorem lockstep_late (h : Spec.waiting s w) {g : State → State} {c : Core} (hg : g s = s.setCore c) :
    lockstep (late (s.bsf BS_WAIT_TMO 0 16) g) s = waitOver s (onward true c) := by
  obtain ⟨-, -, -, ht, hdiv, hb⟩ := h
  have hf : late (s.bsf BS_WAIT_TMO 0 16) g s = (s.setCore c).ended true := by
    rw [late, if_pos rfl, hg, endIns_done]
  rw [lockstep_agree ht (by rw [hf]; exact hdiv), hf, ended_over hb]

theorem bosunWaitTimeout_bell (h : Spec.waiting s w) (hk : w.kind = .ge ∨ w.kind = .eq) (hrd : w.rd < 32)
    (hd : s.waitDone w = none) (ht : s.bsf BS_WAIT_TMO 0 16 ≠ 0) :
    exec .bosunWaitTimeout s = .next (waitOver s (onward true (s.core.setReg w.rd 1))) := by
  have hg : s.setBw (BitVec.ofNat 5 w.rd) 1 = s.setCore (s.core.setReg w.rd 1) := by rw [setBw, toNat_rd hrd]
  refine congrArg Host.Outcome.next ((bosunWaitTimeout_eq h).trans ?_)
  rw [hd, decide_eq_true ht]
  rcases hk with hk | hk
  · rw [hk]
    exact lockstep_late h hg
  · rw [hk]
    exact lockstep_late h hg

theorem bosunWaitTimeout_sum (h : Spec.waiting s w) (hk : w.kind = .sum) (hrd : w.rd < 32) (hrd2 : w.rd2 < 32)
    (hd : s.waitDone w = none) (ht : s.bsf BS_WAIT_TMO 0 16 ≠ 0) : exec .bosunWaitTimeout s =
      .next (waitOver s (onward true ((s.core.setReg w.rd 0).setReg w.rd2 (Word.nat 0x80000000)))) := by
  have hg : s.sumEmpty (BitVec.ofNat 5 w.rd) (BitVec.ofNat 5 w.rd2) =
      s.setCore ((s.core.setReg w.rd 0).setReg w.rd2 (Word.nat 0x80000000)) := by
    have he : s.sumEmpty (BitVec.ofNat 5 w.rd) (BitVec.ofNat 5 w.rd2) = s.setCore ((s.core.setReg (BitVec.ofNat 5 w.rd).toNat 0).setReg
      (BitVec.ofNat 5 w.rd2).toNat (Word.nat 0x80000000)) := rfl
    rw [he, toNat_rd hrd, toNat_rd hrd2]
  refine congrArg Host.Outcome.next ((bosunWaitTimeout_eq h).trans ?_)
  rw [hd, decide_eq_true ht, hk]
  exact lockstep_late h hg

/-- No timeout while BS_WAIT_TMO is 0. -/
theorem bosunWaitTimeout_never (h : Spec.waiting s w) (ht : s.bsf BS_WAIT_TMO 0 16 = 0) :
    exec .bosunWaitTimeout s = .next s := by
  refine congrArg Host.Outcome.next ((bosunWaitTimeout_eq h).trans ?_)
  rw [ht]
  exact if_neg nofun

theorem bosunWaitTimeout_wfi (h : Spec.waiting s w) (hk : w.kind = .wfi) : exec .bosunWaitTimeout s = .next s := by
  obtain ⟨hw, -⟩ := h
  refine congrArg Host.Outcome.next ?_
  unfold bosunWaitTimeout
  rw [hw]
  dsimp only
  rw [hk]
  exact ite_self _

theorem bosunWait_none (h : s.bosun.wait = none) : exec .bosunWaitEnd s = .next s ∧ exec .bosunWaitTimeout s = .next s := by
  refine ⟨congrArg Host.Outcome.next ?_, congrArg Host.Outcome.next ?_⟩
  · unfold bosunWaitEnd
    rw [h]
  · unfold bosunWaitTimeout
    rw [h]

end Waiting

/-! ### An exception's frame (15 R648, R649) -/

/-- The words of an undamaged RAM read as before, but for those that `l` covers. -/
theorem peekWord_poke_ne {s : State} (hwf : Memory.wf s.mem = true) (a : Nat) (l : List Byte) {b : Nat}
    (h : b + 4 ≤ a ∨ a + l.length ≤ b) : (s.poke a l).peekWord b = s.peekWord b := by
  have hrun : Store.getRun 0 (Store.setRun 0 s.mem a l) b 4 = Store.getRun 0 s.mem b 4 := by
    refine List.ext_getElem? fun i => ?_
    by_cases hi : i < 4
    · rw [Store.getElem?_getRun 0 (Store.wf_setRun 0 hwf a l) b 4 i hi, Store.getElem?_getRun 0 hwf b 4 i hi,
        Store.get_setRun_out 0 s.mem a l (by omega)]
    · rw [List.getElem?_eq_none (by rw [Store.length_getRun]; omega), List.getElem?_eq_none (by rw [Store.length_getRun]; omega)]
  unfold peekWord peek
  rw [poke_mem, hrun]

theorem peekWord_poke_self {s : State} (hwf : Memory.wf s.mem = true) {a : Nat} (ha : a < 0xF0000000) (v : Nat) :
    (s.poke a (leBytes 4 v)).peekWord a = Word.nat v := by
  have hp := peek_poke s a (leBytes 4 v) hwf ha
  rw [length_leBytes] at hp
  rw [peekWord, hp, leWord, leNat_leBytes]
  refine BitVec.eq_of_toNat_eq ?_
  rw [Word.nat, BitVec.toNat_ofNat, BitVec.toNat_ofNat, Nat.mod_mod_of_dvd v (by decide)]

/-- The four words of a frame at `b`. -/
def framed (s : State) (b w0 w1 w2 w3 : Nat) : State :=
  (((s.poke b (leBytes 4 w0)).poke (b + 4) (leBytes 4 w1)).poke (b + 8) (leBytes 4 w2)).poke (b + 12) (leBytes 4 w3)

theorem framed_memKeptBut (s : State) (b w0 w1 w2 w3 : Nat) : memKeptBut s (s.framed b w0 w1 w2 w3) b 16 := by
  intro a ha
  unfold framed
  rw [byteAt_poke_out, byteAt_poke_out, byteAt_poke_out, byteAt_poke_out]
  all_goals
    rw [length_leBytes]
    omega

/-- The state with another memory. -/
def withMem (s : State) (m : List (Nat × Byte)) : State := { s with mem := m }

theorem poke_eq (s : State) (a : Nat) (l : List Byte) : s.poke a l = s.withMem (Store.setRun 0 s.mem a l) := rfl
theorem poke_withMem (s : State) (m : List (Nat × Byte)) (a : Nat) (l : List Byte) :
    (s.withMem m).poke a l = s.withMem (Store.setRun 0 m a l) := rfl

theorem core_withMem (s : State) (m : List (Nat × Byte)) (l : List Nat) : ((s.withMem m).bundled l).core = s.core := rfl
theorem part_withMem (s : State) (m : List (Nat × Byte)) (l : List Nat) : ((s.withMem m).bundled l).part = s.part := rfl

theorem framed_frame (s : State) (b w0 w1 w2 w3 : Nat) :
    s.framed b w0 w1 w2 w3 = s.withMem (s.framed b w0 w1 w2 w3).mem := by
  unfold framed
  rw [poke_eq s, poke_withMem, poke_withMem, poke_withMem]
  rfl

theorem peekWord_framed {s : State} (hwf : Memory.wf s.mem = true) {b : Nat} (hb : b + 16 ≤ 0xF0000000) (w0 w1 w2 w3 : Nat) :
    (s.framed b w0 w1 w2 w3).peekWord b = Word.nat w0 ∧ (s.framed b w0 w1 w2 w3).peekWord (b + 4) = Word.nat w1 ∧
    (s.framed b w0 w1 w2 w3).peekWord (b + 8) = Word.nat w2 ∧ (s.framed b w0 w1 w2 w3).peekWord (b + 12) = Word.nat w3 := by
  have h1 : Memory.wf (s.poke b (leBytes 4 w0)).mem = true := poke_memWf _ _ _ hwf
  have h2 : Memory.wf ((s.poke b (leBytes 4 w0)).poke (b + 4) (leBytes 4 w1)).mem = true := poke_memWf _ _ _ h1
  have h3 : Memory.wf (((s.poke b (leBytes 4 w0)).poke (b + 4) (leBytes 4 w1)).poke (b + 8) (leBytes 4 w2)).mem = true :=
    poke_memWf _ _ _ h2
  have hlen : ∀ v, (leBytes 4 v).length = 4 := length_leBytes 4
  unfold framed
  refine ⟨?_, ?_, ?_, peekWord_poke_self h3 (by omega) w3⟩
  · rw [peekWord_poke_ne h3 _ _ (by omega), peekWord_poke_ne h2 _ _ (by omega), peekWord_poke_ne h1 _ _ (by omega),
      peekWord_poke_self hwf (by omega)]
  · rw [peekWord_poke_ne h3 _ _ (by omega), peekWord_poke_ne h2 _ _ (by omega), peekWord_poke_self h1 (by omega)]
  · rw [peekWord_poke_ne h3 _ _ (by omega), peekWord_poke_self h2 (by omega)]

/-- The memory that holds frames. -/
theorem spaceOf_dtcm (p : Part) {a : Nat} (hlo : 0x61000000 ≤ a) (hhi : a < 0x61010000) : spaceOf p a = .dtcm := by
  have hg : p.granary ≤ 0x4000000 := by
    unfold Part.granary Part.stackCount
    cases p.variant <;> decide
  unfold spaceOf
  rw [if_neg (by omega), if_neg (by omega), if_neg (by omega), if_neg (by omega), if_neg (by omega), if_neg (by omega),
    if_neg (by omega), if_neg (by omega), if_neg (by omega), if_neg (by omega), if_pos hhi]

/-- A frame word pushed on undamaged memory. -/
theorem pushWord_clean {s : State} {a : Nat} (hlo : 0x61000000 ≤ a) (hhi : a < 0x61010000) (hd : s.damaged a 4 = [])
    (hi : s.inject = none) (l : List Nat) (v : Nat) : ∃ m, (s.bundled l).pushWord a v = (s.poke a (leBytes 4 v)).bundled m := by
  refine ⟨(((s.bundled l).emitData 4 a (some v))).bosun.bundle, ?_⟩
  have hsp : spaceOf ((s.bundled l).emitData 4 a (some v)).part a = .dtcm := spaceOf_dtcm _ hlo hhi
  have hlen : (leBytes 4 v).length = 4 := length_leBytes 4 v
  have hcn : ∀ i < (leBytes 4 v).length, ((s.bundled l).emitData 4 a (some v)).cnShut (a + i) = false := fun i _ => by
    have hin : inCn (a + i) = false := by
      simp only [inCn, Bool.and_eq_false_iff, decide_eq_false_iff_not]
      omega
    rw [cnShut, hin]
    rfl
  have hw := eccWrite_clean ((s.bundled l).emitData 4 a (some v)) srcBosun a (leBytes 4 v)
    (List.ne_nil_of_length_pos (by rw [hlen]; decide)) (by rw [hlen]; exact hd) hcn hi
  unfold pushWord performAt
  rw [hsp]
  dsimp only
  rw [hw]
  rfl

theorem pushWords_clean {s : State} {b : Nat} (hlo : 0x61000000 ≤ b) (hhi : b + 16 ≤ 0x61010000) (hd : s.damaged b 16 = [])
    (hi : s.inject = none) (l : List Nat) (w0 w1 w2 w3 : Nat) : ∃ m,
    ((((s.bundled l).pushWord b w0).pushWord (b + 4) w1).pushWord (b + 8) w2).pushWord (b + 12) w3 =
      (s.framed b w0 w1 w2 w3).bundled m := by
  have hdam : ∀ k, k ≤ 12 → s.damaged (b + k) 4 = [] := fun k hk => damaged_within hd (by omega) (by omega)
  obtain ⟨m0, h0⟩ := pushWord_clean hlo (by omega) (hdam 0 (by decide)) hi l w0
  obtain ⟨m1, h1⟩ := pushWord_clean (s := s.poke b (leBytes 4 w0)) (a := b + 4) (by omega) (by omega) (hdam 4 (by decide)) hi m0 w1
  obtain ⟨m2, h2⟩ := pushWord_clean (s := (s.poke b (leBytes 4 w0)).poke (b + 4) (leBytes 4 w1)) (a := b + 8) (by omega) (by omega)
    (hdam 8 (by decide)) hi m1 w2
  obtain ⟨m3, h3⟩ := pushWord_clean
    (s := ((s.poke b (leBytes 4 w0)).poke (b + 4) (leBytes 4 w1)).poke (b + 8) (leBytes 4 w2)) (a := b + 12) (by omega)
    (by omega) (hdam 12 (by decide)) hi m2 w3
  exact ⟨m3, by rw [h0, h1, h2, h3, framed]⟩

/-! ### Exception entry (15 R649) -/

/-- The fields of STATUS as entry leaves it. -/
theorem fld_entryStatus (v : Word) {mode ie bd mcp : Nat} (hm : mode < 2) (hi : ie < 2) (hb : bd < 2) :
    let x := entryStatus v (mode * 4 + ie * 8 + bd * 16 + mcp * 32) false
    fld x 0 2 = 0 ∧ fld x 2 1 = mode ∧ fld x 3 1 = ie ∧ fld x 4 1 = bd ∧ fld x 5 2 = mcp % 4 ∧ fld x 7 1 = 0 := by
  intro x
  have hlow : fld x 0 2 = 0 := by
    refine (fld_putFld_ne _ _ _ _ _ _ (by decide)).trans ((fld_putFld_ne _ _ _ _ _ _ (by decide)).trans ?_)
    exact fld_putFld_self _ _ _ _ (by decide)
  have hmid : fld x 2 5 = (mode * 4 + ie * 8 + bd * 16 + mcp * 32) / 4 % 2 ^ 5 :=
    (fld_putFld_ne _ _ _ _ _ _ (by decide)).trans (fld_putFld_self _ _ _ _ (by decide))
  have hesv : fld x 7 1 = 0 := fld_putFld_self _ _ _ _ (by decide)
  unfold fld at hlow hmid hesv ⊢
  generalize x.toNat = n at *
  omega

/-- Entry leaves Keeper mode. -/
theorem fld_entryStatus_mode (v : Word) (image : Nat) (esv : Bool) : fld (entryStatus v image esv) 0 1 = 0 := by
  have hlow : fld (entryStatus v image esv) 0 2 = 0 :=
    (fld_putFld_ne _ _ _ _ _ _ (by decide)).trans ((fld_putFld_ne _ _ _ _ _ _ (by decide)).trans
      (fld_putFld_self _ _ _ _ (by decide)))
  unfold fld at hlow ⊢
  omega

/-- The copy that enters an exception with `sp` its new stack pointer. -/
def enteredCore (c : Core) (sp : Word) (image cause : Nat) (epc bad : Word) (vec : Nat) : Core :=
  let d := (((c.setReg 30 sp).csrPut BS_CAUSE (Word.nat cause)).csrPut BS_BADADDR bad).csrPut BS_EPC epc
  { d.csrPut BS_STATUS (entryStatus (c.csrGet BS_STATUS) image false) with
    pc := c.csrGet BS_EVEC + Word.nat vec, delay := none, shadow := 0, entered := true }

theorem csrGet_enteredCore (c : Core) (sp : Word) (image cause : Nat) (epc bad : Word) (vec : Nat) :
    let d := enteredCore c sp image cause epc bad vec
    d.csrGet BS_STATUS = entryStatus (c.csrGet BS_STATUS) image false ∧ d.csrGet BS_CAUSE = Word.nat cause ∧
    d.csrGet BS_BADADDR = bad ∧ d.csrGet BS_EPC = epc ∧
    ∀ n, n ∉ [BS_STATUS, BS_EPC, BS_CAUSE, BS_BADADDR] → d.csrGet n = c.csrGet n := by
  let e := (((c.setReg 30 sp).csrPut BS_CAUSE (Word.nat cause)).csrPut BS_BADADDR bad).csrPut BS_EPC epc
  have hget : ∀ n, (enteredCore c sp image cause epc bad vec).csrGet n =
    (e.csrPut BS_STATUS (entryStatus (c.csrGet BS_STATUS) image false)).csrGet n := fun _ => rfl
  refine ⟨?_, ?_, ?_, ?_, fun n hn => ?_⟩
  · rw [hget, Core.csrGet_csrPut_self]
  · rw [hget, Core.csrGet_csrPut_ne _ _ (by decide), Core.csrGet_csrPut_ne _ _ (by decide),
      Core.csrGet_csrPut_ne _ _ (by decide), Core.csrGet_csrPut_self]
  · rw [hget, Core.csrGet_csrPut_ne _ _ (by decide), Core.csrGet_csrPut_ne _ _ (by decide), Core.csrGet_csrPut_self]
  · rw [hget, Core.csrGet_csrPut_ne _ _ (by decide), Core.csrGet_csrPut_self]
  · simp only [List.mem_cons, List.not_mem_nil, or_false, not_or] at hn
    obtain ⟨hs, hep, hca, hba⟩ := hn
    rw [hget, Core.csrGet_csrPut_ne _ _ hs, Core.csrGet_csrPut_ne _ _ hep, Core.csrGet_csrPut_ne _ _ hba,
      Core.csrGet_csrPut_ne _ _ hca, Core.csrGet_setReg]

theorem reg_enteredCore (c : Core) (sp : Word) (image cause : Nat) (epc bad : Word) (vec : Nat) :
    let d := enteredCore c sp image cause epc bad vec
    d.reg 30 = sp ∧ ∀ r, r ≠ 30 → d.reg r = c.reg r := by
  have hreg : ∀ r, (enteredCore c sp image cause epc bad vec).reg r = (c.setReg 30 sp).reg r := fun _ => rfl
  refine ⟨(hreg 30).trans (Core.reg_setReg_self c (by decide) sp), fun r h => (hreg r).trans (Core.reg_setReg_ne c sp h)⟩

theorem pc_enteredCore (c : Core) (sp : Word) (image cause : Nat) (epc bad : Word) (vec : Nat) :
    let d := enteredCore c sp image cause epc bad vec
    d.pc = c.csrGet BS_EVEC + Word.nat vec ∧ d.delay = none ∧ d.shadow = 0 ∧ d.entered = true := ⟨rfl, rfl, rfl, rfl⟩

/-- Keeper code may fetch from the ITCM and the ROM. -/
theorem fetchBars_keeper {s : State} {pc : Word} (hk : s.crew = false)
    (h : spaceOf s.part pc.toNat = .itcm ∨ spaceOf s.part pc.toNat = .rom) : s.fetchBars pc = none := by
  unfold fetchBars
  rcases h with h | h
  · rw [h, hk]
    rfl
  · rw [h, hk]
    rfl

/-- A frame that is good lies in the DTCM. -/
theorem frameOk_bounds {s : State} {sp : Nat} (h : s.frameOk sp = true) : 0x61000010 ≤ sp ∧ sp ≤ 0x61010000 := by
  simp only [frameOk, Bool.and_eq_true, decide_eq_true_eq] at h
  obtain ⟨⟨-, hlo⟩, hhi⟩ := h
  exact ⟨hlo, hhi⟩

theorem setBs_setCore (u : State) (c : Core) (n : Nat) (v : Word) : (u.setCore c).setBs n v = u.setCore (c.csrPut n v) := rfl
theorem bsv_setCore (u : State) (c : Core) (n : Nat) : (u.setCore c).bsv n = c.csrGet n := rfl
theorem setBw_sp (u : State) (v : Word) : u.setBw 30 v = u.setCore (u.core.setReg 30 v) := rfl

/-- Entry sets the copy's registers and goes to its vector, once the frame stands. -/
theorem enterExc_pushed {t u : State} {code sub : Nat} {epc : Word} {bd : Bool} {mcp : Nat} {bad : Word} (vec : Nat)
    (he : t.esv = false) (hf : t.frameOk (t.bw 30).toNat = true) (hu : ((((t.pushWord ((t.bw 30).toNat - 16)
      (t.frameImage bd mcp)).pushWord ((t.bw 30).toNat - 16 + 4) epc.toNat).pushWord ((t.bw 30).toNat - 16 + 8)
      (code + sub * 256)).pushWord ((t.bw 30).toNat - 16 + 12) bad.toNat) = u) :
    let d := (((u.core.setReg 30 (Word.nat ((t.bw 30).toNat - 16))).csrPut BS_CAUSE (Word.nat (code + sub * 256))).csrPut
      BS_BADADDR bad).csrPut BS_EPC epc
    t.enterExc code sub 0 epc bd mcp bad vec = (u.setCore
      (d.csrPut BS_STATUS (entryStatus (d.csrGet BS_STATUS) (t.frameImage bd mcp) false))).vectorTo vec := by
  unfold enterExc
  dsimp only
  rw [if_neg (ne_true_of_eq_false he), if_pos hf, Nat.zero_mul, Nat.add_zero (code + sub * 256), hu, setBw_sp,
    setBs_setCore, setBs_setCore, setBs_setCore, bsv_setCore, setBs_setCore]

/-- The vector of an entry can be fetched in Keeper mode. -/
theorem vectorTo_entered {u : State} {sp : Word} {image cause : Nat} {epc bad : Word} {vec : Nat}
    (hs : spaceOf u.part (u.bsv BS_EVEC + Word.nat vec).toNat = .itcm ∨
      spaceOf u.part (u.bsv BS_EVEC + Word.nat vec).toNat = .rom) :
    let d := (((u.core.setReg 30 sp).csrPut BS_CAUSE (Word.nat cause)).csrPut BS_BADADDR bad).csrPut BS_EPC epc
    (u.setCore (d.csrPut BS_STATUS (entryStatus (d.csrGet BS_STATUS) image false))).vectorTo vec =
      u.setCore (enteredCore u.core sp image cause epc bad vec) := by
  intro d
  have hget : ∀ n, n ≠ BS_EPC → n ≠ BS_BADADDR → n ≠ BS_CAUSE → d.csrGet n = u.core.csrGet n := fun n h1 h2 h3 => by
    rw [Core.csrGet_csrPut_ne _ _ h1, Core.csrGet_csrPut_ne _ _ h2, Core.csrGet_csrPut_ne _ _ h3, Core.csrGet_setReg]
  have hevec : (d.csrPut BS_STATUS (entryStatus (d.csrGet BS_STATUS) image false)).csrGet BS_EVEC = u.core.csrGet BS_EVEC := by
    rw [Core.csrGet_csrPut_ne _ _ (by decide), hget _ (by decide) (by decide) (by decide)]
  have hstatus : d.csrGet BS_STATUS = u.core.csrGet BS_STATUS := hget _ (by decide) (by decide) (by decide)
  have hcrew : (u.setCore (enteredCore u.core sp image cause epc bad vec)).crew = false := by
    have he : (u.setCore (enteredCore u.core sp image cause epc bad vec)).bsf BS_STATUS 0 1 = 0 := by
      rw [bsf, setCore_core, (csrGet_enteredCore _ _ _ _ _ _ _).1]
      exact fld_entryStatus_mode _ _ _
    rw [crew, he]
    rfl
  have hbars := fetchBars_keeper hcrew hs
  unfold vectorTo
  rw [bsv, setCore_core, hevec, hstatus]
  have hfold : ((u.setCore (d.csrPut BS_STATUS (entryStatus (u.core.csrGet BS_STATUS) image false))).setCore
      { (d.csrPut BS_STATUS (entryStatus (u.core.csrGet BS_STATUS) image false)) with
        pc := u.core.csrGet BS_EVEC + Word.nat vec, delay := none, shadow := 0, entered := true }) =
      u.setCore (enteredCore u.core sp image cause epc bad vec) := rfl
  dsimp only
  rw [hfold]
  have hbars' : (u.setCore (enteredCore u.core sp image cause epc bad vec)).fetchBars (u.core.csrGet BS_EVEC + Word.nat vec) = none :=
    hbars
  rw [hbars']

section Enter

variable {s : State} {vec : Nat} (h : canEnter s vec) (code sub : Nat) (epc : Word) (bd : Bool) (mcp : Nat) (bad : Word)
include h

/-- Entry with a good frame (15 R649). -/
theorem enterExc_clean (l : List Nat) : ∃ m, (s.bundled l).enterExc code sub 0 epc bd mcp bad vec =
    ((s.framed ((s.bw 30).toNat - 16) (s.frameImage bd mcp) epc.toNat (code + sub * 256) bad.toNat).bundled m).setCore
      (enteredCore s.core (Word.nat ((s.bw 30).toNat - 16)) (s.frameImage bd mcp) (code + sub * 256) epc bad vec) := by
  obtain ⟨hesv, hframe, hdam, hinj, -, hspace⟩ := h
  obtain ⟨hlo, hhi⟩ := frameOk_bounds hframe
  obtain ⟨m, hpush⟩ := pushWords_clean (b := (s.bw 30).toNat - 16) (by omega) (by omega) hdam hinj l (s.frameImage bd mcp)
    epc.toNat (code + sub * 256) bad.toNat
  have hbw : (s.bundled l).bw 30 = s.bw 30 := rfl
  have himage : (s.bundled l).frameImage bd mcp = s.frameImage bd mcp := rfl
  have hesv : (s.bundled l).esv = false := hesv
  have hframe : (s.bundled l).frameOk (s.bw 30).toNat = true := hframe
  have hcore : ((s.framed ((s.bw 30).toNat - 16) (s.frameImage bd mcp) epc.toNat (code + sub * 256) bad.toNat).bundled m).core =
    s.core := by rw [framed_frame, core_withMem]
  have hpart : ((s.framed ((s.bw 30).toNat - 16) (s.frameImage bd mcp) epc.toNat (code + sub * 256) bad.toNat).bundled m).part =
    s.part := by rw [framed_frame, part_withMem]
  refine ⟨m, ?_⟩
  generalize (s.framed ((s.bw 30).toNat - 16) (s.frameImage bd mcp) epc.toNat (code + sub * 256) bad.toNat).bundled m = u at *
  generalize s.bundled l = t at *
  have henter := enterExc_pushed (t := t) (u := u) (code := code) (sub := sub) (epc := epc) (bd := bd) (mcp := mcp) (bad := bad)
    vec hesv
  have hvec := vectorTo_entered (u := u) (sp := Word.nat ((s.bw 30).toNat - 16)) (image := s.frameImage bd mcp)
    (cause := code + sub * 256) (epc := epc) (bad := bad) (vec := vec)
  rw [hbw, himage] at henter
  rw [bsv, hpart, hcore] at hvec
  have henter := henter hframe hpush
  rw [hcore] at henter
  exact henter.trans (hvec hspace)

/-- What entry from `s`, at an end of an instruction, leaves (15 R649). -/
theorem entered_enterExc (hw : s.bosun.wait = none) (hb : s.bosun.bundle = []) (l : List Nat) :
    Spec.entered s (((s.bundled l).enterExc code sub 0 epc bd mcp bad vec).bundled []) (code + sub * 256) epc bd mcp bad vec := by
  obtain ⟨m, henter⟩ := enterExc_clean h code sub epc bd mcp bad l
  obtain ⟨-, hframe, -, -, hwf, -⟩ := h
  obtain ⟨hlo, hhi⟩ := frameOk_bounds hframe
  have hb4 : (s.bw 30).toNat - 12 = (s.bw 30).toNat - 16 + 4 := by omega
  have hb8 : (s.bw 30).toNat - 8 = (s.bw 30).toNat - 16 + 8 := by omega
  have hb12 : (s.bw 30).toNat - 4 = (s.bw 30).toNat - 16 + 12 := by omega
  have hsp : Word.nat ((s.bw 30).toNat - 16) = s.bw 30 - 16 := by
    refine BitVec.eq_of_toNat_eq ?_
    rw [Word.nat, BitVec.toNat_ofNat, BitVec.toNat_sub]
    have h16 : (16 : Word).toNat = 16 := rfl
    rw [h16]
    omega
  have hkept := framed_memKeptBut s ((s.bw 30).toNat - 16) (s.frameImage bd mcp) epc.toNat (code + sub * 256) bad.toNat
  obtain ⟨p0, p4, p8, p12⟩ := peekWord_framed hwf (b := (s.bw 30).toNat - 16) (by omega) (s.frameImage bd mcp) epc.toNat
    (code + sub * 256) bad.toNat
  obtain ⟨hstatus, hcause, hbad, hepc, hcsr⟩ :=
    csrGet_enteredCore s.core (Word.nat ((s.bw 30).toNat - 16)) (s.frameImage bd mcp) (code + sub * 256) epc bad vec
  obtain ⟨hsp30, hregs⟩ :=
    reg_enteredCore s.core (Word.nat ((s.bw 30).toNat - 16)) (s.frameImage bd mcp) (code + sub * 256) epc bad vec
  obtain ⟨f0, f2, f3, f4, f5, f7⟩ := fld_entryStatus (s.core.csrGet BS_STATUS) (mcp := mcp)
    (fld_lt (s.core.csrGet BS_STATUS) 0 1) (fld_lt (s.core.csrGet BS_STATUS) 1 1) (bd := b2n bd) (by cases bd <;> decide)
  have hpc := pc_enteredCore s.core (Word.nat ((s.bw 30).toNat - 16)) (s.frameImage bd mcp) (code + sub * 256) epc bad vec
  obtain ⟨hpc, hdelay, hshadow, hent⟩ := hpc
  have hfmem := framed_frame s ((s.bw 30).toNat - 16) (s.frameImage bd mcp) epc.toNat (code + sub * 256) bad.toNat
  rw [henter]
  generalize s.framed ((s.bw 30).toNat - 16) (s.frameImage bd mcp) epc.toNat (code + sub * 256) bad.toNat = f at *
  generalize enteredCore s.core (Word.nat ((s.bw 30).toNat - 16)) (s.frameImage bd mcp) (code + sub * 256) epc bad vec = d at *
  have hstatus : d.csrGet BS_STATUS = entryStatus (s.core.csrGet BS_STATUS)
    (fld (s.core.csrGet BS_STATUS) 0 1 * 4 + fld (s.core.csrGet BS_STATUS) 1 1 * 8 + b2n bd * 16 + mcp * 32) false := hstatus
  rw [← hstatus] at f0 f2 f3 f4 f5 f7
  refine ⟨?_, hkept, p0, ?_, ?_, ?_, hsp30.trans hsp, fun r hr => hregs r.toNat ?_, hpc, hdelay, hshadow, hent, hcause, hbad, hepc,
    f0, f2, f3, f4, f5, f7, hcsr⟩
  · unfold bundled withBosun setCore core
    dsimp only
    rw [hfmem]
    unfold withMem
    dsimp only
    rw [hw, hb]
  · rw [hb4]
    exact p4.trans (by simp [Word.nat])
  · rw [hb8]
    exact p8
  · rw [hb12]
    exact p12.trans (by simp [Word.nat])
  · exact fun he => hr (BitVec.eq_of_toNat_eq he)

end Enter

/-! ### The exception of the instruction at PC (15 R654) -/

theorem trapped_trap {s : State} (h : canEnter s 0x080) (hw : s.bosun.wait = none) (hb : s.bosun.bundle = []) (l : List Nat)
    (code sub : Nat) (bad : Word) : trapped s (((s.bundled l).trap code sub bad).bundled []) code sub bad := by
  have hc : (s.bundled l).core = s.core := rfl
  unfold trap trapped
  rw [hc]
  dsimp only
  split
  · next br x _ => exact entered_enterExc h code sub br true s.core.shadow bad hw hb l
  · exact entered_enterExc h code sub s.core.pc false s.core.shadow bad hw hb l

theorem trapped_bosun {s t : State} {code sub : Nat} {bad : Word} (h : trapped s t code sub bad) :
    t.bosun = { s.bosun with core := t.core, wait := none } := by
  unfold trapped Spec.entered at h
  split at h
  · exact congrArg State.bosun h.1
  · exact congrArg State.bosun h.1

/-- An instruction that raises an exception. -/
theorem bosunRun_exc {s : State} {i : BIns} (h : bosunAt s i) {want : BIns → Bool} (hi : want i = true) (he : canEnter s 0x080)
    {l : List Nat} {code sub : Nat} {bad : Word}
    (hx : s.fetched.execIns (s.peekWord s.core.pc.toNat) i = .exc (s.bundled l) code sub bad) :
    trapped s (s.bosunRun want) code sub bad := by
  obtain ⟨hw, -⟩ := ready_of_at h
  obtain ⟨hd, hb⟩ := still_of_at h
  have hwait : { s.bundled l with bosun := { (s.bundled l).bosun with wait := none } } = s.bundled l := by
    unfold bundled withBosun
    dsimp only
    rw [hw]
  have hs : s.stepCopy = (s.bundled l).trap code sub bad := by
    rw [stepCopy_at h, hx, ← hwait]
    rfl
  have ht := trapped_trap he hw hb l code sub bad
  rw [← hs] at ht
  have hdiv : s.stepCopy.bosun.diverge = none := (congrArg Bosun.diverge (trapped_bosun ht)).trans hd
  rw [bosunRun_at h hi hdiv]
  exact ht

/-- TACK in Crew mode (14 R592). -/
theorem exec_tack_crew {s : State} {rd : Reg} (h : bosunAt s (.tack rd)) (hc : s.crew = true) (he : canEnter s 0x080) :
    ∃ t, exec .tack s = .next t ∧ trapped s t 3 0 (s.peekWord s.core.pc.toNat) := by
  have hx : s.fetched.execIns (s.peekWord s.core.pc.toNat) (.tack rd) = .exc s.fetched 3 0 (s.peekWord s.core.pc.toNat) :=
    if_pos (show s.fetched.crew = true from hc)
  exact ⟨_, rfl, bosunRun_exc h rfl he hx⟩

end Sys2Proof.Machine.State

namespace Sys2Proof

open Machine Machine.State Spec

/-- Settles O49: each instruction by its effect once the copies have fetched, and each wait by its kind. -/
theorem bosunReachesTheCapstan : Obligations.BosunReachesTheCapstan := by
  refine ⟨fun s i h => ⟨?_, ?_, ?_, ?_, ?_, ?_, ?_, ?_⟩, fun s w h hrd hrd2 => ⟨fun hk => ⟨fun hs => ?_, fun hs => ?_⟩,
    fun hk => ?_, fun hk => ?_⟩, fun s h => bosunWait_none h⟩
  · rintro rd ra rb n tail code rfl hs hn ht rfl
    refine ⟨fun hc => exec_post_refused h hs hn ht hc, fun hc => ?_⟩
    obtain ⟨y, hexec, hfollows⟩ := exec_post_taken h hs hn ht hc
    rw [hc]
    exact ⟨_, y, hexec, hfollows, ringSet_setRing s _ (by rw [hn]; exact Nat.mod_lt _ (by decide))⟩
  · rintro ra rb set hs rfl
    exact exec_bell h hs
  · rintro rd ra rfl
    exact exec_bellrd h
  · rintro rd rfl hs
    exact ⟨fun hk hd hh hwf => exec_tack_starts h hs hk hd hh hwf, fun hk hd => exec_tack_pending h hs hk hd,
      fun hc he => exec_tack_crew h hc he⟩
  · rintro ra rfl hs
    exact exec_hsig h hs
  · rintro rd ra rb eq rfl
    exact exec_bellWait h
  · rintro rd rb sh nb rfl
    exact ⟨fun a b rest hf => exec_sumrd_entry h hf, fun hf hnb => (exec_sumrd_empty h hf).1 hnb,
      fun hf hnb => (exec_sumrd_empty h hf).2 hnb⟩
  · rintro rfl
    exact exec_wfi h
  · have hb : w.kind.barred = true := by rcases hk with hk | hk <;> rw [hk] <;> rfl
    have he := bosunWaitEnd_done h (waitDone_sat hk hrd hs) rfl
    rwa [hb] at he
  · have hd := waitDone_unsat (s := s) hk hs
    exact ⟨bosunWaitEnd_still h hd, fun ht => bosunWaitTimeout_bell h hk hrd hd ht, fun ht => bosunWaitTimeout_never h ht⟩
  · have hd := waitDone_wfi (s := s) hk
    have hb : w.kind.barred = true := by rw [hk]; rfl
    refine ⟨bosunWaitTimeout_wfi h hk, fun hi => ?_, fun hi => ?_⟩
    · rw [if_pos hi] at hd
      have he := bosunWaitEnd_done h hd rfl
      rwa [hb] at he
    · rw [if_neg (not_not.2 hi)] at hd
      exact bosunWaitEnd_still h hd
  · have hb : w.kind.barred = true := by rw [hk]; rfl
    refine ⟨fun a b rest hf => ?_, fun hf => ?_⟩
    · have he := bosunWaitEnd_done h (waitDone_entry hk hrd hrd2 (bundle_of_waiting h) hf) rfl
      rw [hb] at he
      obtain ⟨hself, hother⟩ := fifo_summaryTaken s w.sel
      exact ⟨_, he, rfl, hself.trans (by rw [hf]; rfl), hother⟩
    · have hd : s.waitDone w = none := by rw [waitDone_sum hk, sumPop_nil hf]; rfl
      exact ⟨bosunWaitEnd_still h hd, fun ht => bosunWaitTimeout_sum h hk hrd hrd2 hd ht⟩

end Sys2Proof
end
